-- ==== Sys2Proof/Word.lean ====
section
/-! DEFINITION. The plain names of the model's words, of the register-page classes (R81), of the cores
(R21), of the requesters of a register access (R78) and of the status codes (R103). -/

namespace Sys2Proof

abbrev Byte := BitVec 8
abbrev Half := BitVec 16
abbrev Word := BitVec 32
abbrev DWord := BitVec 64

/-- The partitions PT0 to PT15 (R28). -/
abbrev Part := Fin 16

/-- The sparse maps of the state: keys rising, no entry equal to what an absent key reads as. -/
abbrev SMap (α : Type) := List (Nat × α)

/-- The block classes of the page map (R81), in ascending class code. -/
inductive Cls
  | device | tick | ptp
  | m | v | a | l | f | t | c | fxch
  | tally
  | gallery | drift | seam | keeper | hoist
  | part | ring | mailbox | attest
  | fireboss | vuvon
  | pcie | tsn | eth | aphy | can | plca | spi
  | dump | bank | test
  deriving DecidableEq, Repr

/-- One 4 KiB register page: a block class and the instance within it (R81). -/
structure Page where
  cls  : Cls
  inst : Nat
  deriving DecidableEq, Repr

/-- The seven core classes (R16, R21). -/
inductive CoreCls | m | v | a | l | f | t | c
  deriving DecidableEq, Repr

/-- One core: M0 to M7, V0 to V31, A0 to A7, L0 to L3, F0 to F3, T0 and T1, C0 and C1 (R16). -/
structure CoreId where
  cls  : CoreCls
  inst : Nat
  deriving DecidableEq, Repr

/-- The two stacks (R19). -/
inductive Stack | w | e
  deriving DecidableEq, Repr

/-- Who makes a register access (R78): a PCIe function, which is a partition; Lamphouse carrying out a
sealed operation as the owner of a partition (R509); the debugger on the JTAG port with a partition
selected (R678); and the internal requesters of the management fabric. -/
inductive Req
  | host (p : Part)
  | sealedOwner (p : Part)
  | jtag (p : Part)
  | lamphouse
  | stackMgr (k : Stack)
  | fireboss (k : Stack)
  deriving DecidableEq, Repr

/-- The width of a register access (R79). -/
inductive AccSize | b1 | b2 | b4 | b8
  deriving DecidableEq, Repr

/-- The status codes (R103). -/
inductive Status
  | ok | stateIllegal | ownerDenied | range | reservedSet | levelUnsupported | busy | tierFault
  | timeout | integrity | keyRetired | safetyHold | deferred | busyReset | debugLocked | timeFault
  | coverageDebt | late | emergStop
  deriving DecidableEq, Repr

/-- Bits [hi:lo] of a word, as a number (R7). -/
def field (w : Word) (hi lo : Nat) : Nat := (w.toNat >>> lo) % 2 ^ (hi + 1 - lo)

/-- Bit n of a word. -/
def bit (w : Word) (n : Nat) : Bool := w.getLsbD n

/-- A word with its bits [hi:lo] replaced (R7). -/
def setField (w : Word) (hi lo v : Nat) : Word :=
  let m : Word := BitVec.ofNat 32 ((2 ^ (hi + 1 - lo) - 1) <<< lo)
  (w &&& ~~~m) ||| (BitVec.ofNat 32 ((v % 2 ^ (hi + 1 - lo)) <<< lo))

/-- A word with one bit set to the given truth value. -/
def setBit (w : Word) (n : Nat) (b : Bool) : Word := setField w n n (if b then 1 else 0)

/-- The word whose only set bit is bit n. -/
def bitMask (n : Nat) : Word := BitVec.ofNat 32 (1 <<< n)

end Sys2Proof
end

