-- ==== Sys2Proof/Syntax.lean ====
section
/-! DEFINITION. The commands and events of the block, one constructor for each row of the operation table, and the
types of their operands. An operand carries what comes from outside the block: who makes an access, the bytes of
a packet, the outcome of a physical process. -/

namespace Sys2Proof

/-- What an ECC check finds: nothing, a corrected error, an uncorrectable error (R228, R253). -/
inductive EccResult | clean | corrected | uncorrectable
  deriving DecidableEq, Repr

/-- How the tier answers a request (R253). The statuses that the tables decide (translation, tags, key
generations, the state of a tier block) are the model's to find; the rest comes from the physical tier. -/
inductive TierOutcome
  | clean
  | corrected
  | galleryUe (line : Nat)
  | tagRefused
  | ptCheck
  | driftUe (block : Nat)
  | macFail
  | ldpcFail
  | progFail
  | seamRead (retries bits : Nat) (soft : Bool)
  | mapCheck
  deriving DecidableEq, Repr

/-- The measured times of a command that ends, in its core's clocks: beyond its nominal time, stalled on stage-in, withheld
by the governor, and waiting for a tier tag. The wait for a Tally is part of the first. -/
structure EndClocks where
  extra    : Nat
  stall    : Nat
  withheld : Nat
  tag      : Nat
  deriving DecidableEq, Repr

/-- The hardware error that a core found during a command (R151, R205, R300, R346, R388): none, single-bit errors corrected,
an uncorrectable Face error in a block, a parity error by kind and slice (M: 0 array, 1 accumulator, 2 weight register;
V: 0 lane; A: 0 tile, 1 softmax or row state; F: 0 pipeline; L: 0 check cell), a lost page record (A) or track store (T),
or, on a core of a duplex stage, an output digest that differs from what the descriptor gives (R575). -/
inductive CoreErr
  | none
  | corrected (n : Nat)
  | faceUe (block : Half)
  | parity (kind : Fin 4) (slice : Fin 16)
  | recordLost
  | odd
  deriving DecidableEq, Repr

/-- A checker that Fireboss injects errors into (R555); the frozen-frame detectors are checked at each stream start (R557). -/
inductive Checker
  | core (k : CoreId)
  | gallery (h : Stack)
  | drift (n : Fin 48)
  | seam (n : Fin 16)
  | keeper (h : Stack)
  | tables (h : Stack)
  | duplex (h : Stack)
  | lockstep (h : Stack)
  | watchdogs (h : Stack)
  | tick
  | keySlots
  deriving DecidableEq, Repr


/-- What happens to the link or the bus of an interface unit (R651). -/
inductive LinkChange | trained | lost | fault | recovered
  deriving DecidableEq, Repr

/-- What a port found by the end of a frame: whether its link retrained or retransmitted during the frame (R325), and whether the
frozen-frame detector is blind to a match (R557). -/
structure FrameFound where
  linkEvent : Bool
  blind     : Bool
  deriving DecidableEq, Repr

/-- What the generator and the checker of a loopback have counted by its end (R674, R676): sent, received and wrong, and the low bits of the
tick of the first error. -/
structure LoopCount where
  sent     : Nat
  received : Nat
  errors   : Nat
  first    : Word
  deriving DecidableEq, Repr

/-- The commands and events of the block: one constructor per row of the operation table; those with operands come first, each part in
the order of the table. -/
inductive Instr
  /-- The end of each device tick, at which TICK_NOW advances and the work timed for that boundary is applied. Operands: the readings of the new tick, the J3 power in tenths of a watt (R36), the input in hundredths of a volt, the hottest junction in sixteenths of a degree and its die (R648, R649), and whether the two tick generators disagree (R46). -/
  | tickBoundary (j3 : Nat) (vin : Nat) (tj : Int) (die : Nat) (mismatch : Bool)
  /-- A TIME_CMD write with CMD 0b01 steps device time in FREE_RUN and enters GM at the next tick boundary (R64). -/
  | timeSet (r : Req)
  /-- A gPTP Sync measurement, or a pair TICK_ALIGN measurement on position B, drives ACQUIRE, first lock, the rate servo or HOLD. Operands: the measured offset in ns and whether the port has a valid link delay (R66). -/
  | syncReceived (offset : Int) (delayOk : Bool)
  /-- A port lacks a valid link delay for three Pdelay intervals (R77). -/
  | pdelayFail (port : Fin 16)
  /-- The best master clock algorithm or the port configuration gives the device the grandmaster role or takes it away. Operands: the role the protocol gives the device: 1 follower, 2 grandmaster, 3 passive (R57, R62). -/
  | grandmasterRoleChange (role : BitVec 2)
  /-- An armed TICK comparator reaches its compare value, sets MATCHED and re-arms by PERIOD if it is periodic (R55). -/
  | tickCmpMatch (n : Fin 8)
  /-- A write of PTP_CTRL with ENABLE = 1 checks the port configuration and starts PTP. Operands: the word written to PTP_CTRL (R72). -/
  | ptpEnable (r : Req) (v : Word)
  /-- A write that clears only ENABLE stops PTP at the next tick boundary (R72). -/
  | ptpDisable (r : Req)
  /-- A transmitted event message is timestamped into the timestamp queue, or is discarded with TSQ_OVF when the queue is full (R73). -/
  | tsqPush (frameId : Half) (port : BitVec 4) (mtype : BitVec 4) (ns : DWord) (frac : Word)
  /-- A read of TSQ_ENTRY3 pops the head entry of the timestamp queue (R75). -/
  | tsqPop (r : Req)
  /-- A read of TICK_NOW_LO latches TICK_NOW_HI for the same requester (R56). -/
  | tickNowLoRead (r : Req)
  /-- A read of TIME_NS_LO latches TIME_NS_HI and TIME_FRAC of the same instant (R56). -/
  | timeNsLoRead (r : Req)
  /-- A 32-bit read of a counter slot's low word latches its high word for the same requester (R95). -/
  | counterLowWordRead (r : Req) (p : Page) (slot : Fin 24)
  /-- A read of an RC register, such as PG_REJECT, returns its value and then clears it (R9). -/
  | clearingRead (r : Req) (addr : BitVec 26) (size : AccSize)
  /-- A write to a register that has no row of its own is judged by the rejection checks and either stored or rejected as a whole (R104). -/
  | registerWrite (r : Req) (addr : BitVec 26) (size : AccSize) (v : DWord)
  /-- A write to an unmapped BAR0 address has no effect and is recorded in DEV_UNMAPPED (R83). -/
  | unmappedWrite (r : Req) (addr : BitVec 26) (v : Word)
  /-- A read that R96 denies returns 0 and is recorded in DEV_DENY_RD. -/
  | deniedRead (r : Req) (addr : BitVec 26) (size : AccSize)
  /-- A PG_CTRL write with SOFT_RESET returns the block to its reset values at the next tick boundary (R89). -/
  | softReset (r : Req) (p : Page) (enable : Bool)
  /-- A PG_CTRL write of ENABLE moves a block between OFF and its enabled state, as its command table allows (R88). -/
  | pgCtrlEnable (r : Req) (p : Page) (enable : Bool)
  /-- A PG_ERRINJ write drives a checker to set its flag at the next tick boundary, where the debug matrix permits it (R91). -/
  | errorInject (r : Req) (p : Page) (bits : Word)
  /-- The owner sets PG_OWNER[8], which makes the page's RWL fields read-only (R98). -/
  | pageLock (r : Req) (p : Page)
  /-- PT0 writes the highest generation level its driver understands, and the device accepts the lower of that value and 1 (R101). -/
  | devLevelWrite (r : Req) (level : Byte)
  /-- A DEV_PRESET write begins a partial reset of partition PT1–PT15 (R114). -/
  | devPreset (r : Req) (part : Part)
  /-- Once every command and tier operation of the partition has stopped, its pages are unmapped and its state is returned to reset, and the reset completes. Operands: the partition (R688). -/
  | partialResetComplete (p : Part)
  /-- A firmware component is read and checked, and a slot that fails makes the ROM fall back to the other slot. Operands: the image read of a slot that no command of the model has written, or none where the read failed (R480). -/
  | bootSlotCheck (image : Option (List Byte))
  /-- An M-core NOP descriptor only waits and signals. Operands: the core to which it is offered (R136). -/
  | mNop (core : Fin 8)
  /-- An M-core GEMM descriptor is checked at issue and computes a grouped matrix product. Operands: the core to which it is offered (R128). -/
  | gemm (core : Fin 8)
  /-- An M-core CONV descriptor is checked at issue and computes a direct convolution. Operands: the core to which it is offered (R138). -/
  | conv (core : Fin 8)
  /-- An M-core WINO3 descriptor computes a Winograd F(4×4, 3×3) convolution. Operands: the core to which it is offered (R142). -/
  | wino3 (core : Fin 8)
  /-- A command of any core class ends, its status and flags are recorded, and its Tally signal, watchdog kick and duplex compare are applied. Operands: the core and its stream, the measured times and the hardware error found (R123, R151). -/
  | commandEnd (k : CoreId) (stream : Fin 2) (clk : EndClocks) (err : CoreErr)
  /-- A waiting command's Tally reaches its threshold, and the command enters RUN. Operands: the core and its stream (R164). -/
  | tallyWaitRelease (k : CoreId) (stream : Fin 2)
  /-- A V-core NOP descriptor only waits and signals. Operands: the core to which it is offered (R200). -/
  | vNop (core : Fin 32)
  /-- A V-core MAP command applies z = f(α·x + β) elementwise. Operands: the core to which it is offered (R200). -/
  | map (core : Fin 32)
  /-- A V-core BINARY command combines X and Y elementwise. Operands: the core to which it is offered (R200). -/
  | binary (core : Fin 32)
  /-- A V-core REDUCE command reduces each row in the fixed order of R199. Operands: the core to which it is offered (R199). -/
  | reduce (core : Fin 32)
  /-- A V-core NORM command applies LayerNorm or RMSNorm to each row. Operands: the core to which it is offered (R200). -/
  | norm (core : Fin 32)
  /-- A V-core SOFTMAX command computes a softmax of α·x for each row. Operands: the core to which it is offered (R200). -/
  | softmax (core : Fin 32)
  /-- A V-core CONVERT command scales and converts a tensor. Operands: the core to which it is offered (R200). -/
  | convert (core : Fin 32)
  /-- A V-core DEBAYER command interpolates RGB bilinearly from raw samples. Operands: the core to which it is offered (R200). -/
  | debayer (core : Fin 32)
  /-- A V-core RESAMPLE command samples X at given Q16.16 coordinates. Operands: the core to which it is offered (R200). -/
  | resample (core : Fin 32)
  /-- A V-core GATHER command copies the rows of X named by index. Operands: the core to which it is offered (R200). -/
  | gather (core : Fin 32)
  /-- A host write of TL_ADD adds an increment to a Tally. Operands: whether the Tally's value fails its parity check (R171, R176). -/
  | tlAdd (r : Req) (page : Fin 32) (index : Fin 512) (inc : Half) (parity : Bool)
  /-- A host write of TL_CLEAR sets a range of Tallies to 0 (R171). -/
  | tlClear (r : Req) (page : Fin 32) (first : Fin 512) (count : BitVec 10)
  /-- An armed Tally watch reaches its threshold, sets HIT, clears ARM and interrupts the page owner (R173). -/
  | tallyWatchHit (page : Fin 32) (n : Fin 4)
  /-- A producer pushes a held output row once a credit is available on the channel. Operands: the producer, its stream and the channel (R180). -/
  | rowPush (k : CoreId) (stream : Fin 2) (chan : Fin 256)
  /-- A pushed row lands in the consumer's Face and its ROW_TALLY advances, or the row is discarded for a wrong length or an ended window. Operands: the producer, its stream and the channel (R182). -/
  | rowLanded (k : CoreId) (stream : Fin 2) (chan : Fin 256)
  /-- A tier request waiting for a tag is granted the lowest free tag. Operands: the core and stream whose command's request waits, its device-virtual address and length (R190, R193). -/
  | tierTagGrant (k : CoreId) (stream : Fin 2) (addr : Nat) (len : Fin 4097) (write : Bool)
  /-- A tier request completes with OK or with a tier fault status, and its tag is released. Operands: which controller of the channel group, or channel of the keeper, reports (R253). -/
  | tierRequestComplete (tag : Fin 16384) (port : Fin 8) (outcome : TierOutcome)
  /-- A tier request passes its deadline, ends with TIMEOUT and releases its tag (R252). -/
  | tierRequestTimeout (tag : Fin 16384)
  /-- A tier-map request that maps pages with fresh zeroed frames of a tier. Operands: how many pages this step changes (R220, R684). -/
  | mapNew (p : Part) (pages : Nat)
  /-- A tier-map request that maps pages onto Seam logical pages (R220). -/
  | mapSeam (p : Part) (pages : Nat)
  /-- A tier-map request that unmaps pages and frees their frames (R220). -/
  | unmap (p : Part) (pages : Nat)
  /-- A tier-map request that moves the pages' home to another tier by Hoist moves (R220). -/
  | migrate (p : Part) (pages : Nat)
  /-- A tier-map request that sets the write permission of pages (R220). -/
  | protect (p : Part) (pages : Nat)
  /-- A tier-map request that writes the home content of pages to Seam logical pages (R220). -/
  | writeback (p : Part) (pages : Nat)
  /-- A tier-map request that returns the page-table entry of one VPN (R220). -/
  | query (p : Part)
  /-- A tier-map request that maps one page of a share window read-only (R220). -/
  | mapShare (p : Part)
  /-- The last page of a tier-map request has been changed, BUSY clears and the completion is sent on vector 3 (R684). -/
  | tierMapComplete (p : Part)
  /-- The scrub engine reads a Gallery line once per period and corrects or records its errors. Operands: what the scrub finds in the line (R228). -/
  | galleryScrub (half : Stack) (frame : Fin 16384) (line : Fin 512) (err : EccResult)
  /-- A stream begins to fetch a unit once the window lead and the list allow it (R244). -/
  | hoistFetch (pf : Fin 256)
  /-- A page copy is verified, and the entry switches HOME at the next boundary, or the move fails and leaves the page where it was (R247). -/
  | hoistMoveComplete (p : Part) (vpn : BitVec 28) (st : Status)
  /-- A consumer's DONE_TALLY passes a unit, which lowers HOLD and drops the pages to their lower copies (R244). -/
  | hoistRelease (pf : Fin 256)
  /-- Three equal strides of a core's reads start a stride prefetcher (R249). -/
  | strideDetect (k : CoreId)
  /-- The keeper's free blocks fall below 3 %, and garbage collection runs until they exceed 5 %. Operands: blocks the collection frees (R235). -/
  | garbageCollection (k : Stack) (freed : Nat)
  /-- A block's read count reaches its threshold, and the block is relocated (R237). -/
  | readDisturbRelocate (k : Stack) (block : BitVec 24)
  /-- All four units of a logical page are relocated and verified, and its map entry switches (R238). -/
  | relocationComplete (k : Stack) (block : BitVec 24) (ok : Bool)
  /-- A DR_RETRAIN write retrains a Drift channel that holds no mapped frame (R256). -/
  | drRetrain (r : Req) (k : Fin 48) (ch : BitVec 2)
  /-- An SC_RETRAIN write retrains a Seam channel that holds no mapped unit (R256). -/
  | scRetrain (r : Req) (c : Fin 16)
  /-- Initialisation or training of a tier block passes or fails, and the block enters READY or FAILED (R255). -/
  | trainingComplete (p : Page) (ch : Fin 2) (pass : Bool)
  /-- An A-core NOP descriptor only waits and signals on either stream. Operands: the core and the stream to which it is offered (R295). -/
  | aNop (core : Fin 8) (stream : Fin 2)
  /-- An A-core ATTN command runs its pin pass and computes attention with an online softmax. Operands: the core to which it is offered (R273). -/
  | attn (core : Fin 8)
  /-- An A-core KV_APPEND command writes K and V rows into slots, with copy-on-write where needed. Operands: the core to which it is offered (R279). -/
  | kvAppend (core : Fin 8)
  /-- An A-core ATTN_MERGE command combines partial attention regions. Operands: the core to which it is offered (R290). -/
  | attnMerge (core : Fin 8)
  /-- An A-core ATTN_BWD command computes attention gradients in Depot. Operands: the core to which it is offered (R292). -/
  | attnBwd (core : Fin 8)
  /-- An ORPHAN slot with no reference and no pin becomes FREE at a boundary, and its GEN advances. Operands: the partition, its pool and the slot (R287). -/
  | kvReclaim (p : Part) (pool : Fin 4) (slot : BitVec 24)
  /-- A KV operation that copies a sequence's entries into another sequence and raises REF. Operands: how many entries this step changes (R284). -/
  | fork (p : Part) (entries : Nat)
  /-- A KV operation that empties a sequence's entries and lowers REF. Operands: how many entries this step changes (R284). -/
  | free (p : Part) (entries : Nat)
  /-- A KV operation that reads one entry and its page record (R307). -/
  | kvQuery (p : Part)
  /-- The last entry of a KV operation has changed, and the KV control registers leave BUSY (R284). -/
  | kvOpComplete (p : Part)
  /-- A write of VALID in KV_PCFG checks the pool and puts it in or out of service. Operands: the word written to KV_PCFG (R306). -/
  | kvPoolValidWrite (r : Req) (p : Part) (pool : Fin 4) (v : Word)
  /-- A CSI-2 Frame Start arrives, and the port accepts or drops the frame by the buffer release rule. Operands: the port, the virtual channel and the CSI-2 frame number (R313). -/
  | frameStart (port : Fin 16) (vc : BitVec 5) (fn : Half)
  /-- A CSI-2 line packet is checked and written into the frame buffer, and the row Tally advances per stripe. Operands: the unpacked pixel values of the line, or one embedded byte an element; whether its CRC holds; whether its header was corrected (R311). -/
  | lineReceived (port : Fin 16) (vc : BitVec 5) (dt : BitVec 6) (data : List Half) (crcOk : Bool) (ecc : Bool)
  /-- A Frame End completes the sample: the hash and frame-number checks run and the record is written. Operands: what the port found by then (R312, R325, R557). -/
  | frameEnd (port : Fin 16) (vc : BitVec 5) (found : FrameFound)
  /-- An A-PHY link trains, and the port enters UP, or returns from STALLED to STREAM (R343). -/
  | aphyLinkTrained (port : Fin 16) (gear : BitVec 3)
  /-- An A-PHY link is lost, and a frame in progress ends TRUNCATED (R343). -/
  | aphyLinkLost (port : Fin 16)
  /-- An AP_CMD STREAM_START starts streaming frames into the ring (R343). -/
  | streamStart (r : Req) (port : Fin 16)
  /-- An AP_CMD STREAM_STOP stops streaming at the next Frame End (R343). -/
  | streamStop (r : Req) (port : Fin 16)
  /-- A lidar UDP datagram is placed into its packet slot by sequence number and may complete a sample. Operands: the source, the UDP destination port and the payload (R318). -/
  | lidarPacket (src : Fin 8) (port : Half) (payload : List Byte) (crcOk : Bool) (linkEvent : Bool)
  /-- A write of LI_CTRL[0] starts or stops a lidar source (R343). -/
  | liCtrlEnable (r : Req) (src : Fin 8) (enable : Bool)
  /-- The collection window of a fusion instant closes, and the candidates are selected (R320). -/
  | instantClose (p : Part)
  /-- The instant table is written to its slot and IR_TALLY advances (R323). -/
  | instantTableWrite (p : Part)
  /-- A write of IR_CTRL[0] enables the instant unit after its ownership check, or disables it after the next table (R344). -/
  | irCtrlWrite (r : Req) (p : Part) (enable : Bool)
  /-- An F-core NOP descriptor only waits and signals. Operands: the core to which it is offered (R332). -/
  | fNop (core : Fin 4)
  /-- An F-core LIFT command lifts camera features onto grid voxels by a lift table. Operands: the core to which it is offered (R329). -/
  | lift (core : Fin 4)
  /-- An F-core VOXEL command max-pools point features into voxels. Operands: the core to which it is offered (R330). -/
  | voxel (core : Fin 4)
  /-- An F-core CHAN command writes per-cell coverage, age and health records. Operands: the core to which it is offered (R331). -/
  | chan (core : Fin 4)
  /-- A T-core NOP descriptor only waits and signals. Operands: the core to which it is offered (R340). -/
  | tNop (core : Fin 2)
  /-- A T-core PREDICT command predicts tracks to a target tick. Operands: the core to which it is offered (R335). -/
  | predict (core : Fin 2)
  /-- A T-core UPDATE command gates, assigns and updates tracks with detections. Operands: the core to which it is offered (R337). -/
  | update (core : Fin 2)
  /-- A T-core BIRTH command creates TENTATIVE tracks from detections. Operands: the core to which it is offered (R338). -/
  | birth (core : Fin 2)
  /-- A T-core TRK_READ command copies track records to memory. Operands: the core to which it is offered (R338). -/
  | trkRead (core : Fin 2)
  /-- A T-core TRK_WRITE command loads track records from memory. Operands: the core to which it is offered (R338). -/
  | trkWrite (core : Fin 2)
  /-- A T-core ASSIGN command solves a landmark assignment by integer auction. Operands: the core to which it is offered (R339). -/
  | assign (core : Fin 2)
  /-- An ASSIGN reaches 120,000 clocks, ends with TIMEOUT and writes nothing. Operands: the core to which it is offered (R339). -/
  | assignTimeout (core : Fin 2)
  /-- An L-core NOP descriptor only waits and signals. Operands: the core to which it is offered (R382). -/
  | lNop (core : Fin 4)
  /-- An L-core WAVE command computes sweeps of the cost-to-go field. Operands: the core to which it is offered (R370). -/
  | wave (core : Fin 4)
  /-- An L-core CHECK command sweeps candidates through the core's grid layers. Operands: the core to which it is offered (R367). -/
  | check (core : Fin 4)
  /-- An L-core STOP command checks the new stop and the held stop, and L0 posts their result. Operands: the core to which it is offered (R374). -/
  | stop (core : Fin 4)
  /-- An L-core SELECT command orders the clean candidates, scales them in time and posts the winner. Operands: the core to which it is offered (R371). -/
  | select (core : Fin 4)
  /-- A write of LK_CTRL EN starts the planning sequencer or stops it (R386). -/
  | lkCtrlEnable (r : Req) (enable : Bool)
  /-- At a channel tick, the controller releases the previous frame, latches the measurement and forwards the sample for the step. Operands: how many ticks the last step's frame took to its controller, and what the store's check finds in this step (R395, R396, R420). -/
  | channelTick (ch : Fin 64) (took : Nat) (ecc : EccResult)
  /-- At t_n − SPI_LEAD, the SPI master starts the channel's measurement transaction (R405). -/
  | spiTransactionStart (ch : Fin 64)
  /-- An SPI measurement transaction completes, and its response is available to latch (R405). -/
  | spiResponseComplete (ch : Fin 64) (data : List Byte)
  /-- A CAN frame with valid CRC is received and matched against the input filters (R405). -/
  | canFrameReceived (c : Fin 8) (id : BitVec 29) (payload : List Byte) (crcOk : Bool)
  /-- A 10BASE-T1S frame with valid FCS is received and matched by EtherType and tag. Operands: the port less 12, and the payload from the tag on (R405). -/
  | t1sFrameReceived (port : Fin 4) (etherType : Half) (payload : List Byte) (fcsOk : Bool)
  /-- An FX_CMD START checks the configuration and arms a channel (R417). -/
  | start (r : Req) (ch : Fin 64)
  /-- An FX_CMD STOP returns a channel to OFF (R416). -/
  | fxStop (r : Req) (ch : Fin 64)
  /-- An FX_CMD FORCE_SAFE sends a channel to SAFE (R416). -/
  | forceSafe (r : Req) (ch : Fin 64)
  /-- An FX_CMD RESUME returns a channel from SAFE to ARMED (R416). -/
  | resume (r : Req) (ch : Fin 64)
  /-- An FX_CMD CLEAR_STATE zeroes I, e_prev and the channel's repetitive memory (R402). -/
  | clearState (r : Req) (ch : Fin 64)
  /-- An access of CC_RC_DATA reads or writes a pool word and advances CC_RC_ADDR. Operands: the word written, or none for a read (R421). -/
  | ccRcDataAccess (r : Req) (core : Fin 2) (write : Option Word)
  /-- The C-core's lockstep compare fails, the core enters SUSPECT and its channels enter SAFE (R419). -/
  | cCoreLockstepMismatch (core : Fin 2)
  /-- Every 10 ticks and at each roster boundary, a partition's ring is scanned and up to 16 descriptors are admitted (R431). -/
  | ringScan (p : Part)
  /-- An admitted RUN descriptor is authenticated and becomes a pending job of its slot (R432). -/
  | jobRun (p : Part) (entry : Fin 256)
  /-- An admitted CANCEL descriptor acts on the job in its target entry. Operands: the entry that holds the CANCEL descriptor (R440). -/
  | jobCancel (p : Part) (entry : Fin 256)
  /-- The start work of a pending job checks it, clears its Tallies and takes its prefetchers (R434). -/
  | jobStartWork (p : Part) (entry : Fin 256)
  /-- A job whose cores are free starts and its stages are offered command 0, or a lower-priority holder's suspension begins (R435). -/
  | jobStart (p : Part) (entry : Fin 256)
  /-- The job machinery offers a stage's next command to its core once the core is IDLE and a window or canary allows it (R436). -/
  | commandOffer (k : CoreId) (stream : Fin 2)
  /-- Every core of a suspending job has been released, the job becomes SUSPENDED and its snapshot is kept (R441). -/
  | suspensionComplete (p : Part) (entry : Fin 256)
  /-- A suspension has not completed in 210 ticks plus its stalls, and the job fails with TIMEOUT. Operands: the stall ticks of the commands waited for (R442). -/
  | suspensionTimeout (p : Part) (entry : Fin 256) (stall : Nat)
  /-- A suspended job resumes after its Tally snapshot check, or ends with INTEGRITY (R444). -/
  | jobResume (p : Part) (entry : Fin 256)
  /-- A job ends, releases its cores and writes its completion record (R439). -/
  | jobEnd (p : Part) (entry : Fin 256)
  /-- An RO_CMD LOAD copies and checks a roster table and makes it pending. Operands: who writes RO_CMD. -/
  | rosterLoad (r : Req)
  /-- A write of RO_CTRL EN arms the roster or stops it at the end of the frame. Operands: who writes RO_CTRL, and EN. -/
  | rosterEnable (r : Req) (en : Bool)
  /-- A write of SB_QUERY returns the state and status of a ring entry in SB_QSTAT. Operands: who writes, the submission page, and the word. -/
  | sbQuery (r : Req) (p : Part) (w : Word)
  /-- A mailbox command that checks and loads a partition manifest. Operands: what host memory holds at the address, or none for an error completion (R475, R682). -/
  | loadManifest (p : Part) (image : Option (List Byte))
  /-- A mailbox command that starts a session and releases the wrapped session key (R501). -/
  | keyRelease (p : Part)
  /-- A mailbox command that advances the write generation and starts the key sweep (R493). -/
  | rotate (p : Part)
  /-- A mailbox command that resets the partition and erases its data (R496). -/
  | erase (p : Part)
  /-- A mailbox command that applies sealed register operations as the owner (R509). -/
  | sealedAccess (p : Part)
  /-- A mailbox command that moves data between host memory and the partition's range, authenticated per record. Operands: what host memory holds at HOST_ADDR, or none for an error completion (R504). -/
  | hostDma (p : Part) (data : Option (List Byte))
  /-- A mailbox command that checks a firmware bundle and writes it into the slot not running. Operands: what host memory holds at the address, or none for an error completion (R481). -/
  | updateStage (bundle : Option (List Byte))
  /-- A mailbox command that checks a layout image and writes it to the boot flash. Operands: what host memory holds at the address, or none for an error completion (R478). -/
  | layoutWrite (image : Option (List Byte))
  /-- A mailbox command that checks a debug token and enters D1, D2 or D3 (R531). -/
  | debugUnlock (p : Part)
  /-- A DEBUG_UNLOCK request of type RELOCK that returns the partition, or the device from D3, to D0 (R531). -/
  | relock (p : Part)
  /-- A mailbox command finishes, and its status and response are posted (R511). -/
  | mailboxComplete (p : Part)
  /-- A host-memory read of a mailbox command gets no completion within 1,000 ticks, and the command ends with TIMEOUT (R682). -/
  | hostReadTimeout (p : Part)
  /-- The sweep has covered every block and its tags are released, so the old generation is retired at a boundary. Operands: how many pages the sweep rewrote, and the physical pages of 64 KiB that it could not read (R494, R495). -/
  | generationRetire (p : Part) (pages : Nat) (lost : List Nat)
  /-- The keeper has erased every block of the partition, and ERASE completes (R496). -/
  | eraseComplete (p : Part)
  /-- A tamper source fires, so the keys are erased, the device halts and Gallery and Face are zeroed. Operands: the source's index (R506). -/
  | tamper (source : Fin 8)
  /-- An AT_GO with KIND PARTITION requests a signed partition report (R521). -/
  | attestPartition (r : Req) (p : Part)
  /-- An AT_GO with KIND DEVICE requests a signed device report (R521). -/
  | attestDevice (r : Req) (p : Part)
  /-- A report is signed and posted, or the request ends with BUSY_RESET or INTEGRITY. Operands: who asked (a partition, 16 the mate, 17 the TAP), and whether Lamphouse's check of its own signature holds (R521, R527). -/
  | attestComplete (p : Fin 18) (signOk : Bool)
  /-- A debug unlock reaches its expiry tick and returns the partition as if by RELOCK (R531). -/
  | debugExpiry (p : Part)
  /-- A JTAG write of DBG_BREAK arms or releases a hold on the offer of a command. Operands: the word that the debugger writes (R533). -/
  | dbgBreakWrite (p : Part) (v : Word)
  /-- A PW_CMD naming Active returns the device to Active. Operands: who writes PW_CMD. -/
  | pwCmdActive (r : Req)
  /-- A PW_CMD naming Idle enters Idle. Operands: who writes PW_CMD. -/
  | pwCmdIdle (r : Req)
  /-- A PW_CMD naming Retain enters Retain after a quiescence check. Operands: who writes PW_CMD. -/
  | pwCmdRetain (r : Req)
  /-- A PW_CMD naming Standby saves Gallery into Drift and enters Standby. Operands: who writes PW_CMD. -/
  | pwCmdStandby (r : Req)
  /-- A PW_CMD naming Depot enters Depot in SEALED. Operands: who writes PW_CMD. -/
  | pwCmdDepot (r : Req)
  /-- A power transition that takes time reaches its target state. Operands: whether every save write of an entry into Standby succeeded; on a wake whether the reread components match, the Gallery frames that could not be restored, and whether the reserved frames could (R540). -/
  | powerTransitionComplete (saveOk : Bool) (digestsOk : Bool) (badFrames : List Nat) (reservedOk : Bool)
  /-- The power-fail source is released for 100 consecutive ticks, and Brown-out ends. Operands: whether the source released is the input's undervoltage, or PWR_FAIL_N (R537, R641). -/
  | brownOutExit (undervoltage : Bool)
  /-- A function-level reset clears the function's MSI-X table and ends its HOST_DMA. Operands: the function (R635). -/
  | functionLevelReset (p : Part)
  /-- A BAR2 tier-window read is served through the partition's page table. Operands: the function, the offset in the tier window, and the size (R634). -/
  | tierWindowRead (p : Part) (off : BitVec 29) (size : AccSize)
  /-- A BAR2 tier-window write is applied at the page's home tier. Operands: the function, the offset in the tier window, and the bytes (R634). -/
  | tierWindowWrite (p : Part) (off : BitVec 29) (bytes : List Byte)
  /-- An Ethernet, PLCA, CAN or SPI unit's link or bus trains, is lost or faults. Operands: the unit's page, what happens, and SQI of an Ethernet port or REC and TEC of a CAN controller (R650, R651). -/
  | portLinkChange (unit : Page) (change : LinkChange) (detail : Half)
  /-- A bus-off controller recovers after 128 × 11 recessive bits. Operands: the controller (R639). -/
  | canBusOffRecovery (c : Fin 8)
  /-- Fireboss injects an error into every checker at each start and requires a flag (R555). -/
  | startupChecks (h : Stack)
  /-- A start-up check completes, and the checker passes or its block is marked suspect, FAILED or device-fatal. Operands: the checker, and whether it flagged the injected error (R555). -/
  | startupCheckResult (chk : Checker) (pass : Bool)
  /-- A window closes without a kick, and ACTION fails the job, the partition or the device (R561). -/
  | watchdogExpiry (h : Stack) (n : Fin 256)
  /-- A core's due point arrives, the next slice falls due, and an unstarted slice is counted DEFERRED (R572). -/
  | sliceDuePoint (k : CoreId)
  /-- Fireboss starts a 50-tick self-test slice at an opportunity that fits it (R570). -/
  | selftestSliceStart (k : CoreId)
  /-- A self-test slice passes, or it fails and marks the core suspect (R572). -/
  | selftestSliceEnd (k : CoreId) (pass : Bool)
  /-- A core's self-test age exceeds 120 s, and COVERAGE_DEBT is raised (R572). -/
  | coverageDebt (k : CoreId)
  /-- An FB_CMD LOAD_QUIET checks a quiet table for the next major frame. Operands: who writes FB_CMD, and the Fireboss page's stack. -/
  | loadQuiet (r : Req) (h : Stack)
  /-- Every DIG_PERIOD minor frames, the weight replicas of one manifest entry are digested and judged. Operands: the duplex cores whose own stage-in read the entry otherwise than it stands (R576, R578). -/
  | digestRound (odd : List CoreId)
  /-- The stack not in charge misses 3 heartbeats and claims charge, and Lamphouse decides the claim. Operands: whether Lamphouse sees the heartbeat of the claimant, and of the stack in charge (R581). -/
  | stackHeartbeatLoss (claimant : Bool) (holder : Bool)
  /-- A Vuvon flit is decoded and authenticated, its messages are delivered, or a NAK and replay follow. Operands: the slot count TXCOUNT of the flit, whether the FEC corrected it, and its 1,024 bytes (R592, R593). -/
  | flitReceived (count : Nat) (fecOk : Bool) (bytes : List Byte)
  /-- A TICK_ALIGN is received and gives B an offset measurement. Operands: B's tick-time minus A's in ns, from the four stamps of R602. -/
  | tickAlign (offset : Int)
  /-- LAST of a command has not arrived within 200 ticks, and the standby proceeds. Operands: the T-core (R609). -/
  | trackDeltaTimeout (core : Fin 2)
  /-- A write of VL_CTRL EN brings the link up or takes it to OFF. Operands: the word written to VL_CTRL (R623, R624). -/
  | vlCtrlEn (r : Req) (w : Word)
  /-- A VL_CMD YIELD gives up the lead. Operands: who writes VL_CMD (R624). -/
  | yield (r : Req)
  /-- A VL_CMD RETRAIN discards the keys and retrains the link. Operands: who writes VL_CMD (R624). -/
  | retrain (r : Req)
  /-- A CD_CMD SNAP triggers a snapshot dump in the next tick. Operands: r is the requester. -/
  | snap (r : Req)
  /-- A CD_CMD CLEAR clears the range of counters named by CD_CLR. Operands: r is the requester. -/
  | clear (r : Req)
  /-- The dump write completes, CD_TALLY advances and vector 2 is sent, or DUMP_FAIL is set. Operands: st is how the write of the dump ended. -/
  | dumpComplete (st : Status)
  /-- Every 1,000 ticks in CR mode, the central reader sweeps every block's counts into the bank store. Operands: silent are the pages whose block does not answer the central reader. -/
  | crSweep (silent : List Page)
  /-- A CT_CLEAR write clears a range of the partition's own counters. Operands: r is the requester, p the partition page, w the word written. -/
  | ctClear (r : Req) (p : Part) (w : Word)
  /-- An armed threshold unit's counter reaches the threshold, and ARM is cleared. Operands: p is the partition and u its threshold unit. -/
  | thresholdHit (p : Part) (u : Fin 4)
  /-- The threshold unit takes its sample after the skid and sends vector 2. Operands: p is the partition and u its threshold unit. -/
  | thresholdSample (p : Part) (u : Fin 4)
  /-- An LB_CTRL write with GO = 1 enters a loopback at the selected depth. Operands: r is the requester, limit the LIMIT written with GO = 1. -/
  | loopbackStart (r : Req) (limit : Half)
  /-- An LB_CTRL write with GO = 0 ends the loopback. Operands: r is the requester, limit the LIMIT written with GO = 0, count what the checker found. -/
  | loopbackStop (r : Req) (limit : Half) (count : LoopCount)
  /-- LIMIT × 1,000 ticks pass, and the loopback ends. Operands: count is what the checker found. -/
  | loopbackLimit (count : LoopCount)
  /-- The JTAG SAMPLE/PRELOAD instruction captures the boundary register. Operands: levels are the pins' levels, shifted the bits shifted in. -/
  | samplePreload (levels : List Bool) (shifted : List Bool)
  /-- The JTAG EXTEST instruction drives the boundary register, or acts as BYPASS outside BLANK and D3. Operands: levels are the pins' levels, shifted the bits shifted in. -/
  | extest (levels : List Bool) (shifted : List Bool)
  /-- The JTAG SELECT instruction selects a partition for the debugger's accesses. Operands: v is the byte shifted in. -/
  | jtagSelect (v : Byte)
  /-- The JTAG ACCESS instruction makes one 32-bit BAR0 access at Update-DR as the JTAG requester. Operands: word is what was shifted in. -/
  | access (word : DWord)
  /-- The JTAG ATTEST instruction requests a DEVICE report through the TAP. Operands: nonce is what was shifted in, byte 0 first. -/
  | attest (nonce : BitVec 384)
  /-- Fireboss's own lockstep compare fails during operation, which sets FB_LOCKSTEP and is device-fatal (R586). -/
  | firebossLockstepMismatch (h : Stack)
  /-- A Drift or Seam channel fails in service, and its block leaves READY for DEGRADED or FAILED (R255). -/
  | tierChannelLost (p : Page) (ch : Fin 2)
  /-- The PCIe link trains up, or is lost, and PC_LINK changes. Operands: whether the link is up, its width 2^w, its speed minus 1, and the VFs that the host has enabled (R650). -/
  | pcieLinkChange (up : Bool) (w : Fin 3) (speed : Fin 5) (vfs : Half)
  /-- A host write through BAR2 stores PROD or a ring entry in the partition's ring area, or is discarded and counted in the completion-record region. Operands: the function, the BAR2 offset below the tier window, and the bytes (R430). -/
  | bar2RingWrite (p : Part) (off : BitVec 29) (bytes : List Byte)
  /-- At a tick that is a multiple of 100, the 100-tick power average exceeds the ceiling, so the governor lowers the issue duty of every throttleable M-core by 1/16 (R36). -/
  | governorLowerDuty
  /-- After 1,000 consecutive ticks below the ceiling minus 15 W, the governor raises the issue duty by 1/16 (R36). -/
  | governorRaiseDuty
  /-- At every tick that is a multiple of 1,000, the thermal ceiling is set from T_j (R648). -/
  | thermalCeilingUpdate
  /-- T_j stays at 110 °C for 1,000 consecutive ticks, which is a device-fatal error (R648). -/
  | thermalTrip
  /-- No Sync arrives for three Sync intervals, so LOCKED is cleared in TIME_STAT and FREQ_ADJ is held (R69). -/
  | syncReceiptTimeout
  /-- Device reset is released, tick 0 begins and the boot ROM starts the boot chain (R43). -/
  | resetRelease
  /-- The layout image is checked, the working keys are loaded and DEVICE enters RUN or REFUSED (R480). -/
  | bootLayoutLoad
  /-- A KV delta record has no counterpart within 2,000 ticks and is counted as LATE (R294). -/
  | kvDeltaLate
  /-- PUB_TALLY reaches its threshold, and the sequencer adopts the next epoch or refuses it (R358). -/
  | gridPublication
  /-- At S, the sequencer samples the epoch, latches the start state and writes the cycle header (R359). -/
  | cycleStart
  /-- At D − BUDGET, the sequencer adds 1 to CHK_TALLY (R353). -/
  | checkWindowOpen
  /-- At D, the sequencer commits one trajectory by the commit table and releases the snapshot buffer (R378). -/
  | commit
  /-- RO_ORIGIN is reached, and the roster enters RUN (R455). -/
  | rosterOriginReached
  /-- A roster entry begins or ends, and group core ownership changes (R448). -/
  | rosterBoundary
  /-- A mailbox command that writes a boot record naming the staged slot as TRIAL (R481). -/
  | updateActivate
  /-- A mailbox command that commits the trial slot and burns the rollback fuses (R482). -/
  | updateCommit
  /-- A mailbox command that checks a lifecycle token and burns the fuses for the next reset (R469). -/
  | lifecycle
  /-- No device reset has come within the duration of an armed PT0 D2, and the arming lapses (R532). -/
  | d2ArmedLapse
  /-- The armed wake compare fires, and a wake from Retain or Standby begins (R543). -/
  | wakeCompare
  /-- Host link activity wakes the device from Standby when HOST_WAKE_EN is set (R537). -/
  | hostLinkWake
  /-- PWR_FAIL_N is asserted, and the device enters Brown-out (R542). -/
  | pwrFailNAssert
  /-- The input stays below 34 V for 20 µs, and the device enters Brown-out (R641). -/
  | undervoltage
  /-- Brown-out has lasted 10,000 ticks, and the device is reset (R537). -/
  | brownOutReset
  /-- RESET_N is low for 10 µs or more, and the device is held in reset (R644). -/
  | resetNAssert
  /-- Power-good is lost on a domain, and the device is reset (R644). -/
  | powerGoodLost
  /-- The hold-up store is exhausted, and the main domains go Off (R643). -/
  | holdupExhausted
  /-- The input first exceeds 36 V, and the domains power up in order (R646). -/
  | powerUp
  /-- The 48 V input is lost, and the device goes Off (R537). -/
  | powerLoss
  /-- PERST_N resets the PCIe endpoint and its link only (R644). -/
  | perstNAssert
  /-- The canary graph starts in its CANARY entry once every canary core is IDLE (R565). -/
  | canaryStart
  /-- The canary ends, and its output digest is compared with FB_CANARY_REF: PASS, MISMATCH or FAILED (R567). -/
  | canaryCompare
  /-- 20,000 ticks pass without a canary PASS, which is a device-fatal trip (R568). -/
  | canaryMissing
  /-- Lamphouse sees neither heartbeat for 3 ticks and halts the device (R581). -/
  | bothStacksSilent
  /-- NAK, replay, FEC or tag failures reach their count, and the link goes DOWN and retrains (R595). -/
  | linkDown
  /-- The lanes are trained, and the link enters AUTH (R598). -/
  | linkTrained
  /-- The mate's HELLO is received, and a CONFIRM is sent (R599). -/
  | hello
  /-- The mate's CONFIRM is verified, and the link enters ALIGN or APART (R599). -/
  | confirm
  /-- A HEARTBEAT BEAT of the mate is delivered (R614). -/
  | beat
  /-- A LEAD_TOKEN is received, and the epoch is adopted or the lead is yielded (R617). -/
  | leadToken
  /-- The mate's input digest is matched against this module's own (R607). -/
  | inputDigest
  /-- An input digest has no counterpart within 2,000 ticks and is counted as LATE (R607). -/
  | inputDigestLate
  /-- The lead's channel record of a step is received for take-in at the next channel tick (R414). -/
  | foxgloveDelta
  /-- The lead's committed trajectory record is received and replaces the standby's (R380). -/
  | trajectoryDelta
  /-- The lead's held stop record is received and replaces the standby's (R380). -/
  | heldStopDelta
  /-- The lead's track records of a command are received and replace the standby's (R609). -/
  | trackDelta
  /-- The lead's KV delta record is compared, and a mismatch fetches the page by BULK (R294). -/
  | kvDelta
  /-- Repetitive memory words of the lead's snapshot are taken in (R610). -/
  | rcMemoryDelta
  /-- The resync end record arrives, and the link enters PAIRED (R610). -/
  | resyncEnd
  /-- A BULK KV_REQ asks the lead for a page's rows (R611). -/
  | kvReq
  /-- BULK KV_DATA fragments deliver a page's rows into the same partition (R611). -/
  | kvData
  /-- A BULK ATT_REQ from the mate requests a report from Lamphouse (R611). -/
  | attReq
  /-- BULK ATT_RPT fragments deliver a report to the mate (R611). -/
  | attRpt
  /-- A BULK DIGEST of the mate's weight digests is compared (R612). -/
  | digest
  /-- A BULK MANIFEST of the mate's manifest digests decides which partitions agree (R600). -/
  | manifest
  /-- 3 consecutive heartbeats of a leading mate are missed, and this module takes the lead (R616). -/
  | heartbeatLoss
  /-- An edge of LIFE_IN is applied (R614). -/
  | lifeInEdge
  /-- No LIFE_IN edge for 300 ticks, and this module takes the lead (R616). -/
  | lifeInLoss
  /-- JOIN_TMO passes without the link passing AUTH, and the module leads alone or position A enters GM (R616). -/
  | joinTimeout
  /-- LIFE_OUT toggles every 100 ticks while DEVICE runs and both Fireboss are READY (R618). -/
  | lifeOutToggle
  /-- A periodic compare triggers a counter snapshot dump, or it is skipped (R661). -/
  | dumpTrigger
  /-- TRST_N or Test-Logic-Reset selects BYPASS and ends any SELECT (R677). -/
  | tapReset
  /-- The JTAG CLAMP instruction holds the outputs, or acts as BYPASS outside BLANK and D3 (R677). -/
  | clamp
  /-- The JTAG HIGHZ instruction floats outputs other than the safety pins, or acts as BYPASS outside BLANK and D3 (R677). -/
  | highz
  /-- The JTAG DEVID instruction captures DEV_IDENT and DEV_VARIANT (R677). -/
  | devid
  /-- A major frame of the roster begins at RO_ORIGIN + 100,000 × k; a pending roster table or quiet table comes into force there, and a pending EN = 0 takes the roster to OFF (R445). -/
  | majorFrameBoundary
  /-- The host's LTSSM requests Loopback, and the endpoint enters the PCIe far-end loopback (R673). -/
  | pcieLtssmLoopback
  /-- 100 ms after the input is lost, the always-on domain stops, safe frames cease and the safe stores lose their contents (R642). -/
  | alwaysOnHoldExpiry
  /-- The input falls below 24 V, the main domains draw from the hold-up store, and HOLDUP_USED is set (R641). -/
  | holdupStoreDraw
  deriving DecidableEq, Repr

end Sys2Proof
end

