-- ==== Sys2Proof/Decode.lean ====
section
/-! DEFINITION. The commands that a word spells: the operation table gives bits to none of its rows, so no word spells one. -/

namespace Sys2Proof

/-- The command that the low `nbits` bits of a word spell by the bits that the operation table gives its rows. -/
def decodeTableWord (_nbits _w : Nat) : Option Instr := none

end Sys2Proof
end

