-- ==== Sys2Proof/Machine/Fp.lean ====
section
/-! DEFINITION. The number formats of R124 and R126, exact values, rounding to a format (R130, R133), the FP32
arithmetic that every core class uses, and the output conversion of R131 and R132. Values are exact until one
named rounding; nothing here depends on a core. -/

namespace Sys2Proof.Machine

/-- An exact value: a NaN, an infinity, or sign, magnitude and binary exponent (zero keeps its sign). -/
inductive FpVal
  | nan
  | inf (neg : Bool)
  | fin (neg : Bool) (m : Nat) (e : Int)
  deriving DecidableEq, Repr

/-- How the top encodings of a float format are used (R124, R126). -/
inductive FpTop | ieee | e4m3 | none
  deriving DecidableEq, Repr

/-- The layout of a float format: exponent bits, mantissa bits, bias and top encodings. -/
structure FpFmt where
  eb   : Nat
  mb   : Nat
  bias : Nat
  top  : FpTop
  deriving DecidableEq, Repr

def fmtE4M3 : FpFmt := ⟨4, 3, 7, .e4m3⟩
def fmtE5M2 : FpFmt := ⟨5, 2, 15, .ieee⟩
def fmtE3M2 : FpFmt := ⟨3, 2, 3, .none⟩
def fmtE2M3 : FpFmt := ⟨2, 3, 1, .none⟩
def fmtE2M1 : FpFmt := ⟨2, 1, 1, .none⟩
def fmtBF16 : FpFmt := ⟨8, 7, 127, .ieee⟩
def fmtFP16 : FpFmt := ⟨5, 10, 15, .ieee⟩
def fmtFP32 : FpFmt := ⟨8, 23, 127, .ieee⟩

/-- The exponent of the last place of the subnormals of a format. -/
def fmtQmin (f : FpFmt) : Int := 1 - (f.bias : Int) - f.mb

/-- The magnitude bits of a format's largest finite value (R124: E4M3 448, E5M2 57,344). -/
def fmtMaxBits (f : FpFmt) : Nat :=
  match f.top with
  | .ieee => (2 ^ f.eb - 1) * 2 ^ f.mb - 1
  | .e4m3 => 2 ^ (f.eb + f.mb) - 2
  | .none => 2 ^ (f.eb + f.mb) - 1

/-- The value of an encoding (R124, R126: subnormals honoured in every format). -/
def fpDecode (f : FpFmt) (w : Nat) : FpVal :=
  let neg := (w >>> (f.eb + f.mb)) % 2 == 1
  let mag := w % 2 ^ (f.eb + f.mb)
  let ex := mag >>> f.mb
  let man := mag % 2 ^ f.mb
  if f.top = .ieee ∧ ex = 2 ^ f.eb - 1 then
    if man = 0 then .inf neg else .nan
  else if f.top = .e4m3 ∧ mag = 2 ^ (f.eb + f.mb) - 1 then .nan
  else if ex = 0 then .fin neg man (fmtQmin f)
  else .fin neg (2 ^ f.mb + man) (fmtQmin f + (ex - 1 : Nat))

/-- How a conversion rounds: to nearest even, or stochastically with the 16-bit draw r (R133). -/
inductive Rounding
  | rne
  | stoch (r : Nat)
  deriving DecidableEq, Repr

/-- A magnitude m without its `sh` lowest bits, rounded (R133: stochastic rounding compares the 16-bit fraction
of the discarded part with the draw). -/
def roundShift (rd : Rounding) (m sh : Nat) : Nat :=
  let q := m >>> sh
  let rest := m % 2 ^ sh
  match rd with
  | .rne =>
    if 2 * rest > 2 ^ sh then q + 1
    else if 2 * rest = 2 ^ sh then q + q % 2
    else q
  | .stoch r =>
    let d := rest * 2 ^ 16 / 2 ^ sh
    if d + r ≥ 0x10000 then q + 1 else q

/-- The magnitude m·2^e rounded to whole multiples of 2^q. -/
def roundAt (rd : Rounding) (m : Nat) (e q : Int) : Nat :=
  if q ≤ e then m <<< (e - q).toNat else roundShift rd m (q - e).toNat

/-- The magnitude bits of m·2^e rounded to a format whose exponent range has no upper limit (R131). -/
def roundBits (f : FpFmt) (rd : Rounding) (m : Nat) (e : Int) : Nat :=
  if m = 0 then 0
  else
    let q := max (fmtQmin f) ((Nat.log2 m : Int) + e - f.mb)
    ((q - fmtQmin f).toNat) * 2 ^ f.mb + roundAt rd m e q

/-- The sign bit of a format put before its magnitude bits. -/
def withSign (f : FpFmt) (neg : Bool) (mag : Nat) : Nat :=
  (if neg then 2 ^ (f.eb + f.mb) else 0) + mag

/-- Round to nearest even into an IEEE-topped format: overflow gives an infinity, a NaN the quiet NaN. -/
def fpEncodeIeee (f : FpFmt) (v : FpVal) : Nat :=
  let infBits := (2 ^ f.eb - 1) * 2 ^ f.mb
  match v with
  | .nan => infBits + 2 ^ (f.mb - 1)
  | .inf n => withSign f n infBits
  | .fin n m e =>
    let b := roundBits f .rne m e
    withSign f n (if b > fmtMaxBits f then infBits else b)

/-- An FP32 word's value. -/
def f32val (w : Word) : FpVal := fpDecode fmtFP32 w.toNat

/-- The FP32 word nearest to a value; every NaN is 0x7FC0_0000 (R128). -/
def f32of (v : FpVal) : Word := BitVec.ofNat 32 (fpEncodeIeee fmtFP32 v)

/-- The exact signed integer n·2^e as a value; zero is +0. -/
def valOfInt (n : Int) (e : Int) : FpVal := .fin (n < 0) n.natAbs e

def fpNeg : FpVal → FpVal
  | .nan => .nan
  | .inf n => .inf (!n)
  | .fin n m e => .fin (!n) m e

def fpAbs : FpVal → FpVal
  | .nan => .nan
  | .inf _ => .inf false
  | .fin _ m e => .fin false m e

/-- The signed integer numerator of a finite value at exponent q ≤ e. -/
def finAt (neg : Bool) (m : Nat) (e q : Int) : Int :=
  let k : Int := (m <<< (e - q).toNat : Nat)
  if neg then -k else k

/-- The exact sum (IEEE 754: opposite infinities give NaN; an exact zero is +0 unless both are −0). -/
def fpAdd (a b : FpVal) : FpVal :=
  match a, b with
  | .nan, _ => .nan
  | _, .nan => .nan
  | .inf x, .inf y => if x = y then .inf x else .nan
  | .inf x, _ => .inf x
  | _, .inf y => .inf y
  | .fin na ma ea, .fin nb mb eb =>
    let q := min ea eb
    let t := finAt na ma ea q + finAt nb mb eb q
    if t = 0 then .fin (na && nb) 0 q else valOfInt t q

/-- The exact product (an infinity times a zero is NaN). -/
def fpMul (a b : FpVal) : FpVal :=
  match a, b with
  | .nan, _ => .nan
  | _, .nan => .nan
  | .inf x, .inf y => .inf (x != y)
  | .inf x, .fin n m _ => if m = 0 then .nan else .inf (x != n)
  | .fin n m _, .inf y => if m = 0 then .nan else .inf (n != y)
  | .fin na ma ea, .fin nb mb eb => .fin (na != nb) (ma * mb) (ea + eb)

/-- A value scaled by 2^k, exactly. -/
def fpScale (a : FpVal) (k : Int) : FpVal :=
  match a with
  | .fin n m e => .fin n m (e + k)
  | x => x

def f32add (a b : Word) : Word := f32of (fpAdd (f32val a) (f32val b))
def f32sub (a b : Word) : Word := f32of (fpAdd (f32val a) (fpNeg (f32val b)))
def f32mul (a b : Word) : Word := f32of (fpMul (f32val a) (f32val b))

/-- One fused multiply-add: a·b + c rounded once. -/
def f32fma (a b c : Word) : Word := f32of (fpAdd (fpMul (f32val a) (f32val b)) (f32val c))

/-- The quotient of two magnitudes as an FP32-precise value: enough quotient bits and a sticky bit. -/
def ratioVal (neg : Bool) (n : Nat) (d : Nat) (e : Int) : FpVal :=
  let sh := 64 + Nat.log2 d
  let num := n <<< sh
  let q := num / d
  let sticky := if num % d = 0 then 0 else 1
  .fin neg (2 * q + sticky) (e - sh - 1)

/-- IEEE division rounded to nearest even. -/
def fpDiv (a b : FpVal) : FpVal :=
  match a, b with
  | .nan, _ => .nan
  | _, .nan => .nan
  | .inf _, .inf _ => .nan
  | .inf x, .fin n _ _ => .inf (x != n)
  | .fin n _ _, .inf y => .fin (n != y) 0 0
  | .fin na ma ea, .fin nb mb eb =>
    if mb = 0 then (if ma = 0 then .nan else .inf (na != nb))
    else if ma = 0 then .fin (na != nb) 0 0
    else ratioVal (na != nb) ma mb (ea - eb)

def f32div (a b : Word) : Word := f32of (fpDiv (f32val a) (f32val b))

/-- The integer square root, found bit by bit from bit k − 1 down. -/
def isqrtFrom : Nat → Nat → Nat → Nat
  | 0, r, _ => r
  | k + 1, r, n =>
    let r' := r + 2 ^ k
    isqrtFrom k (if r' * r' ≤ n then r' else r) n

def isqrt (n : Nat) : Nat := isqrtFrom (Nat.log2 n / 2 + 1) 0 n

/-- The square root of a value: NaN below zero, enough bits and a sticky bit otherwise. -/
def fpSqrt (a : FpVal) : FpVal :=
  match a with
  | .nan => .nan
  | .inf n => if n then .nan else .inf false
  | .fin n m e =>
    if m = 0 then .fin n 0 e
    else if n then .nan
    else
      let (m1, e1) := if e % 2 = 0 then (m, e) else (2 * m, e - 1)
      let k := 64
      let w := m1 <<< (2 * k)
      let r := isqrt w
      let sticky := if r * r = w then 0 else 1
      .fin false (2 * r + sticky) (e1 / 2 - k - 1)

def f32sqrt (a : Word) : Word := f32of (fpSqrt (f32val a))

/-- Whether a < b as values; false where either is a NaN. -/
def fpLt (a b : FpVal) : Bool :=
  match a, b with
  | .nan, _ => false
  | _, .nan => false
  | .inf x, .inf y => x && !y
  | .inf x, .fin .. => x
  | .fin .., .inf y => !y
  | .fin na ma ea, .fin nb mb eb =>
    let q := min ea eb
    decide (finAt na ma ea q < finAt nb mb eb q)

def fpLe (a b : FpVal) : Bool :=
  match a, b with
  | .nan, _ => false
  | _, .nan => false
  | x, y => !(fpLt y x)

def fpIsNan : FpVal → Bool
  | .nan => true
  | _ => false

def fpIsZero : FpVal → Bool
  | .fin _ m _ => m == 0
  | _ => false

def f32lt (a b : Word) : Bool := fpLt (f32val a) (f32val b)
def f32le (a b : Word) : Bool := fpLe (f32val a) (f32val b)
def f32isNan (a : Word) : Bool := fpIsNan (f32val a)
def f32neg (a : Word) : Word := a ^^^ 0x80000000#32
def f32abs (a : Word) : Word := a &&& 0x7FFFFFFF#32

/-- The FP32 number nearest to an integer. -/
def f32ofInt (n : Int) : Word := f32of (valOfInt n 0)

/-- A finite value rounded to an integer, ties to even (or stochastically, R133). -/
def roundInt (rd : Rounding) (n : Bool) (m : Nat) (e : Int) : Int :=
  let k : Int := roundAt rd m e 0
  if n then -k else k

/-- The greatest integer not above a finite value. -/
def floorInt (n : Bool) (m : Nat) (e : Int) : Int :=
  if 0 ≤ e then (if n then -((m <<< e.toNat : Nat) : Int) else ((m <<< e.toNat : Nat) : Int))
  else
    let k : Int := (m : Int) / (2 ^ (-e).toNat : Nat)
    if n then (if m % 2 ^ (-e).toNat = 0 then -k else -k - 1) else k

def clampInt (lo hi x : Int) : Int := max lo (min hi x)

/-- FP32 constants used by several chapters. -/
def f32one : Word := 0x3F800000#32
def f32zero : Word := 0#32
def f32nan : Word := 0x7FC00000#32

/-- The formats of R124 by code; 0xE and 0xF are undefined. -/
inductive NumFmt
  | e4m3 | e5m2 | mxe4m3 | mxe5m2 | mxe3m2 | mxe2m3 | mxe2m1 | mxint8 | bf16 | fp16 | int8 | int4 | fp32 | int32
  deriving DecidableEq, Repr

def numFmtOf (code : Nat) : Option NumFmt :=
  match code with
  | 0x0 => some .e4m3 | 0x1 => some .e5m2 | 0x2 => some .mxe4m3 | 0x3 => some .mxe5m2
  | 0x4 => some .mxe3m2 | 0x5 => some .mxe2m3 | 0x6 => some .mxe2m1 | 0x7 => some .mxint8
  | 0x8 => some .bf16 | 0x9 => some .fp16 | 0xA => some .int8 | 0xB => some .int4
  | 0xC => some .fp32 | 0xD => some .int32
  | _ => none

/-- Bits of one element in memory (R127). -/
def elemBits : NumFmt → Nat
  | .e4m3 | .e5m2 | .mxe4m3 | .mxe5m2 | .mxint8 | .int8 => 8
  | .mxe3m2 | .mxe2m3 => 6
  | .mxe2m1 | .int4 => 4
  | .bf16 | .fp16 => 16
  | .fp32 | .int32 => 32

def isMx : NumFmt → Bool
  | .mxe4m3 | .mxe5m2 | .mxe3m2 | .mxe2m3 | .mxe2m1 | .mxint8 => true
  | _ => false

def isIntFmt : NumFmt → Bool
  | .int8 | .int4 | .int32 => true
  | _ => false

/-- The rate class of a format: 4, 8 or 16 bits (R115). -/
def rateClass : NumFmt → Nat
  | .mxe2m1 | .int4 => 4
  | .bf16 | .fp16 => 16
  | .fp32 | .int32 => 32
  | _ => 8

/-- The float layout of a format's elements; none for integers. -/
def elemFloat : NumFmt → Option FpFmt
  | .e4m3 | .mxe4m3 => some fmtE4M3
  | .e5m2 | .mxe5m2 => some fmtE5M2
  | .mxe3m2 => some fmtE3M2
  | .mxe2m3 => some fmtE2M3
  | .mxe2m1 => some fmtE2M1
  | .bf16 => some fmtBF16
  | .fp16 => some fmtFP16
  | .fp32 => some fmtFP32
  | _ => none

/-- A two's complement number of n bits. -/
def sInt (n w : Nat) : Int := if w % 2 ^ n < 2 ^ (n - 1) then (w % 2 ^ n : Nat) else (w % 2 ^ n : Nat) - (2 ^ n : Nat)

/-- The value of one element, without its block's scale (R124: MXINT8 is element × 2⁻⁶). -/
def elemVal (f : NumFmt) (w : Nat) : FpVal :=
  match elemFloat f with
  | some ff => fpDecode ff w
  | none =>
    match f with
    | .mxint8 => valOfInt (sInt 8 w) (-6)
    | .int8 => valOfInt (sInt 8 w) 0
    | .int4 => valOfInt (sInt 4 w) 0
    | _ => valOfInt (sInt 32 w) 0

/-- The exponent of an E8M0 scale byte (R126); none is the NaN scale 0xFF. -/
def e8m0 (w : Nat) : Option Int := if w % 256 = 255 then none else some ((w % 256 : Nat) - 127)

/-- The flags of an output conversion. -/
structure ConvFlags where
  outSat : Bool := false
  nanOut : Bool := false
  deriving DecidableEq, Repr

def convOr (a b : ConvFlags) : ConvFlags := ⟨a.outSat || b.outSat, a.nanOut || b.nanOut⟩

/-- The canonical NaN of a float output format (R131). -/
def canonNan : NumFmt → Nat
  | .e4m3 => 0x7F
  | .e5m2 => 0x7E
  | .bf16 => 0x7FC0
  | .fp16 => 0x7E00
  | _ => 0x7FC00000

/-- An overflowing value in a float format (R131): the largest finite magnitude and OUT_SAT with OVF = 0;
infinity, or NaN in E4M3, with OVF = 1. -/
def overflowOut (f : NumFmt) (ff : FpFmt) (ovf neg : Bool) : Nat × ConvFlags :=
  if ovf then
    match ff.top with
    | .ieee => (withSign ff neg ((2 ^ ff.eb - 1) * 2 ^ ff.mb), ⟨false, false⟩)
    | _ => (canonNan f, ⟨false, true⟩)
  else (withSign ff neg (fmtMaxBits ff), ⟨true, false⟩)

/-- Conversion of a value to an element of a format without a shared scale (R130 step 4, R131). -/
def convertScalar (f : NumFmt) (ovf : Bool) (rd : Rounding) (v : FpVal) : Nat × ConvFlags :=
  match elemFloat f with
  | some ff =>
    match v with
    | .nan => (canonNan f, ⟨false, true⟩)
    | .inf n => overflowOut f ff ovf n
    | .fin n m e =>
      let b := roundBits ff rd m e
      if b > fmtMaxBits ff then overflowOut f ff ovf n else (withSign ff n b, ⟨false, false⟩)
  | none =>
    let bits := elemBits f
    let lo : Int := -(2 ^ (bits - 1) : Nat)
    let hi : Int := (2 ^ (bits - 1) : Nat) - 1
    let out (x : Int) : Nat × ConvFlags :=
      let c := clampInt lo hi x
      ((c % (2 ^ bits : Nat)).toNat, ⟨c ≠ x, false⟩)
    match v with
    | .nan => (0, ⟨false, true⟩)
    | .inf n => out (if n then lo - 1 else hi + 1)
    | .fin n m e => out (roundInt rd n m e)

/-- The largest exponent of an MX element format (R132). -/
def mxEmax : NumFmt → Int
  | .mxe4m3 => 8
  | .mxe5m2 => 15
  | .mxe3m2 => 4
  | .mxe2m3 => 2
  | .mxe2m1 => 2
  | _ => 0

/-- ⌊log₂ |v|⌋ of a finite non-zero value. -/
def floorLog2 : FpVal → Option Int
  | .fin _ m e => if m = 0 then none else some ((Nat.log2 m : Int) + e)
  | _ => none

/-- The greater of two optional exponents. -/
def optMax (a b : Option Int) : Option Int :=
  match a, b with
  | none, y => y
  | x, none => x
  | some x, some y => some (max x y)

/-- One element of an MX block whose scale exponent is X (R132): x·2⁻ˣ rounded and saturated. -/
def mxElem (f : NumFmt) (X : Int) (rd : Rounding) (v : FpVal) : Nat × ConvFlags :=
  match v with
  | .fin n m e =>
    match elemFloat f with
    | some ff =>
      let b := roundBits ff rd m (e - X)
      if b > fmtMaxBits ff then (withSign ff n (fmtMaxBits ff), ⟨true, false⟩)
      else (withSign ff n b, ⟨false, false⟩)
    | none =>
      let x := roundInt rd n m (e - X + 6)
      let c := clampInt (-128) 127 x
      ((c % 256).toNat, ⟨c ≠ x, false⟩)
  | _ => (0, ⟨false, true⟩)

/-- An MX output block (R131, R132): its scale byte, its elements and the flags. -/
def convertBlock (f : NumFmt) (vs : List (FpVal × Rounding)) : Nat × List Nat × ConvFlags :=
  let special := vs.any fun p => match p.1 with
    | .fin .. => false
    | _ => true
  if special then (0xFF, vs.map fun _ => 0, ⟨false, true⟩)
  else
    match (vs.map fun p => floorLog2 p.1).foldl optMax none with
    | none => (0x00, vs.map (fun p => (mxElem f (-127) p.2 p.1).1), ⟨false, false⟩)
    | some l =>
      let X := clampInt (-127) 127 (l - mxEmax f)
      let es := vs.map fun p => mxElem f X p.2 p.1
      ((X + 127).toNat, es.map Prod.fst, es.foldl (fun a e => convOr a e.2) {})

/-- One step of the 64-bit Galois LFSR of R134. -/
def lfsrStep (s : Nat) : Nat :=
  let t := s / 2
  if s % 2 = 1 then t ^^^ 0xD800000000000000 else t

/-- The generator's state after 16 steps: one output element (R134). -/
def lfsr16 (s : Nat) : Nat := (List.range 16).foldl (fun t _ => lfsrStep t) s

/-- The generator's first state (R134): JOB_SEED xor (SALT shl 48), or 1 where that is 0. -/
def lfsrSeed (jobSeed : DWord) (salt : Nat) : Nat :=
  let s := (jobSeed ^^^ BitVec.ofNat 64 (salt <<< 48)).toNat
  if s = 0 then 1 else s

/-- The rounding rule of every element of an output in raster order (R133, R134). -/
def roundings (stoch : Bool) : Nat → Nat → List Rounding
  | _, 0 => []
  | s, n + 1 =>
    if stoch then
      let t := lfsr16 s
      .stoch (t % 0x10000) :: roundings stoch t n
    else .rne :: roundings stoch s n

end Sys2Proof.Machine
end

