-- ==== Sys2Proof/Machine/MArith.lean ====
section
/-! DEFINITION. The arithmetic of the M-core: the fields of its descriptor (R136), tensor layout (R127), exact
block products and their accumulation (R128, R129), the drain (R130), direct convolution (R138), Winograd
(R141, R142), the nominal time (R139) and the RANGE conditions of a descriptor (R137). Operands are given as
functions from a byte offset inside the operand to a byte, so nothing here knows where the bytes came from. -/

namespace Sys2Proof.Machine

/-- Word i of a 64-byte descriptor (R136: 16 little-endian words). -/
def dw (d : List Word) (i : Nat) : Word := d.getD i 0

/-- Field [hi:lo] of word i of a descriptor. -/
def df (d : List Word) (i hi lo : Nat) : Nat := field (dw d i) hi lo

def ceilDiv (a b : Nat) : Nat := (a + b - 1) / b
def roundUp (a b : Nat) : Nat := ceilDiv a b * b

/-- Bytes from one row to the next: rows begin on 64-byte boundaries (R127). -/
def rowStride (f : NumFmt) (cols : Nat) : Nat := roundUp (ceilDiv (cols * elemBits f) 8) 64

/-- Where the scales of an MX tensor start: the next 256-byte boundary after its elements (R127). -/
def scaleStart (f : NumFmt) (rows cols : Nat) : Nat := roundUp (rows * rowStride f cols) 256

/-- The blocks of a row of an MX tensor (R126). A V-core tensor may have a last block of fewer than 32 elements: it has a scale of
its own (DESIGN CHOICE, log 66). -/
def rowBlocks (cols : Nat) : Nat := ceilDiv cols 32

/-- The bytes that staging moves for one tensor: elements and scales (R139). -/
def stagedBytes (f : NumFmt) (rows cols : Nat) : Nat :=
  rows * rowStride f cols + (if isMx f then rows * rowBlocks cols else 0)

/-- The extent of one tensor, from its first element byte to its last scale byte (R127). -/
def tensorExtent (f : NumFmt) (rows cols : Nat) : Nat :=
  if isMx f then scaleStart f rows cols + rows * rowBlocks cols else rows * rowStride f cols

/-- The distance between the groups of a grouped operand (R127). -/
def groupStride (extent : Nat) : Nat := roundUp extent 0x1000

/-- The element and the scale region of each group of an operand, as (address, bytes) (R127): the bytes between them are never
read. -/
def tensorRegions (f : NumFmt) (base rows cols groups : Nat) : List (Nat × Nat) :=
  (List.range groups).flatMap fun g =>
    let b := base + g * groupStride (tensorExtent f rows cols)
    (b, rows * rowStride f cols) :: (if isMx f then [(b + scaleStart f rows cols, rows * rowBlocks cols)] else [])

/-- A little-endian number of n bytes. -/
def leBytes (rd : Nat → Byte) (o : Nat) : Nat → Nat
  | 0 => 0
  | n + 1 => (rd o).toNat + 256 * leBytes rd (o + 1) n

/-- The bits of the element in a row that starts at byte o (R127: packing of 4-bit and 6-bit elements). -/
def readElem (rd : Nat → Byte) (f : NumFmt) (o col : Nat) : Nat :=
  let b := col * elemBits f
  let sh := b % 8
  (leBytes rd (o + b / 8) (ceilDiv (sh + elemBits f) 8) >>> sh) % 2 ^ elemBits f

/-- Element (row, col) of a tensor, as an exact value without its block's scale. -/
def tensorElem (rd : Nat → Byte) (f : NumFmt) (base cols row col : Nat) : FpVal :=
  elemVal f (readElem rd f (base + row * rowStride f cols) col)

/-- The scale exponent of the block of element (row, col): 0 for formats without a shared scale, none for the
NaN scale (R126). -/
def tensorScale (rd : Nat → Byte) (f : NumFmt) (base rows cols row col : Nat) : Option Int :=
  if isMx f then e8m0 (rd (base + scaleStart f rows cols + row * rowBlocks cols + col / 32)).toNat else some 0

/-- The value of element (row, col) with its scale; a NaN scale makes every element of the block a NaN. -/
def tensorVal (rd : Nat → Byte) (f : NumFmt) (base rows cols row col : Nat) : FpVal :=
  match tensorScale rd f base rows cols row col with
  | none => .nan
  | some x => fpScale (tensorElem rd f base cols row col) x

/-- Elements packed into bytes, lowest bits first (R127). -/
def packElems (bits : Nat) (es : List Nat) : List Byte :=
  let n := es.foldr (fun e acc => e % 2 ^ bits + acc * 2 ^ bits) 0
  (List.range (ceilDiv (es.length * bits) 8)).map fun i => BitVec.ofNat 8 (n >>> (8 * i))

/-- The flags of an M-core command, in the order of MC_LAST[19:16] (R156). -/
structure MFlags where
  outSat  : Bool := false
  accSat  : Bool := false
  nanOut  : Bool := false
  winoSat : Bool := false
  deriving DecidableEq, Repr

def mFlagsOr (a b : MFlags) : MFlags :=
  ⟨a.outSat || b.outSat, a.accSat || b.accSat, a.nanOut || b.nanOut, a.winoSat || b.winoSat⟩

def mFlagsOfConv (c : ConvFlags) : MFlags := ⟨c.outSat, false, c.nanOut, false⟩

/-- MC_LAST[19:16] (R156). -/
def mFlagBits (f : MFlags) : Nat :=
  f.outSat.toNat + 2 * f.accSat.toNat + 4 * f.nanOut.toNat + 8 * f.winoSat.toNat

/-- The fields of an M-core descriptor (R136). -/
structure MDesc where
  opcode : Nat
  mode   : Nat
  aSrc   : Nat
  bSrc   : Nat
  cDst   : Nat
  biasEn : Bool
  relu   : Bool
  zc     : Bool
  aFmt   : Nat
  bFmt   : Nat
  cFmt   : Nat
  round  : Nat
  ovf    : Bool
  salt   : Nat
  lo2    : Nat
  hi2    : Nat
  k      : Nat
  cOut   : Nat
  cIn    : Nat
  padR   : Nat
  padL   : Nat
  padB   : Nat
  padT   : Nat
  dilW   : Nat
  dilH   : Nat
  strW   : Nat
  strH   : Nat
  kw     : Nat
  kh     : Nat
  aAddr  : Nat
  bAddr  : Nat
  cAddr  : Nat
  biasAddr : Nat
  faceA  : Nat
  faceB  : Nat
  faceS  : Nat
  faceC  : Nat
  outMult : Word
  deriving DecidableEq, Repr

/-- A 44-bit address from a HI nibble and a LO word of address bits [39:8] (R136). -/
def addr44 (hi lo : Nat) : Nat := hi * 2 ^ 40 + lo * 256

/-- A descriptor's fields. A WINO3 kernel is 3 × 3 with stride 1 and dilation 1 (R138). -/
def mDesc (d : List Word) : MDesc :=
  let op := df d 0 23 16
  let wino := op = 3
  { opcode := op, mode := df d 0 15 14, aSrc := df d 0 13 12, bSrc := df d 0 11 10, cDst := df d 0 9 8
    biasEn := bit (dw d 0) 7, relu := bit (dw d 0) 6, zc := bit (dw d 0) 5
    aFmt := df d 1 31 28, bFmt := df d 1 27 24, cFmt := df d 1 23 20, round := df d 1 19 18
    ovf := bit (dw d 1) 17, salt := df d 1 15 0
    lo2 := df d 2 15 0, hi2 := df d 2 31 16, k := df d 3 16 0, cOut := df d 3 31 16, cIn := df d 3 15 0
    padR := df d 4 23 22, padL := df d 4 21 20, padB := df d 4 19 18, padT := df d 4 17 16
    dilW := if wino then 1 else df d 4 15 14 + 1, dilH := if wino then 1 else df d 4 13 12 + 1
    strW := if wino then 1 else df d 4 11 10 + 1, strH := if wino then 1 else df d 4 9 8 + 1
    kw := if wino then 3 else df d 4 7 4, kh := if wino then 3 else df d 4 3 0
    aAddr := addr44 (df d 8 3 0) (dw d 5).toNat, bAddr := addr44 (df d 8 7 4) (dw d 6).toNat
    cAddr := addr44 (df d 8 11 8) (dw d 7).toNat, biasAddr := addr44 (df d 8 15 12) (dw d 9).toNat
    faceA := df d 10 15 0 * 512, faceB := df d 10 31 16 * 512
    faceS := df d 11 31 16 * 512, faceC := df d 11 15 0 * 512
    outMult := dw d 12 }

/-- G of a GEMM stands where KH stands for a convolution (R136). -/
def mG (m : MDesc) : Nat := m.kh

/-- The number of sub-arrays of a mode (R117). -/
def subArrays (mode : Nat) : Nat := if mode = 0 then 1 else if mode = 1 then 2 else 4
def nPerSub (mode : Nat) : Nat := if mode = 2 then 256 else 512
def maxM (mode : Nat) : Nat := if mode = 0 then 2048 else 1024

/-- K per pass of a mode at a rate class (R117). -/
def kPerPass (mode rate : Nat) : Nat :=
  let k8 := if mode = 0 then 512 else 256
  if rate = 4 then 2 * k8 else if rate = 16 then k8 / 2 else k8

/-- The stored input rows and columns of a convolution (R138); none where they would not be positive: every input is then padding
(log 66). -/
def convIn (out str k dil pad0 pad1 : Nat) : Nat := (out - 1) * str + (k - 1) * dil + 1 - pad0 - pad1
def hIn (m : MDesc) : Nat := convIn m.hi2 m.strH m.kh m.dilH m.padT m.padB
def wIn (m : MDesc) : Nat := convIn m.lo2 m.strW m.kw m.dilW m.padL m.padR

/-- Winograd tiles down and across (R141). -/
def tilesH (m : MDesc) : Nat := ceilDiv m.hi2 4
def tilesW (m : MDesc) : Nat := ceilDiv m.lo2 4

/-- Rows and columns of A, B and C, of one group (R127: HWC order for convolutions). -/
def aRows (m : MDesc) : Nat := if m.opcode = 1 then m.lo2 else hIn m
def aCols (m : MDesc) : Nat := if m.opcode = 1 then m.k else wIn m * m.cIn
def bRows (m : MDesc) : Nat := if m.opcode = 1 then m.hi2 else if m.opcode = 2 then m.cOut else 36 * m.cOut
def bCols (m : MDesc) : Nat := if m.opcode = 1 then m.k else if m.opcode = 2 then m.kh * m.kw * m.cIn else m.cIn
def cRows (m : MDesc) : Nat := if m.opcode = 1 then m.lo2 else m.hi2
def cCols (m : MDesc) : Nat := if m.opcode = 1 then m.hi2 else m.lo2 * m.cOut
def mGroups (m : MDesc) : Nat := if m.opcode = 1 then mG m else 1
def biasCount (m : MDesc) : Nat := if m.opcode = 1 then m.hi2 else m.cOut

/-- The sum of the exact products of one block of 32 k, scaled by the blocks' exponents and rounded once to FP32
(R128). −0 starts the sum, so an exact zero is +0 unless every product is −0. -/
def blockSum (ps : List (FpVal × FpVal)) (xa xb : Option Int) : Word :=
  match xa, xb with
  | some x, some y =>
    f32of (fpScale ((ps.map fun p => fpMul p.1 p.2).foldl fpAdd (.fin true 0 0)) (x + y))
  | _, _ => f32nan

/-- The accumulator of one output of the float family (R129): FP32 additions in ascending k from +0. -/
def accFloat (blocks : List Word) : Word := blocks.foldl f32add 0

/-- The exact integer of a value with exponent 0. -/
def valInt : FpVal → Int
  | .fin n m e => if n then -((m <<< e.toNat : Nat) : Int) else ((m <<< e.toNat : Nat) : Int)
  | _ => 0

def satInt32 (x : Int) : Int := clampInt (-2147483648) 2147483647 x

/-- The accumulator of one output of the integer family (R129): saturating additions, and whether one
saturated (ACC_SAT). -/
def accInt (blocks : List Int) : Int × Bool :=
  blocks.foldl (fun a b => (satInt32 (a.1 + b), a.2 || decide (satInt32 (a.1 + b) ≠ a.1 + b))) (0, false)

/-- How the two operands of one output are addressed along k: element pair, scale of A, scale of B. -/
structure KAxis where
  pair : Nat → FpVal × FpVal
  xa   : Nat → Option Int
  xb   : Nat → Option Int

/-- What leaves the accumulator of one output: a value, and ACC_SAT. -/
inductive AccVal
  | f (w : Word)
  | i (n : Int)
  deriving DecidableEq, Repr

/-- The reduction of one output over K (R128, R129). -/
def reduceK (integer : Bool) (k : Nat) (ax : KAxis) : AccVal × Bool :=
  let blk (b : Nat) : List (FpVal × FpVal) := (List.range 32).map fun j => ax.pair (32 * b + j)
  if integer then
    let r := accInt ((List.range (k / 32)).map fun b => ((blk b).map fun p => valInt p.1 * valInt p.2).sum)
    (.i r.1, r.2)
  else
    (.f (accFloat ((List.range (k / 32)).map fun b => blockSum (blk b) (ax.xa (32 * b)) (ax.xb (32 * b)))), false)

/-- Steps 1 to 3 of the drain (R130): the value to convert, and ACC_SAT of an INT32 bias. -/
def drain (m : MDesc) (cInt32 : Bool) (acc : AccVal) (bias : Nat) : FpVal × Bool :=
  match acc with
  | .i n =>
    if cInt32 then
      let b := if m.biasEn then n + sInt 32 bias else n
      let x := satInt32 b
      let y := if m.relu && decide (x < 0) then 0 else x
      (valOfInt y 0, decide (x ≠ b))
    else
      let x1 := f32mul (f32ofInt n) m.outMult
      let x2 := if m.biasEn then f32add x1 (BitVec.ofNat 32 bias) else x1
      let x3 := if m.relu && f32lt x2 0 then 0 else x2
      (f32val x3, false)
  | .f w =>
    let x1 := f32mul w m.outMult
    let x2 := if m.biasEn then f32add x1 (BitVec.ofNat 32 bias) else x1
    let x3 := if m.relu && f32le x2 0 then 0 else x2
    (f32val x3, false)

/-- The values of one output group in raster order, each with the flags its accumulation raised; `keep` marks
the Winograd elements that are computed and then dropped (R134, R141). -/
structure OutElem where
  val   : FpVal
  acc   : Bool
  keep  : Bool := true

/-- The operands of a command: the bytes of A, B and the bias by offset from the operand's base. -/
structure MOperands where
  a    : Nat → Byte
  b    : Nat → Byte
  bias : Nat → Byte

/-- The formats of a descriptor; the undefined codes never pass R137. -/
def fmtOr (code : Nat) : NumFmt := (numFmtOf code).getD .fp32

def biasAt (m : MDesc) (o : MOperands) (g n : Nat) : Nat :=
  if m.biasEn then leBytes o.bias (g * groupStride (roundUp (4 * biasCount m) 64) + 4 * n) 4 else 0

/-- The output elements of a GEMM: group, row, column (R127, R128). -/
def gemmElems (m : MDesc) (o : MOperands) : List OutElem :=
  let fa := fmtOr m.aFmt; let fb := fmtOr m.bFmt; let int32 := fmtOr m.cFmt == .int32
  let sa := groupStride (tensorExtent fa m.lo2 m.k)
  let sb := groupStride (tensorExtent fb m.hi2 m.k)
  (List.range (mG m)).flatMap fun g => (List.range m.lo2).flatMap fun r => (List.range m.hi2).map fun n =>
    let ax : KAxis :=
      { pair := fun k => (tensorElem o.a fa (g * sa) m.k r k, tensorElem o.b fb (g * sb) m.k n k)
        xa := fun k => tensorScale o.a fa (g * sa) m.lo2 m.k r k
        xb := fun k => tensorScale o.b fb (g * sb) m.hi2 m.k n k }
    let acc := reduceK (isIntFmt fa) m.k ax
    let dr := drain m int32 acc.1 (biasAt m o g n)
    { val := dr.1, acc := acc.2 || dr.2 }

/-- The stored input coordinate of an output coordinate and a kernel coordinate; none in the padding (R138). -/
def convCoord (out str k dil pad size : Nat) : Option Nat :=
  let p := out * str + k * dil
  if p < pad then none else if p - pad < size then some (p - pad) else none

/-- The output elements of a direct convolution: output row, output column, channel (R138). -/
def convElems (m : MDesc) (o : MOperands) : List OutElem :=
  let fa := fmtOr m.aFmt; let fb := fmtOr m.bFmt; let int32 := fmtOr m.cFmt == .int32
  let kAll := m.kh * m.kw * m.cIn
  (List.range m.hi2).flatMap fun y => (List.range m.lo2).flatMap fun x => (List.range m.cOut).map fun n =>
    let src (k : Nat) : Option (Nat × Nat) :=
      match convCoord y m.strH (k / (m.kw * m.cIn)) m.dilH m.padT (hIn m),
            convCoord x m.strW (k / m.cIn % m.kw) m.dilW m.padL (wIn m) with
      | some h, some w => some (h, w * m.cIn + k % m.cIn)
      | _, _ => none
    let ax : KAxis :=
      { pair := fun k =>
          (match src k with
            | some (h, col) => tensorElem o.a fa 0 (aCols m) h col
            | none => .fin false 0 0,
           tensorElem o.b fb 0 kAll n k)
        xa := fun k => match src k with
          | some (h, col) => tensorScale o.a fa 0 (hIn m) (aCols m) h col
          | none => some 0
        xb := fun k => tensorScale o.b fb 0 m.cOut kAll n k }
    let acc := reduceK (isIntFmt fa) kAll ax
    let dr := drain m int32 acc.1 (biasAt m o 0 n)
    { val := dr.1, acc := acc.2 || dr.2 }

/-- The matrix Bᵀ of F(4×4, 3×3) (R141). -/
def winoBT : List (List Int) :=
  [[4, 0, -5, 0, 1, 0], [0, -4, -4, 1, 1, 0], [0, 4, -4, -1, 1, 0],
   [0, -2, -1, 2, 1, 0], [0, 2, -1, -2, 1, 0], [0, 4, 0, -5, 0, 1]]

/-- The matrix Aᵀ of F(4×4, 3×3) (R141). -/
def winoAT : List (List Int) :=
  [[1, 1, 1, 1, 1, 0], [0, 1, -1, 2, -2, 0], [0, 1, 1, 4, 4, 0], [0, 1, -1, 8, -8, 1]]

def matAt (m : List (List Int)) (i j : Nat) : Int := (m.getD i []).getD j 0

/-- A value rounded to FP16 to nearest even; beyond ±65,504 it becomes ±65,504 and sets WINO_SAT (R142). -/
def f16sat (v : FpVal) : FpVal × Bool :=
  match v with
  | .nan => (.nan, false)
  | .inf n => (fpDecode fmtFP16 (withSign fmtFP16 n 0x7BFF), true)
  | .fin n m e =>
    let b := roundBits fmtFP16 .rne m e
    if b > 0x7BFF then (fpDecode fmtFP16 (withSign fmtFP16 n 0x7BFF), true)
    else (fpDecode fmtFP16 (withSign fmtFP16 n b), false)

/-- The sum of the non-zero terms c·x in ascending index, each product and each addition rounded by `rnd`. -/
def termSum (rnd : FpVal → FpVal × Bool) (cs : List Int) (xs : List FpVal) : FpVal × Bool :=
  let terms := ((cs.zip xs).filter fun p => p.1 ≠ 0).map fun p => rnd (fpMul (valOfInt p.1 0) p.2)
  match terms with
  | [] => (.fin false 0 0, false)
  | t :: ts => ts.foldl (fun a b => let r := rnd (fpAdd a.1 b.1); (r.1, a.2 || b.2 || r.2)) t

def f32rnd (v : FpVal) : FpVal × Bool := (f32val (f32of v), false)

/-- V = BᵀdB of one 6 × 6 input tile, rounded to FP16 at every step (R142 step 1). -/
def winoInput (d : Nat → Nat → FpVal) (p q : Nat) : FpVal × Bool :=
  let t (j : Nat) := termSum f16sat (winoBT.getD p []) ((List.range 6).map fun i => d i j)
  let r := termSum f16sat (winoBT.getD q []) ((List.range 6).map fun j => (t j).1)
  (r.1, r.2 || (List.range 6).any fun j => matAt winoBT q j ≠ 0 && (t j).2)

/-- Y = AᵀmA of one tile in FP32 (R142 step 4). -/
def winoOutput (mm : Nat → Nat → FpVal) (i j : Nat) : FpVal :=
  let s (q : Nat) := (termSum f32rnd (winoAT.getD i []) ((List.range 6).map fun p => mm p q)).1
  (termSum f32rnd (winoAT.getD j []) ((List.range 6).map s)).1

/-- The input value at stored row h and column w of the padded tile grid, zero beyond the stored input (R141). -/
def winoIn (m : MDesc) (o : MOperands) (ty tx i j c : Nat) : FpVal :=
  match convCoord (4 * ty) 1 i 1 m.padT (hIn m), convCoord (4 * tx) 1 j 1 m.padL (wIn m) with
  | some h, some w => tensorElem o.a (fmtOr m.aFmt) 0 (aCols m) h (w * m.cIn + c)
  | _, _ => .fin false 0 0

/-- The requantised input block of one tile, position and 32-channel block: scale exponent and elements
(R142 step 2). -/
def winoVBlock (m : MDesc) (o : MOperands) (ty tx p q cb : Nat) : Option Int × List FpVal :=
  let vs := (List.range 32).map fun c => ((winoInput (fun i j => winoIn m o ty tx i j (32 * cb + c)) p q).1, Rounding.rne)
  let b := convertBlock .mxe4m3 vs
  (e8m0 b.1, b.2.1.map fun e => fpDecode fmtE4M3 e)

/-- m_ξ of one tile and output channel (R142 step 3). -/
def winoProduct (m : MDesc) (o : MOperands) (ty tx n p q : Nat) : FpVal :=
  let row := (6 * p + q) * m.cOut + n
  f32val (accFloat ((List.range (m.cIn / 32)).map fun cb =>
    let v := winoVBlock m o ty tx p q cb
    let us := (List.range 32).map fun c => tensorElem o.b .mxe4m3 0 m.cIn row (32 * cb + c)
    blockSum (v.2.zip us) v.1 (tensorScale o.b .mxe4m3 0 (36 * m.cOut) m.cIn row (32 * cb))))

/-- Whether any input transform of the command saturated (WINO_SAT, R142). -/
def winoSaturated (m : MDesc) (o : MOperands) : Bool :=
  (List.range (tilesH m)).any fun ty => (List.range (tilesW m)).any fun tx =>
    (List.range m.cIn).any fun c => (List.range 36).any fun z =>
      (winoInput (fun i j => winoIn m o ty tx i j c) (z / 6) (z % 6)).2

/-- The output elements of a WINO3 command over whole tiles, edge elements marked to be dropped (R141). -/
def winoElems (m : MDesc) (o : MOperands) : List OutElem :=
  (List.range (4 * tilesH m)).flatMap fun y => (List.range (4 * tilesW m)).flatMap fun x =>
    (List.range m.cOut).map fun n =>
      let y0 := winoOutput (fun p q => winoProduct m o (y / 4) (x / 4) n p q) (y % 4) (x % 4)
      let dr := drain m false (.f (f32of y0)) (biasAt m o 0 n)
      { val := dr.1, acc := dr.2, keep := y < m.hi2 && x < m.lo2 }

/-- One output row converted (R130 step 4, R131, R132): element bits, scale bytes and flags. -/
def convertRow (f : NumFmt) (ovf : Bool) : List (FpVal × Rounding) → Nat → List Nat × List Nat × ConvFlags
  | xs, 0 =>
    let es := xs.map fun p => convertScalar f ovf p.2 p.1
    (es.map Prod.fst, [], es.foldl (fun a e => convOr a e.2) {})
  | xs, n + 1 =>
    if isMx f then
      let b := convertBlock f (xs.take 32)
      let r := if n = 0 then ([], [], ({} : ConvFlags)) else convertRow f ovf (xs.drop 32) n
      (b.2.1 ++ r.1, b.1 :: r.2.1, convOr b.2.2 r.2.2)
    else convertRow f ovf xs 0

/-- Bytes to store, by offset from the base of C. -/
abbrev Stores := List (Nat × List Byte)

/-- One tensor of converted rows laid out under R127 from a base offset. -/
def layoutTensor (f : NumFmt) (base rows cols : Nat) (rs : List (List Nat × List Nat)) : Stores :=
  let rowsAt := (List.range rs.length).zip rs
  (rowsAt.map fun p => (base + p.1 * rowStride f cols, packElems (elemBits f) p.2.1)) ++
  (if isMx f then
    [(base + scaleStart f rows cols, (rs.flatMap Prod.snd).map fun x => BitVec.ofNat 8 x)]
   else [])

/-- A list cut into rows of n. -/
def rowsOf {α : Type} (n : Nat) : Nat → List α → List (List α)
  | 0, _ => []
  | k + 1, xs => xs.take n :: rowsOf n k (xs.drop n)

/-- The result of a command's arithmetic: what it stores, by offset from its destination; its output rows, for
a push; and its four flag bits, as the LAST register of its core class holds them. -/
structure KOut where
  stores : Stores
  rows   : List (List Byte)
  flags  : Nat
  deriving DecidableEq, Repr

/-- The whole command (R128 to R134): its elements in raster order, each converted with its own draw. -/
def mCompute (m : MDesc) (o : MOperands) (jobSeed : DWord) : KOut :=
  let f := fmtOr m.cFmt
  let es := if m.opcode = 1 then gemmElems m o else if m.opcode = 2 then convElems m o else winoElems m o
  let rnd := roundings (m.round = 1) (lfsrSeed jobSeed m.salt) es.length
  let kept := ((es.zip rnd).filter fun p => p.1.keep).map fun p => (p.1.val, p.2)
  let g := mGroups m
  let rows := rowsOf (cCols m) (g * cRows m) kept
  let conv := rows.map fun r => convertRow f m.ovf r (rowBlocks (cCols m))
  let ext := groupStride (tensorExtent f (cRows m) (cCols m))
  let grouped := rowsOf (cRows m) g (conv.map fun r => (r.1, r.2.1))
  let stores := ((List.range g).zip grouped).flatMap fun p => layoutTensor f (p.1 * ext) (cRows m) (cCols m) p.2
  let cf := conv.foldl (fun a r => convOr a r.2.2) {}
  { stores := stores
    rows := conv.map fun r => packElems (elemBits f) r.1
    flags := mFlagBits
      { outSat := cf.outSat, nanOut := cf.nanOut
        accSat := es.any fun e => e.acc
        winoSat := m.opcode = 3 && winoSaturated m o } }

/-- The form of one 64-byte granule under zero compression (R145): its length code. -/
def granuleCode (bits : Nat) (bytes : List Byte) : Nat :=
  let nz :=
    if bits = 16 then
      ((rowsOf 2 32 bytes).filter fun p => p.any (· ≠ 0)).length
    else (bytes.filter (· ≠ 0)).length
  let size := if bits = 16 then 4 + 2 * nz else 8 + nz
  if nz = 0 then 0 else if size ≤ 56 then ceilDiv size 8 else 8

/-- The rate class of a command: that of the wider operand (R116). -/
def mRate (m : MDesc) : Nat := max (rateClass (fmtOr m.aFmt)) (rateClass (fmtOr m.bFmt))

/-- The weight-load and row-streaming clocks of a list of passes, each (weight bytes, rows) (R139). -/
def arrayClocks : List (Nat × Nat) → Nat
  | [] => 0
  | [(_, r)] => r
  | (_, r) :: (w, r') :: rest => max r (ceilDiv w 2048) + arrayClocks ((w, r') :: rest)

/-- The passes of a command (R139); the products of WINO3 run at the 8-bit rate whatever its input (R142). -/
def mPasses (m : MDesc) : List (Nat × Nat) :=
  let kp := kPerPass m.mode (if m.opcode = 3 then 8 else mRate m)
  let bb := elemBits (fmtOr m.bFmt)
  let chunk (k i : Nat) : Nat := min kp (k - i * kp)
  if m.opcode = 3 then
    let sets := ceilDiv 36 (subArrays m.mode)
    let rows := tilesH m * tilesW m
    (List.range sets).flatMap fun s => (List.range (ceilDiv m.cIn kp)).map fun i =>
      let pos := min (subArrays m.mode) (36 - s * subArrays m.mode)
      (ceilDiv (pos * m.cOut * chunk m.cIn i * bb) 8, rows)
  else
    let k := bCols m
    let rows := if m.opcode = 1 then m.lo2 else m.hi2 * m.lo2
    (List.range (ceilDiv k kp)).map fun i => (ceilDiv (mGroups m * bRows m * chunk k i * bb) 8, rows)

/-- T_array of R139. -/
def mArrayClocks (m : MDesc) : Nat :=
  match mPasses m with
  | [] => 0
  | (w, r) :: ps => ceilDiv w 2048 + arrayClocks ((w, r) :: ps)

/-- T_in of R139. -/
def mInClocks (m : MDesc) : Nat :=
  ceilDiv (mGroups m * (stagedBytes (fmtOr m.aFmt) (aRows m) (aCols m) + stagedBytes (fmtOr m.bFmt) (bRows m) (bCols m)
    + (if m.biasEn then 4 * biasCount m else 0))) 1024

/-- T_out of R139. -/
def mOutClocks (m : MDesc) : Nat :=
  ceilDiv (mGroups m * stagedBytes (fmtOr m.cFmt) (cRows m) (cCols m)) 1024

/-- The nominal time of a command in array clocks (R139); a NOP takes 64. -/
def mClocks (m : MDesc) : Nat :=
  if m.opcode = 0 then 64
  else
    let lat := kPerPass m.mode 8 + nPerSub m.mode + 32 + (if m.opcode = 3 then 32 else 0)
    64 + max (mInClocks m) (max (mArrayClocks m) (mOutClocks m)) + lat

/-- Two byte ranges meet. -/
def rangesMeet (a la b lb : Nat) : Bool := decide (a < b + lb ∧ b < a + la)

/-- Whether some pair of a list of ranges overlaps. -/
def anyOverlap : List (Nat × Nat) → Bool
  | [] => false
  | (a, la) :: rest => rest.any (fun p => rangesMeet a la p.1 p.2) || anyOverlap rest

/-- The Face regions of a descriptor (R121): offset and extent of A, B, C and, with BIAS_EN, the bias. -/
def mFaceRegions (m : MDesc) : List (Nat × Nat) :=
  let ext (f : NumFmt) (r c : Nat) : Nat :=
    let e := tensorExtent f r c
    (mGroups m - 1) * groupStride e + e
  [(m.faceA, ext (fmtOr m.aFmt) (aRows m) (aCols m)), (m.faceB, ext (fmtOr m.bFmt) (bRows m) (bCols m)),
   (m.faceC, ext (fmtOr m.cFmt) (cRows m) (cCols m))] ++
  (if m.biasEn then
    [(m.faceS, (mGroups m - 1) * groupStride (roundUp (4 * biasCount m) 64) + roundUp (4 * biasCount m) 64)]
   else [])

/-- The shape conditions of R137. A WINO3 with C_IN, C_OUT, OUT_H or OUT_W of 0, for which its row states no condition, is rejected as
a GEMM or CONV of these is (DESIGN CHOICE, log 66). -/
def mShapeBad (m : MDesc) : Bool :=
  let subs := subArrays m.mode
  let nps := nPerSub m.mode
  if m.opcode = 1 then
    m.lo2 == 0 || decide (m.lo2 > maxM m.mode) || m.hi2 == 0 || decide (m.hi2 > nps) ||
      m.k == 0 || decide (m.k % 32 ≠ 0) || decide (m.k > 65536) || mG m == 0 || decide (mG m > subs)
  else if m.opcode = 2 then
    m.hi2 * m.lo2 == 0 || decide (m.hi2 * m.lo2 > maxM m.mode) || m.cIn == 0 || decide (m.cIn % 32 ≠ 0) ||
      decide (m.kh * m.kw * m.cIn > 65536) || m.cOut == 0 || decide (m.cOut > subs * nps) ||
      m.kh == 0 || m.kw == 0 || decide (m.kh > 7) || decide (m.kw > 7)
  else
    let fa := numFmtOf m.aFmt
    !(fa == some .e4m3 || fa == some .e5m2 || fa == some .fp16) || !(numFmtOf m.bFmt == some .mxe4m3) ||
      decide (m.padT > 1) || decide (m.padB > 1) || decide (m.padL > 1) || decide (m.padR > 1) ||
      m.cIn == 0 || decide (m.cIn % 32 ≠ 0) || m.cOut == 0 || decide (m.cOut > nps) ||
      m.hi2 == 0 || m.lo2 == 0 || decide (tilesH m * tilesW m * 36 * m.cOut > 1048576)

/-- The format conditions of R124, R125 and R137. -/
def mFormatBad (m : MDesc) : Bool :=
  match numFmtOf m.aFmt, numFmtOf m.bFmt, numFmtOf m.cFmt with
  | some a, some b, some k =>
    let noAB (x : NumFmt) : Bool := x == .fp32 || x == .int32
    noAB a || noAB b || k == .int4 || (isIntFmt a != isIntFmt b) || (isIntFmt k && !isIntFmt a) ||
      (m.round == 1 && (k == .fp32 || k == .int32)) ||
      (isMx k && decide ((if m.opcode = 1 then m.hi2 else m.cOut) % 32 ≠ 0)) ||
      (m.zc && (m.cDst == 1 || !(k == .e4m3 || k == .e5m2 || k == .int8 || k == .bf16 || k == .fp16)))
  | _, _, _ => true

/-- The RANGE conditions of R137 for an M-core descriptor of a defined opcode; LEVEL 0 and SIGNAL are judged with
the header that every class shares. -/
def mRangeBad (m : MDesc) : Bool :=
  if m.opcode = 0 then false
  else
    m.mode == 3 || decide (m.aSrc > 1) || decide (m.bSrc > 1) || decide (m.cDst > 1) || decide (m.round > 1) ||
      mFormatBad m || mShapeBad m ||
      (m.aSrc == 1 && m.opcode != 1 && decide ((m.kh - 1) * m.dilH > 16)) ||
      (mFaceRegions m).any (fun p => decide (p.1 + p.2 > 0x2000000)) || anyOverlap (mFaceRegions m) ||
      decide (mClocks m > 80000)

/-- The bits of each word that an M-core opcode names (R136, R685); every other bit is reserved. Where an operand comes from a receive
window, or C goes to a push channel, its word names [7:0] alone, and its HI nibble is not named (DEDUCED, log 66). -/
def mNamed (d : List Word) : List Word :=
  let m := mDesc d
  let w0nop : Word := 0xF0FF0018#32
  let tail : List Word := [0x3FFF#32, 0xFFFFFFFF#32, 0x3FFFFFFF#32]
  if m.opcode = 0 then [w0nop, 0, 0, 0, 0, 0, 0, 0, 0, 0, 0, 0, 0] ++ tail
  else
    let w1 : Word := if m.round = 0 then 0xFFFE0000#32 else 0xFFFEFFFF#32
    let w3 : Word := if m.opcode = 1 then 0x0001FFFF#32 else 0xFFFFFFFF#32
    let w4 : Word := if m.opcode = 1 then 0xF#32 else if m.opcode = 2 then 0x00FFFFFF#32 else 0x00FF0000#32
    let w5 : Word := if m.aSrc = 1 then 0xFF#32 else 0xFFFFFFFF#32
    let w6 : Word := if m.bSrc = 1 then 0xFF#32 else 0xFFFFFFFF#32
    let w7 : Word := if m.cDst = 1 then 0xFF#32 else 0xFFFFFFFF#32
    let w8 : Word := (if m.aSrc = 1 then 0 else 0xF#32) ||| (if m.bSrc = 1 then 0 else 0xF0#32) |||
      (if m.cDst = 1 then 0 else 0xF00#32) ||| 0xF000#32
    let w12 : Word := if numFmtOf m.cFmt = some .int32 then 0 else 0xFFFFFFFF#32
    [0xF0FFFFF8#32, w1, 0xFFFFFFFF#32, w3, w4, w5, w6, w7, w8, 0xFFFFFFFF#32, 0xFFFFFFFF#32, 0xFFFFFFFF#32, w12] ++ tail

end Sys2Proof.Machine
end

