-- ==== Sys2Proof/Machine/FArith.lean ====
section
/-! DEFINITION. The arithmetic of the F-cores (Iris, chapter 08): the descriptor (R332), LIFT (R329), VOXEL (R330), CHAN
(R331), and what R333 judges. -/

namespace Sys2Proof.Machine

/-- The fields of an F-core descriptor (R332). -/
structure FDesc where
  opcode  : Nat
  slot    : Nat
  first   : Bool
  last    : Bool
  planes  : Bool
  inFmt   : Nat
  outFmt  : Nat
  round   : Nat
  ovf     : Bool
  salt    : Nat
  band0   : Nat
  bandRows : Nat
  ch      : Nat
  featRows : Nat
  featCols : Nat
  points  : Nat
  featRow0 : Nat
  entries : Nat
  inAddr  : Nat
  tabAddr : Nat
  accAddr : Nat
  outAddr : Nat
  paramAddr : Nat
  deriving DecidableEq, Repr

def fDesc (d : List Word) : FDesc :=
  { opcode := df d 0 23 16, slot := df d 0 15 8, first := bit (dw d 0) 2, last := bit (dw d 0) 1, planes := bit (dw d 0) 0
    inFmt := df d 1 31 28, outFmt := df d 1 23 20, round := df d 1 19 18, ovf := bit (dw d 1) 17, salt := df d 1 15 0
    band0 := df d 2 31 23, bandRows := df d 2 22 16, ch := df d 2 15 0
    featRows := df d 3 31 16, featCols := df d 3 15 0, points := df d 3 16 0
    featRow0 := df d 4 31 16, entries := df d 4 15 0
    inAddr := addr44 (df d 9 7 4) (dw d 5).toNat, tabAddr := addr44 (df d 9 11 8) (dw d 6).toNat
    accAddr := addr44 (df d 9 15 12) (dw d 7).toNat, outAddr := addr44 (df d 9 19 16) (dw d 8).toNat
    paramAddr := addr44 (df d 11 3 0) (dw d 10).toNat }

/-- The inputs of an F-core command: each operand's bytes by offset from its address. -/
structure FOperands where
  inp   : Nat → Byte
  tab   : Nat → Byte
  acc   : Nat → Byte
  param : Nat → Byte

def ldWord (rd : Nat → Byte) (o : Nat) : Word := BitVec.ofNat 32 (leBytes rd o 4)

/-- The voxels of a command's band (R327). -/
def bandVoxels (f : FDesc) : Nat := f.bandRows * 8192

/-- One entry of a lift table (R328). -/
structure LiftEntry where
  voxel : Nat
  u     : Nat
  v     : Nat
  deriving DecidableEq, Repr

def liftEntry (rd : Nat → Byte) (i : Nat) : LiftEntry :=
  ⟨leBytes rd (8 * i) 4 % 2 ^ 22, leBytes rd (8 * i + 4) 2, leBytes rd (8 * i + 6) 2⟩

/-- Whether an entry is applied: its voxel in the band, its two rows among the staged rows (R329). -/
def liftIn (f : FDesc) (e : LiftEntry) : Bool :=
  let r := e.v / 16
  decide (f.band0 * 8192 ≤ e.voxel ∧ e.voxel < f.band0 * 8192 + bandVoxels f ∧ f.featRow0 ≤ r ∧ r + 1 < f.featRow0 + f.featRows)

/-- The bilinear value of one channel at an entry's place (R329). -/
def liftValue (f : FDesc) (o : FOperands) (e : LiftEntry) (ch : Nat) : Word :=
  let fmt := fmtOr f.inFmt
  let c0 := min (e.u / 16) (f.featCols - 1)
  let c1 := min (e.u / 16 + 1) (f.featCols - 1)
  let r0 := e.v / 16 - f.featRow0
  let a := e.u % 16
  let b := e.v % 16
  let px (r c : Nat) : FpVal := elemVal fmt (readElem o.inp fmt 0 ((r * f.featCols + c) * f.ch + ch))
  let term (w r c : Nat) : Word := f32of (fpMul (.fin false w (-8)) (px r c))
  let s0 := term ((16 - a) * (16 - b)) r0 c0
  let s1 := f32add s0 (term (a * (16 - b)) r0 c1)
  let s2 := f32add s1 (term ((16 - a) * b) (r0 + 1) c0)
  f32add s2 (term (a * b) (r0 + 1) c1)

/-- The accumulator's first value of a channel or, at index CH, of the count (R329, R330). -/
def accStart (f : FDesc) (o : FOperands) (start : Word) (vox i : Nat) : Word :=
  if f.first then (if i = f.ch then 0 else start)
  else ldWord o.acc (((vox - f.band0 * 8192) * (f.ch + 1) + i) * 4)

/-- A voxel's CH values and count after LIFT. -/
def liftVoxel (f : FDesc) (o : FOperands) (es : List LiftEntry) (vox : Nat) : List Word :=
  let mine := es.filter fun e => e.voxel == vox
  (List.range (f.ch + 1)).map fun i =>
    mine.foldl (fun x e => f32add x (if i = f.ch then f32one else liftValue f o e i)) (accStart f o 0 vox i)

/-- The voxel of a point (R330); none outside the grid. -/
def pointVoxel (o : FOperands) (i : Nat) : Option Nat :=
  let x := ldWord o.inp (16 * i)
  let y := ldWord o.inp (16 * i + 4)
  let z := ldWord o.inp (16 * i + 8)
  let fl (w : Word) : Option Int := match f32val w with
    | .fin n m e => some (floorInt n m e)
    | _ => none
  let five : Word := 0x40A00000#32
  match fl (f32mul (f32sub x (ldWord o.param 0)) five), fl (f32mul (f32sub y (ldWord o.param 4)) five),
      fl (f32div (f32sub z (ldWord o.param 8)) (ldWord o.param 12)) with
  | some c, some r, some b =>
    if 0 ≤ c ∧ c < 512 ∧ 0 ≤ r ∧ r < 512 ∧ 0 ≤ b ∧ b < 16 then some ((r.toNat * 512 + c.toNat) * 16 + b.toNat) else none
  | _, _, _ => none

def inBand (f : FDesc) (vox : Nat) : Bool := decide (f.band0 * 8192 ≤ vox ∧ vox < f.band0 * 8192 + bandVoxels f)

/-- The maximum of two FP32 values; a NaN wins (R330). -/
def maxNan (a b : Word) : Word :=
  if f32isNan a then f32nan else if f32isNan b then f32nan else if f32lt a b then b else a

/-- A voxel's CH values and count after VOXEL. -/
def poolVoxel (f : FDesc) (o : FOperands) (pts : List (Nat × Nat)) (vox : Nat) : List Word :=
  let fmt := fmtOr f.inFmt
  let mine := pts.filter fun p => p.2 == vox
  (List.range (f.ch + 1)).map fun i =>
    mine.foldl (fun x p =>
      if i = f.ch then f32add x f32one
      else maxNan x (f32of (elemVal fmt (readElem o.tab fmt 0 (p.1 * f.ch + i))))) (accStart f o 0xFF800000#32 vox i)

/-- The values that a voxel's accumulator gives at LAST = 1: the mean of LIFT, the maximum of VOXEL; +0 for no count. -/
def lastValues (f : FDesc) (acc : List Word) : List Word :=
  let count := acc.getD f.ch 0
  (acc.take f.ch).map fun x => if f32val count = .fin false 0 0 ∨ fpIsZero (f32val count) then 0 else if f.opcode = 1 then f32div x count else x

def fle32 (w : Word) : List Byte := [w.setWidth 8, (w >>> 8).setWidth 8, (w >>> 16).setWidth 8, (w >>> 24).setWidth 8]

/-- What an F-core command writes at OUT, its flags and its counts (R351 slots 3 to 6). -/
structure FOut where
  bytes  : List Byte
  flags  : Nat
  counts : List (Nat × Nat)
  deriving DecidableEq, Repr

/-- LIFT and VOXEL over the whole band: the accumulator, or the finished elements, voxel by voxel. -/
def fGrid (f : FDesc) (acc : Nat → List Word) (jobSeed : DWord) : List Byte × ConvFlags :=
  let voxels := (List.range (bandVoxels f)).map fun i => acc (f.band0 * 8192 + i)
  if !f.last then (voxels.flatMap fun v => v.flatMap fle32, {})
  else
    let fmt := fmtOr f.outFmt
    let xs := voxels.flatMap (lastValues f)
    let rnd := roundings (f.round = 1) (lfsrSeed jobSeed f.salt) xs.length
    let es := (xs.zip rnd).map fun p => convertScalar fmt f.ovf p.2 (f32val p.1)
    (packElems (elemBits fmt) (es.map Prod.fst), es.foldl (fun a e => convOr a e.2) {})

/-- LIFT (R329). -/
def liftCompute (f : FDesc) (o : FOperands) (jobSeed : DWord) : FOut :=
  let es := (List.range f.entries).map (liftEntry o.tab)
  let live := es.filter (liftIn f)
  let g := fGrid f (liftVoxel f o live) jobSeed
  let skipped := es.length - live.length
  { bytes := g.1, flags := g.2.outSat.toNat + 2 * g.2.nanOut.toNat + 4 * (decide (skipped > 0)).toNat
    counts := [(3, live.length), (4, skipped)] }

/-- VOXEL (R330). -/
def voxelCompute (f : FDesc) (o : FOperands) (jobSeed : DWord) : FOut :=
  let all := (List.range f.points).map fun i => (i, pointVoxel o i)
  let live := all.filterMap fun p => match p.2 with
    | some v => if inBand f v then some (p.1, v) else none
    | none => none
  let g := fGrid f (poolVoxel f o live) jobSeed
  let fmt := fmtOr f.inFmt
  let nan := live.any fun p => (List.range f.ch).any fun c => fpIsNan (elemVal fmt (readElem o.tab fmt 0 (p.1 * f.ch + c)))
  let out := all.length - live.length
  { bytes := g.1, flags := g.2.outSat.toNat + 2 * (g.2.nanOut || nan).toNat + 8 * (decide (out > 0)).toNat
    counts := [(5, live.length), (6, out)] }

/-- One entry of an instant table, as CHAN reads it (R324). -/
structure ChanEntry where
  slot   : Nat
  health : Nat
  age    : Nat
  deriving DecidableEq, Repr

def chanEntries (rd : Nat → Byte) : List ChanEntry :=
  (List.range (leBytes rd 24 2)).map fun i =>
    let o := 64 + 16 * i
    ⟨leBytes rd o 1, leBytes rd (o + 2) 2, leBytes rd (o + 8) 4⟩

/-- The record of one cell (R331). -/
structure CellRec where
  cover    : Nat
  ageMax   : Nat
  degraded : Nat
  deriving DecidableEq, Repr

def bitsOf (f : Nat → Bool) : Nat := ((List.range 24).map fun s => if f s then 2 ^ s else 0).sum

def chanCell (o : FOperands) (es : List ChanEntry) (present cell : Nat) : CellRec :=
  let covers (s : Nat) : Bool := (o.param (s * 0x8000 + cell / 8)).getLsbD (cell % 8) && present.testBit s
  let cov := bitsOf covers
  let ages := (es.filter fun e => cov.testBit e.slot).map fun e => e.age
  { cover := cov
    ageMax := if cov = 0 then 0 else min 255 (ages.foldl max 0 / 1000)
    degraded := bitsOf fun s => covers s && es.any fun e => e.slot == s && (e.health &&& 0xFDFF) != 0 }

def popCount (n : Nat) : Nat := ((List.range 24).filter fun i => n.testBit i).length

/-- CHAN (R331): the cell records, then the three planes where PLANES = 1. -/
def chanCompute (f : FDesc) (o : FOperands) : FOut :=
  let present := leBytes o.tab 16 4 % 2 ^ 24
  let es := chanEntries o.tab
  let cells := (List.range 262144).map (chanCell o es present)
  let recs := cells.flatMap fun c =>
    (List.range 8).map fun i => BitVec.ofNat 8 ((c.cover + c.ageMax * 2 ^ 24 + c.degraded * 2 ^ 32) >>> (8 * i))
  let bf (n d : Nat) : Nat := (convertScalar .bf16 false .rne (ratioVal false n d 0)).1
  let plane (g : CellRec → Nat) : List Byte := packElems 16 (cells.map g)
  let planes := if f.planes then
      plane (fun c => bf (popCount c.cover) 1) ++ plane (fun c => bf c.ageMax 1000) ++ plane (fun c => bf (popCount c.degraded) 1)
    else []
  { bytes := recs ++ planes, flags := 0, counts := [] }

/-- The nominal time in clocks (R333). -/
def fClocks (f : FDesc) : Nat :=
  let acc := bandVoxels f * (f.ch + 1) * 4
  let eb := elemBits (fmtOr f.inFmt) / 8
  let out := if f.last then bandVoxels f * f.ch * (elemBits (fmtOr f.outFmt) / 8) else acc
  let load := if f.first then 0 else acc
  match f.opcode with
  | 1 => 64 + max (ceilDiv (load + f.entries * 8 + f.featRows * f.featCols * f.ch * eb) 1024)
      (max (f.entries * ceilDiv f.ch 32) (ceilDiv out 1024)) + 96
  | 2 => 64 + max (ceilDiv (load + f.points * (16 + f.ch * eb)) 1024) (max (f.points * ceilDiv f.ch 32) (ceilDiv out 1024)) + 96
  | 3 => 64 + max (ceilDiv (25 * 32768) 1024) (max 16384 (ceilDiv (0x200000 + if f.planes then 3 * 524288 else 0) 1024)) + 96
  | _ => 64 + 96

/-- The RANGE conditions of R333 for a defined opcode. -/
def fRangeBad (f : FDesc) : Bool :=
  let eb := elemBits (fmtOr f.inFmt) / 8
  if f.opcode = 0 then false
  else if f.opcode = 3 then decide (fClocks f > 80000)
  else
    !(f.inFmt == 0 || f.inFmt == 8) || !(f.outFmt == 0 || f.outFmt == 8 || f.outFmt == 0xC) || decide (f.round > 1) ||
      (f.round == 1 && f.outFmt == 0xC) || f.bandRows == 0 || decide (f.bandRows > 64) || decide (f.band0 + f.bandRows > 512) ||
      f.ch == 0 || decide (f.ch > 256) || decide (bandVoxels f * (f.ch + 1) > 2097152) ||
      (f.opcode == 1 && (f.entries == 0 || decide (f.featRows * f.featCols * f.ch * eb + f.entries * 8 > 0x800000))) ||
      (f.opcode == 2 && (f.points == 0 || decide (f.points > 65536) || decide (f.points * (16 + f.ch * eb) > 0x800000))) ||
      decide (fClocks f > 80000)

/-- The bits of each word that an F-core opcode names (R332, R685). -/
def fNamed (d : List Word) : List Word :=
  let f := fDesc d
  let full : Word := 0xFFFFFFFF#32
  let tail : List Word := [0x3FFF#32, full, 0x3FFFFFFF#32]
  let w1 : Word := 0xF0FE0000#32 ||| (if f.round = 0 then 0 else 0xFFFF#32)
  match f.opcode with
  | 1 => [0xF0FFFF1E#32, w1, full, full, full, full, full, full, full, 0xFFFF0#32, 0, 0, 0] ++ tail
  | 2 => [0xF0FFFF1E#32, w1, full, 0x1FFFF#32, 0, full, full, full, full, 0xFFFF0#32, full, 0xF#32, 0] ++ tail
  | 3 => [0xF0FFFF19#32, 0, 0, 0, 0, 0, full, 0, full, 0xF0F00#32, full, 0xF#32, 0] ++ tail
  | _ => [0xF0FF0018#32, 0, 0, 0, 0, 0, 0, 0, 0, 0, 0, 0, 0] ++ tail

end Sys2Proof.Machine
end

