-- ==== Sys2Proof/Config.lean ====
section
/-! DEFINITION. The values that the spec leaves open and that no step may choose: constants without a body, so
nothing can evaluate them or prove a value of them. Each is named in the assumption log. -/

namespace Sys2Proof

/-- The n-th value that the manual calls undefined, or leaves open, in a run (R15); log 6. -/
opaque Config.freeWord : Nat → DWord

/-- The fixed V-core algorithms of R198, by SUBOP of MAP and compute type, as a function of the input: the candidate that the error
bound admits or replaces (Machine/Enclose.lean); log 7. -/
opaque Config.vFunc : Nat → Nat → Word → Word

/-- The exact result, before it saturates, of a V-core operation with CT INT32 that the spec defines by real arithmetic (R200), as a
function of the descriptor's opcode, SUBOP, α, β and ε, of the input integers that it combines, and of the element's place; log 20. -/
opaque Config.vOpen : List Nat → List Int → Nat → Int

/-- The demand of the PI servo (R67), in units of 2⁻³² ppm, for a measured offset, the sum of the offsets that the servo has been
given, the FREQ_ADJ in force and the number of the measurement; log 8. -/
opaque Config.servoDemand : Int → Int → Int → Nat → Int

/-- The fixed algorithms EXP and LN of the A-cores (R274), as functions of their input: the candidates of R274's bound; log 7. -/
opaque Config.aExp : Word → Word
opaque Config.aLn : Word → Word

/-- The fixed algorithms SIN and COS of the T-cores (R335), as functions of their input: the candidates of R335's bound; log 7. -/
opaque Config.tSin : Word → Word
opaque Config.tCos : Word → Word

/-- The wrap of an angle into (−π, π] (R335) for an angle outside that range; log 7. -/
opaque Config.tWrap : Word → Word

/-- Whether a solve of ASSIGN with a cost above 0x0F_FFFF reaches its limit of clocks (R339), by ROWS, COLS, MISS_COST and the words of the
matrix; log 35. -/
opaque Config.assignSlow : Nat → Nat → Nat → List Word → Bool

/-- The nominal duration of a primitive whose LEN and V_NOM give no number (R364); log 9. -/
opaque Config.planDuration : Word → Word → Nat

/-- The place of a NaN among the keys and costs that SELECT orders (R371); log 9. -/
opaque Config.nanRank : Int

/-- The Q16.16 reference that a NaN of the trajectory gives (R404); log 9. -/
opaque Config.fxNan : Word

/-- The bytes of the keys, seeds and hashes that are fixed at manufacture (R483), by kind and place; log 10. -/
opaque Config.fused : Nat → Nat → Byte

end Sys2Proof
end

