-- ==== Sys2Proof/Machine/Enclose.lean ====
section
/-! DEFINITION. The error bounds of the fixed algorithms (R198, R274, R335): rational bounds on the exact value of each function, and
the choice that they leave: a candidate within the stated number of units in the last place of the exact value is the result; any other
candidate gives the exact value rounded to nearest even. -/

namespace Sys2Proof.Machine

/-- A real number that lies between lo·2^q and hi·2^q. -/
structure Enc where
  lo : Int
  hi : Int
  q  : Int
  deriving DecidableEq, Repr

/-- The exponent of one unit in the last place of a format at an exact value. -/
def ulpExp (f : FpFmt) (x : Enc) : Int :=
  if x.lo = 0 then fmtQmin f else max (fmtQmin f) ((Nat.log2 x.lo.natAbs : Int) + x.q - f.mb)

/-- n·2^e in multiples of 2^q, q ≤ e. -/
def atExp (n e q : Int) : Int := n * 2 ^ (e - q).toNat

/-- Whether a value lies within b units in the last place of the exact one. -/
def withinUlps (f : FpFmt) (b : Int) (x : Enc) (v : FpVal) : Bool :=
  match v with
  | .fin s m e =>
    let u := ulpExp f x
    let q := min e (min x.q u)
    let n : Int := if s then -(m : Int) else m
    decide (atExp x.lo x.q q - b * atExp 1 u q ≤ atExp n e q ∧ atExp n e q ≤ atExp x.hi x.q q + b * atExp 1 u q)
  | _ => false

/-- The bits of a fixed algorithm's result: the candidate within its bound; where the function has no finite exact value, the candidate
as it is. -/
def boundedBits (f : FpFmt) (b : Int) (exact : Option Enc) (cand : Nat) : Nat :=
  match exact with
  | none => cand
  | some x => if withinUlps f b x (fpDecode f cand) then cand else fpEncodeIeee f (.fin (x.lo < 0) x.lo.natAbs x.q)

/-! ### Exact values, in multiples of 2⁻¹⁶⁰ -/

def fx160 : Int := 2 ^ 160
def ln2Fx : Int := 1013035739299659071135698605846798551586536899366
def geluFx : Int := 2332219184028872162936766921774799528781383630017

/-- A finite value in multiples of 2⁻¹⁶⁰, kept within ±4,096: beyond it every function here has its value at the limit. -/
def fxOf (neg : Bool) (m : Nat) (e : Int) : Int :=
  let n : Int := if e ≥ 0 ∧ m ≠ 0 ∧ e > 16 then 2 ^ 173 else if e + 160 ≥ 0 then (m : Int) * 2 ^ (e + 160).toNat else (m : Int) / 2 ^ (-(e + 160)).toNat
  clampInt (-(2 ^ 172)) (2 ^ 172) (if neg then -n else n)

/-- The sum of k terms of the series of exp from term t of index n on. -/
def expSeries (r : Int) : Nat → Nat → Int → Int
  | 0, _, _ => 0
  | k + 1, n, t => t + expSeries r k (n + 1) (t * r / (fx160 * (n + 1)))

/-- exp(x). -/
def expEnc (x : Int) : Enc :=
  let k := x / ln2Fx
  let m := expSeries (x - k * ln2Fx) 48 0 fx160
  ⟨m - 2 ^ 20, m + 2 ^ 20, k - 160⟩

/-- The sum x·(2^160 + …) of an enclosure of a number of at most 1 added to 1, in multiples of 2⁻¹⁶⁰. -/
def onePlus (x : Enc) : Int × Int :=
  if x.q + 160 ≥ 0 then (fx160 + x.lo * 2 ^ (x.q + 160).toNat, fx160 + x.hi * 2 ^ (x.q + 160).toNat)
  else (fx160 + x.lo / 2 ^ (-(x.q + 160)).toNat, fx160 + x.hi / 2 ^ (-(x.q + 160)).toNat + 1)

/-- 1 / (1 + exp(−t)), as exp(t) / (1 + exp(t)) below 0. -/
def sigEnc (t : Int) : Enc :=
  if t ≥ 0 then
    let d := onePlus (expEnc (-t))
    ⟨2 ^ 320 / d.2, 2 ^ 320 / d.1 + 1, -160⟩
  else
    let x := expEnc t
    let d := onePlus x
    ⟨x.lo * fx160 / d.2, x.hi * fx160 / d.1 + 1, x.q⟩

/-- A bound times an exact value. -/
def encScale (x : Enc) (neg : Bool) (m : Nat) (e : Int) : Enc :=
  if neg then ⟨-(x.hi * m), -(x.lo * m), x.q + e⟩ else ⟨x.lo * m, x.hi * m, x.q + e⟩

def encNeg (x : Enc) : Enc := ⟨-x.hi, -x.lo, x.q⟩

/-- tanh of a magnitude; below 2⁻¹² it lies within x·(1 − 2⁻²⁶) and x. -/
def tanhEnc (m : Nat) (e : Int) : Enc :=
  if m = 0 then ⟨0, 0, 0⟩
  else if (Nat.log2 m : Int) + e < -13 then ⟨(m : Int) * (2 ^ 26 - 1), (m : Int) * 2 ^ 26, e - 26⟩
  else
    let x := expEnc (-2 * fxOf false m e)
    let d := onePlus x
    let a := 2 * fx160 - d.2
    let b := 2 * fx160 - d.1
    ⟨a * fx160 / d.2, b * fx160 / d.1 + 1, -160⟩

/-- The integer square root by its bits. -/
def sqrtBits (n : Nat) : Nat → Nat → Nat
  | 0, r => r
  | b + 1, r => if (r + 2 ^ b) * (r + 2 ^ b) ≤ n then sqrtBits n b (r + 2 ^ b) else sqrtBits n b r

/-- 1 / √(m·2^e). -/
def rsqrtEnc (m : Nat) (e : Int) : Enc :=
  let m' := if e % 2 = 0 then m else 2 * m
  let e' := if e % 2 = 0 then e else e - 1
  let r := sqrtBits (2 ^ 400 / m') 202 0
  ⟨r, r + 1, -(e' / 2) - 200⟩

/-- 2·√(2/π)·(x + 0.044715·x³): the argument of the sigmoid in the tanh form of GELU. -/
def geluArg (x : Int) : Int :=
  let y := clampInt (-(2 ^ 166)) (2 ^ 166) x
  clampInt (-(2 ^ 172)) (2 ^ 172) ((y + y * y / fx160 * y / fx160 * 44715 / 1000000) * geluFx / fx160)

/-- The exact value of a function of MAP by SUBOP (R200), where it is finite. -/
def vExact (sub : Nat) (v : FpVal) : Option Enc :=
  match v with
  | .fin s m e =>
    let x := fxOf s m e
    match sub with
    | 2 => some (encScale (sigEnc (geluArg x)) s m e)
    | 3 => some (encScale (sigEnc x) s m e)
    | 4 => some (sigEnc x)
    | 5 => some (if s then encNeg (tanhEnc m e) else tanhEnc m e)
    | 6 => some (expEnc x)
    | 7 =>
      if m = 0 then none
      else
        let r : Enc := ⟨2 ^ 200 / m, 2 ^ 200 / m + 1, -e - 200⟩
        some (if s then encNeg r else r)
    | _ => if s || m == 0 then none else some (rsqrtEnc m e)
  | _ => none

/-- The sum of k terms t²ⁿ⁺¹/(2n + 1) of the series of atanh from index n on. -/
def atanhSeries (t : Int) : Nat → Nat → Int → Int
  | 0, _, _ => 0
  | k + 1, n, p => p / (2 * n + 1) + atanhSeries t k (n + 1) (p * t / fx160 * t / fx160)

/-- ln of a positive finite value (R274). -/
def lnExact (v : FpVal) : Option Enc :=
  match v with
  | .fin false m e =>
    if m = 0 then none
    else
      let l := Nat.log2 m
      let y : Int := (m : Int) * 2 ^ 160 / 2 ^ l
      let t := (y - fx160) * fx160 / (y + fx160)
      let r := 2 * atanhSeries t 56 0 t + ((l : Int) + e) * ln2Fx
      some (if r = 0 ∧ m = 2 ^ l ∧ (l : Int) + e = 0 then ⟨0, 0, 0⟩ else ⟨r - 2 ^ 20, r + 2 ^ 20, -160⟩)
  | _ => none

/-! ### SIN and COS (R335), in multiples of 2⁻³²⁰ -/

def fx320 : Int := 2 ^ 320
def piFx : Int := 6710401180212168915155840974220003240804194089427148950727106424351713218671805380099500388914039

/-- The sum of k terms of the alternating series of sine or cosine from term t of index n on. -/
def trigSeries (r : Int) : Nat → Nat → Int → Int
  | 0, _, _ => 0
  | k + 1, n, t => t + trigSeries r k (n + 2) (-(t * r / fx320 * r / (fx320 * ((n + 1) * (n + 2)))))

/-- A finite value in multiples of 2⁻³²⁰ less a multiple of 2π. -/
def trigArg (neg : Bool) (m : Nat) (e : Int) : Int :=
  let n : Int := if e + 320 ≥ 0 then (m : Int) * 2 ^ (e + 320).toNat else (m : Int) / 2 ^ (-(e + 320)).toNat
  let x := if neg then -n else n
  x - x / (2 * piFx) * (2 * piFx)

def sinExact (v : FpVal) : Option Enc :=
  match v with
  | .fin s m e =>
    if m = 0 then some ⟨0, 0, 0⟩
    else let r := trigSeries (trigArg s m e) 150 1 (trigArg s m e); some ⟨r - 2 ^ 132, r + 2 ^ 132, -320⟩
  | _ => none
def cosExact (v : FpVal) : Option Enc :=
  match v with
  | .fin s m e => let r := trigSeries (trigArg s m e) 150 0 fx320; some ⟨r - 2 ^ 132, r + 2 ^ 132, -320⟩
  | _ => none

end Sys2Proof.Machine
end

