-- ==== Sys2Proof/Machine/AArith.lean ====
section
/-! DEFINITION. The arithmetic of the A-cores (chapter 07): the descriptor (R295), scores and the online softmax (R273,
R274), the merge of partial regions (R290), the backward pass (R292), and what R296 and R297 judge. -/

namespace Sys2Proof.Machine

/-- The fields of an A-core descriptor (R295). -/
structure ADesc where
  opcode  : Nat
  qSrc    : Nat
  oDst    : Nat
  causal  : Bool
  stats   : Bool
  partialOut : Bool
  pool    : Nat
  qFmt    : Nat
  oFmt    : Nat
  round   : Nat
  ovf     : Bool
  salt    : Nat
  layer   : Nat
  head    : Nat
  qpk     : Nat
  mergeN  : Nat
  entries : Nat
  entryFirst : Nat
  lenAddr : Nat
  qAddr   : Nat
  oAddr   : Nat
  statsAddr : Nat
  kpCount : Nat
  kpFirst : Nat
  smScale : Word
  faceQ   : Nat
  faceKv  : Nat
  outMult : Word
  deriving DecidableEq, Repr

def aDesc (d : List Word) : ADesc :=
  { opcode := df d 0 23 16, qSrc := df d 0 15 14, oDst := df d 0 13 12
    causal := bit (dw d 0) 11, stats := bit (dw d 0) 10, partialOut := bit (dw d 0) 9, pool := df d 0 8 7
    qFmt := df d 1 31 28, oFmt := df d 1 23 20, round := df d 1 19 18, ovf := bit (dw d 1) 17, salt := df d 1 15 0
    layer := df d 2 31 24, head := df d 2 23 16, qpk := df d 2 15 8, mergeN := df d 2 7 0
    entries := df d 3 31 16, entryFirst := df d 3 15 0
    lenAddr := addr44 (df d 8 3 0) (dw d 4).toNat, qAddr := addr44 (df d 8 7 4) (dw d 5).toNat
    oAddr := addr44 (df d 8 11 8) (dw d 6).toNat, statsAddr := addr44 (df d 8 15 12) (dw d 7).toNat
    kpCount := df d 9 31 16, kpFirst := df d 9 15 0, smScale := dw d 10
    faceQ := df d 11 31 16 * 512, faceKv := df d 11 15 0 * 512, outMult := dw d 12 }

/-- One entry of the ragged length table (R270). -/
structure LenEntry where
  qTokens : Nat
  seq     : Nat
  pos     : Nat
  good    : Bool
  deriving DecidableEq, Repr

/-- An entry from its two words, judged against the pool's BMAX (R270). -/
def lenEntry (w0 w1 : Word) (bmax : Nat) : LenEntry :=
  let q := field w0 31 16
  let p := field w1 16 0
  { qTokens := q, seq := field w0 8 0, pos := p
    good := decide (1 ≤ q ∧ q ≤ 16384 ∧ field w0 15 9 = 0 ∧ field w1 31 17 = 0 ∧ p + q ≤ 131072 ∧ (p + q + 63) / 64 ≤ bmax) }

/-- The geometry that a pool gives a command: D, the element format, the blocks of a sequence. -/
structure APool where
  d    : Nat
  bf16 : Bool
  bmax : Nat
  deriving DecidableEq, Repr

def poolFmt (p : APool) : NumFmt := if p.bf16 then .bf16 else .e4m3
def poolElem (p : APool) : Nat := if p.bf16 then 2 else 1

/-- The end of what a query token sees (R272). -/
def seeEnd (a : ADesc) (e : LenEntry) (i : Nat) : Nat := if a.causal then e.pos + i + 1 else e.pos + e.qTokens

/-- The visible keys of a query token: first and end (R272). -/
def visible (a : ADesc) (e : LenEntry) (i : Nat) : Nat × Nat :=
  let hi := if a.kpCount = 0 then seeEnd a e i else min (seeEnd a e i) (64 * (a.kpFirst + a.kpCount))
  (64 * a.kpFirst, hi)

/-- The pages that a range of keys lies in. -/
def keyPages (r : Nat × Nat) : List Nat :=
  if r.2 ≤ r.1 then [] else (List.range ((r.2 + 63) / 64 - r.1 / 64)).map fun i => r.1 / 64 + i

/-- The pages that a command reads for an entry, ascending (R275). -/
def entryPages (a : ADesc) (e : LenEntry) : List Nat := keyPages (visible a e (e.qTokens - 1))

/-- The operands of ATTN: the packed query rows, and elements of K and V by entry, position and index. -/
structure AOperands where
  q   : Nat → Byte
  key : Nat → Nat → Nat → FpVal
  val : Nat → Nat → Nat → FpVal

/-- EXP (R273, R274). -/
def aExp (x : Word) : Word :=
  if x = 0xFF800000#32 then 0 else BitVec.ofNat 32 (boundedBits fmtFP32 2 (vExact 6 (f32val x)) (Config.aExp x).toNat)

/-- LN (R274): a free function of its input, within 2 units in the last place. -/
def aLn (x : Word) : Word := BitVec.ofNat 32 (boundedBits fmtFP32 2 (lnExact (f32val x)) (Config.aLn x).toNat)

def negInf : Word := 0xFF800000#32

/-- The greater of two FP32 values; a NaN wins. -/
def f32max (a b : Word) : Word :=
  if f32isNan a then f32nan else if f32isNan b then f32nan else if f32lt a b then b else a

/-- Exact block sums of 32 products, each rounded once, added in ascending order (R128, R129, BSUM of R273). -/
def bsum (ps : List (FpVal × FpVal)) : Word :=
  accFloat ((rowsOf 32 ((ps.length + 31) / 32) ps).map fun b => blockSum b (some 0) (some 0))

/-- CONVP of R273. -/
def convP (bf16 : Bool) (p : Word) : FpVal :=
  if bf16 then fpDecode fmtBF16 (convertScalar .bf16 true .rne (f32val p)).1
  else fpScale (fpDecode fmtE4M3 (convertScalar .e4m3 true .rne (fpScale (f32val p) 8)).1) (-8)

/-- The running state of one row (R273): m, l and O. -/
structure RowState where
  m : Word
  l : Word
  o : List Word
  deriving DecidableEq, Repr

/-- The score of one key (R273). -/
def aScore (q k : List FpVal) (sm : Word) : Word := f32mul (bsum (q.zip k)) sm

/-- One key block of the online softmax (R273). -/
def softBlock (bf16 : Bool) (sm : Word) (q : List FpVal) (ks vs : List (List FpVal)) (r : RowState) : RowState :=
  let ss := ks.map fun k => aScore q k sm
  let mNew := ss.foldl f32max r.m
  let c := aExp (f32sub r.m mNew)
  let ps := ss.map fun x => convP bf16 (aExp (f32sub x mNew))
  let one : FpVal := .fin false 1 0
  { m := mNew
    l := f32add (f32mul r.l c) (bsum (ps.map fun p => (p, one)))
    o := (List.range r.o.length).map fun d =>
      f32add (f32mul (r.o.getD d 0) c) (bsum ((ps.zip vs).map fun pv => (pv.1, pv.2.getD d (.fin false 0 0)))) }

/-- One query row against its visible keys, in key blocks of 256 (R273). -/
def attnRow (p : APool) (sm : Word) (q : List FpVal) (key val : Nat → Nat → FpVal) (r : Nat × Nat) : RowState :=
  let ds := List.range p.d
  let blk (s : RowState) (b : Nat) : RowState :=
    let lo := r.1 + 256 * b
    let ps := (List.range (min 256 (r.2 - lo))).map fun i => lo + i
    softBlock p.bf16 sm q (ps.map fun k => ds.map (key k)) (ps.map fun k => ds.map (val k)) s
  (List.range ((r.2 - r.1 + 255) / 256)).foldl blk ⟨negInf, 0, ds.map fun _ => 0⟩

/-- The query rows of a command in packed order: entry index, entry, token, and the row's index (R271). -/
def queryRows (a : ADesc) (es : List LenEntry) : List (Nat × LenEntry × Nat) :=
  ((List.range es.length).zip es).flatMap fun x =>
    (List.range (x.2.qTokens * a.qpk)).map fun i => (x.1, x.2, i / a.qpk)

/-- What finishes a row (R274): its values before conversion, and its statistics m and LSE. -/
def finishRow (outMult : Word) (r : RowState) (empty : Bool) : List FpVal × List Word :=
  if empty then (r.o.map fun _ => .fin false 0 0, [r.m, negInf])
  else (r.o.map fun x => f32val (f32mul (f32div x r.l) outMult), [r.m, f32add r.m (aLn r.l)])

def roundUp4K (n : Nat) : Nat := roundUp n 4096

/-- The stored form of finished rows: the converted rows, and the statistics where they are asked for. -/
def storeRows (a : ADesc) (d : Nat) (jobSeed : DWord) (rs : List (List FpVal × List Word)) : List (List Byte) × ConvFlags :=
  let f := fmtOr a.oFmt
  let rnd := rowsOf d rs.length (roundings (a.round = 1) (lfsrSeed jobSeed a.salt) (rs.length * d))
  let conv := (rs.zip rnd).map fun p => (p.1.1.zip p.2).map fun x => convertScalar f a.ovf x.2 x.1
  (conv.map fun r => packElems (elemBits f) (r.map Prod.fst), (conv.flatMap id).foldl (fun x e => convOr x e.2) {})

def le32 (w : Word) : List Byte := [w.setWidth 8, (w >>> 8).setWidth 8, (w >>> 16).setWidth 8, (w >>> 24).setWidth 8]

/-- The output of finished rows: stores at the O address and at STATS, as (which, offset, bytes). -/
structure AOut where
  o     : List (List Byte)
  stats : List Byte
  flags : Nat
  deriving DecidableEq, Repr

def finishOut (a : ADesc) (d : Nat) (jobSeed : DWord) (rows : List (RowState × Bool)) : AOut :=
  let fin := rows.map fun r => finishRow a.outMult r.1 r.2
  let st := storeRows a d jobSeed fin
  { o := st.1
    stats := if a.stats then fin.flatMap fun r => r.2.flatMap le32 else []
    flags := st.2.outSat.toNat + 2 * st.2.nanOut.toNat + 4 * (rows.any Prod.snd).toNat }

/-- ATTN (R273, R274, R290): the bytes for O, for STATS, and the flags. -/
def attnCompute (a : ADesc) (p : APool) (es : List LenEntry) (x : AOperands) (jobSeed : DWord) : AOut :=
  let qf := poolFmt p
  let qs := queryRows a es
  let rows := ((List.range qs.length).zip qs).map fun y =>
    let q := (List.range p.d).map fun d => tensorElem x.q qf 0 p.d y.1 d
    let vis := visible a y.2.2.1 y.2.2.2
    (attnRow p a.smScale q (x.key y.2.1) (x.val y.2.1) vis, decide (vis.2 ≤ vis.1))
  if a.partialOut then
    { o := rows.map fun r => r.1.o.flatMap le32
      stats := rows.flatMap fun r => le32 r.1.m ++ le32 r.1.l
      flags := 4 * (rows.any Prod.snd).toNat }
  else finishOut a p.d jobSeed rows

/-- Where the 8-byte row records of a partial region stand, and the size of the region (R290). -/
def partialStats (rows d : Nat) : Nat := roundUp (rows * d * 4) 256
def partialSize (rows d : Nat) : Nat := roundUp4K (partialStats rows d + 8 * rows)

/-- How many query rows a command has. -/
def aRowCount (a : ADesc) (es : List LenEntry) : Nat := ((es.map fun e => e.qTokens).sum) * a.qpk
def aTokens (es : List LenEntry) : Nat := (es.map fun e => e.qTokens).sum

/-- ATTN_MERGE (R290): the regions combined in ascending order, then each row finished by R274. -/
def mergeCompute (a : ADesc) (d rows : Nat) (q : Nat → Byte) (jobSeed : DWord) : AOut :=
  let w (o : Nat) : Word := BitVec.ofNat 32 (leBytes q o 4)
  let size := partialSize rows d
  let row (r : Nat) : RowState × Bool :=
    let parts := (List.range a.mergeN).map fun i =>
      (w (i * size + partialStats rows d + 8 * r), w (i * size + partialStats rows d + 8 * r + 4), i)
    let m := parts.foldl (fun x p => f32max x p.1) negInf
    let live := parts.filter fun p => p.1 != negInf
    let es := live.map fun p => (aExp (f32sub p.1 m), p)
    ({ m := m
       l := es.foldl (fun x p => f32add x (f32mul p.2.2.1 p.1)) 0
       o := (List.range d).map fun j =>
         es.foldl (fun x p => f32add x (f32mul (w (p.2.2.2 * size + (r * d + j) * 4)) p.1)) 0 },
     live.isEmpty)
  finishOut a d jobSeed ((List.range rows).map row)

/-! ### The backward pass (R292) -/

/-- The nine tensors of ATTN_BWD: element readers for Q, K, V, O, dO and the LSE words. -/
structure BwdOperands where
  q   : Nat → Nat → FpVal
  k   : Nat → Nat → FpVal
  v   : Nat → Nat → FpVal
  o   : Nat → Nat → FpVal
  dO  : Nat → Nat → FpVal
  lse : Nat → Word

/-- The gradient terms of one row: P and dS for every key, +0 where the row does not see it. -/
def bwdRow (a : ADesc) (d : Nat) (e : LenEntry) (x : BwdOperands) (keys r : Nat) : List (Word × Word) :=
  let ds := List.range d
  let vis := visible { a with kpFirst := 0, kpCount := 0 } e (r / a.qpk)
  let delta := bsum (ds.map fun j => (x.dO r j, x.o r j))
  (List.range keys).map fun k =>
    if vis.1 ≤ k ∧ k < vis.2 then
      let p := aExp (f32sub (aScore (ds.map (x.q r)) (ds.map (x.k k)) a.smScale) (x.lse r))
      let dp := bsum (ds.map fun j => (x.dO r j, x.v k j))
      (p, f32mul p (f32sub dp delta))
    else (0, 0)

/-- ATTN_BWD: the FP32 words of dQ, dK and dV, row by row. -/
def bwdCompute (a : ADesc) (d : Nat) (e : LenEntry) (x : BwdOperands) : List Word × List Word × List Word :=
  let rows := e.qTokens * a.qpk
  let keys := e.pos + e.qTokens
  let terms := (List.range rows).map fun r => (r, bwdRow a d e x keys r)
  let groups := rowsOf 64 ((rows + 63) / 64) terms
  let dq := terms.flatMap fun t => (List.range d).map fun j =>
    f32add 0 (f32mul (bsum (((List.range keys).zip t.2).map fun y => (f32val y.2.2, x.k y.1 j))) a.smScale)
  let dk := (List.range keys).flatMap fun k => (List.range d).map fun j =>
    groups.foldl (fun acc g => f32add acc (f32mul (bsum (g.map fun t => (f32val (t.2.getD k (0, 0)).2, x.q t.1 j))) a.smScale)) 0
  let dv := (List.range keys).flatMap fun k => (List.range d).map fun j =>
    groups.foldl (fun acc g => f32add acc (bsum (g.map fun t => (f32val (t.2.getD k (0, 0)).1, x.dO t.1 j)))) 0
  (dq, dk, dv)

/-! ### What R296 and R297 judge -/

/-- The row groups of an entry (R271): for each, its last token. -/
def groupTokens (a : ADesc) (e : LenEntry) : List Nat :=
  let n := e.qTokens * a.qpk
  (List.range ((n + 63) / 64)).map fun g => (min n (64 * (g + 1)) - 1) / a.qpk

def oElemBytes (a : ADesc) : Nat := elemBits (fmtOr a.oFmt) / 8

/-- The nominal time in clocks (R297); `copied` is what the copies of an append move. -/
def aClocks (a : ADesc) (p : APool) (es : List LenEntry) (copied : Nat) : Nat :=
  let r := poolElem p
  let rows := aRowCount a es
  let outBytes := rows * p.d * oElemBytes a + (if a.stats ∨ a.partialOut then 8 * rows else 0)
  match a.opcode with
  | 1 =>
    64 + ceilDiv (rows * p.d * r) 1024 + ceilDiv ((es.map fun e => (entryPages a e).length).sum) 4 +
      (es.map fun e => ((groupTokens a e).map fun t => ceilDiv (keyPages (visible a e t)).length 4 * (2 * p.d * r) + 32).sum).sum +
      ceilDiv outBytes 1024 + 96
  | 2 => 64 + 4 * aTokens es + ceilDiv (aTokens es * (2 * p.d * r) + 2 * copied) 1024 + 96
  | 3 => 64 + ceilDiv (a.mergeN * partialSize rows p.d) 1024 + ceilDiv outBytes 1024 + 96
  | 4 =>
    let keys := (es.map fun e => e.pos + e.qTokens).sum
    64 + ceilDiv (3 * rows * p.d * 2 + 2 * keys * p.d * 2 + 4 * rows) 1024 +
      (es.map fun e => ((groupTokens a e).map fun t => ceilDiv (seeEnd a e t) 256 * (20 * p.d) + 64).sum).sum +
      ceilDiv (rows * p.d * 4 + 2 * keys * p.d * 4) 1024 + 96
  | _ => 64

/-- The regions of Face that a command stages into (R296). -/
def aFaceRegions (a : ADesc) (p : APool) (es : List LenEntry) : List (Nat × Nat) :=
  let slot := 128 * p.d * poolElem p
  match a.opcode with
  | 1 => [(a.faceQ, aRowCount a es * p.d * poolElem p), (a.faceKv, 8 * slot)]
  | 2 => [(a.faceQ, aTokens es * 2 * p.d * poolElem p)]
  | 4 => [(a.faceQ, aRowCount a es * p.d * 2), (a.faceKv, 2 * 256 * 2 * p.d * 2)]
  | _ => []

/-- The RANGE conditions of R296 that the descriptor alone decides. -/
def aRangeBad (a : ADesc) : Bool :=
  let qOk := a.qFmt == 0 || a.qFmt == 8
  let oOk := a.oFmt == 0 || a.oFmt == 8 || a.oFmt == 9 || a.oFmt == 0xC
  let out := a.opcode == 1 || a.opcode == 3
  if a.opcode = 0 then false
  else
    ((a.opcode == 1 || a.opcode == 2) && (decide (a.qSrc > 1) || !qOk)) ||
      (out && (decide (a.oDst > 1) || !oOk || decide (a.round > 1) || (a.round == 1 && a.oFmt == 0xC))) ||
      (a.opcode == 1 && a.partialOut && a.oFmt != 0xC) ||
      (out && a.oDst == 1 && (a.partialOut || a.stats)) ||
      (a.opcode == 4 && a.qFmt != 8) ||
      (a.opcode != 2 && (a.qpk == 0 || decide (a.qpk > 64))) ||
      (a.opcode == 3 && (decide (a.mergeN < 2) || decide (a.mergeN > 16))) ||
      (a.opcode == 1 && decide (a.kpFirst > 2047)) ||
      a.entries == 0 || decide (a.entries > 512) || (a.opcode == 4 && a.entries != 1)

/-- The RANGE conditions of R296 on rows, Face and duration, with the length table as it stands at issue. -/
def aSizeBad (a : ADesc) (p : APool) (es : List LenEntry) (copied : Nat) : Bool :=
  ((a.opcode == 1 || a.opcode == 3) && decide (aRowCount a es > 16384)) ||
    (a.opcode == 2 && decide (aTokens es > 4096)) ||
    (aFaceRegions a p es).any (fun r => decide (r.1 + r.2 > 0x1000000)) || anyOverlap (aFaceRegions a p es) ||
    decide (aClocks a p es copied > 80000)

/-- The bits of each word that an A-core opcode names (R295, R685). -/
def aNamed (d : List Word) : List Word :=
  let a := aDesc d
  let full : Word := 0xFFFFFFFF#32
  let tail : List Word := [0x3FFF#32, full, 0x3FFFFFFF#32]
  let salt : Word := if a.round = 0 then 0 else 0xFFFF#32
  let q5 : Word := if a.qSrc = 1 then 0xFF#32 else full
  let q8 : Word := if a.qSrc = 1 then 0 else 0xF0#32
  let o6 : Word := if a.oDst = 1 then 0xFF#32 else full
  let o8 : Word := if a.oDst = 1 then 0 else 0xF00#32
  let s7 : Word := if a.stats then full else 0
  let s8 : Word := if a.stats then 0xF000#32 else 0
  match a.opcode with
  | 1 => [0xF0FFFF98#32, 0xF0FE0000#32 ||| salt, 0xFFFFFF00#32, full, full, q5, o6, s7, 0xF#32 ||| q8 ||| o8 ||| s8, full, full, full, full] ++ tail
  | 2 => [0xF0FFC198#32, 0xF0000000#32, 0xFFFF0000#32, full, full, q5, 0, 0, 0xF#32 ||| q8, 0, 0, 0xFFFF0000#32, 0] ++ tail
  | 3 => [0xF0FF3598#32, 0x00FE0000#32 ||| salt, 0x0000FFFF#32, full, full, full, o6, s7, 0xFF#32 ||| o8 ||| s8, 0, 0, 0, full] ++ tail
  | 4 => [0xF0FF0998#32, 0xF0000000#32, 0x0000FF00#32, full, full, full, 0, 0, 0xFF#32, 0, full, full, 0] ++ tail
  | _ => [0xF0FF0018#32, 0, 0, 0, 0, 0, 0, 0, 0, 0, 0, 0, 0] ++ tail

end Sys2Proof.Machine
end

