-- ==== Sys2Proof/Machine/Crypto.lean ====
section
/-! DEFINITION. The cryptographic functions that the spec names: SHA-384, HMAC and HKDF over it (R484, R593, R599), AES-256
and its GCM mode (R500, R502, R593), and ECDSA and ECDH on P-384 (R471, R502, R514). The constants are those of the
standards that define the functions. -/

namespace Sys2Proof.Machine

/-- The number that bytes spell, most significant first. -/
def beNat (bs : List Byte) : Nat := bs.foldl (fun n b => n * 256 + b.toNat) 0

/-- The n bytes of a number, most significant first. -/
def beBytes (n x : Nat) : List Byte := (List.range n).map fun i => BitVec.ofNat 8 (x >>> (8 * (n - 1 - i)))

/-- A list cut into pieces of n; at most k of them. -/
def piecesOf {α : Type} (n : Nat) : Nat → List α → List (List α)
  | 0, _ => []
  | k + 1, xs => if xs.isEmpty then [] else xs.take n :: piecesOf n k (xs.drop n)

/-! ### SHA-384 -/

def add64 (a b : Nat) : Nat := (a + b) % 2 ^ 64
def rotr64 (x n : Nat) : Nat := ((x >>> n) ||| (x <<< (64 - n))) % 2 ^ 64

def shaK0 : List Nat :=
  [0x428A2F98D728AE22, 0x7137449123EF65CD, 0xB5C0FBCFEC4D3B2F, 0xE9B5DBA58189DBBC, 0x3956C25BF348B538,
   0x59F111F1B605D019, 0x923F82A4AF194F9B, 0xAB1C5ED5DA6D8118, 0xD807AA98A3030242, 0x12835B0145706FBE,
   0x243185BE4EE4B28C, 0x550C7DC3D5FFB4E2, 0x72BE5D74F27B896F, 0x80DEB1FE3B1696B1, 0x9BDC06A725C71235,
   0xC19BF174CF692694, 0xE49B69C19EF14AD2, 0xEFBE4786384F25E3, 0x0FC19DC68B8CD5B5, 0x240CA1CC77AC9C65]
def shaK1 : List Nat :=
  [0x2DE92C6F592B0275, 0x4A7484AA6EA6E483, 0x5CB0A9DCBD41FBD4, 0x76F988DA831153B5, 0x983E5152EE66DFAB,
   0xA831C66D2DB43210, 0xB00327C898FB213F, 0xBF597FC7BEEF0EE4, 0xC6E00BF33DA88FC2, 0xD5A79147930AA725,
   0x06CA6351E003826F, 0x142929670A0E6E70, 0x27B70A8546D22FFC, 0x2E1B21385C26C926, 0x4D2C6DFC5AC42AED,
   0x53380D139D95B3DF, 0x650A73548BAF63DE, 0x766A0ABB3C77B2A8, 0x81C2C92E47EDAEE6, 0x92722C851482353B]
def shaK2 : List Nat :=
  [0xA2BFE8A14CF10364, 0xA81A664BBC423001, 0xC24B8B70D0F89791, 0xC76C51A30654BE30, 0xD192E819D6EF5218,
   0xD69906245565A910, 0xF40E35855771202A, 0x106AA07032BBD1B8, 0x19A4C116B8D2D0C8, 0x1E376C085141AB53,
   0x2748774CDF8EEB99, 0x34B0BCB5E19B48A8, 0x391C0CB3C5C95A63, 0x4ED8AA4AE3418ACB, 0x5B9CCA4F7763E373,
   0x682E6FF3D6B2B8A3, 0x748F82EE5DEFB2FC, 0x78A5636F43172F60, 0x84C87814A1F0AB72, 0x8CC702081A6439EC]
def shaK3 : List Nat :=
  [0x90BEFFFA23631E28, 0xA4506CEBDE82BDE9, 0xBEF9A3F7B2C67915, 0xC67178F2E372532B, 0xCA273ECEEA26619C,
   0xD186B8C721C0C207, 0xEADA7DD6CDE0EB1E, 0xF57D4F7FEE6ED178, 0x06F067AA72176FBA, 0x0A637DC5A2C898A6,
   0x113F9804BEF90DAE, 0x1B710B35131C471B, 0x28DB77F523047D84, 0x32CAAB7B40C72493, 0x3C9EBE0A15C9BEBC,
   0x431D67C49C100D4C, 0x4CC5D4BECB3E42B6, 0x597F299CFC657E2A, 0x5FCB6FAB3AD6FAEC, 0x6C44198C4A475817]
def shaK : List Nat := shaK0 ++ shaK1 ++ shaK2 ++ shaK3

/-- The first hash value of SHA-384. -/
def shaH0 : List Nat :=
  [0xCBBB9D5DC1059ED8, 0x629A292A367CD507, 0x9159015A3070DD17, 0x152FECD8F70E5939,
   0x67332667FFC00B31, 0x8EB44A8768581511, 0xDB0C2E0D64F98FA7, 0x47B5481DBEFA4FA4]

/-- One round: the working variables and the sliding window of the message schedule. -/
def shaRound (x : List Nat × List Nat) (k : Nat) : List Nat × List Nat :=
  match x.1 with
  | [a, b, c, d, e, f, g, h] =>
    let w := x.2.getD 0 0
    let s1 := rotr64 e 14 ^^^ rotr64 e 18 ^^^ rotr64 e 41
    let ch := (e &&& f) ^^^ ((2 ^ 64 - 1 - e) &&& g)
    let t1 := (h + s1 + ch + k + w) % 2 ^ 64
    let s0 := rotr64 a 28 ^^^ rotr64 a 34 ^^^ rotr64 a 39
    let maj := (a &&& b) ^^^ (a &&& c) ^^^ (b &&& c)
    let w1 := x.2.getD 1 0
    let w14 := x.2.getD 14 0
    let n := (w + (rotr64 w1 1 ^^^ rotr64 w1 8 ^^^ (w1 >>> 7)) + x.2.getD 9 0 +
      (rotr64 w14 19 ^^^ rotr64 w14 61 ^^^ (w14 >>> 6))) % 2 ^ 64
    ([(t1 + s0 + maj) % 2 ^ 64, a, b, c, add64 d t1, e, f, g], x.2.drop 1 ++ [n])
  | _ => x

def shaBlock (h : List Nat) (blk : List Byte) : List Nat :=
  let w := (piecesOf 8 16 blk).map beNat
  let r := (shaK.foldl shaRound (h, w)).1
  (h.zip r).map fun p => add64 p.1 p.2

/-- SHA-384 of a list of bytes: 48 bytes. -/
def sha384 (m : List Byte) : List Byte :=
  let n := m.length
  let pad := m ++ [0x80] ++ List.replicate ((239 - n % 128) % 128) 0 ++ beBytes 16 (8 * n)
  let h := (piecesOf 128 (pad.length / 128 + 1) pad).foldl shaBlock shaH0
  (h.take 6).flatMap (beBytes 8)

/-- HMAC over SHA-384. -/
def hmac384 (key m : List Byte) : List Byte :=
  let k0 := if key.length > 128 then sha384 key else key
  let k := k0 ++ List.replicate (128 - k0.length) 0
  sha384 (k.map (· ^^^ 0x5C#8) ++ sha384 (k.map (· ^^^ 0x36#8) ++ m))

/-- The blocks of HKDF-Expand: at most n of them. -/
def hkdfBlocks (prk info : List Byte) : Nat → List Byte → Nat → List Byte
  | 0, _, _ => []
  | n + 1, t, i =>
    let u := hmac384 prk (t ++ info ++ [BitVec.ofNat 8 i])
    u ++ hkdfBlocks prk info n u (i + 1)

/-- HKDF over SHA-384 (RFC 5869). -/
def hkdf384 (salt ikm info : List Byte) (len : Nat) : List Byte :=
  (hkdfBlocks (hmac384 (if salt.isEmpty then List.replicate 48 0 else salt) ikm) info ((len + 47) / 48) [] 1).take len

/-! ### AES-256 and GCM -/

def aesS0 : List Nat :=
  [99, 124, 119, 123, 242, 107, 111, 197, 48, 1, 103, 43, 254, 215, 171, 118,
   202, 130, 201, 125, 250, 89, 71, 240, 173, 212, 162, 175, 156, 164, 114, 192,
   183, 253, 147, 38, 54, 63, 247, 204, 52, 165, 229, 241, 113, 216, 49, 21,
   4, 199, 35, 195, 24, 150, 5, 154, 7, 18, 128, 226, 235, 39, 178, 117]
def aesS1 : List Nat :=
  [9, 131, 44, 26, 27, 110, 90, 160, 82, 59, 214, 179, 41, 227, 47, 132,
   83, 209, 0, 237, 32, 252, 177, 91, 106, 203, 190, 57, 74, 76, 88, 207,
   208, 239, 170, 251, 67, 77, 51, 133, 69, 249, 2, 127, 80, 60, 159, 168,
   81, 163, 64, 143, 146, 157, 56, 245, 188, 182, 218, 33, 16, 255, 243, 210]
def aesS2 : List Nat :=
  [205, 12, 19, 236, 95, 151, 68, 23, 196, 167, 126, 61, 100, 93, 25, 115,
   96, 129, 79, 220, 34, 42, 144, 136, 70, 238, 184, 20, 222, 94, 11, 219,
   224, 50, 58, 10, 73, 6, 36, 92, 194, 211, 172, 98, 145, 149, 228, 121,
   231, 200, 55, 109, 141, 213, 78, 169, 108, 86, 244, 234, 101, 122, 174, 8]
def aesS3 : List Nat :=
  [186, 120, 37, 46, 28, 166, 180, 198, 232, 221, 116, 31, 75, 189, 139, 138,
   112, 62, 181, 102, 72, 3, 246, 14, 97, 53, 87, 185, 134, 193, 29, 158,
   225, 248, 152, 17, 105, 217, 142, 148, 155, 30, 135, 233, 206, 85, 40, 223,
   140, 161, 137, 13, 191, 230, 66, 104, 65, 153, 45, 15, 176, 84, 187, 22]
def aesSbox (x : Byte) : Byte :=
  let n := x.toNat
  BitVec.ofNat 8 ((if n < 64 then aesS0 else if n < 128 then aesS1 else if n < 192 then aesS2 else aesS3).getD (n % 64) 0)

/-- Multiplication by x in the field of AES. -/
def xtime (b : Byte) : Byte := (b <<< 1) ^^^ (if b.msb then 0x1B#8 else 0)

def xorBytes (a b : List Byte) : List Byte := (a.zip b).map fun p => p.1 ^^^ p.2

/-- The key schedule: 4-byte words, newest last; eight words at a time. -/
def aesExpand : Nat → Byte → List (List Byte) → List (List Byte)
  | 0, _, ws => ws
  | n + 1, rc, ws =>
    let last := ws.drop (ws.length - 8)
    let g (i : Nat) : List Byte := last.getD i []
    let t := g 7
    let rot := (t.drop 1 ++ t.take 1).map aesSbox
    let r0 := xorBytes rot [rc, 0, 0, 0]
    let w0 := xorBytes (g 0) r0
    let w1 := xorBytes (g 1) w0
    let w2 := xorBytes (g 2) w1
    let w3 := xorBytes (g 3) w2
    let w4 := xorBytes (g 4) (w3.map aesSbox)
    let w5 := xorBytes (g 5) w4
    let w6 := xorBytes (g 6) w5
    let w7 := xorBytes (g 7) w6
    aesExpand n (xtime rc) (ws ++ [w0, w1, w2, w3, w4, w5, w6, w7])

/-- The 15 round keys of AES-256. -/
def aesKeys (key : List Byte) : List (List Byte) :=
  (piecesOf 16 15 ((aesExpand 7 0x01 (piecesOf 4 8 key)).flatMap id)).take 15

def mixColumn (c : List Byte) : List Byte :=
  let g (i : Nat) : Byte := c.getD (i % 4) 0
  (List.range 4).map fun i => xtime (g i) ^^^ xtime (g (i + 1)) ^^^ g (i + 1) ^^^ g (i + 2) ^^^ g (i + 3)

def shiftRows (s : List Byte) : List Byte := (List.range 16).map fun i => s.getD ((i + 4 * (i % 4)) % 16) 0

/-- One block encrypted with expanded keys. -/
def aesBlock (ks : List (List Byte)) (x : List Byte) : List Byte :=
  let s0 := xorBytes x (ks.getD 0 [])
  let mid := ((ks.drop 1).take 13).foldl (fun s k =>
    xorBytes ((piecesOf 4 4 (shiftRows (s.map aesSbox))).flatMap mixColumn) k) s0
  xorBytes (shiftRows (mid.map aesSbox)) (ks.getD 14 [])

/-- Multiplication in GF(2¹²⁸) as GCM numbers its bits. -/
def gfMul (x y : Nat) : Nat :=
  ((List.range 128).foldl (fun (a : Nat × Nat) i =>
    (if x.testBit (127 - i) then a.1 ^^^ a.2 else a.1,
     if a.2 % 2 = 1 then (a.2 >>> 1) ^^^ (0xE1 <<< 120) else a.2 >>> 1)) (0, y)).1

def pad16 (m : List Byte) : List Byte := m ++ List.replicate ((16 - m.length % 16) % 16) 0

def ghash (h : Nat) (aad ct : List Byte) : Nat :=
  let m := pad16 aad ++ pad16 ct ++ beBytes 8 (8 * aad.length) ++ beBytes 8 (8 * ct.length)
  (piecesOf 16 (m.length / 16) m).foldl (fun y b => gfMul (y ^^^ beNat b) h) 0

/-- Counter mode from a 96-bit nonce, the counter starting at c. -/
def aesCtr (ks : List (List Byte)) (nonce m : List Byte) (c : Nat) : List Byte :=
  let n := (m.length + 15) / 16
  xorBytes m ((List.range n).flatMap fun i => aesBlock ks (nonce ++ beBytes 4 (c + i)))

def gcmTag (ks : List (List Byte)) (nonce aad ct : List Byte) : List Byte :=
  let h := beNat (aesBlock ks (List.replicate 16 0))
  xorBytes (beBytes 16 (ghash h aad ct)) (aesBlock ks (nonce ++ beBytes 4 1))

/-- AES-256-GCM: the ciphertext followed by the 16-byte tag. -/
def gcmSeal (key nonce aad m : List Byte) : List Byte × List Byte :=
  let ks := aesKeys key
  let ct := aesCtr ks nonce m 2
  (ct, gcmTag ks nonce aad ct)

/-- The plain text where the tag agrees. -/
def gcmOpen (key nonce aad ct tag : List Byte) : Option (List Byte) :=
  let ks := aesKeys key
  if gcmTag ks nonce aad ct = tag then some (aesCtr ks nonce ct 2) else none

/-! ### P-384 -/

def p384P : Nat := 2 ^ 384 - 2 ^ 128 - 2 ^ 96 + 2 ^ 32 - 1
def p384N : Nat := 0xFFFFFFFFFFFFFFFFFFFFFFFFFFFFFFFFFFFFFFFFFFFFFFFFC7634D81F4372DDF581A0DB248B0A77AECEC196ACCC52973
def p384B : Nat := 0xB3312FA7E23EE7E4988E056BE3F82D19181D9C6EFE8141120314088F5013875AC656398D8A2ED19D2A85C8EDD3EC2AEF
def p384Gx : Nat := 0xAA87CA22BE8B05378EB1C71EF320AD746E1D3B628BA79B9859F741E082542A385502F25DBF55296C3A545E3872760AB7
def p384Gy : Nat := 0x3617DE4A96262C6F5D9E98BF9292DC29F8F41DBD289A147CE9DA3113B5F0B8C00A60B1CE1D7E819D7A431D7C90EA0E5F

/-- x to the power e modulo m, for an exponent below 2³⁸⁴. -/
def powMod (m x e : Nat) : Nat :=
  (List.range 384).foldl (fun a i => let s := a * a % m; if e.testBit (383 - i) then s * x % m else s) 1

def invMod (m x : Nat) : Nat := powMod m (x % m) (m - 2)

/-- A point of the curve; none is the point at infinity. -/
abbrev EcPoint := Option (Nat × Nat)

def ecAdd (a b : EcPoint) : EcPoint :=
  let p := p384P
  match a, b with
  | none, y => y
  | x, none => x
  | some (x1, y1), some (x2, y2) =>
    if x1 = x2 ∧ (y1 + y2) % p = 0 then none
    else
      let l := if x1 = x2 then (3 * x1 * x1 + p - 3) % p * invMod p (2 * y1) % p
        else (y2 + p - y1) % p * invMod p (x2 + p - x1) % p
      let x3 := (l * l + 2 * p - x1 - x2) % p
      some (x3, (l * (x1 + p - x3) + p - y1) % p)

/-- A multiple of a point. -/
def ecMul (k : Nat) (q : EcPoint) : EcPoint :=
  (List.range 384).foldl (fun a i => let d := ecAdd a a; if k.testBit (383 - i) then ecAdd d q else d) none

def ecG : EcPoint := some (p384Gx, p384Gy)

/-- A point from its uncompressed form of 97 bytes; none where the form or the curve's equation fails. -/
def ecOfBytes (bs : List Byte) : Option (Nat × Nat) :=
  let x := beNat ((bs.drop 1).take 48)
  let y := beNat ((bs.drop 49).take 48)
  if bs.length = 97 ∧ bs.head? = some 4 ∧ x < p384P ∧ y < p384P ∧
      y * y % p384P = (x * x * x + (p384P - 3) * x + p384B) % p384P then some (x, y)
  else none

def ecToBytes (q : EcPoint) : List Byte :=
  match q with
  | some (x, y) => 4 :: beBytes 48 x ++ beBytes 48 y
  | none => List.replicate 97 0

/-- ECDSA on P-384 over SHA-384: whether a 96-byte signature (r, s) of a message verifies under a key. -/
def ecdsaVerify (key : List Byte) (msg sig : List Byte) : Bool :=
  let r := beNat (sig.take 48)
  let s := beNat ((sig.drop 48).take 48)
  match ecOfBytes key with
  | none => false
  | some q =>
    if sig.length ≠ 96 ∨ r = 0 ∨ r ≥ p384N ∨ s = 0 ∨ s ≥ p384N then false
    else
      let z := beNat (sha384 msg)
      let w := invMod p384N s
      match ecAdd (ecMul (z * w % p384N) ecG) (ecMul (r * w % p384N) (some q)) with
      | none => false
      | some (x, _) => decide (x % p384N = r)

/-- A signature by a private key with a per-signature secret number. -/
def ecdsaSign (d k : Nat) (msg : List Byte) : List Byte :=
  let r := (match ecMul (k % p384N) ecG with
    | some (x, _) => x
    | none => 0) % p384N
  beBytes 48 r ++ beBytes 48 (invMod p384N k * ((beNat (sha384 msg) + r * d) % p384N) % p384N)

end Sys2Proof.Machine
end

