-- ==== Sys2Proof/Machine/SMap.lean ====
section
/-! DEFINITION. The sparse maps of the state: reading, and a write that keeps the one canonical form (keys rising, no
entry equal to what an absent key reads as), with the same for plain rising lists of numbers. -/

namespace Sys2Proof.Machine

/-- The entry of a key; the default where the key is absent. -/
def smGet {α : Type} (d : α) : SMap α → Nat → α
  | [], _ => d
  | (k, v) :: rest, i => if k = i then v else smGet d rest i

/-- A map without the entry of a key. -/
def smDel {α : Type} : SMap α → Nat → SMap α
  | [], _ => []
  | (k, v) :: rest, i => if k = i then smDel rest i else (k, v) :: smDel rest i

/-- A map with an entry, whatever its value. -/
def smPut {α : Type} : SMap α → Nat → α → SMap α
  | [], i, x => [(i, x)]
  | (k, v) :: rest, i, x =>
    if k = i then (k, x) :: rest else if i < k then (i, x) :: (k, v) :: rest else (k, v) :: smPut rest i x

/-- A write: an entry equal to the default is removed. -/
def smSet {α : Type} [DecidableEq α] (d : α) (m : SMap α) (i : Nat) (x : α) : SMap α :=
  if x = d then smDel m i else smPut m i x

/-- The entry of a key, where there is one. -/
def smFind {α : Type} : SMap α → Nat → Option α
  | [], _ => none
  | (k, v) :: rest, i => if k = i then some v else smFind rest i

/-- The keys of a sparse map rise. -/
def smRising {α : Type} (m : SMap α) : Bool := decide ((m.map Prod.fst).Pairwise (· < ·))

/-- The canonical form of a sparse map. -/
def smWf {α : Type} [DecidableEq α] (d : α) (m : SMap α) : Bool := smRising m && m.all fun p => decide (p.2 ≠ d)

/-- The entries whose keys lie in [lo, hi). -/
def smRange {α : Type} (m : SMap α) (lo hi : Nat) : SMap α := m.filter fun p => decide (lo ≤ p.1 ∧ p.1 < hi)

/-- A map without the entries whose keys lie in [lo, hi). -/
def smClear {α : Type} (m : SMap α) (lo hi : Nat) : SMap α := m.filter fun p => !decide (lo ≤ p.1 ∧ p.1 < hi)

/-- A number put into a rising list. -/
def nlAdd : List Nat → Nat → List Nat
  | [], x => [x]
  | y :: ys, x => if x < y then x :: y :: ys else if x = y then y :: ys else y :: nlAdd ys x

/-- A number taken out of a list. -/
def nlDel (xs : List Nat) (x : Nat) : List Nat := xs.filter (· ≠ x)

/-- The lowest number from lo on, below hi, that a rising list does not hold. -/
def nlLowestFree : List Nat → Nat → Nat → Option Nat
  | [], lo, hi => if lo < hi then some lo else none
  | y :: ys, lo, hi =>
    if y < lo then nlLowestFree ys lo hi
    else if lo < y then (if lo < hi then some lo else none)
    else nlLowestFree ys (lo + 1) hi

end Sys2Proof.Machine
end

