-- ==== Sys2Proof/Machine/Pages.lean ====
section
/-! DEFINITION. The page map of BAR0 (R78, R81, R83): the base, the number of pages, the class code and the
default owner of every block, and the page that a BAR0 byte address falls in. -/

namespace Sys2Proof.Machine

/-- PG_ID[31:24] of a block class (R81). -/
def clsCode : Cls → Nat
  | .device => 0x01 | .tick => 0x02 | .ptp => 0x03
  | .m => 0x10 | .v => 0x11 | .a => 0x12 | .l => 0x13 | .f => 0x14 | .t => 0x15 | .c => 0x16 | .fxch => 0x17
  | .tally => 0x20
  | .gallery => 0x30 | .drift => 0x32 | .seam => 0x33 | .keeper => 0x34 | .hoist => 0x35
  | .part => 0x40 | .ring => 0x50 | .mailbox => 0x60 | .attest => 0x61
  | .fireboss => 0x70 | .vuvon => 0x78
  | .pcie => 0x80 | .tsn => 0x81 | .eth => 0x82 | .aphy => 0x84 | .can => 0x86 | .plca => 0x87 | .spi => 0x88
  | .dump => 0xA0 | .bank => 0xA1 | .test => 0xF0

/-- The BAR0 address of a block's first page (R81). -/
def clsBase : Cls → Nat
  | .device => 0x0000000 | .tick => 0x0001000 | .ptp => 0x0002000
  | .m => 0x0100000 | .v => 0x0120000 | .a => 0x0140000 | .l => 0x0160000 | .f => 0x0170000
  | .t => 0x0180000 | .c => 0x0190000 | .fxch => 0x01A0000
  | .tally => 0x0200000
  | .gallery => 0x0300000 | .drift => 0x0310000 | .seam => 0x0340000 | .keeper => 0x0350000
  | .hoist => 0x0360000
  | .part => 0x0400000 | .ring => 0x0500000 | .mailbox => 0x0600000 | .attest => 0x0610000
  | .fireboss => 0x0700000 | .vuvon => 0x0780000
  | .pcie => 0x0800000 | .tsn => 0x0810000 | .eth => 0x0820000 | .aphy => 0x0840000 | .can => 0x0860000
  | .plca => 0x0870000 | .spi => 0x0880000
  | .dump => 0x0A00000 | .bank => 0x0A10000 | .test => 0x0F00000

/-- How many pages a block has (R81). -/
def clsCount : Cls → Nat
  | .device => 1 | .tick => 1 | .ptp => 1
  | .m => 8 | .v => 32 | .a => 8 | .l => 4 | .f => 4 | .t => 2 | .c => 2 | .fxch => 64
  | .tally => 32
  | .gallery => 2 | .drift => 48 | .seam => 16 | .keeper => 2 | .hoist => 2
  | .part => 16 | .ring => 17 | .mailbox => 16 | .attest => 16
  | .fireboss => 4 | .vuvon => 1
  | .pcie => 1 | .tsn => 1 | .eth => 16 | .aphy => 16 | .can => 8 | .plca => 4 | .spi => 8
  | .dump => 1 | .bank => 11 | .test => 1

/-- Every block class, in ascending address. -/
def allCls : List Cls :=
  [.device, .tick, .ptp, .m, .v, .a, .l, .f, .t, .c, .fxch, .tally, .gallery, .drift, .seam, .keeper, .hoist,
   .part, .ring, .mailbox, .attest, .fireboss, .vuvon, .pcie, .tsn, .eth, .aphy, .can, .plca, .spi,
   .dump, .bank, .test]

/-- Every page of R81, in ascending address. -/
def allPages : List Page :=
  allCls.flatMap fun k => (List.range (clsCount k)).map fun i => ⟨k, i⟩

/-- The BAR0 address of a page (R81: the block's base plus 0x1000 for each instance before it). -/
def pageBase (p : Page) : Nat := clsBase p.cls + p.inst * 0x1000

/-- The page that a BAR0 byte address falls in; none where R81 covers it with no page (R83). -/
def pageAt (a : Nat) : Option Page :=
  (allCls.find? fun k => decide (clsBase k ≤ a ∧ a < clsBase k + clsCount k * 0x1000)).map fun k =>
    ⟨k, (a - clsBase k) / 0x1000⟩

/-- The offset of a BAR0 byte address inside its page. -/
def pageOff (a : Nat) : Nat := a % 0x1000

/-- The page of a core (R81). -/
def corePage (c : CoreId) : Page :=
  match c.cls with
  | .m => ⟨.m, c.inst⟩ | .v => ⟨.v, c.inst⟩ | .a => ⟨.a, c.inst⟩ | .l => ⟨.l, c.inst⟩
  | .f => ⟨.f, c.inst⟩ | .t => ⟨.t, c.inst⟩ | .c => ⟨.c, c.inst⟩

/-- The core that a page belongs to. -/
def pageCore (p : Page) : Option CoreId :=
  match p.cls with
  | .m => some ⟨.m, p.inst⟩ | .v => some ⟨.v, p.inst⟩ | .a => some ⟨.a, p.inst⟩ | .l => some ⟨.l, p.inst⟩
  | .f => some ⟨.f, p.inst⟩ | .t => some ⟨.t, p.inst⟩ | .c => some ⟨.c, p.inst⟩
  | _ => none

/-- How many cores a class has (R16). -/
def coreCount : CoreCls → Nat
  | .m => 8 | .v => 32 | .a => 8 | .l => 4 | .f => 4 | .t => 2 | .c => 2

/-- Every core of one class, by index. -/
def coresOf (k : CoreCls) : List CoreId := (List.range (coreCount k)).map fun i => ⟨k, i⟩

/-- The 60 cores (R16), class by class. -/
def allCores : List CoreId :=
  [CoreCls.m, .v, .a, .l, .f, .t, .c].flatMap coresOf

/-- The default owner of a page until the layout is loaded, and for good where R81 fixes it. -/
def defaultOwner (p : Page) : Nat :=
  match p.cls with
  | .part | .mailbox | .attest => p.inst
  | .ring => p.inst - 1
  | _ => 0

/-- The pages whose owner the layout sets (R81). -/
def ownerByLayout (p : Page) : Bool :=
  match p.cls with
  | .m | .v | .a | .l | .f | .t | .tally | .eth | .aphy | .can | .plca | .spi => true
  | _ => false

/-- The pages that R81 makes shared-readable from reset: TICK and the roster page. -/
def defaultShared (p : Page) : Bool :=
  match p.cls with
  | .tick => true
  | .ring => p.inst == 0
  | _ => false

/-- The stack of a core (R21). -/
def coreStack (c : CoreId) : Stack := if c.inst < coreCount c.cls / 2 then .w else .e

/-- The number of a status code (R103). -/
def statusCode : Status → Nat
  | .ok => 0 | .stateIllegal => 1 | .ownerDenied => 2 | .range => 3 | .reservedSet => 4
  | .levelUnsupported => 5 | .busy => 6 | .tierFault => 7 | .timeout => 8 | .integrity => 9
  | .keyRetired => 10 | .safetyHold => 11 | .deferred => 12 | .busyReset => 13 | .debugLocked => 14
  | .timeFault => 15 | .coverageDebt => 16 | .late => 17 | .emergStop => 18

end Sys2Proof.Machine
end

