-- ==== Sys2Proof/Machine/State.lean ====
section
/-! DEFINITION. The machine's state as plain data: every register by address, every store, queue, table, key and
pin that the spec gives the block, the queue of commands that are waiting, and the machine right after reset. -/

namespace Sys2Proof.Machine

/-! ### Why a step can stop -/

/-- Why the machine stops with a fault. -/
inductive Fault
  /-- Raised by a command that carries bytes from outside (a bus access, a packet, a frame, a message) when it
  carries more than its bus can: such a command is no command of this hardware (Sys2Proof.Instr.WellFormed
  refuses it). Safe: the model stops and claims nothing. -/
  | malformedCommand
  deriving DecidableEq, Repr

/-- Why the machine refuses a command. -/
inductive Refusal
  /-- Raised by the arm of a command that has no meaning yet, under its mnemonic. Safe: the model stops. -/
  | notModelled (mnemonic : String)
  deriving DecidableEq, Repr

/-! ### What the outside sees of the last step -/

/-- What an interrupt is for (R636). -/
inductive IrqCause
  | flag (p : Page) (n : Nat)
  | compare (n : Nat)
  | watch (page n : Nat)
  | jobDone (entry : Nat)
  | service (p : Page)
  | counter (n : Nat)
  | power
  deriving DecidableEq, Repr

/-- One interrupt message: the function (a partition), its vector (R636) and the cause. -/
structure Irq where
  part   : Nat
  vector : Nat
  cause  : IrqCause
  deriving DecidableEq, Repr

/-- The answer of the last register access: its status and the data read (model's own). -/
structure Reply where
  status : Status
  data   : DWord
  deriving DecidableEq, Repr

/-! ### Device time (02) -/

/-- One entry of the timestamp queue (R73). -/
structure TsEntry where
  frameId : Half
  port    : BitVec 4
  mtype   : BitVec 4
  ns      : DWord
  frac    : Word
  deriving DecidableEq, Repr

/-- A comparator found reached when a tick began (R54): its number, its value and control as they stood then, and whether LATE is
owed. -/
structure CmpDue where
  n    : Nat
  c    : Word
  ctl  : Word
  late : Bool
  deriving DecidableEq, Repr

/-- The time base (R41 to R44), the servo's run of agreeing offsets (R66) and the timestamp queue (R73). `inst` is the tick-time,
in units of 2⁻³² ns past TIME_ORIGIN, of the last cycle of the 1 GHz clock that a read has shown or that began the tick; `integ` sums
the offsets that the servo has been given; `adjAt` is the tick of its last change of FREQ_ADJ; `cmpLate` the comparators that an arming
owes LATE, `cmpDue` those that this tick may match. -/
structure TimeSt where
  tickNow   : DWord
  origin    : DWord
  freqAdj   : BitVec 48
  stepDone  : Bool
  locked    : Bool
  timeFault : Bool
  freqClamp : Bool
  role      : BitVec 2
  run       : List Int
  lastSync  : Nat
  lockPend  : Bool
  setPend   : Bool
  syncs     : Nat
  offset    : Int
  tsq       : List TsEntry
  tsqLate   : List TsEntry
  cmpLate   : Byte
  cmpDue    : List CmpDue
  inst      : Nat
  integ     : Int
  adjAt     : Option Nat
  deriving DecidableEq, Repr

/-! ### The power governor (01) -/

/-- The governor (R36): the last J3 samples in tenths of a watt, newest first, and what they decided; the ceiling stands in eighths of a watt (R648). -/
structure GovSt where
  window   : List Nat
  ceiling  : Nat
  duty     : Nat
  below    : Nat
  sinceUp  : Nat
  tj       : Int
  hotRun   : Nat
  held     : Bool
  deriving DecidableEq, Repr

/-! ### The partition layout (12: R476, R477) -/

/-- What the layout does with one core (R477 CORE). -/
inductive CoreAssign
  | unassigned
  | part (p : Nat) (reserved : Bool)
  | group (g : Nat)
  deriving DecidableEq, Repr

/-- A partition record of the layout with its security fields (R476, R477 PART). -/
structure PartLayout where
  tallyFirst   : Nat
  tallyPages   : Nat
  tagCap       : Nat
  pfQuota      : Nat
  galBg        : Word
  galFrames    : Nat
  ptArea       : Nat
  codeArea     : Nat
  kvArea       : Nat
  driftGroups  : Half
  driftFrames  : Nat
  seamPages    : Nat
  ownerHash    : List Byte
  confidential : Bool
  minSvn       : Nat
  deriving DecidableEq, Repr

/-- A share window of the layout (R477 SHARE). -/
structure ShareWin where
  owner   : Nat
  valid   : Bool
  readers : Half
  first   : Nat
  frames  : Nat
  vpn     : Nat
  deriving DecidableEq, Repr

/-- The partition layout (R29, R476, R477). -/
structure Layout where
  cores     : List CoreAssign
  groups    : List Half
  parts     : List PartLayout
  shares    : List ShareWin
  ioOwner   : List Nat
  tallyRd   : Word
  stbyEn    : Bool
  stbyOfs   : Nat
  tamperPin : Bool
  svn       : Nat
  deriving DecidableEq, Repr

/-! ### Memory tiers and Hoist (06) -/

/-- The three shared tiers (R210). -/
inductive Tier | gallery | drift | seam
  deriving DecidableEq, Repr

/-- A page-table entry (R215); CHECK is computed from the other fields. -/
structure Pte where
  v      : Bool
  home   : Tier
  w      : Bool
  kv     : Bool
  zc     : Bool
  gen    : BitVec 2
  dv     : Bool
  sv     : Bool
  mig    : Bool
  loose  : Bool
  shared : Bool
  gFrame : Nat
  hold   : Nat
  dFrame : Nat
  sLpn   : Nat
  code   : Nat
  deriving DecidableEq, Repr

/-- Who holds a tier tag (R191). -/
inductive TagHolder
  | core (k : CoreId) (stream : Nat)
  | hoist (part vpn : Nat)
  deriving DecidableEq, Repr

/-- A tier request in flight (R190), under its tag; `live` says that the command it belongs to has not ended, `held` that it is a write
to a page under move, which waits for the switch (R247). -/
structure TagRec where
  holder : TagHolder
  live   : Bool
  held   : Bool
  part   : Nat
  write  : Bool
  addr   : Nat
  len    : Nat
  tier   : Tier
  frame  : Nat
  issue  : Nat
  st     : Status
  deriving DecidableEq, Repr

/-- Who asked for a page move (R242, R288, R578). -/
inductive MoveFor
  | stream (pf : Nat) (unit : Nat)
  | migrate
  | stride (pf : Nat)
  | kvSwap
  | digest
  deriving DecidableEq, Repr

/-- A page move in progress (R247): the page, the target, who asked, the code block that it attaches (R216), whether an UNMAP has
abandoned it, whether it holds its tier tags (R242), and the first failure of its requests (R248). -/
structure Move where
  part  : Nat
  vpn   : Nat
  dest  : Tier
  frame : Nat
  who   : MoveFor
  code  : Option Nat
  dead  : Bool
  tagged : Bool
  fault : Option Status
  deriving DecidableEq, Repr

/-- A Hoist prefetcher running a stream descriptor (R243, R244) or a stride (R249); `waits` are the pages of a stride that wait for the
end of another move or for a frame (R245, R246). -/
structure Prefetcher where
  part      : Nat
  job       : Nat
  kind      : Nat
  dest      : Tier
  releaseEn : Bool
  base      : Nat
  units     : Nat
  unitPages : Nat
  stride    : Int
  ready     : Nat
  done      : Nat
  list      : Nat
  listAddr  : Nat
  lead      : Nat
  d0        : Word
  l0        : Word
  fetched   : Nat
  readied   : Nat
  released  : Nat
  waitFrame : Bool
  fault     : Nat
  core      : Option CoreId
  kvList    : List Nat
  moved     : Nat
  missed    : Nat
  waits     : List Nat
  deriving DecidableEq, Repr

/-- The stride watch of one core (R249): the last VPN, the last stride and how often it repeated. -/
structure StrideWatch where
  part   : Nat
  last   : Nat
  stride : Int
  times  : Nat
  deriving DecidableEq, Repr

/-- A tier-map request in progress (R218, R220): its parameters as TM_GO found them. -/
structure TmRun where
  op      : Nat
  level   : Nat
  zc      : Bool
  kv      : Bool
  w       : Bool
  tier    : Nat
  vpn     : Nat
  count   : Nat
  arg     : Nat
  checked : Bool
  next    : Nat
  done    : Nat
  status  : Status
  deriving DecidableEq, Repr

/-- One Seam block (R235 to R240): reads since its last erase, the largest number of corrected bits, whether a soft decode was met,
whether it awaits relocation, its erases, the units programmed since the last, whether it is retired when it is next emptied, and
whether it is retired. -/
structure BlockWear where
  reads : Nat
  bits  : Nat
  soft  : Bool
  reloc : Bool
  erases : Nat
  used  : Nat
  retire : Bool
  bad   : Bool
  deriving DecidableEq, Repr

/-- A block emptied at a boundary and not yet erased (R238): the keeper, the block, whether its erase succeeds, and the tags of the reads
that were translated before. -/
structure EraseDue where
  keeper : Nat
  block  : Nat
  ok     : Bool
  tags   : List Nat
  deriving DecidableEq, Repr

/-- The tiers: contents by physical address, generation tags by 512-byte block, the salts of the keys that blocks were encrypted under
(R470, R484: the SERVICE_EPOCH, or the draw of a debug generation key), page tables, frames in use, code
blocks, requests in flight, moves and prefetchers. Of the keepers: the map from a logical page (partition · 2²⁶ + page) to the blocks of
its four units (R234, R235), the open block of each channel, the blocks, the erases that are due, and the counts of free and of spare
blocks. `looseAt` holds when a loose page was last read (R249), `migWrites` the writes that wait for the switch of a move (R247: the
partition, the address and the bytes), `heldWrites` those that wait for the end of Brown-out. -/
structure MemSt where
  cells     : List Host.Cell
  gens      : SMap Byte
  salts     : SMap Nat
  ptes      : SMap Pte
  galUsed   : List Nat
  driftUsed : List Nat
  driftLast : SMap Nat
  codes     : SMap Nat
  codeUsed  : List Nat
  galBad    : List Nat
  tags      : SMap TagRec
  freeing   : List (Tier × Nat)
  moves     : List Move
  pf        : SMap Prefetcher
  watch     : SMap StrideWatch
  tm        : SMap TmRun
  tw        : SMap (List Byte)
  wear      : SMap BlockWear
  units     : SMap (List Nat)
  openBlk   : SMap Nat
  eraseDue  : List EraseDue
  looseAt   : SMap Nat
  migWrites : List (Nat × Nat × List Byte)
  keeperFree  : List Nat
  keeperSpare : List Nat
  keeperGc    : List Bool
  heldWrites  : List (Nat × List Byte)
  deriving DecidableEq, Repr
/-! ### Trajectories of the planner (09) -/

/-- A knot of a speed profile (R379): arc length, speed and time, each FP32. -/
structure Knot where
  s : Word
  v : Word
  t : Word
  deriving DecidableEq, Repr

/-- A committed record (R379), a stop or the standstill. -/
structure Traj where
  cycle   : Nat
  epoch   : Word
  dTick   : Word
  outcome : Nat
  status  : Nat
  flags   : Nat
  heldAge : Nat
  row     : Nat
  col     : Nat
  heading : Nat
  prims   : List Nat
  cand    : Word
  cost    : Word
  origin  : Word
  knots   : List Knot
  deriving DecidableEq, Repr

/-- What a completing STOP or SELECT posts to the sequencer (R354): the cleanness that a core found of the new stop and of
the held stop, with the new stop itself, or the winner. -/
inductive LPost
  | stop (newClean heldClean : Bool) (t : Traj)
  | select (winner : Option Traj)
  deriving DecidableEq, Repr


/-! ### Commands on the cores (04, 05) and jobs (11) -/

/-- A command that the job machinery has offered to a core (R436): its descriptor as read from the command list, the job
and the stage it belongs to, and its part in a duplex stage (R574): 0 alone, 1 primary, 2 shadow. -/
structure Offer where
  desc  : List Word
  part  : Nat
  job   : Nat
  stage : Nat
  index : Nat
  seed  : DWord
  retry : Bool
  role  : Nat
  deriving DecidableEq, Repr

/-- The pushes of a producer on one channel (R180): the next output row to push and the rows in flight. -/
structure PushSt where
  chan   : Nat
  next   : Nat
  flying : Nat
  deriving DecidableEq, Repr

/-- One row that a KV_APPEND has written (R279): the sequence and block it belongs to, its row, the slot it went to, the slot
whose rows below it were copied first, whether the slot was taken for this row, and the row's place among the appended
rows. -/
structure KvRow where
  seq   : Nat
  block : Nat
  row   : Nat
  slot  : Nat
  source : Option Nat
  fresh : Bool
  index : Nat
  deriving DecidableEq, Repr

/-- What a command that has computed will do when it ends with OK: bytes to store at device-virtual addresses, the output
rows of a push, its flag bits, the length codes of compressed granules by address (R145), its counts by counter slot, the
rows of an append, track records by slot, a posting, births, its nominal clocks, and whether an ASSIGN passed its limit. -/
structure CmdOut where
  stores : List (Nat × List Byte)
  rows   : List (List Byte)
  flags  : Nat
  codes  : List (Nat × Nat)
  words  : List (Nat × Nat)
  append : List KvRow
  tracks : List (Nat × List Byte)
  plan   : Option LPost
  births : Nat
  clocks : Nat
  spent  : Bool
  deriving DecidableEq, Repr

/-- A command in WAIT or RUN on a core: what it computed, the failure that decided it and, where a tier request failed, its tick
and its tag (R194), the member channels of its windows with the operand each feeds and its base V₀ (R181), its pushes, the slots it
pinned (R275), the length table it read (R270), on a duplex core that waits for its partner how it ended (R574), the rows of wrong
length by operand (R183), the bytes of its memory operands as they were read at RUN, by address, where a window feeds it besides, and
the first of the free values that its Face holds where nothing landed. -/
structure CmdRun where
  offer : Offer
  issue : Nat
  out   : Option CmdOut
  fail  : Option Status
  win   : List (Nat × Nat × Word)
  push  : List PushSt
  pins  : List (Nat × Nat)
  lens  : List (Word × Word)
  ended : Option (EndClocks × CoreErr)
  failTag : Option (Nat × Nat)
  badRows : List (Nat × Nat)
  seen  : List (Nat × List Byte)
  free0 : Nat
  deriving DecidableEq, Repr

/-- One command stream of a core: what is offered to it and what runs on it. -/
structure CoreSt where
  offered : Option Offer
  cur     : Option CmdRun
  deriving DecidableEq, Repr

/-- A stage of a started job (R425, R443). -/
structure StageRt where
  core    : CoreId
  stream  : Nat
  loop    : Bool
  retry   : Bool
  wd      : Nat
  addr    : Nat
  count   : Nat
  next    : Nat
  loops   : Nat
  retries : Nat
  busy    : Bool
  spent   : Bool
  deriving DecidableEq, Repr

/-- A channel of a job's channel table (R178). -/
structure Channel where
  src     : Nat
  dst     : Nat
  window  : Nat
  units   : Nat
  rows    : Nat
  first   : Nat
  dstRow  : Nat
  rowT    : Nat
  creditT : Nat
  link    : Option Nat
  deriving DecidableEq, Repr

/-- A job in a ring entry (R429, R458), by partition · 256 + entry, or the canary job (R565) by 4096. `raw` marks an admitted
entry that is not yet decrypted. -/
structure Job where
  seq       : Nat
  state     : Nat
  raw       : Bool
  slot      : Nat
  retryMax  : Nat
  irqEn     : Bool
  sigEn     : Bool
  chanEn    : Bool
  streamEn  : Bool
  level     : Nat
  kind      : Nat
  jobId     : Word
  seed      : DWord
  graph     : Nat
  chanAddr  : Nat
  strAddr   : Nat
  tclrFirst : Nat
  tclrCount : Nat
  streams   : Nat
  batch     : Nat
  doneTally : Nat
  reserved  : Bool
  worked    : Bool
  safety    : Bool
  stages    : List StageRt
  chans     : SMap Channel
  status    : Status
  stage     : Nat
  decided   : Bool
  started   : Bool
  issued    : Bool
  cancelled : Bool
  retried   : Bool
  suspended : Bool
  startTick : Nat
  prodTick  : Nat
  snap      : List (Nat × Word)
  suspAt    : Nat
  stall     : Nat
  deriving DecidableEq, Repr

/-- An entry of the roster table (R445). -/
structure RoEntry where
  start : Nat
  dur   : Nat
  kind  : Nat
  part  : Nat
  group : Nat
  slot  : Nat
  deriving DecidableEq, Repr

/-- The window in force on a time-shared core group (R449). -/
structure WinNow where
  part : Nat
  slot : Nat
  stop : Nat
  deriving DecidableEq, Repr

/-- The roster's store and its windows (R445 to R455), and the tick in which it went to RUN after its origin (R455). -/
structure RosterSt where
  table   : Option (List RoEntry)
  pend    : Option (List RoEntry)
  stop    : Bool
  wins    : SMap WinNow
  frame0  : Nat
  canaryEnd : Nat
  late    : Option Nat
  deriving DecidableEq, Repr

/-! ### Memory keys of a partition (12: R493 to R498) -/

/-- The key generations of a partition: the write generation, the lowest generation still live, the state of R498,
whether a debug generation is in force (R497), the pages the sweep lost (R494), and the debug generation keys drawn (R484). -/
structure KeySt where
  gen   : Nat
  low   : Nat
  state : Nat
  dbgGen : Bool
  lost  : Nat
  draws : Nat
  deriving DecidableEq, Repr
/-! ### The KV cache (07) -/

/-- A page record (R267): STATE (0 FREE, 1 LIVE, 2 ORPHAN), FILL, GEN, PIN, REF, and the tick at which it filled (R288). -/
structure KvRec where
  st     : Nat
  fill   : Nat
  gen    : Nat
  pin    : Nat
  ref    : Nat
  filled : Nat
  deriving DecidableEq, Repr

/-- A KV operation in progress (R283, R307): its parameters as KV_GO found them, and the entries it has changed. -/
structure KvRun where
  op      : Nat
  level   : Nat
  pool    : Nat
  src     : Nat
  dst     : Nat
  layer   : Nat
  head    : Nat
  blocks  : Nat
  checked : Bool
  next    : Nat
  status  : Status
  deriving DecidableEq, Repr

/-- A KV delta record (R293) of a partition, with its arrival tick here. -/
structure KvDelta where
  part   : Nat
  pool   : Nat
  layer  : Nat
  head   : Nat
  fill   : Nat
  seq    : Nat
  block  : Nat
  tick   : Nat
  digest : Nat
  seen   : Nat
  deriving DecidableEq, Repr

/-- The KV managers: page records by slot, sequence tables by place (an absent entry is empty), operations in progress by
partition, and the delta records of this module and of its mate that have no counterpart yet (R294). -/
structure KvSt where
  recs   : SMap KvRec
  seqt   : SMap Nat
  runs   : SMap KvRun
  mine   : List KvDelta
  theirs : List KvDelta
  deriving DecidableEq, Repr

/-! ### Sensors (08) -/

/-- A frame being received (R312 to R317): its frame number, sample tick and the device time of that instant (R70), how many pixel lines have come, how many rows
were written, the flags so far, the ROW_TALLY ADDs made, the embedded bytes stored, and the sampled pixels of R315. -/
structure FrameRx where
  fn    : Nat
  tick  : Int
  time  : DWord
  lines : Nat
  rows  : Nat
  bad   : Nat
  adds  : Nat
  emb   : Nat
  samp  : SMap Nat
  deriving DecidableEq, Repr

/-- An A-PHY port beyond its registers: the next frame, AP_RELTALLY at STREAM_START, whether a stop awaits the Frame End,
the last hashes, the previous frame number, the frame in progress, whether the next frame's hash is forced to match (R346), whether that
frame is the detector's self-check (R557), and whether a frame was dropped since the last accepted one (R316). -/
structure PortSt where
  k      : Nat
  rel0   : Word
  stop   : Bool
  hashes : List Nat
  fnPrev : Option Nat
  frame  : Option FrameRx
  inject : Bool
  check  : Bool
  missed : Bool
  deriving DecidableEq, Repr

/-- A lidar source (R318, R319): the current sample, its first sequence number (none before the first packet), the packet
slots filled, the first packet's sample tick and the device time of that instant, the flags so far, whether the sample is being dropped,
and whether a disable awaits its end (R343). -/
structure LidarSt where
  k      : Nat
  rel0   : Word
  base   : Option Nat
  filled : List Nat
  tick   : Option Int
  time   : DWord
  bad    : Nat
  drop   : Bool
  stop   : Bool
  deriving DecidableEq, Repr

/-- A sample as its record describes it (R314), with what the release rule needs (R313), and the device time of its arrival at full
resolution (R45), in units of 2⁻³² ns. -/
structure Sample where
  slot    : Nat
  seq     : Nat
  tick    : Int
  arrival : Nat
  health  : Nat
  rel0    : Word
  digest  : Nat
  stamp   : Nat
  deriving DecidableEq, Repr

/-- An entry of an instant table (R324). -/
structure InstEntry where
  sample  : Sample
  carried : Bool
  deriving DecidableEq, Repr

/-- An instant table that is closed and not yet written (R323). -/
structure InstTable where
  number  : Nat
  entries : List InstEntry
  dropped : Nat
  deriving DecidableEq, Repr

/-- An instant unit: the samples that await an instant, the closed table, whether a disable awaits it. -/
structure InstSt where
  samples : List Sample
  table   : Option InstTable
  stop    : Bool
  deriving DecidableEq, Repr

/-- The sensors: ports, lidar sources, instant units by partition, and since when the time base has been, or has not been,
in LOCKED or GM, newest first (R325). -/
structure SensSt where
  ports   : SMap PortSt
  lidars  : SMap LidarSt
  insts   : SMap InstSt
  lockLog : List (Nat × Bool)
  deriving DecidableEq, Repr

/-- The track tables of the T-cores by byte (R334), and the next identifiers (R338). -/
structure TrackSt where
  bytes  : SMap Byte
  nextId : List Nat
  deriving DecidableEq, Repr

/-! ### The planning sequencer (09) -/

/-- The cycle in progress (R359): its number, deadline, snapshot and start state, and what was posted to it. -/
structure Cycle where
  n        : Nat
  dTick    : Nat
  epoch    : Word
  buf      : Nat
  row      : Nat
  col      : Nat
  heading  : Nat
  v        : Word
  arc      : Word
  opened   : Bool
  stops    : List (Nat × Bool × Bool)
  newStop  : Option Traj
  winner   : Option (Option Traj)
  deriving DecidableEq, Repr

/-- The sequencer of L0: the next threshold of PUB_TALLY, the active buffer, the cycle in progress, a disable that awaits the
commit, the trajectory in force, the held stop and its age, the library last named by a command, and the lead's records
that await the next cycle start (R380). -/
structure SeqSt where
  pubNext  : Word
  active   : Option Nat
  cycle    : Option Cycle
  stopping : Bool
  force    : Traj
  held     : Traj
  age      : Nat
  lib      : Option (Nat × Nat)
  mateForce : Option Traj
  mateHeld  : Option Traj
  deriving DecidableEq, Repr

/-! ### Foxglove (10) -/

/-- What a channel's last step left at its controller (R395): its number, u and its four flags. -/
structure FxStep where
  n     : Nat
  u     : Int
  flags : Nat
  deriving DecidableEq, Repr

/-- The lead's record of a step (R413). -/
structure FxMirror where
  seq   : Nat
  flags : Nat
  i     : Int
  e     : Int
  k     : Nat
  m     : Int
  y     : Int
  deriving DecidableEq, Repr

/-- A channel beyond its registers: the index of the next channel tick, the tick of the last START, the stored I, e_prev and
y, the value received since the last latch, whether an SPI transaction is in progress, the last step, the lead's record that
awaits the next channel tick, and the copies of the safe store (R410: FX_TIMING, FX_OUT_DST, FX_OUT_FIELD, FX_OUT_ID,
FX_OUT_XL, FX_OUT_AF). -/
structure FxCh where
  n      : Nat
  start  : Option Nat
  i      : Int
  e      : Int
  y      : Int
  fresh  : Option (List Byte)
  spi    : Bool
  step   : Option FxStep
  lastU  : Int
  mirror : Option FxMirror
  safe   : List Word
  deriving DecidableEq, Repr

/-- A frame given to a field bus (R407, R408), or the bytes of an SPI transaction (destination 0). -/
structure BusFrame where
  ch      : Nat
  dst     : Nat
  unit    : Nat
  id      : Word
  xl      : Word
  af      : Word
  payload : List Byte
  safe    : Bool
  deriving DecidableEq, Repr

/-- Foxglove: the channels, the pools of repetitive memory by word, the trajectory record each C-core holds (R404) with the
trajectory in force that it was read for, and the frames released in the present tick. -/
structure FxSt where
  chans  : SMap FxCh
  pool   : SMap Word
  recs   : SMap (Traj × Traj)
  frames : List BusFrame
  deriving DecidableEq, Repr

/-! ### Lamphouse (12) and attestation, debug and power (13) -/

/-- A mailbox command in progress (R511): opcode, level, whether it is sealed, its request as opened, the tick of MB_GO, and
its result once it is known. -/
structure MbRun where
  op     : Nat
  sealed : Bool
  req    : List Byte
  seq    : Nat
  go     : Nat
  result : Option (Status × List Byte)
  deriving DecidableEq, Repr

/-- An attestation request (R521): kind, subject, nonce, the tick of its AT_GO, the tick at whose end its snapshot is taken once Lamphouse
has begun it, and its snapshot tick and bytes 927:0 once they are taken. -/
structure AtRun where
  kind    : Nat
  subject : Nat
  nonce   : List Byte
  go      : Nat
  begun   : Option Nat
  snap    : Option (Nat × List Byte)
  deriving DecidableEq, Repr

/-- What Lamphouse holds for one partition: the session number in force and the last one drawn (R499), SK[n], MB_SEQ, the
next HOST_DMA numbers by direction (R504), MB_NONCE, the loaded manifest's image, the mailbox and attestation commands, RESET_GEN
(R522), the debug state with its expiry and duration (R531 to R534), and the trace position. -/
structure PartSec where
  session  : Nat
  lastSess : Nat
  sk       : List Byte
  mbSeq    : Nat
  dmaSeq   : List Nat
  nonce    : List Byte
  manifest : Option (List Byte)
  mb       : Option MbRun
  at'      : Option AtRun
  resetGen : Nat
  dbg      : Nat
  expiry   : Option Nat
  duration : Nat
  armed    : Bool
  armedAt  : Nat
  retArmed : Bool
  deriving DecidableEq, Repr

/-- The boot chain (R479, R480): whether the device is held in reset, the slot being tried, how many slots have failed, the
next component, and the images of the components that run. -/
structure BootSt where
  held     : Bool
  slot     : Nat
  failed   : Nat
  next     : Nat
  comps    : List (List Byte)
  fallback : Bool
  trialRun : Bool
  layoutDigest : List Byte
  deriving DecidableEq, Repr

/-- What the module keeps without power: the boot record, the firmware slots as far as they were written, the layout image,
the fuses, and Lamphouse's persistent state. -/
structure FlashSt where
  active   : Nat
  trial    : Option Nat
  tried    : Bool
  commit   : Bool
  slots    : List (Option (List (List Byte)))
  layout   : Option (List Byte)
  counters : List Nat
  epoch    : Nat
  kill     : Bool
  lifeNext : Option Nat
  owners   : List (List Byte)
  tampers  : List (Nat × Nat × Nat)
  d2Armed  : Option Nat
  d2Back   : Bool
  eraseNext : Bool
  trips    : List (Nat × Nat × Nat)
  pairEpoch : Word
  deriving DecidableEq, Repr

/-- Power (R537): the target of the transition in progress; the source of the wake in progress, 0 for none; the source of a wake kept
over Brown-out (R547); and the state that Brown-out interrupted. -/
structure PowerSt where
  transit : Option Nat
  src     : Nat
  kept    : Nat
  under   : Nat
  deriving DecidableEq, Repr

/-- Security as a whole: partitions, boot, flash, the staged slot's state (R481), the order of attestation requests, and what
went to host memory in the present tick: function, host address, bytes. -/
structure SecSt where
  parts   : SMap PartSec
  boot    : BootSt
  flash   : FlashSt
  update  : Nat
  atOrder : List Nat
  hostWr  : List (Nat × Nat × List Byte)
  power   : PowerSt
  deriving DecidableEq, Repr


/-! ### Fireboss (14) -/

/-- An armed watchdog (R559 to R563): the job and the stage it is bound to; K for a REL watchdog; for an ABS one the next window
that has had no kick, and the first one checked; whether it has expired, and whether it is held. -/
structure Dog where
  job   : Nat
  stage : Nat
  base  : Nat
  next  : Nat
  first : Nat
  out   : Bool
  held  : Bool
  deriving DecidableEq, Repr

/-- What Fireboss keeps for a core (R553 to R556, R570, R572): the tick its start-up checks passed, whether a check that
failed during boot awaits its judgement, how often it was marked, the next slice of a retest, the next periodic slice, the
slices due and not started, the due points passed, when each slice last passed, the slice that runs (index, start tick,
whether the core was SUSPECT; index 1,024 stands for a digest slice), a mark that awaits its end, COVERAGE_DEBT, and the digest slices that
the weight entry of a round still needs, with whether the core reads it otherwise (R576). -/
structure CoreFb where
  checked  : Option Nat
  bootBad  : Bool
  marks    : Nat
  retest   : Option Nat
  next     : Nat
  due      : Nat
  points   : Nat
  last     : SMap Nat
  slice    : Option (Nat × Nat × Bool)
  pendMark : Bool
  debt     : Bool
  dig      : Option (Nat × Bool)
  deriving DecidableEq, Repr

/-- A quiet interval (R571): the core's identifier, START and DURATION. -/
structure Quiet where
  core  : Nat
  start : Nat
  dur   : Nat
  deriving DecidableEq, Repr

/-- Fireboss: watchdogs by stack · 256 + number, cores by identifier, the quiet tables in force and pending by stack, the
last PASS (R568), the minor frame of the canary in progress and the end status that awaits its compare (R565), a device-fatal
check that failed during boot (R556: class and instance), whether a stack
manager is held in reset (R582), the next weight entry by partition (R578), and the commands counted as waiting on a quiet
interval, by core. -/
structure FbSt where
  dogs    : SMap Dog
  cores   : SMap CoreFb
  quiet   : SMap (List Quiet)
  quietTo : SMap (List Quiet)
  lastPass : Nat
  canFrame : Nat
  canEnd  : Option Status
  canDue  : List Nat
  bootFail : Option (Nat × Nat)
  stopped : Option Nat
  nextDig : SMap Nat
  digFrame : Nat
  waitQ   : List Nat
  deriving DecidableEq, Repr


/-! ### The pair (15) -/

/-- A message of the Vuvon link (R596): class, subtype, partition and body. -/
structure Msg where
  cls  : Nat
  sub  : Nat
  part : Nat
  body : List Byte
  deriving DecidableEq, Repr

/-- A T-core's mirroring (R609): CMD_SEQ, since when the standby waits for LAST of it, the lead's records of
later commands, and the last CMD_SEQ that the standby went on without. -/
structure TrkMirror where
  seq  : Nat
  wait : Option Nat
  got  : List (Nat × List Byte)
  late : Nat
  deriving DecidableEq, Repr

/-- A flit of the link (R592): FSEQ, ACK, the flags NAK and REPLAY, the used bytes of its message area, and the TXCOUNT of its slot where it
is protected (R593). -/
structure Flit where
  seq    : Nat
  ack    : Nat
  nak    : Bool
  replay : Bool
  area   : List Byte
  count  : Option Nat
  deriving DecidableEq, Repr

/-- A BULK transfer being received (R611): its number, subtype, partition and total, and its bytes so far. -/
structure BulkRx where
  num   : Nat
  sub   : Nat
  part  : Nat
  total : Nat
  data  : List Byte
  deriving DecidableEq, Repr

/-- The Vuvon link and leadership. Leadership: LEAD, the epochs, the tick by which EPOCH_REC is due, whether the mate led or
was last known to lead, the last BEAT and the last LIFE_IN edge, the tick DEVICE entered RUN, whether the link has passed
AUTH and has reached ALIGN since reset, and when. Link: keys, this module's HELLO and the mate's, whether this module's CONFIRM is out,
the sequence numbers, the data flits kept for replay (R594) with how often each was replayed and its message area, those still to be
replayed, TXCOUNT from the slot after CONFIRM on (R593), the count of the next slot of the mate, the data flits that left in the last tick
(with an idle one where none did), recent NAKs, consecutive tag failures,
the last good FEC, a third replay, and whether the next flit carries NAK; messages received and not yet delivered, and
messages queued. Alignment: offsets within ±50 ns in a row, and beyond ±500 ns. Mirroring: input digests of both sides with
their ticks, the T-cores, BULK transfers, the mate's manifest digests, the level of LIFE_OUT, and the number of
the next BULK transfer. Then: the LIFE_IN edge before the last one, the tick of the last toggle of LIFE_OUT, the run of offsets that
agree, ALIGN_SEQ sent and received, the KV_REQ bodies without an answer by partition, and the last report that the mate sent. -/
structure VlSt where
  lead     : Bool
  epoch    : Word
  mateEpoch : Word
  epochDue : Option Nat
  mateLed  : Bool
  lastBeat : Option Nat
  beatFor  : Nat
  lastLife : Option Nat
  runAt    : Option Nat
  passed   : Bool
  reached  : Bool
  alignAt  : Option Nat
  keys     : List Byte
  ownHello : List Byte
  hello    : List Byte
  sentConf : Bool
  txSeq    : Nat
  rxSeq    : Nat
  sent     : List (Nat × Nat × List Byte)
  redo     : List Nat
  txCount  : Option Nat
  rxCount  : Nat
  wire     : List Flit
  naks     : List Nat
  tagRun   : Nat
  lastFec  : Nat
  thrice   : Bool
  nak      : Bool
  inbox    : List Msg
  out      : List Msg
  near     : Nat
  far      : Nat
  mine     : List (List Byte × Nat)
  theirs   : List (List Byte × Nat)
  trk      : List TrkMirror
  bulk     : List BulkRx
  mateMan  : List Byte
  lifeOut  : Bool
  txBulk   : Nat
  prevLife : Option Nat
  lifeAt   : Option Nat
  offs     : List Int
  txAlign  : Nat
  rxAlign  : Nat
  kvReqs   : List (Nat × List Byte)
  report   : List Byte
  deriving DecidableEq, Repr

/-! ### Interfaces (16), counters, loopbacks and the TAP (17) -/

/-- The supply and the reset pins (R641 to R644): whether the main domains are on, the power-fail sources asserted, the tick at
which Brown-out began, whether RESET_N is low, when the input was lost and when the hold-up
store began to feed, whether the always-on domain runs, and the sensors' readings: input voltage, die and junction. -/
structure SupplySt where
  main    : Bool
  sources : List Nat
  brownAt : Option Nat
  resetN  : Bool
  lostAt  : Option Nat
  drawAt  : Option Nat
  always  : Bool
  vin     : Nat
  die     : Nat
  deriving DecidableEq, Repr

/-- The loopback in progress (R673): the unit, the depth, the tick of its limit, and what its generator and checker have counted, where a
command brings it. -/
structure LoopSt where
  page  : Page
  depth : Nat
  limit : Nat
  count : Option LoopCount
  deriving DecidableEq, Repr

/-- The TAP (R677 to R679): the instruction in force, the partition selected, what the next Capture-DR of ACCESS holds, the
boundary register, and the DEVICE report: none, awaited, or ready. -/
structure TapSt where
  ir       : Nat
  select   : Option Nat
  status   : Status
  data     : Word
  boundary : List Bool
  capture  : List Byte
  report   : Option (Option (List Byte))
  deriving DecidableEq, Repr

/-- A dump being written (R661): its snapshot tick, whether SNAP asked for it, and the counts once they are latched (R660). -/
structure DumpRun where
  tick   : Nat
  snap   : Bool
  counts : Option (SMap DWord)
  deriving DecidableEq, Repr

/-- The event counters (17): dumps since EN, the tick of the next trigger, the dump being written, a SNAP that is pending with the tick of
its snapshot, an EN = 0 that awaits a dump's end, the bank store with the tick of its last sweep, CR mode, the counts of group cores at
their last window boundary, the counters that wrapped in this tick, when each threshold unit was armed, and the hits that await their
samples: the hit tick, the counter, and the commands ended on the counter's core by then. -/
structure CntSt where
  seq    : Nat
  next   : Nat
  run    : Option DumpRun
  snap   : Option Nat
  stop   : Bool
  bank   : SMap DWord
  swept  : Nat
  cr     : Bool
  base   : SMap DWord
  wraps  : List Nat
  armAt  : SMap Nat
  hits   : SMap (Nat × Nat × Nat)
  deriving DecidableEq, Repr

/-! ### The device and the actions of the next tick boundary (R681) -/

/-- An action timed for a tick boundary (R681): no event or access of its own tick sees it. -/
inductive BAct
  | softReset (p : Page) (enable : Bool)
  | errFlag (p : Page) (n : Nat)
  | timeStep (off : Int) (first : Bool)
  | ptpStop
  | level (req : Byte)
  | duty (d : Nat)
  | presetBegin (p : Nat)
  | presetEnd (p : Nat)
  | moveEnd (part vpn : Nat)
  | hoistFetch (pf : Nat)
  | strideFetch (pf part : Nat) (vpns : List Nat)
  | tmQuery (part : Nat)
  | tmDone (part : Nat)
  | relocEnd (keeper block : Nat) (ok : Bool)
  | gcEnd (keeper freed : Nat)
  | tmPages (part n : Nat)
  | pageRelease (pf part vpn : Nat)
  | digMove (part vpn : Nat)
  | kvSwitch (part pool layer head : Nat) (row : KvRow)
  | kvGiveBack (part pool slot : Nat)
  | kvSwap (part pool lane : Nat)
  | kvReclaim (part pool slot : Nat)
  | atBegin
  | rotate (part : Nat)
  | retire (part : Nat)
  | power (target : Nat)
  | windowPast (cmds : List (Nat × Nat))
  deriving DecidableEq, Repr

/-- What the fuses and the straps fix, and the device's global conditions. -/
structure DevSt where
  order     : BitVec 2
  pairPos   : Bool
  stepping  : BitVec 4
  lifecycle : BitVec 4
  power     : BitVec 4
  inReset   : List Nat
  inCharge  : Bool
  layout    : Option Layout
  deriving DecidableEq, Repr

/-- The whole machine. `watchDue` holds the Tally watches (page · 4 + number) that the last tick boundary found reached (R173); `latch` the
words that a read latched for its requester (R56, R95), by requester · 2²⁶ + address; `hwSet` the flags that hardware set in this tick
(R11); `rcTick` the clearing registers that this tick's events changed: what a read of this tick returns, and what those events alone
leave (R12, R105). -/
structure State where
  pending : List Instr
  reply   : Reply
  irqs    : List Irq
  regs    : SMap Word
  ctrs    : SMap DWord
  latch   : SMap Word
  hwSet   : SMap Word
  rcTick  : SMap (Word × Word)
  atTick  : List BAct
  dev     : DevSt
  time    : TimeSt
  gov     : GovSt
  tally   : SMap Word
  watchDue : List Nat
  keys    : SMap KeySt
  mem     : MemSt
  kv      : KvSt
  sens    : SensSt
  tracks  : TrackSt
  seq     : SeqSt
  fx      : FxSt
  sec     : SecSt
  cores   : SMap CoreSt
  face    : SMap Byte
  jobs    : SMap Job
  jobSeq  : Nat
  ring    : SMap Byte
  scanAt  : SMap Nat
  fb      : FbSt
  vl      : VlSt
  supply  : SupplySt
  loop    : Option LoopSt
  tap     : TapSt
  cnt     : CntSt
  prodAt  : SMap Nat
  roster  : RosterSt
  free    : Nat
  deriving DecidableEq, Repr

/-! ### Reset

`State.reset` is the machine as power-good leaves it (R646): every register at its reset value (`regReset` gives the value that an
absent entry reads as), nothing stored, and reset still held: RESET_RELEASE begins tick 0. The fuses, the straps and the physical
readings, for which the spec gives no value, are those that log 1 names. -/

def TimeSt.reset : TimeSt := ⟨0, 0, 0, false, false, false, false, 0, [], 0, false, false, 0, 0, [], [], 0, [], 0, 0, none⟩
def GovSt.reset : GovSt := ⟨[], 3840, 16, 0, 0, 400, 0, false⟩
def MemSt.reset : MemSt :=
  { cells := [], gens := [], salts := [], ptes := [], galUsed := [], driftUsed := [], driftLast := [], codes := [], codeUsed := [], galBad := [], tags := []
    freeing := [], moves := [], pf := [], watch := [], tm := [], tw := [], wear := [], units := [], openBlk := []
    eraseDue := [], looseAt := [], migWrites := [], keeperFree := [58240, 58240], keeperSpare := [1164, 1164]
    keeperGc := [false, false], heldWrites := [] }
/-- The standstill that no cycle has replaced (R381). -/
def Traj.none : Traj := ⟨0, 0, 0, 3, 0, 0, 0, 0, 0, 0, [], 0xFFFFFFFF#32, 0, 0, [⟨0, 0, 0⟩]⟩
def SeqSt.reset : SeqSt := ⟨0, .none, .none, false, Traj.none, Traj.none, 0, .none, .none, .none⟩
def FlashSt.reset : FlashSt :=
  { active := 0, trial := none, tried := false, commit := false, slots := [none, none], layout := none, counters := [0, 0, 0, 0, 0], epoch := 0
    kill := false, lifeNext := none, owners := [], tampers := [], d2Armed := none, d2Back := false, eraseNext := false, trips := []
    pairEpoch := 0 }
def PowerSt.reset : PowerSt := ⟨none, 0, 0, 0⟩
def BootSt.reset : BootSt := ⟨true, 0, 0, 0, [], false, false, []⟩
def SecSt.reset : SecSt := ⟨[], BootSt.reset, FlashSt.reset, 0, [], [], PowerSt.reset⟩
def FbSt.reset : FbSt :=
  { dogs := [], cores := [], quiet := [], quietTo := [], lastPass := 0, canFrame := 0, canEnd := none, canDue := [], bootFail := none
    stopped := none, nextDig := [], digFrame := 0, waitQ := [] }
def VlSt.reset : VlSt :=
  { lead := false, epoch := 0, mateEpoch := 0, epochDue := none, mateLed := false, lastBeat := none, beatFor := 0, lastLife := none
    runAt := none, passed := false, reached := false, alignAt := none, keys := [], ownHello := [], hello := [], sentConf := false
    txSeq := 0, rxSeq := 0, sent := [], redo := [], txCount := none, rxCount := 0, wire := [], naks := [], tagRun := 0, lastFec := 0, thrice := false, nak := false, inbox := [], out := []
    near := 0, far := 0, mine := [], theirs := [], trk := [⟨0, none, [], 0⟩, ⟨0, none, [], 0⟩], bulk := [], mateMan := [], lifeOut := false
    txBulk := 0, prevLife := none, lifeAt := none, offs := [], txAlign := 0, rxAlign := 0, kvReqs := [], report := [] }
def SupplySt.reset : SupplySt := ⟨true, [], none, false, none, none, true, 4800, 0⟩
def TapSt.reset : TapSt := ⟨0xFF, none, .ok, 0, [], [], none⟩
def CntSt.reset : CntSt := ⟨0, 0, none, none, false, [], 0, true, [], [], [], []⟩
def RosterSt.reset : RosterSt := ⟨none, none, false, [], 0, 0, none⟩

/-- The machine right after reset: TKV16-A, SEALED, position A (log 1). -/
def State.reset : State :=
  { pending := [], reply := ⟨.ok, 0⟩, irqs := [], regs := [], ctrs := [], latch := [], hwSet := [], rcTick := [], atTick := []
    dev := ⟨1, false, 0, 1, 0, [], false, none⟩, time := TimeSt.reset, gov := GovSt.reset, tally := [], watchDue := [], keys := []
    mem := MemSt.reset, kv := ⟨[], [], [], [], []⟩, sens := ⟨[], [], [], []⟩, tracks := ⟨[], [0, 0]⟩, seq := SeqSt.reset
    fx := ⟨[], [], [], []⟩, sec := SecSt.reset, cores := [], face := [], jobs := [], jobSeq := 0, ring := [], scanAt := []
    fb := FbSt.reset, vl := VlSt.reset, supply := SupplySt.reset, loop := none, tap := TapSt.reset, cnt := CntSt.reset, prodAt := []
    roster := RosterSt.reset, free := 0 }

end Sys2Proof.Machine
end

