-- ==== Sys2Proof/Machine/Regs.lean ====
section
/-! DEFINITION. The register tables: for every page class the registers of its chapter, each with the bits that are
stored, cleared by writing 1, acted on, cleared by reading, read-only, and stored only while the page is unlocked
(R9), and its reset value. Bits in none of these masks are reserved (R13), and an offset in no row is a reserved
register (R84). The common header of R85 comes first. -/

namespace Sys2Proof.Machine

/-- One register, or an array of them at a fixed distance. -/
structure RegRow where
  name   : String
  first  : Nat
  count  : Nat := 1
  stride : Nat := 4
  rw     : Word := 0
  w1c    : Word := 0
  wo     : Word := 0
  rc     : Word := 0
  ro     : Word := 0
  rwl    : Word := 0
  reset  : Word := 0
  deriving DecidableEq, Repr

def allOnes : Word := 0xFFFFFFFF#32

/-- The bits that a register defines. -/
def rowBits (r : RegRow) : Word := r.rw ||| r.w1c ||| r.wo ||| r.rc ||| r.ro ||| r.rwl

/-- Whether an offset is one of a row's registers. -/
def rowHas (r : RegRow) (off : Nat) : Bool :=
  decide (r.first ≤ off ∧ (off - r.first) % r.stride = 0 ∧ (off - r.first) / r.stride < r.count)

/-- The PG_ERR flags of a page (R91): which bits name a flag. -/
def errMask (p : Page) : Word :=
  match p.cls with
  | .device => 0x7 | .tick => 0x7 | .ptp => 0x7
  | .m => 0x1F | .v => 0x7 | .a => 0xFF | .l => if p.inst = 0 then 0x3F else 0x7
  | .f => 0x7 | .t => 0x3 | .aphy => 0x7 | .c => 0x3 | .fxch => 0x1F
  | .mailbox => if p.inst = 0 then 0x1F else 0x17
  | .attest => 0x1
  | .fireboss => if p.inst < 2 then 0x7F else 0
  | .tally => 0x1
  | .gallery => 0xF | .drift => 0xF | .seam => 0xF | .keeper => 0xF | .hoist => 0x1
  | .ring => if p.inst = 0 then 0x7 else 0x3
  | .vuvon => 0xFFF
  | .pcie => 0xF | .tsn => 0x7 | .eth => 0x7 | .can => 0x7 | .plca => 0x7 | .spi => 0x7
  | .dump => 0x3 | .bank => 0x1 | .test => 0x1
  | .part => 0

/-- The block-specific bits of PG_CTRL[31:8] (R88) and, in bit 0, its reset value of ENABLE. -/
def ctrlBits (_p : Page) : Word := 0x1

def ctrlReset (p : Page) : Word :=
  match p.cls with
  | .m | .v | .a | .l | .f | .t | .c | .aphy | .eth | .can | .plca | .spi => 0
  | _ => 1

/-- The counter slots that a page assigns (R95), slot 0 among them. -/
def ctrSlots (p : Page) : List Nat :=
  match p.cls with
  | .device => [0, 1, 2]
  | .m => List.range 13
  | .v => List.range 13
  | .a => List.range 13
  | .l => if p.inst = 0 then List.range 10 ++ (List.range 9).map (· + 13) else List.range 10
  | .mailbox => List.range (if p.inst = 0 then 9 else 8)
  | .attest => List.range 4
  | .fireboss => List.range (if p.inst < 2 then 14 else 8)
  | .c => List.range 7
  | .fxch => List.range 13
  | .f => List.range 8
  | .t => List.range 10
  | .aphy => List.range 10
  | .tally => List.range 7
  | .gallery | .drift | .seam | .keeper | .hoist => List.range 8
  | .ring => List.range (if p.inst = 0 then 8 else 10)
  | .vuvon => List.range 18
  | .pcie => List.range 6
  | .eth => List.range (if p.inst < 8 then 15 else 6)
  | .can => List.range 6
  | .spi => List.range 4
  | .dump => List.range 5
  | .test => List.range 7
  | .tick | .ptp | .part | .tsn | .plca | .bank => [0]

/-- The bits that a page's chapter gives PG_CAP (R153, R206, R301, R421). A page whose chapter gives it none has the one field CAP (R87). -/
def capBits (p : Page) : Word :=
  match p.cls with
  | .m => 0x8000007F#32
  | .v => 0x8000003F#32
  | .a => 0x8000001F#32
  | .c => 0x8000007F#32
  | _ => allOnes

/-- The bits that a page's chapter gives PG_STAT (R154, R206, R301, R350, chapter 09). On other pages [31:8] and [3:1] stay the chapter's
own fields of R90, which it leaves empty. -/
def statBits (p : Page) : Word :=
  match p.cls with
  | .m => 0x00FF03F1#32
  | .v => 0x00FFFFF1#32
  | .a | .f | .t | .l => 0x00FF00F1#32
  | _ => allOnes

/-- The common header (R85 to R95) but for the counter window. -/
def headerRows (p : Page) : List RegRow :=
  let e := errMask p
  [ { name := "PG_ID", first := 0x000, ro := allOnes },
    { name := "PG_CAP", first := 0x004, ro := capBits p },
    { name := "PG_CTRL", first := 0x008, rw := ctrlBits p, wo := 0x2, reset := ctrlReset p },
    { name := "PG_STAT", first := 0x00C, ro := statBits p },
    { name := "PG_ERR", first := 0x010, w1c := e },
    { name := "PG_ERRMASK", first := 0x014, rw := e },
    { name := "PG_ERRINJ", first := 0x018, wo := e },
    { name := "PG_REJECT", first := 0x01C, rc := allOnes },
    { name := "PG_OWNER", first := 0x020, rw := 0x100, ro := 0x60F
      reset := BitVec.ofNat 32 (defaultOwner p + (if defaultShared p then 0x200 else 0)) },
    { name := "PG_LEVEL", first := 0x024, ro := 0xFF, reset := 1 },
    { name := "PG_TSTAMP", first := 0x028, ro := allOnes } ]

/-- The DEVICE page (R107). -/
def deviceRows : List RegRow :=
  [ { name := "DEV_IDENT", first := 0x100, ro := allOnes, reset := 0x00010016 },
    { name := "DEV_VARIANT", first := 0x104, ro := 0xF7 },
    { name := "DEV_LEVEL", first := 0x108, ro := 0xFF00, rw := 0xFF, reset := 0x0101 },
    { name := "DEV_STATE", first := 0x10C, ro := 0x3FF },
    { name := "DEV_UNMAPPED", first := 0x110, rc := 0x3FFFFFFF },
    { name := "DEV_DENY_RD", first := 0x114, rc := 0x3FFFFFFF },
    { name := "DEV_ERRSUM", first := 0x118, ro := 0xFFFF },
    { name := "DEV_PRESET", first := 0x11C, wo := 0xF },
    { name := "DEV_PRESET_STAT", first := 0x120, ro := 0xFFFF },
    { name := "DEV_CMP_MASK", first := 0x124, rw := 0xFF, reset := 0xFF },
    { name := "DEV_SCRATCH", first := 0x128, rw := allOnes } ]

/-- The TICK page (R56). -/
def tickRows : List RegRow :=
  [ { name := "TICK_NOW_LO", first := 0x100, ro := allOnes },
    { name := "TICK_NOW_HI", first := 0x104, ro := allOnes },
    { name := "TIME_NS_LO", first := 0x108, ro := allOnes },
    { name := "TIME_NS_HI", first := 0x10C, ro := allOnes },
    { name := "TIME_FRAC", first := 0x110, ro := allOnes },
    { name := "TIME_STAT", first := 0x114, ro := 0x3F },
    { name := "ORIGIN_LO", first := 0x118, ro := allOnes },
    { name := "ORIGIN_HI", first := 0x11C, ro := allOnes },
    { name := "FREQ_ADJ_LO", first := 0x120, ro := allOnes },
    { name := "FREQ_ADJ_HI", first := 0x124, ro := 0xFFFF },
    { name := "TIME_SET_LO", first := 0x128, rw := allOnes },
    { name := "TIME_SET_HI", first := 0x12C, rw := allOnes },
    { name := "TIME_CMD", first := 0x130, wo := 0x3 },
    { name := "TICK_CMP", first := 0x140, count := 8, rw := allOnes },
    { name := "TICK_CMP_CTRL", first := 0x160, count := 8, rw := 0xFFFF0001, w1c := 0x6 } ]

/-- The PTP page (R75). -/
def ptpRows : List RegRow :=
  [ { name := "PTP_CTRL", first := 0x100, rw := 0xFFFF000F, reset := 0xF8F80000 },
    { name := "PTP_PORTS", first := 0x104, rw := 0xFFFF },
    { name := "PTP_INTV", first := 0x108, rw := 0xFFFFFF, reset := 0xFD },
    { name := "OFFSET_LAST", first := 0x10C, ro := allOnes },
    { name := "TSQ_COUNT", first := 0x110, ro := 0x7F },
    { name := "TSQ_ENTRY0", first := 0x114, ro := 0xFFFFFF01 },
    { name := "TSQ_ENTRY1", first := 0x118, ro := allOnes },
    { name := "TSQ_ENTRY2", first := 0x11C, ro := allOnes },
    { name := "TSQ_ENTRY3", first := 0x120, rc := allOnes },
    { name := "TSQ_OVF_COUNT", first := 0x124, rc := allOnes } ]

/-- The M-core page (R155). -/
def mRows : List RegRow :=
  [ { name := "MC_LAST", first := 0x100, ro := 0xFFFFF },
    { name := "MC_LAST_CLK", first := 0x104, ro := allOnes },
    { name := "MC_FLAGS", first := 0x108, w1c := 0xF },
    { name := "MC_DUTY", first := 0x10C, ro := 0x11F, reset := 16 },
    { name := "MC_DIAG", first := 0x110, rc := 0x1FF },
    { name := "MC_FACE_UE", first := 0x114, rc := 0xFFFF } ]

/-- The V-core page (R207). -/
def vRows : List RegRow :=
  [ { name := "VC_LAST", first := 0x100, ro := 0xFFFFF },
    { name := "VC_LAST_CLK", first := 0x104, ro := allOnes },
    { name := "VC_FLAGS", first := 0x108, w1c := 0xF },
    { name := "VC_DIAG", first := 0x110, rc := 0x1F7 },
    { name := "VC_FACE_UE", first := 0x114, rc := 0xFFFF } ]

/-- The Tally page (R170). -/
def tallyRows : List RegRow :=
  [ { name := "TL_ADD", first := 0x100, wo := 0x01FFFFFF },
    { name := "TL_CLEAR", first := 0x104, wo := 0x01FF03FF },
    { name := "TL_ARMED", first := 0x108, ro := 0x3FF },
    { name := "TL_WATCH_STAT", first := 0x10C, w1c := 0xF },
    { name := "TL_WATCH_CTRL", first := 0x110, count := 4, rw := 0x800001FF },
    { name := "TL_WATCH_THR", first := 0x120, count := 4, rw := allOnes },
    { name := "TL_VALUE", first := 0x800, count := 512, ro := allOnes } ]

/-- The Gallery half page (R257). -/
def galleryRows : List RegRow :=
  [ { name := "GL_FRAMES", first := 0x100, ro := 0xFFFF, reset := 16384 },
    { name := "GL_FREE", first := 0x104, ro := 0xFFFF },
    { name := "GL_SCRUB", first := 0x108, rw := 0xFFFF0001, reset := 0x00640001 },
    { name := "GL_UE_ADDR", first := 0x10C, rc := 0x01FFFFFF },
    { name := "GL_TAG_FAULT", first := 0x110, rc := 0x007FFFFF } ]

/-- The Drift controller page (R258). -/
def driftRows (k : Nat) : List RegRow :=
  [ { name := "DR_CFG", first := 0x100, ro := 0xFFF, reset := BitVec.ofNat 32 (2 * k + (k / 4) * 256) },
    { name := "DR_CHSTAT", first := 0x104, ro := 0xF },
    { name := "DR_RETRAIN", first := 0x108, wo := 0x3 },
    { name := "DR_UE_ADDR", first := 0x10C, rc := 0x01FFFFFF } ]

/-- The Seam channel page (R259). -/
def seamRows : List RegRow :=
  [ { name := "SC_GEOM", first := 0x100, ro := 0x3FFFFFFF },
    { name := "SC_BAD", first := 0x104, ro := 0xFFFF },
    { name := "SC_RETRAIN", first := 0x108, wo := 0x1 } ]

/-- The Seam keeper page (R259). -/
def keeperRows : List RegRow :=
  [ { name := "KP_LPNS", first := 0x100, ro := 0x03FFFFFF, reset := 25165824 },
    { name := "KP_FREE", first := 0x104, ro := 0xFFFFFF },
    { name := "KP_SPARE", first := 0x108, ro := 0xFFFFFF },
    { name := "KP_WEAR", first := 0x10C, ro := allOnes },
    { name := "KP_RD_BASE", first := 0x110, rw := 0x7FFFF, reset := 200000 },
    { name := "KP_RELOC", first := 0x114, ro := 0xFFFFFF } ]

/-- The Hoist page (R260); the device-wide registers lie on the W page alone. -/
def hoistRows (h : Nat) : List RegRow :=
  (if h = 0 then
    [ { name := "HS_STRIDE_EN", first := 0x100, rw := 0xFFFF },
      { name := "TR_TMO_DRIFT", first := 0x104, rw := 0xFFFF, reset := 200 },
      { name := "TR_TMO_SEAM", first := 0x108, rw := allOnes, reset := 20000 } ]
   else []) ++
  [ { name := "HS_BUSY_PF", first := 0x10C, ro := 0xFF },
    { name := "HS_PF_STAT", first := 0x400, count := 128, ro := allOnes } ]

/-- The tier-map registers of a partition page (R218). -/
def tierMapRows : List RegRow :=
  [ { name := "TM_OP", first := 0x400, rw := 0xF00001FF, reset := 0x10000000 },
    { name := "TM_VPN", first := 0x404, rw := 0x0FFFFFFF },
    { name := "TM_COUNT", first := 0x408, rw := 0x1FFF },
    { name := "TM_ARG", first := 0x40C, rw := 0x03FFFFFF },
    { name := "TM_GO", first := 0x410, wo := 0x1 },
    { name := "TM_STAT", first := 0x414, ro := 0xFFFF01FF },
    { name := "TM_Q", first := 0x418, count := 4, ro := allOnes } ]

/-- The A-core page (R302). -/
def aCoreRows : List RegRow :=
  [ { name := "AC_LAST", first := 0x100, ro := 0x3FFFFF },
    { name := "AC_LAST_CLK", first := 0x104, ro := allOnes },
    { name := "AC_FLAGS", first := 0x108, w1c := 0x1F },
    { name := "AC_LEAD", first := 0x10C, rw := 0xF, reset := 4 },
    { name := "AC_DIAG", first := 0x110, rc := 0x1F0 },
    { name := "AC_FACE_UE", first := 0x114, rc := 0x7FFF },
    { name := "AC_APPEND_STAT", first := 0x118, ro := 0xFF00F1 } ]

/-- The KV control registers of a partition page (R305 to R307). -/
def kvRows : List RegRow :=
  [ { name := "KV_PCFG", first := 0x480, count := 4, stride := 0x20, rw := 0xFFFF000B },
    { name := "KV_PBASE", first := 0x484, count := 4, stride := 0x20, rw := 0x0FFFFFFF },
    { name := "KV_PSIZE", first := 0x488, count := 4, stride := 0x20, rw := 0xFFFFF },
    { name := "KV_PGEOM", first := 0x48C, count := 4, stride := 0x20, rw := 0xFFFFFFE0 },
    { name := "KV_PFREE", first := 0x490, count := 4, stride := 0x20, ro := 0xFFFFFF },
    { name := "KV_OP", first := 0x500, rw := 0xF000003F, reset := 0x10000000 },
    { name := "KV_ARG0", first := 0x504, rw := 0x01FF01FF },
    { name := "KV_ARG1", first := 0x508, rw := 0xFFFF0FFF },
    { name := "KV_GO", first := 0x50C, wo := 0x1 },
    { name := "KV_STAT", first := 0x510, ro := 0x1FF },
    { name := "KV_Q0", first := 0x514, ro := 0xFFFFFF },
    { name := "KV_Q1", first := 0x518, ro := allOnes },
    { name := "KV_Q2", first := 0x51C, ro := 0x037FFFFF } ]

/-- The F-core and T-core pages (R350). -/
def fCoreRows : List RegRow :=
  [ { name := "FC_LAST", first := 0x100, ro := 0xFFFFF },
    { name := "FC_LAST_CLK", first := 0x104, ro := allOnes },
    { name := "FC_FLAGS", first := 0x108, w1c := 0xF } ]

def tCoreRows : List RegRow :=
  [ { name := "TC_LAST", first := 0x100, ro := 0x7FFFF },
    { name := "TC_LAST_CLK", first := 0x104, ro := allOnes },
    { name := "TC_FLAGS", first := 0x108, w1c := 0x7 },
    { name := "TC_NEXT_ID", first := 0x10C, ro := 0x7FFFFFFF },
    { name := "TC_LIVE", first := 0x110, ro := 0x3FF } ]

/-- The A-PHY port page (R347). -/
def aphyRows : List RegRow :=
  [ { name := "AP_CFG", first := 0x100, rw := 0xFFFE0000 },
    { name := "AP_GEOM", first := 0x104, rw := allOnes },
    { name := "AP_DELAY", first := 0x108, rw := 0xFFFF },
    { name := "AP_FB", first := 0x10C, rw := 0x0FFFFFFF },
    { name := "AP_FBCOUNT", first := 0x110, rw := 0xF, reset := 2 },
    { name := "AP_REC", first := 0x114, rw := allOnes },
    { name := "AP_RECHI", first := 0x118, rw := 0xF },
    { name := "AP_STRIPE", first := 0x11C, rw := 0x7F, reset := 16 },
    { name := "AP_ROWTALLY", first := 0x120, rw := 0x3FFF },
    { name := "AP_RELTALLY", first := 0x124, rw := 0x3FFF },
    { name := "AP_FNCHK", first := 0x128, rw := 0x1FFFF },
    { name := "AP_CMD", first := 0x12C, wo := 0x3 },
    { name := "AP_LAST", first := 0x130, ro := allOnes },
    { name := "AP_HASH_LO", first := 0x134, ro := allOnes },
    { name := "AP_HASH_HI", first := 0x138, ro := allOnes },
    { name := "AP_LINK", first := 0x13C, ro := 0xF } ]

/-- The lidar source registers of Ethernet port pages 0 to 7 (R348). -/
def lidarRows : List RegRow :=
  [ { name := "LI_CTRL", first := 0x600, rw := 0x1 },
    { name := "LI_UDP", first := 0x604, rw := 0xFFFF },
    { name := "LI_TS", first := 0x608, rw := 0x3FFFF },
    { name := "LI_SEQ", first := 0x60C, rw := 0xFFFF },
    { name := "LI_PKTS", first := 0x610, rw := 0x7FF },
    { name := "LI_BUF", first := 0x614, rw := 0x0FFFFFFF },
    { name := "LI_BUFS", first := 0x618, rw := 0xF },
    { name := "LI_TALLY", first := 0x61C, rw := 0x3FFF3FFF } ]

/-- The instant unit registers of a partition page (R349). -/
def instantRows : List RegRow :=
  [ { name := "IR_CTRL", first := 0x600, rw := 0x1 },
    { name := "IR_PHASE", first := 0x604, rw := 0xFFFF },
    { name := "IR_SLOTS", first := 0x608, rw := 0xFFFFFF },
    { name := "IR_MODE", first := 0x60C, rw := 0xFFFFFF, reset := 0xFF0000 },
    { name := "IR_TABLE", first := 0x610, rw := 0x0FFFFFFF },
    { name := "IR_TALLY", first := 0x614, rw := 0x3FFF } ]

/-- The L-core pages (R389), and the planner registers of L0's page (R390, R391). -/
def lCoreRows : List RegRow :=
  [ { name := "LC_LAST", first := 0x100, ro := 0x1FFFFF },
    { name := "LC_LAST_CLK", first := 0x104, ro := allOnes },
    { name := "LC_FLAGS", first := 0x108, w1c := 0x1F },
    { name := "LC_DIAG", first := 0x110, rc := 0x1FF },
    { name := "LC_FACE_UE", first := 0x114, rc := 0x3FFF } ]

def plannerRows : List RegRow :=
  [ { name := "LK_CTRL", first := 0x200, rw := 0x1 },
    { name := "LK_PHASE", first := 0x204, rw := 0x7FFF },
    { name := "LK_TIMING", first := 0x208, rw := allOnes, reset := 0x17702EE0 },
    { name := "LK_BUF0", first := 0x20C, rw := 0x0FFFFFFF },
    { name := "LK_BUF1", first := 0x210, rw := 0x0FFFFFFF },
    { name := "LK_TALLY0", first := 0x214, rw := 0x3FFF3FFF },
    { name := "LK_TALLY1", first := 0x218, rw := 0x3FFF3FFF },
    { name := "LK_STOP_DECEL", first := 0x21C, rw := allOnes, reset := 0x40800000 },
    { name := "LK_EMERG_DECEL", first := 0x220, rw := allOnes, reset := 0x41000000 },
    { name := "LK_BODY", first := 0x224, rw := allOnes, reset := 0x40A00000 },
    { name := "LK_REC", first := 0x228, rw := 0x0FFFFFFF },
    { name := "LK_START", first := 0x22C, rw := 0x01FFF1FF },
    { name := "LK_SEQ_STAT", first := 0x230, ro := 0xFFFF00F0 },
    { name := "LK_EPOCH", first := 0x234, ro := allOnes },
    { name := "LK_SAMPLED", first := 0x238, ro := allOnes },
    { name := "LK_COMMIT", first := 0x23C, ro := allOnes } ]

/-- The C-core page (R421). -/
def cCoreRows : List RegRow :=
  [ { name := "CC_ACTIVE", first := 0x100, ro := allOnes },
    { name := "CC_SAFE", first := 0x104, ro := allOnes },
    { name := "CC_RC_ADDR", first := 0x108, rw := 0xFFFF },
    { name := "CC_RC_DATA", first := 0x10C, rw := allOnes },
    { name := "CC_STEP_MAX", first := 0x110, rc := 0xFFFF },
    { name := "CC_DIAG", first := 0x114, rc := 0xFF00 } ]

/-- The channel page (R422, R423). -/
def fxRows : List RegRow :=
  [ { name := "FX_CMD", first := 0x100, wo := 0xF },
    { name := "FX_STAT", first := 0x104, ro := 0xFF0F },
    { name := "FX_FLAGS", first := 0x108, w1c := 0x7F },
    { name := "FX_TIMING", first := 0x10C, rw := allOnes, reset := 0x1 },
    { name := "FX_IN_SRC", first := 0x110, rw := 0xFF0FFF7F, reset := 0x500 },
    { name := "FX_IN_MATCH", first := 0x114, rw := allOnes },
    { name := "FX_IN_MASK", first := 0x118, rw := 0x1FFFFFFF },
    { name := "FX_IN_GAIN", first := 0x11C, rw := allOnes, reset := 0x10000 },
    { name := "FX_IN_BIAS", first := 0x120, rw := allOnes },
    { name := "FX_REF_CFG", first := 0x124, rw := 0x33F },
    { name := "FX_REF", first := 0x128, rw := allOnes },
    { name := "FX_LUT_E0", first := 0x12C, rw := allOnes },
    { name := "FX_LUT_SCALE", first := 0x130, rw := allOnes },
    { name := "FX_FF", first := 0x134, rw := allOnes },
    { name := "FX_KI", first := 0x138, rw := allOnes },
    { name := "FX_KD", first := 0x13C, rw := allOnes },
    { name := "FX_I_MIN/MAX, FX_OUT_MIN/MAX", first := 0x140, count := 4, rw := allOnes },
    { name := "FX_RC_CFG", first := 0x150, rw := 0xFFFFDFFF },
    { name := "FX_RC_Q, FX_RC_KL, FX_RC_LIM", first := 0x154, count := 3, rw := allOnes },
    { name := "FX_OUT_DST", first := 0x160, rw := 0xFF3F00FF },
    { name := "FX_OUT_FIELD", first := 0x164, rw := 0xFFFFF87F },
    { name := "FX_OUT_ID", first := 0x168, rw := 0x3FFFFFFF },
    { name := "FX_OUT_XL", first := 0x16C, rw := 0xFFFF },
    { name := "FX_OUT_AF", first := 0x170, rw := allOnes },
    { name := "FX_STALE", first := 0x174, rw := 0xFFFF, reset := 0x203 },
    { name := "FX_LAST_Y/E/U/I", first := 0x180, count := 4, ro := allOnes },
    { name := "FX_LAST", first := 0x190, ro := 0xFFFF000F },
    { name := "FX_SAFE_CFG", first := 0x200, rwl := 0x8000000F, reset := 0xF },
    { name := "FX_SAFE_VAL", first := 0x204, rwl := allOnes },
    { name := "FX_LUT", first := 0x400, count := 256, rw := allOnes },
    { name := "FX_TMPL", first := 0x800, count := 32, rw := allOnes },
    { name := "FX_SPI_TX", first := 0x880, count := 4, rw := allOnes },
    { name := "FX_SAFE_TMPL", first := 0x900, count := 32, rwl := allOnes } ]

/-- The mailbox page (R507, R508); MB_BOOT and MB_REASON lie on PT0's page alone. -/
def mailboxRows (n : Nat) : List RegRow :=
  [ { name := "MB_CMD", first := 0x100, rw := 0xF00001FF, reset := 0x10000000 },
    { name := "MB_LEN", first := 0x104, rw := 0x7FF },
    { name := "MB_GO", first := 0x108, wo := 0x1 },
    { name := "MB_STAT", first := 0x10C, ro := 0xFFFF01FF },
    { name := "MB_SEQ", first := 0x110, ro := allOnes },
    { name := "MB_SESSION", first := 0x114, ro := allOnes },
    { name := "MB_KEYSTAT", first := 0x118, ro := 0xFF00F3CF },
    { name := "MB_ROT_LOST", first := 0x11C, ro := allOnes } ] ++
  (if n = 0 then
    [ { name := "MB_BOOT", first := 0x120, ro := 0xFC1 },
      { name := "MB_REASON", first := 0x124, ro := 0xFFFFF } ]
   else []) ++
  [ { name := "MB_NONCE", first := 0x130, count := 12, ro := allOnes },
    { name := "MB_REQ", first := 0x800, count := 256, rw := allOnes },
    { name := "MB_RSP", first := 0xC00, count := 256, ro := allOnes } ]

/-- The attestation page (R524, R525). -/
def attestRows : List RegRow :=
  [ { name := "AT_CMD", first := 0x100, rw := 0xF0000F03, reset := 0x10000000 },
    { name := "AT_GO", first := 0x104, wo := 0x1 },
    { name := "AT_STAT", first := 0x108, ro := 0xFFFF01FF },
    { name := "AT_SNAP", first := 0x10C, ro := allOnes },
    { name := "AT_NONCE", first := 0x130, count := 12, rw := allOnes },
    { name := "AT_RPT", first := 0x800, count := 256, ro := allOnes } ]

/-- The debug registers of every partition page (R535), and the power registers of PT0's (R543). -/
def debugRows (n : Nat) : List RegRow :=
  (if n = 0 then
    [ { name := "PW_CMD", first := 0x700, wo := 0x7 },
      { name := "PW_STAT", first := 0x704, ro := 0xFF0FF1 },
      { name := "PW_WAKE", first := 0x708, rw := allOnes },
      { name := "PW_WAKE_CTRL", first := 0x70C, rw := 0x3, reset := 0x2 },
      { name := "PW_WAKE_SRC", first := 0x710, rc := 0x3 } ]
   else []) ++
  [ { name := "DBG_STAT", first := 0x740, ro := 0xFF1F },
    { name := "DBG_EXPIRY", first := 0x744, ro := allOnes },
    { name := "DBG_TRACE", first := 0x748, rw := 0x8FFFFFFF },
    { name := "DBG_BREAK", first := 0x74C, rw := 0xFFF0FFFF },
    { name := "DBG_TPOS", first := 0x750, ro := allOnes },
    { name := "DBG_EXPIRY_HI", first := 0x754, ro := allOnes } ]

/-- The Fireboss pages (R584, R585); the device-wide registers lie on the W page alone. -/
def firebossRows (h : Nat) : List RegRow :=
  [ { name := "FB_CTRL", first := 0x100, rwl := if h = 0 then 0x1FF01 else 0xFF00, reset := 0x4000 },
    { name := "FB_STAT", first := 0x104, ro := 0xFFFFFF01 },
    { name := "FB_TRIP", first := 0x108, rc := allOnes },
    { name := "FB_TRIP_TICK", first := 0x10C, rc := allOnes },
    { name := "FB_DIAG", first := 0x110, rc := 0x80FFF3FF },
    { name := "FB_COVQ", first := 0x114, rw := 0xFF },
    { name := "FB_COVSTAT", first := 0x118, ro := allOnes },
    { name := "FB_QUIET", first := 0x11C, rw := 0x0FFFFFFF },
    { name := "FB_CMD", first := 0x120, wo := 0x3 } ] ++
  (if h = 0 then
    [ { name := "FB_CANARY", first := 0x124, rw := 0x0FFFFFFF },
      { name := "FB_CANARY_OUT", first := 0x128, rw := 0x0FFFFFFF },
      { name := "FB_CANARY_LEN", first := 0x12C, rw := 0x1FFF },
      { name := "FB_CANARY_REF", first := 0x130, count := 4, rwl := allOnes },
      { name := "FB_CANARY_LAST", first := 0x140, ro := 0xFFFF03FF },
      { name := "FB_DUPLEX", first := 0x200, count := 32, rwl := 0x9FFFFFFF, reset := 0x1FFF0000 } ]
   else [])

/-- The watchdog bank pages (R588). -/
def watchdogRows : List RegRow :=
  [ { name := "WD_CFG", first := 0x400, count := 256, rw := allOnes, reset := 0xFFFF },
    { name := "WD_WIN", first := 0x800, count := 256, rw := allOnes },
    { name := "WD_STAT", first := 0xC00, count := 256, ro := 0xC000FFFF, w1c := 0x38000000 } ]

/-- The roster page (R453). -/
def rosterRows : List RegRow :=
  [ { name := "RO_CTRL", first := 0x100, rw := 0x1 },
    { name := "RO_TABLE", first := 0x104, rw := 0x0FFFFFFF },
    { name := "RO_ORIGIN_LO", first := 0x108, rw := allOnes },
    { name := "RO_ORIGIN_HI", first := 0x10C, rw := allOnes },
    { name := "RO_CMD", first := 0x110, wo := 0x3 },
    { name := "RO_STAT", first := 0x114, ro := 0xC0FF03FF },
    { name := "RO_FRAME", first := 0x118, ro := allOnes },
    { name := "RO_REFUSE", first := 0x11C, ro := 0x3FF },
    { name := "RO_GROUP", first := 0x200, count := 16, ro := allOnes } ]

/-- The submission pages (R457). -/
def submitRows : List RegRow :=
  [ { name := "SB_CTRL", first := 0x100, rw := 0x1 },
    { name := "SB_ADMIT", first := 0x104, ro := allOnes },
    { name := "SB_RETIRE", first := 0x108, ro := allOnes },
    { name := "SB_SLOTS", first := 0x10C, ro := allOnes },
    { name := "SB_QUERY", first := 0x110, rw := 0xFF },
    { name := "SB_QSTAT", first := 0x114, ro := 0xFF0F },
    { name := "SB_LAT_MAX", first := 0x118, rc := 0xFFFF } ]

/-- The Vuvon link page (R622, R623). -/
def vuvonRows : List RegRow :=
  [ { name := "VL_CTRL", first := 0x100, rw := 0xFFFF0001, reset := 0x07D00000 },
    { name := "VL_STAT", first := 0x104, ro := 0x3FF },
    { name := "VL_EPOCH", first := 0x108, ro := allOnes },
    { name := "VL_MATE_EPOCH", first := 0x10C, ro := allOnes },
    { name := "VL_EPOCH_REC", first := 0x110, ro := allOnes },
    { name := "VL_OFFSET", first := 0x114, ro := allOnes },
    { name := "VL_LEAD_TICK", first := 0x118, ro := allOnes },
    { name := "VL_LEAD_CAUSE", first := 0x11C, ro := 0xF },
    { name := "VL_CMD", first := 0x120, wo := 0x3 },
    { name := "VL_AGREE", first := 0x124, ro := 0xFFFF },
    { name := "VL_DROP", first := 0x128, rc := allOnes } ]

/-- The interface pages (R650). -/
def pcieRows : List RegRow :=
  [ { name := "PC_LINK", first := 0x100, ro := 0x1FF },
    { name := "PC_VFS", first := 0x104, ro := 0xFFFF } ]
def switchRows : List RegRow :=
  [ { name := "SW_GCL", first := 0x100, rw := 0x0FFFFFFF },
    { name := "SW_CYCLE", first := 0x104, rw := allOnes } ]
def ethRows : List RegRow :=
  [ { name := "EP_CFG", first := 0x100, rw := 0x3 },
    { name := "EP_STAT", first := 0x104, ro := 0xF03 },
    { name := "EP_MAC_LO", first := 0x108, rw := allOnes },
    { name := "EP_MAC_HI", first := 0x10C, rw := 0xFFFF } ]
def plcaRows : List RegRow := [ { name := "PL_CFG", first := 0x100, rw := allOnes } ]
def canRows : List RegRow :=
  [ { name := "CN_MODE", first := 0x100, rw := 0x3 },
    { name := "CN_NBT", first := 0x104, rw := allOnes },
    { name := "CN_DBT", first := 0x108, rw := allOnes },
    { name := "CN_STAT", first := 0x10C, ro := 0x3FFFF } ]
def spiRows : List RegRow := [ { name := "SP_CFG", first := 0x100, rw := 0x3FF07 } ]

/-- The module registers (R649): the tier window on every partition page, the sensors on PT0's. -/
def moduleRows (n : Nat) : List RegRow :=
  [ { name := "TW_BASE", first := 0x780, rw := 0x0FFFE000 },
    { name := "TW_STAT", first := 0x784, rc := 0xFFFFFF } ] ++
  (if n = 0 then
    [ { name := "MD_VIN", first := 0x7C0, ro := 0xFFFF },
      { name := "MD_PIN", first := 0x7C4, ro := 0xFFFF },
      { name := "MD_TJ", first := 0x7C8, ro := 0xFF00FFFF },
      { name := "MD_CEIL", first := 0x7CC, ro := 0x3FF },
      { name := "MD_FLAGS", first := 0x7D0, w1c := 0xF } ]
   else [])

/-- The threshold units and the clear register of a partition page (R670). -/
def thresholdRows : List RegRow :=
  [ { name := "CT_SEL", first := 0x800, count := 4, stride := 0x20, rw := 0x80000FFF },
    { name := "CT_THR_LO", first := 0x804, count := 4, stride := 0x20, rw := allOnes },
    { name := "CT_THR_HI", first := 0x808, count := 4, stride := 0x20, rw := 0xFFFF },
    { name := "CT_SAMP0", first := 0x80C, count := 4, stride := 0x20, ro := 0x80FFFFF0 },
    { name := "CT_SAMP1", first := 0x810, count := 4, stride := 0x20, ro := 0xFFFF0000 },
    { name := "CT_SAMP2", first := 0x814, count := 4, stride := 0x20, ro := allOnes },
    { name := "CT_SAMP3", first := 0x818, count := 4, stride := 0x20, ro := allOnes },
    { name := "CT_CLEAR", first := 0x880, wo := 0x1FFF0FFF } ]

/-- The dump control page (R667, R668). -/
def dumpRows : List RegRow :=
  [ { name := "CD_CTRL", first := 0x100, rw := 0xF07, reset := 0x300 },
    { name := "CD_PARTMASK", first := 0x104, rw := 0xFFFF, reset := 0xFFFF },
    { name := "CD_FIRST", first := 0x108, rw := allOnes },
    { name := "CD_PERIOD", first := 0x10C, rw := allOnes, reset := 10000 },
    { name := "CD_DEST_LO", first := 0x110, rw := allOnes },
    { name := "CD_DEST_HI", first := 0x114, rw := allOnes },
    { name := "CD_TALLY", first := 0x118, rw := 0x3FFF },
    { name := "CD_CMD", first := 0x11C, wo := 0x3 },
    { name := "CD_CLR", first := 0x120, rw := 0x1FFF0FFF },
    { name := "CD_STAT", first := 0x124, ro := 0xFFFFFF03 },
    { name := "CD_SEQ", first := 0x128, ro := allOnes },
    { name := "CD_DIR_IDX", first := 0x12C, rw := 0xFFF },
    { name := "CD_DIR", first := 0x130, ro := 0x80FFFF1F } ]

/-- The counter bank pages (R667): two words for each counter; bank 10 holds 256. -/
def bankRows (k : Nat) : List RegRow := [ { name := "CB_CNT", first := 0x400, count := if k = 10 then 512 else 768, ro := allOnes } ]

/-- The test page (R676). -/
def testRows : List RegRow :=
  [ { name := "LB_SEL", first := 0x100, rw := 0xFFFF0007 },
    { name := "LB_CTRL", first := 0x104, rw := 0xFFFF0001, reset := 0x00010000 },
    { name := "LB_LEN", first := 0x108, rw := 0x3FFF, reset := 64 },
    { name := "LB_STAT", first := 0x10C, ro := 0x1FF },
    { name := "LB_FIRST_ERR", first := 0x110, ro := allOnes } ]

/-- The registers of a page from 0x100 on. -/
def blockRows (p : Page) : List RegRow :=
  match p.cls with
  | .device => deviceRows
  | .tick => tickRows
  | .ptp => ptpRows
  | .m => mRows
  | .v => vRows
  | .a => aCoreRows
  | .tally => tallyRows
  | .gallery => galleryRows
  | .drift => driftRows p.inst
  | .seam => seamRows
  | .keeper => keeperRows
  | .hoist => hoistRows p.inst
  | .part => tierMapRows ++ kvRows ++ instantRows ++ debugRows p.inst ++ moduleRows p.inst ++ thresholdRows
  | .mailbox => mailboxRows p.inst
  | .attest => attestRows
  | .l => lCoreRows ++ (if p.inst = 0 then plannerRows else [])
  | .c => cCoreRows
  | .fxch => fxRows
  | .f => fCoreRows
  | .t => tCoreRows
  | .aphy => aphyRows
  | .fireboss => if p.inst < 2 then firebossRows p.inst else watchdogRows
  | .ring => if p.inst = 0 then rosterRows else submitRows
  | .vuvon => vuvonRows
  | .pcie => pcieRows
  | .tsn => switchRows
  | .eth => ethRows ++ (if p.inst < 8 then lidarRows else [])
  | .can => canRows
  | .plca => plcaRows
  | .spi => spiRows
  | .dump => dumpRows
  | .bank => bankRows p.inst
  | .test => testRows

/-- The row of an offset; none for a reserved register (R84) and for the counter window. -/
def regRow (p : Page) (off : Nat) : Option RegRow :=
  if off < 0x100 then (headerRows p).find? fun r => rowHas r off
  else (blockRows p).find? fun r => rowHas r off

/-- The reset value of a register. -/
def regReset (p : Page) (off : Nat) : Word :=
  match regRow p off with
  | some r => r.reset
  | none => 0

end Sys2Proof.Machine
end

