-- ==== Sys2Proof/Machine/Ops.lean ====
section
/-! DEFINITION. The named operations that every block uses: reading and writing a stored register, the state of a page
(R90, R94), error flags and interrupts (R91, R636), rejections (R92, R105), counters (R95), actions of the next tick
boundary (R681) and free values (R15). -/

namespace Sys2Proof.Machine

/-- What every meaning answers. -/
abbrev Res := Host.Outcome State Fault Refusal

/-- The present tick (R42). -/
def now (s : State) : Nat := s.time.tickNow.toNat

/-- The low 32 bits of the present tick, as an event is recorded (R45). -/
def nowW (s : State) : Word := s.time.tickNow.setWidth 32

/-- The signed-difference rule of R52 and R164: the value has reached the threshold. -/
def reached (value threshold : Word) : Bool := !(value - threshold).msb

/-- R52 for a tick that is kept whole: a compare register holds its low 32 bits, so only these are compared. -/
def reachedAt (s : State) (t : Nat) : Bool := reached (nowW s) (BitVec.ofNat 32 t)

/-- The tick in which a value is first reached (R53). -/
def reachedFirst (s : State) (t : Nat) : Bool := nowW s == BitVec.ofNat 32 t

/-- The BAR0 address of a register, as the key of the register file. -/
def regKey (p : Page) (off : Nat) : Nat := pageBase p + off

/-- The stored bits of a register: what was last stored, or its reset value. -/
def regVal (s : State) (p : Page) (off : Nat) : Word := smGet (regReset p off) s.regs (regKey p off)

/-- A register stored; its reset value leaves no entry. -/
def setReg (s : State) (p : Page) (off : Nat) (v : Word) : State :=
  { s with regs := smSet (regReset p off) s.regs (regKey p off) v }

/-- A hardware change of a register that a read clears (R12): what a read of this tick still returns stays, beside what the events of
this tick alone leave, which the read does not take away. -/
def rcEvent (s : State) (p : Page) (off : Nat) (f : Word → Word) : State :=
  let x := smGet (regVal s p off, 0) s.rcTick (regKey p off)
  { setReg s p off (f (regVal s p off)) with rcTick := smPut s.rcTick (regKey p off) (x.1, f x.2) }

/-- A clearing register that takes a new value. -/
def rcPut (s : State) (p : Page) (off : Nat) (v : Word) : State := rcEvent s p off fun _ => v

/-- The flags of a register that a 1 clears. -/
def w1cOf (p : Page) (off : Nat) : Word :=
  match regRow p off with
  | some r => r.w1c
  | none => 0

/-- Bits that hardware sets in this tick (R11): no clear of this tick takes them away. -/
def markSet (s : State) (p : Page) (off : Nat) (v : Word) : State :=
  let k := regKey p off
  { s with hwSet := smSet 0 s.hwSet k (smGet 0 s.hwSet k ||| (v &&& w1cOf p off)) }

/-- Bits set in a register. -/
def orReg (s : State) (p : Page) (off : Nat) (v : Word) : State := markSet (setReg s p off (regVal s p off ||| v)) p off v

/-- Bits cleared in a register. -/
def clearReg (s : State) (p : Page) (off : Nat) (v : Word) : State := setReg s p off (regVal s p off &&& ~~~v)

/-- A field of a register replaced. -/
def setRegField (s : State) (p : Page) (off hi lo v : Nat) : State :=
  setReg s p off (setField (regVal s p off) hi lo v)

def regField (s : State) (p : Page) (off hi lo : Nat) : Nat := field (regVal s p off) hi lo
def regBit (s : State) (p : Page) (off n : Nat) : Bool := bit (regVal s p off) n

/-- PG_STAT[7:4] of a page (R90). -/
def pgState (s : State) (p : Page) : Nat := regField s p 0x00C 7 4

/-- PG_STAT[7:4] set; PG_TSTAMP takes the tick of a change (R94). -/
def setPgState (s : State) (p : Page) (st : Nat) : State :=
  if pgState s p = st % 16 then s
  else setReg (setRegField s p 0x00C 7 4 st) p 0x028 (nowW s)

/-- PG_STAT[0] (R90). -/
def setBusy (s : State) (p : Page) (b : Bool) : State := setRegField s p 0x00C 0 0 b.toNat

/-- PG_CTRL[0] ENABLE. -/
def enabled (s : State) (p : Page) : Bool := regBit s p 0x008 0

/-- The partition that owns a page (R93). -/
def pageOwner (s : State) (p : Page) : Nat := regField s p 0x020 3 0
def pageLocked (s : State) (p : Page) : Bool := regBit s p 0x020 8
def pageShared (s : State) (p : Page) : Bool := regBit s p 0x020 9

/-- The DEVICE page, its state and the states' codes (R112). -/
def devPage : Page := ⟨.device, 0⟩
def tickPage : Page := ⟨.tick, 0⟩
def ptpPage : Page := ⟨.ptp, 0⟩
def partPage (n : Nat) : Page := ⟨.part, n⟩
def devState (s : State) : Nat := pgState s devPage
def stBoot : Nat := 0
def stRefused : Nat := 1
def stRun : Nat := 2
def stHalt : Nat := 3
def devRunning (s : State) : Bool := devState s == stRun

/-- The power state under Brown-out, else the power state itself (R536, R542). -/
def powerUnder (s : State) : Nat := if s.dev.power = 4 then s.sec.power.under else s.dev.power.toNat
/-- Whether the device is in none of Retain and Standby. -/
def powered (s : State) : Bool := powerUnder s != 2 && powerUnder s != 3
/-- Whether the cores run (R536): they are off in Retain and Standby, and nothing new starts on them while either is being entered. -/
def coresOn (s : State) : Bool := powered s && s.sec.power.transit != some 2 && s.sec.power.transit != some 3

/-- A place in the order of one tick: its class, its group, and its index there. Classes 1 to 9 are those of R47; 10 are the register
accesses of the tick (R80), 11 the waits (R165), 12 the host's operations on KV entries (R268), 13 the decisions of the job machinery
(R434, R461), 14 the boundary that ends the tick. -/
def rankOf (cls group idx : Nat) : Nat := (cls * 16 + group) * 2 ^ 40 + idx

/-- A compare event, by its number (R50, group 1). -/
def compareRank (n : Nat) : Nat := rankOf 9 1 (n * 4)
/-- A completion or a change (R50, group 2), by the block class and the instance of the page at which it arises; `sub` parts what one
instance does in a fixed order. -/
def changeRank (p : Page) (sub : Nat) : Nat := rankOf 9 2 ((clsCode p.cls * 256 + p.inst) * 256 + sub)
/-- A counter event, by the counter's number (R50, group 3). -/
def counterRank (n : Nat) : Nat := rankOf 9 3 n

/-- The place in its tick of the event that a message tells of (R49): a flag and a completion stand in group 2 of class 9 (R50, R681). -/
def causeRank : IrqCause → Nat
  | .flag p _ => changeRank p 0
  | .compare n => compareRank n
  | .watch page n => compareRank (256 + 4 * page + n)
  | .jobDone _ => rankOf 13 0 0
  | .service p => changeRank p 0
  | .counter n => counterRank n
  | .power => changeRank ⟨.part, 0⟩ 0

/-- A message put among those of its tick: before the messages of later events, after all others (R49). -/
def sendIrq (m : Irq) : List Irq → List Irq
  | [] => [m]
  | x :: xs => if causeRank m.cause < causeRank x.cause then m :: x :: xs else x :: sendIrq m xs

/-- An interrupt message to a partition's function (R636). -/
def irq (s : State) (part vector : Nat) (c : IrqCause) : State :=
  { s with irqs := sendIrq ⟨part, vector, c⟩ s.irqs }

/-- An error flag set by hardware (R91): a flag that was clear is told to the owner of the page on vector 1, unless it is masked. -/
def setFlag (s : State) (p : Page) (n : Nat) : State :=
  let t := orReg s p 0x010 (bitMask n)
  if regBit s p 0x010 n || regBit s p 0x014 n then t else irq t (pageOwner s p) 1 (.flag p n)

/-- The counter in a slot of a page's window (R95). -/
def ctrKey (p : Page) (slot : Nat) : Nat := pageBase p + 0x40 + 8 * slot
def ctrVal (s : State) (p : Page) (slot : Nat) : DWord := smGet 0 s.ctrs (ctrKey p slot)

/-- A count advanced by n: 48 bits that wrap, with the sticky overflow bit 63 (R95). -/
def ctrBump (c : DWord) (n : Nat) : DWord :=
  let t := (c.toNat % 2 ^ 48) + n
  BitVec.ofNat 64 (t % 2 ^ 48 + (if t ≥ 2 ^ 48 ∨ c.msb then 2 ^ 63 else 0))

def ctrAdd (s : State) (p : Page) (slot n : Nat) : State :=
  if n = 0 then s
  else
    let c := ctrVal s p slot
    let t := { s with ctrs := smSet 0 s.ctrs (ctrKey p slot) (ctrBump c n) }
    if c.toNat % 2 ^ 48 + n < 2 ^ 48 then t else { t with cnt := { t.cnt with wraps := nlAdd t.cnt.wraps (ctrKey p slot) } }

/-- A rejection recorded (R92, R105): the reason, the offset (0x1000 for a command of a job descriptor) and one more
in COUNT and in counter slot 0. -/
def recordReject (s : State) (p : Page) (reason : Status) (off : Nat) : State :=
  ctrAdd (rcEvent s p 0x01C fun w => BitVec.ofNat 32 (min (field w 31 24 + 1) 255 * 2 ^ 24 + statusCode reason * 2 ^ 16 + off)) p 0 1

/-- An action put off to the next tick boundary (R681). -/
def atBoundary (s : State) (a : BAct) : State := { s with atTick := s.atTick ++ [a] }

/-- The answer of a register access. -/
def answer (s : State) (st : Status) (data : DWord) : State := { s with reply := ⟨st, data⟩ }

/-- The next free value (R15) and the state in which it is spent. -/
def takeFree (s : State) : DWord × State := (Config.freeWord s.free, { s with free := s.free + 1 })

/-- The free values from the present one on; `spendFree n` spends them. -/
def freeAt (s : State) (i : Nat) : DWord := Config.freeWord (s.free + i)
def spendFree (s : State) (n : Nat) : State := { s with free := s.free + n }

/-- Whether a partition is in partial reset (R107 DEV_PRESET_STAT). -/
def inReset (s : State) (n : Nat) : Bool := s.dev.inReset.contains n

/-- The value of a Tally (R162). -/
def tallyVal (s : State) (i : Nat) : Word := smGet 0 s.tally i
def tallyPage (i : Nat) : Page := ⟨.tally, i / 512⟩

/-- ADD (R163): modulo 2³², counted in slot 1 of the Tally's page. -/
def tallyAdd (s : State) (i n : Nat) : State :=
  ctrAdd { s with tally := smSet 0 s.tally i (tallyVal s i + BitVec.ofNat 32 n) } (tallyPage i) 1 1

/-- CLEAR of `count` Tallies from `first` (R163), counted in slot 4. -/
def tallyClear (s : State) (first count : Nat) : State :=
  ctrAdd { s with tally := smClear s.tally first (first + count) } ⟨.tally, first / 512⟩ 4 count

/-- The layout's record of a partition; an empty one before a layout is loaded. -/
def noPart : PartLayout :=
  ⟨0, 0, 0, 0, 0, 0, 0, 0, 0, 0, 0, 0, [], false, 0⟩
def partLayout (s : State) (n : Nat) : PartLayout :=
  match s.dev.layout with
  | some l => l.parts.getD n noPart
  | none => noPart

def confidential (s : State) (n : Nat) : Bool := (partLayout s n).confidential

/-- Whether a Tally lies in a partition's range (R82, R163). -/
def ownsTally (s : State) (n i : Nat) : Bool :=
  let l := partLayout s n
  decide (l.tallyFirst * 512 ≤ i ∧ i < (l.tallyFirst + l.tallyPages) * 512)

/-- The core's page state codes of R147. -/
def cOff : Nat := 0
def cIdle : Nat := 1
def cWait : Nat := 2
def cRun : Nat := 3
def cSelftest : Nat := 4
def cSuspect : Nat := 5

/-- The layout's assignment of a core, in the bit order of the layout (R477 CORE, R517). -/
def coreIndex (k : CoreId) : Nat :=
  (match k.cls with
    | .m => 0 | .v => 8 | .a => 40 | .l => 48 | .f => 52 | .t => 56 | .c => 58) + k.inst
def coreAssign (s : State) (k : CoreId) : CoreAssign :=
  match s.dev.layout with
  | some l => l.cores.getD (coreIndex k) .unassigned
  | none => .unassigned

/-- The core identifiers of R179. -/
def coreCode (k : CoreId) : Nat :=
  (match k.cls with
    | .m => 0x00 | .v => 0x20 | .a => 0x40 | .l => 0x60 | .f => 0x70 | .t => 0x78 | .c => 0x7A) + k.inst
def coreOfCode (c : Nat) : Option CoreId := allCores.find? fun k => coreCode k == c

/-- Whether a core is a reserved core of PT0 (R428). -/
def isReserved (s : State) (k : CoreId) : Bool :=
  match coreAssign s k with
  | .part _ r => r
  | _ => false

end Sys2Proof.Machine
end

