-- ==== Sys2Proof/Machine/Keeper.lean ====
section
/-! DEFINITION. The Seam keepers (R234 to R240): the map from logical pages to units, open blocks, the counts of reads and of erases,
relocation, garbage collection and retirement. -/

namespace Sys2Proof.Machine

/-- How a request to a tier block is served (R255): not at all in INIT, so that its deadline ends it (R252), and with a fault in FAILED. -/
def tierPageStatus (s : State) (p : Page) : Status :=
  if pgState s p = 0 then .timeout else if pgState s p = 3 then .tierFault else .ok

/-- Whether a tier block serves requests. -/
def tierPageServes (s : State) (p : Page) : Bool := tierPageStatus s p == .ok

/-- A value of a list at an index, replaced. -/
def setAt {α : Type} (l : List α) (i : Nat) (x : α) : List α := l.set i x

/-! ### Blocks -/

/-- The blocks of a plane and of a keeper: 16 dies of 4 planes. Block b of a keeper lies on its channel b mod 8 (the model's numbering). -/
def planeBlocks : Nat := 910
def keeperBlocks : Nat := 16 * 4 * planeBlocks
/-- The units of a block: one NAND page of 16 KiB each (SC_GEOM). -/
def blockUnits : Nat := 2304

def keeperPage (k : Nat) : Page := ⟨.keeper, k⟩
/-- The channel page of a keeper's block. -/
def blockPage (k block : Nat) : Page := ⟨.seam, 8 * k + block % 8⟩

def noWear : BlockWear := ⟨0, 0, false, false, 0, 0, false, false⟩
def wearKey (k block : Nat) : Nat := k * 2 ^ 24 + block
def wearOf (s : State) (k block : Nat) : BlockWear := smGet noWear s.mem.wear (wearKey k block)
def setWear (s : State) (k block : Nat) (w : BlockWear) : State :=
  { s with mem := { s.mem with wear := smSet noWear s.mem.wear (wearKey k block) w } }

/-- A keeper's free and spare blocks (KP_FREE, KP_SPARE). -/
def freeBlocks (s : State) (k : Nat) : Nat := s.mem.keeperFree.getD k 0
def setFreeBlocks (s : State) (k n : Nat) : State := { s with mem := { s.mem with keeperFree := setAt s.mem.keeperFree k n } }
def spareBlocks (s : State) (k : Nat) : Nat := s.mem.keeperSpare.getD k 0
def setSpareBlocks (s : State) (k n : Nat) : State := { s with mem := { s.mem with keeperSpare := setAt s.mem.keeperSpare k n } }

/-- The open block of a channel, by the channel's number: the block itself, none where none is open. -/
def openBlock (s : State) (ch : Nat) : Option Nat := smFind s.mem.openBlk ch
def setOpen (s : State) (ch : Nat) (b : Option Nat) : State :=
  { s with mem := { s.mem with openBlk := match b with
    | some x => smPut s.mem.openBlk ch x
    | none => smDel s.mem.openBlk ch } }

/-- The blocks of a channel that hold or held units since their last erase, or are retired, as places 0 to 7,279 on the channel. -/
def takenPlaces (s : State) (ch : Nat) : List Nat :=
  (smRange s.mem.wear (wearKey (ch / 8) 0) (wearKey (ch / 8 + 1) 0)).filterMap fun x =>
    let b := x.1 - wearKey (ch / 8) 0
    if b % 8 = ch % 8 ∧ (x.2.used ≠ 0 ∨ x.2.bad) then some (b / 8) else none

/-- The first number from lo on, below hi, that a rising list does not hold; the search starts at a free value's place and wraps. -/
def pickFree (used : List Nat) (lo hi w : Nat) : Option Nat :=
  if hi ≤ lo then none
  else
    match nlLowestFree used (lo + w % (hi - lo)) hi with
    | some x => some x
    | none => nlLowestFree used lo hi

/-- One unit programmed on a channel (R235, R261): into its open block while that has room, else into a free block, which it opens. -/
def programUnit (s : State) (ch : Nat) : Nat × State :=
  let k := ch / 8
  let room (b : Nat) : Bool := decide ((wearOf s k b).used < blockUnits) && !(wearOf s k b).retire && !(wearOf s k b).bad
  let (b, t) : Nat × State := match (openBlock s ch).filter room with
    | some b => (b, s)
    | none =>
      match pickFree (takenPlaces s ch) 0 (keeperBlocks / 8) (freeAt s 0).toNat with
      | some i =>
        let b := 8 * i + ch % 8
        (b, setFreeBlocks (setOpen (spendFree s 1) ch (some b)) k (freeBlocks s k - 1))
      | none => ((openBlock s ch).getD (ch % 8), s)
  let w := wearOf t k b
  (b, ctrAdd (setWear t k b { w with used := w.used + 1 }) (blockPage k b) 2 1)

/-! ### The map -/

def unitKey (part lpn : Nat) : Nat := part * 2 ^ 26 + lpn
/-- The blocks of the four units of a logical page; none for a page that has never been written (R221). -/
def unitsOf (s : State) (part lpn : Nat) : List Nat := smGet [] s.mem.units (unitKey part lpn)
def setUnits (s : State) (key : Nat) (bs : List Nat) : State := { s with mem := { s.mem with units := smSet [] s.mem.units key bs } }

/-- The channels of a keeper that take units: those that are not FAILED (R254). -/
def takingChannels (s : State) (k : Nat) : List Nat :=
  ((List.range 8).map (8 * k + ·)).filter fun c => pgState s ⟨.seam, c⟩ != 3

/-- The four channels of one logical page (R234): which of the keeper's is left open. -/
def fourChannels (s : State) (k : Nat) : List Nat :=
  let cs := takingChannels s k
  let i := (freeAt s 0).toNat % (cs.length + 1)
  (cs.drop i ++ cs.take i).take 4

/-- A logical page written whole (R239): four units on four channels of its keeper, then its map entry. -/
def programPage (s : State) (part lpn : Nat) : State :=
  let k := lpn % 2
  let x := (fourChannels s k).foldl (fun (acc : List Nat × State) c =>
    let u := programUnit acc.2 c
    (acc.1 ++ [u.1], u.2)) ([], spendFree s 1)
  ctrAdd (setUnits x.2 (unitKey part lpn) x.1) (keeperPage k) 2 1

/-- The block that holds the unit of an offset in a logical page. -/
def unitBlock (s : State) (part lpn off : Nat) : Option Nat := (unitsOf s part lpn)[off / 16384]?

/-- How a read of an offset of a logical page is served: by its keeper and by the channel of its unit (R255). -/
def unitStatus (s : State) (part lpn off : Nat) : Status :=
  let k := lpn % 2
  if tierPageStatus s (keeperPage k) ≠ .ok then tierPageStatus s (keeperPage k)
  else match unitBlock s part lpn off with
    | some b => tierPageStatus s (blockPage k b)
    | none => .ok

/-- How a write of a logical page is served: by its keeper, and by four channels that take units. -/
def lpnWriteStatus (s : State) (lpn : Nat) : Status :=
  let k := lpn % 2
  if tierPageStatus s (keeperPage k) ≠ .ok then tierPageStatus s (keeperPage k)
  else if pgState s (keeperPage k) = 2 ∨ (takingChannels s k).length < 4 then .tierFault
  else .ok

/-! ### Reads (R236, R237) -/

/-- The threshold of a block's reads (R237); 0 asks for relocation at once. -/
def readThreshold (s : State) (k : Nat) (w : BlockWear) : Nat :=
  let base := (regVal s (keeperPage k) 0x110).toNat
  if w.soft ∨ w.bits > 90 then 0
  else if w.bits > 60 then base / 4 else if w.bits > 30 then base / 2 else base

/-- A unit read from a block (R237, R261): the block's reads and its worst codeword; a third read of a busy die waits, and the suspends
that the first two cost are left open (R241). -/
def countRead (s : State) (k block bits : Nat) (soft : Bool) : State :=
  let w := wearOf s k block
  let t := setWear s k block { w with reads := w.reads + 1, bits := max w.bits bits, soft := w.soft || soft }
  ctrAdd (ctrAdd (spendFree t 1) (blockPage k block) 1 1) (keeperPage k) 6 ((freeAt t 0).toNat % 2)

/-- The unit of an offset of a logical page read; a page that has never been written has none. -/
def readUnit (s : State) (part lpn off bits : Nat) (soft : Bool) : State :=
  match unitBlock s part lpn off with
  | some b => countRead s (lpn % 2) b bits soft
  | none => s

/-! ### Relocation, erase and retirement (R236 to R240) -/

def blocksReloc (s : State) (k : Nat) : Nat := regField s (keeperPage k) 0x114 23 0
def setBlocksReloc (s : State) (k n : Nat) : State := setRegField s (keeperPage k) 0x114 23 0 n

/-- A block that awaits relocation, counted in KP_RELOC once. -/
def awaitReloc (s : State) (k block : Nat) (retire : Bool) : State :=
  let w := wearOf s k block
  let t := setWear s k block { w with reloc := true, retire := w.retire || retire }
  if w.reloc then t else setBlocksReloc t k (blocksReloc t k + 1)

/-- A spare taken for a retired block; below 1 % SPARE_LOW, with none left DEGRADED (R240). -/
def retireBlock (st : State) (k : Nat) : State :=
  let n := spareBlocks st k - 1
  let u := ctrAdd (setSpareBlocks st k n) (keeperPage k) 5 1
  let v := if n * 100 < keeperBlocks then setFlag u (keeperPage k) 1 else u
  if n = 0 ∧ pgState v (keeperPage k) = 1 then setPgState v (keeperPage k) 2 else v

/-- A block erased (R240): free again, or retired after 3,000 erases, at a failed erase, or because its relocation was to retire it. A
spare takes the place of a retired block. -/
def eraseBlock (s : State) (k block : Nat) (ok : Bool) : State :=
  let w := wearOf s k block
  let p := blockPage k block
  let t := if ok then ctrAdd s p 7 1 else setFlag s p 2
  if ok ∧ !w.retire ∧ w.erases + 1 < 3000 then
    setFreeBlocks (setWear t k block { noWear with erases := w.erases + 1 }) k (freeBlocks t k + 1)
  else
    let u := setWear t k block { noWear with erases := w.erases + 1, bad := true }
    let v := setRegField u p 0x104 15 0 (regField u p 0x104 15 0 + 1)
    retireBlock (if spareBlocks v k = 0 then v else setFreeBlocks v k (freeBlocks v k + 1)) k

/-- A program failure on a channel (R240): its open block is retired once its readable units have moved, and the unit is written again
elsewhere. -/
def programFailed (s : State) (ch : Nat) : State :=
  let t := setFlag s ⟨.seam, ch⟩ 1
  match openBlock t ch with
  | some b => (programUnit (setOpen (awaitReloc t (ch / 8) b true) ch none) ch).2
  | none => t

/-- The units of a block moved to open blocks of its channel, and the map entries switched (R238). -/
def moveUnits (s : State) (k block : Nat) : State :=
  s.mem.units.foldl (fun t x =>
    if x.1 % 2 = k ∧ x.2.contains block then
      let u := programUnit t (8 * k + block % 8)
      setUnits u.2 x.1 (x.2.map fun b => if b = block then u.1 else b)
    else t) (if openBlock s (8 * k + block % 8) = some block then setOpen s (8 * k + block % 8) none else s)

/-- The tags of Seam reads in flight: they are served from the blocks that they were translated to. -/
def seamTags (s : State) : List Nat := (s.mem.tags.filter fun x => x.2.tier == .seam).map Prod.fst

/-- Erases whose last read has completed (R238). -/
def settleErase (s : State) : State :=
  let ds := s.mem.eraseDue.map fun d => { d with tags := d.tags.filter fun t => (smFind s.mem.tags t).isSome }
  (ds.filter fun d => d.tags.isEmpty).foldl (fun t d => eraseBlock t d.keeper d.block d.ok)
    { s with mem := { s.mem with eraseDue := ds.filter fun d => !d.tags.isEmpty } }

/-- A block emptied at the boundary: its units move, and it is erased after the reads translated before. -/
def emptyBlock (s : State) (k block : Nat) (ok : Bool) : State :=
  let t := moveUnits s k block
  settleErase { t with mem := { t.mem with eraseDue := t.mem.eraseDue ++ [⟨k, block, ok, seamTags t⟩] } }

/-- A block that awaits its erase. -/
def erasing (s : State) (k block : Nat) : Bool := s.mem.eraseDue.any fun d => d.keeper == k && d.block == block

/-- The switch of a relocation (R238), counted in slot 3 of the keeper. -/
def relocEnd (s : State) (k block : Nat) (ok : Bool) : State :=
  let w := wearOf s k block
  if !w.reloc ∨ erasing s k block then s
  else
    emptyBlock (ctrAdd (setBlocksReloc (setWear s k block { w with reloc := false }) k (blocksReloc s k - 1)) (keeperPage k) 3 1) k block ok

/-- Whether garbage collection runs (R235): from below 3 % of free blocks to above 5 %. -/
def collects (s : State) (k : Nat) : Bool :=
  decide (freeBlocks s k * 100 < 3 * keeperBlocks) ||
    (s.mem.keeperGc.getD k false && decide (freeBlocks s k * 100 ≤ 5 * keeperBlocks))

/-- The blocks that garbage collection may empty: full ones, neither open nor awaiting another end. -/
def victims (s : State) (k : Nat) : List Nat :=
  ((smRange s.mem.wear (wearKey k 0) (wearKey (k + 1) 0)).filter fun x =>
    x.2.used != 0 && !x.2.reloc && !x.2.bad && openBlock s (8 * k + x.1 % 8) != some (x.1 - wearKey k 0) &&
      !(erasing s k (x.1 - wearKey k 0))).map fun x => x.1 - wearKey k 0

/-- One block collected, while collection runs; which one is left open. -/
def collectOne (s : State) (k : Nat) : State :=
  let vs := victims s k
  if !(collects s k) then { s with mem := { s.mem with keeperGc := setAt s.mem.keeperGc k false } }
  else
    match vs[(freeAt s 0).toNat % (vs.length + 1)]? with
    | none => spendFree s 1
    | some b =>
      ctrAdd (emptyBlock { spendFree s 1 with mem := { s.mem with keeperGc := setAt s.mem.keeperGc k true } } k b true) (keeperPage k) 4 1

/-- Garbage collection at a boundary, up to a number of blocks (R235). -/
def gcEnd (s : State) (k n : Nat) : State := (List.range (min n keeperBlocks)).foldl (fun t _ => collectOne t k) s

/-- KP_WEAR (R259): the highest and the lowest erase count of a keeper's blocks. -/
def wearWord (s : State) (k : Nat) : Word :=
  let es := ((smRange s.mem.wear (wearKey k 0) (wearKey (k + 1) 0)).map fun x => x.2.erases)
  let hi := es.foldl max 0
  let lo := if es.length < keeperBlocks then 0 else es.foldl min hi
  BitVec.ofNat 32 (hi % 65536 * 65536 + lo % 65536)

/-- Whether a channel holds a unit of the map (R256). -/
def seamHeld (s : State) (c : Nat) : Bool := s.mem.units.any fun x => decide (x.1 % 2 = c / 8) && x.2.any fun b => b % 8 == c % 8

end Sys2Proof.Machine
end

