-- ==== Sys2Proof/Machine/Mem.lean ====
section
/-! DEFINITION. The memory tiers (chapter 06): physical places, page-table entries and translation (R212 to R217),
reading and writing through a partition's range, generation tags (R491), the shares of the layout (R683), frames
and code blocks. -/

namespace Sys2Proof.Machine

/-- What a byte that nothing has written reads as (R221). -/
def unlisted : Byte := 0

/-- The canonical form of the memory: addresses rising, no entry equal to what an unlisted address reads as. -/
def Memory.wf (m : List Host.Cell) : Bool := smWf unlisted m

/-- One byte of the physical memory. -/
def cellGet (m : List Host.Cell) (a : Nat) : Byte := smGet unlisted m a
def cellSet (m : List Host.Cell) (a : Nat) (b : Byte) : List Host.Cell := smSet unlisted m a b

def pageBytes : Nat := 65536

/-- Where the frames of each tier stand among the physical addresses (model's own numbering). -/
def driftBase : Nat := 2 ^ 40
def seamBase : Nat := 2 ^ 50
def galleryAddr (f : Nat) : Nat := f * pageBytes
def driftAddr (f : Nat) : Nat := driftBase + f * pageBytes
def seamAddr (part lpn : Nat) : Nat := seamBase + (part * 2 ^ 26 + lpn) * pageBytes

/-- The entry of a page that is not mapped. -/
def noPte : Pte :=
  ⟨false, .gallery, false, false, false, 0, false, false, false, false, false, 0, 0, 0, 0, 0⟩

def vpnOf (a : Nat) : Nat := a / pageBytes % 2 ^ 28
def pteKey (part vpn : Nat) : Nat := part * 2 ^ 28 + vpn
def pteOf (s : State) (part vpn : Nat) : Pte := smGet noPte s.mem.ptes (pteKey part vpn)
def setPte (s : State) (part vpn : Nat) (e : Pte) : State :=
  { s with mem := { s.mem with ptes := smSet noPte s.mem.ptes (pteKey part vpn) e } }

/-- The physical address at which a page's home content starts (R213). -/
def homeAddr (part : Nat) (e : Pte) : Nat :=
  match e.home with
  | .gallery => galleryAddr e.gFrame
  | .drift => driftAddr e.dFrame
  | .seam => seamAddr part e.sLpn

/-- The frame number of a page's home. -/
def homeFrame (e : Pte) : Nat :=
  match e.home with
  | .gallery => e.gFrame
  | .drift => e.dFrame
  | .seam => e.sLpn

/-- The keys of a partition at reset: generation 0, STEADY. -/
def noKeys : KeySt := ⟨0, 0, 0, false, 0, 0⟩
def keysOf (s : State) (n : Nat) : KeySt := smGet noKeys s.keys n
def setKeys (s : State) (n : Nat) (k : KeySt) : State := { s with keys := smSet noKeys s.keys n k }

/-- The tag of a block that nothing has written since its frame was taken: no tag the device writes (R491 leaves
bits [6:2] reserved). -/
def untagged : Byte := 0x7C

/-- The tag that a write of a partition carries (R491, R497). -/
def writeTag (s : State) (n : Nat) : Byte :=
  let k := keysOf s n
  if k.dbgGen then 0x80 else BitVec.ofNat 8 k.gen

def tagOf (s : State) (a : Nat) : Byte := smGet untagged s.mem.gens (a / 512)

/-- The salt that the partition's keys are derived with (R470, R484): SERVICE_EPOCH, or what was drawn for the debug generation key. -/
def keySalt (s : State) (n : Nat) : Nat := if (keysOf s n).dbgGen then (keysOf s n).draws else s.sec.flash.epoch

/-- The salt of the key that a block was encrypted under. -/
def saltOf (s : State) (a : Nat) : Nat := smGet 0 s.mem.salts (a / 512)

/-- A block tagged as a partition's writes are (R491), with the salt of its key. -/
def tagBlock512 (s : State) (n : Nat) (m : MemSt) (blk : Nat) : MemSt :=
  { m with gens := smSet untagged m.gens blk (writeTag s n), salts := smSet 0 m.salts blk (keySalt s n) }

/-- Whether the MAC of a block does not verify under the key its tag selects: it was written under another salt, in an earlier
SERVICE_EPOCH (R470) or under an earlier debug key (R497). -/
def macMiss (s : State) (n : Nat) (a : Nat) : Bool := tagOf s a != untagged && saltOf s a != keySalt s n

/-- The status of a read of a Drift or Seam block, by its tag and its MAC (R470, R491). -/
def tagStatus (s : State) (n : Nat) (a : Nat) : Status :=
  let k := keysOf s n
  let tag := tagOf s a
  if tag = untagged then .ok
  else if tag.getLsbD 7 && !k.dbgGen then .keyRetired
  else if !(tag.getLsbD 7) && k.dbgGen then .debugLocked
  else if !(tag.getLsbD 7) && decide (tag.toNat % 4 < k.low) then .keyRetired
  else if (!(tag.getLsbD 7) && decide (tag.toNat % 4 > k.gen)) || decide (tag.toNat / 4 % 32 ≠ 0) then .integrity
  else if macMiss s n a then .integrity
  else .ok

/-- The first failure of a list of statuses. -/
def firstBad (l : List Status) : Status := (l.find? (· ≠ .ok)).getD .ok

/-- The state of a Drift channel group: that of its four controllers (R229). -/
def groupStatus (s : State) (g : Nat) : Status := firstBad ((List.range 4).map fun i => tierPageStatus s ⟨.drift, 4 * g + i⟩)

/-- How the blocks that hold an offset of a page's home serve a read: the Gallery half, the controllers of the channel group, or the
keeper and the channel of the unit (R224, R229, R234). -/
def homeStatus (s : State) (part : Nat) (e : Pte) (off : Nat) : Status :=
  match e.home with
  | .gallery => tierPageStatus s ⟨.gallery, e.gFrame / 16384⟩
  | .drift => groupStatus s (e.dFrame / 15360)
  | .seam => unitStatus s part e.sLpn off

/-- Whether a page is a device page of one of the partition's valid KV pools (R217): KV_PCFG, KV_PBASE and KV_PSIZE. -/
def inValidPool (s : State) (part vpn : Nat) : Bool :=
  (List.range 4).any fun i =>
    let r (o : Nat) : Word := regVal s (partPage part) (0x480 + 0x20 * i + o)
    bit (r 0) 31 && decide ((r 4).toNat ≤ vpn ∧ vpn < (r 4).toNat + (r 8).toNat)

/-- Translation of one access (R217); `engine` marks an engine's stage-out, `kvOk` a writer that R277 names. -/
def translate (s : State) (part a : Nat) (write engine kvOk : Bool) : Except Status Pte :=
  let vpn := vpnOf a
  let e := pteOf s part vpn
  if !e.v then .error .range
  else if write && !e.w then .error .ownerDenied
  else if write && !kvOk && inValidPool s part vpn then .error .ownerDenied
  else if write && engine && e.home = .seam then .error .stateIllegal
  else .ok e

/-- The status of a read of one byte beyond its translation (R228, R253, R491). -/
def readStatus (s : State) (part a : Nat) (e : Pte) : Status :=
  let pa := homeAddr part e + a % pageBytes
  let st := homeStatus s part e (a % pageBytes)
  if st ≠ .ok then st
  else
    match e.home with
    | .gallery => if s.mem.galBad.contains (pa / 128) then .tierFault else .ok
    | _ => tagStatus s part pa

/-- One byte read through a partition's range; an untranslated byte reads 0 here (its status says so). -/
def readByte (s : State) (part a : Nat) : Byte :=
  let e := pteOf s part (vpnOf a)
  if e.v then cellGet s.mem.cells (homeAddr part e + a % pageBytes) else 0

/-- The status of one byte of a read. -/
def byteStatus (s : State) (part a : Nat) : Status :=
  match translate s part a false false true with
  | .error st => st
  | .ok e => readStatus s part a e

/-- The status of reading n bytes: that of each 64-byte piece in turn. -/
def readRange (s : State) (part a n : Nat) : Status :=
  if n = 0 then .ok
  else firstBad ((List.range ((a % 64 + n - 1) / 64 + 1)).map fun i => byteStatus s part (a - a % 64 + 64 * i))

/-- n bytes read through a partition's range. -/
def readBytes (s : State) (part a n : Nat) : List Byte := (List.range n).map fun i => readByte s part (a + i)

/-- A 32-bit little-endian word of a partition's range. -/
def readWord (s : State) (part a : Nat) : Word :=
  BitVec.ofNat 32 ((readByte s part a).toNat + 256 * (readByte s part (a + 1)).toNat +
    65536 * (readByte s part (a + 2)).toNat + 16777216 * (readByte s part (a + 3)).toNat)

/-- The n words from an address on. -/
def readWords (s : State) (part a n : Nat) : List Word := (List.range n).map fun i => readWord s part (a + 4 * i)

/-- The status of writing n bytes: R217 on every page, and the state of the home's tier (R240, R253). -/
def writeRange (s : State) (part a n : Nat) (engine kvOk : Bool) : Status :=
  if n = 0 then .ok
  else firstBad ((List.range ((a % pageBytes + n - 1) / pageBytes + 1)).map fun i =>
    match translate s part (a - a % pageBytes + pageBytes * i) true engine kvOk with
    | .error st => st
    | .ok e => if e.home = .seam then lpnWriteStatus s e.sLpn else homeStatus s part e 0)

/-- Whether a frame has a tier tag issued against it (R222). -/
def frameTagged (s : State) (t : Tier) (f : Nat) : Bool :=
  s.mem.tags.any fun p => p.2.tier = t ∧ p.2.frame = f

/-- A frame out of use: free at once, or once the tags issued against it have been released (R222). -/
def freeFrame (s : State) (t : Tier) (f : Nat) : State :=
  if frameTagged s t f then { s with mem := { s.mem with freeing := s.mem.freeing ++ [(t, f)] } }
  else
    match t with
    | .gallery => { s with mem := { s.mem with galUsed := nlDel s.mem.galUsed f } }
    | .drift => { s with mem := { s.mem with driftUsed := nlDel s.mem.driftUsed f } }
    | .seam => s

/-- The frames whose last tag has been released become free (R222). -/
def settleFreeing (s : State) : State :=
  let (stay, go) := s.mem.freeing.partition fun p => frameTagged s p.1 p.2
  go.foldl (fun t p => freeFrame t p.1 p.2) { s with mem := { s.mem with freeing := stay } }

/-- When a loose page was last read (R249); 0 where it is forgotten. -/
def readLoose (s : State) (part vpn t : Nat) : State :=
  { s with mem := { s.mem with looseAt := smSet 0 s.mem.looseAt (pteKey part vpn) t } }

/-- What a write does to its page's entry: the copies below the home are no longer valid, a Drift frame that held
one returns to the free frames (R213), and a loose page is loose no more (R249). A logical page is written whole (R239). -/
def pageWritten (s : State) (part vpn : Nat) : State :=
  let e := pteOf s part vpn
  match e.home with
  | .gallery =>
    let t := setPte s part vpn { e with dv := false, sv := false, loose := false }
    if e.dv then freeFrame t .drift e.dFrame else t
  | .drift => setPte s part vpn { e with sv := false }
  | .seam => programPage s part e.sLpn

/-- One byte written at a page's home, with the generation tag of its block (R491) and the line's fault gone
(R228). -/
def writeByte (s : State) (part a : Nat) (b : Byte) : State :=
  let e := pteOf s part (vpnOf a)
  let pa := homeAddr part e + a % pageBytes
  let m := { s.mem with cells := cellSet s.mem.cells pa b }
  { s with mem := match e.home with
    | .gallery => { m with galBad := nlDel m.galBad (pa / 128) }
    | _ => tagBlock512 s part m (pa / 512) }

/-- Bytes written from an address on. -/
def writeList (s : State) (part : Nat) : Nat → List Byte → State
  | _, [] => s
  | a, b :: bs => writeList (writeByte s part a b) part (a + 1) bs

/-- The length code of a granule (R216), by its place in its page's code block: 8, raw, is what an unlisted code reads as. -/
def codeKey (part : Nat) (e : Pte) (g : Nat) : Nat := (part * 65536 + e.code) * 1024 + g
def setCode (s : State) (part a code : Nat) : State :=
  let e := pteOf s part (vpnOf a)
  if e.zc then
    { s with mem := { s.mem with codes := smSet 8 s.mem.codes (codeKey part e (a % pageBytes / 64)) code } }
  else s

/-- Every code of a page at 8. -/
def clearCodes (s : State) (part : Nat) (e : Pte) : State :=
  if e.zc then { s with mem := { s.mem with codes := smClear s.mem.codes (codeKey part e 0) (codeKey part e 1024) } } else s

/-- Bytes of one page written: the bytes, raw (R216), then what the write does to the page's entry. A write to a page under move waits
for the switch (R247 step 3). -/
def writePage (s : State) (part a : Nat) (bs : List Byte) : State :=
  if bs.isEmpty then s
  else if (pteOf s part (vpnOf a)).mig then { s with mem := { s.mem with migWrites := s.mem.migWrites ++ [(part, a, bs)] } }
  else
    (List.range ((a % 64 + bs.length - 1) / 64 + 1)).foldl (fun u i => setCode u part (a - a % 64 + 64 * i) 8)
      (pageWritten (writeList s part a bs) part (vpnOf a))

/-- The parts of a run of bytes that lie in one page each, of the first n pages from its address on. -/
def pageParts : Nat → Nat → List Byte → List (Nat × List Byte)
  | 0, _, _ => []
  | n + 1, a, bs =>
    let k := pageBytes - a % pageBytes
    if bs.isEmpty then [] else (a, bs.take k) :: pageParts n (a + k) (bs.drop k)

/-- Bytes written through a partition's range, page by page. The pages must be writable (writeRange). -/
def writeBytes (s : State) (part a : Nat) (bs : List Byte) : State :=
  (pageParts (bs.length / pageBytes + 2) a bs).foldl (fun t x => writePage t part x.1 x.2) s

/-- The four little-endian bytes of a word. -/
def wordBytes (w : Word) : List Byte :=
  [w.setWidth 8, (w >>> 8).setWidth 8, (w >>> 16).setWidth 8, (w >>> 24).setWidth 8]

/-- The n low bytes of a number, little-endian (R7). -/
def natBytes (n : Nat) (k : Nat) : List Byte := (List.range n).map fun i => BitVec.ofNat 8 (k >>> (8 * i))

/-- The little-endian number of a list of bytes. -/
def bytesNat : List Byte → Nat
  | [] => 0
  | b :: bs => b.toNat + 256 * bytesNat bs

def bytesWord (bs : List Byte) (i : Nat) : Word := BitVec.ofNat 32 (bytesNat ((bs.drop (4 * i)).take 4))

/-! ### Shares (R224, R683) -/

/-- n bytes that the spec leaves open (R15), or that the random-number generator draws, and their spending. -/
def freeBytes (s : State) (n : Nat) : List Byte := ((List.range (n / 8 + 1)).flatMap fun i => natBytes 8 (freeAt s i).toNat).take n
def spendBytes (s : State) (n : Nat) : State := spendFree s (n / 8 + 1)

/-- The bank groups that some GAL_BG names. -/
def namedGroups (l : Layout) : Word := l.parts.foldl (fun w p => w ||| p.galBg) 0

/-- The frames of bank groups as segments (first, count). -/
def groupSegs (mask : Word) : List (Nat × Nat) :=
  ((List.range 32).filter fun b => bit mask b).map fun b => (1024 * b, 1024)

/-- The segments left after the first n frames. -/
def dropSegs : List (Nat × Nat) → Nat → List (Nat × Nat)
  | [], _ => []
  | (a, l) :: r, n => if n ≥ l then dropSegs r (n - l) else (a + n, l - n) :: r

def segFrames (g : List (Nat × Nat)) : Nat := (g.map Prod.snd).sum

/-- The frame at an index of a list of segments. -/
def segAt : List (Nat × Nat) → Nat → Option Nat
  | [], _ => none
  | (a, l) :: r, i => if i < l then some (a + i) else segAt r (i - l)

/-- The lowest frame from x on that lies in no bank group of a mask. -/
def unnamedFrom (mask : Word) (x : Nat) : Nat :=
  match (List.range 32).find? fun b => decide (x / 1024 ≤ b) && !(bit mask b) with
  | some b => max x (1024 * b)
  | none => 32768

/-- Where the GAL_FRAMES shares start, in partition order, each after the ones before it. -/
def frameStarts (mask : Word) : List PartLayout → Nat → List Nat
  | [], _ => []
  | p :: ps, x =>
    if p.galBg ≠ 0 ∨ p.galFrames = 0 then x :: frameStarts mask ps x
    else unnamedFrom mask x :: frameStarts mask ps (unnamedFrom mask x + p.galFrames)

/-- The Gallery share of a partition (R683): whole bank groups, or consecutive frames from the lowest that no bank group and no earlier
share holds. -/
def galleryShare (l : Layout) (n : Nat) : List (Nat × Nat) :=
  let p := l.parts.getD n noPart
  if p.galBg ≠ 0 then groupSegs p.galBg
  else if p.galFrames = 0 then []
  else [((frameStarts (namedGroups l) l.parts 0).getD n 0, p.galFrames)]

/-- Whether every GAL_FRAMES share fits where it starts (R683). -/
def sharesFit (l : Layout) : Bool :=
  (List.range l.parts.length).all fun n =>
    (l.parts.getD n noPart).galBg != 0 || (galleryShare l n).all fun g =>
      decide (g.1 + g.2 ≤ 32768) && (List.range 32).all fun b => !(bit (namedGroups l) b) || decide (1024 * b + 1024 ≤ g.1 ∨ g.1 + g.2 ≤ 1024 * b)

def areasOf (p : PartLayout) : Nat := p.ptArea + p.codeArea + p.kvArea

/-- The frames of a share after the page-table, code and KV areas (R683). -/
def galleryFrames (s : State) (n : Nat) : List (Nat × Nat) :=
  match s.dev.layout with
  | none => []
  | some l => dropSegs (galleryShare l n) (areasOf (partLayout s n))

/-- The lowest-numbered free frame of a partition's Gallery share (R683). -/
def freeGallery (s : State) (n : Nat) : Option Nat :=
  (galleryFrames s n).findSome? fun g => nlLowestFree s.mem.galUsed g.1 (g.1 + g.2)

def freeGalleryCount (s : State) (n : Nat) : Nat :=
  segFrames (galleryFrames s n) -
    (s.mem.galUsed.filter fun f => (galleryFrames s n).any fun g => decide (g.1 ≤ f ∧ f < g.1 + g.2)).length

/-- The channel groups of a Drift share. -/
def driftGroupsOf (p : PartLayout) : List Nat := (List.range 12).filter fun g => p.driftGroups.getLsbD g

/-- The frames a partition has in one channel group: its share spread evenly over its groups, the lower groups
first (R477 DRIFT_FRAMES). -/
def driftInGroup (p : PartLayout) (g : Nat) : Nat :=
  let gs := driftGroupsOf p
  if gs.contains g then p.driftFrames / gs.length + (if gs.idxOf g < p.driftFrames % gs.length then 1 else 0) else 0

/-- Where a partition's frames of a channel group start, counted among the frames that the shares may use: after those of
the partitions before it. -/
def driftStart (l : Layout) (n g : Nat) : Nat := ((l.parts.take n).map fun p => driftInGroup p g).sum

/-- The frame at a place of a channel group: the standby frames lie outside every share (R540). -/
def driftFrame (l : Layout) (g i : Nat) : Nat := 15360 * g + (if l.stbyEn ∧ i ≥ l.stbyOfs then i + 2731 else i)

/-- The place of a frame in its channel group. -/
def driftPlace (l : Layout) (f : Nat) : Nat :=
  let i := f % 15360
  if l.stbyEn ∧ i ≥ l.stbyOfs + 2731 then i - 2731 else i

/-- The places of a group's frames in use, rising. -/
def driftPlaces (l : Layout) (used : List Nat) (g : Nat) : List Nat :=
  used.filterMap fun f => if f / 15360 = g then some (driftPlace l f) else none

/-- The groups of a share in round-robin order, starting after the group last used (R232). -/
def driftOrder (s : State) (n : Nat) : List Nat :=
  let gs := driftGroupsOf (partLayout s n)
  let last := smGet 12 s.mem.driftLast n
  (gs.filter (· > last)) ++ (gs.filter (· ≤ last))

/-- Whether a channel group takes new frames (R254): none of its controllers is FAILED. -/
def groupTakes (s : State) (g : Nat) : Bool := (List.range 4).all fun i => pgState s ⟨.drift, 4 * g + i⟩ != 3

/-- A Drift frame of a partition's share by R232; which frame of the group is left open. -/
def freeDrift (s : State) (n : Nat) : Option (Nat × Nat) :=
  match s.dev.layout with
  | none => none
  | some l =>
    (driftOrder s n).findSome? fun g =>
      let lo := driftStart l n g
      if groupTakes s g then
        (pickFree (driftPlaces l s.mem.driftUsed g) lo (lo + driftInGroup (partLayout s n) g) (freeAt s 0).toNat).map fun x => (driftFrame l g x, g)
      else none

def freeDriftCount (s : State) (n : Nat) : Nat :=
  match s.dev.layout with
  | none => 0
  | some l =>
    (((driftGroupsOf (partLayout s n)).filter fun g => groupTakes s g).map fun g =>
      let lo := driftStart l n g
      let hi := lo + driftInGroup (partLayout s n) g
      hi - lo - ((driftPlaces l s.mem.driftUsed g).filter fun f => decide (lo ≤ f ∧ f < hi)).length).sum

/-- The mapped entries of a partition. -/
def partPtes (s : State) (n : Nat) : List (Nat × Pte) :=
  (smRange s.mem.ptes (pteKey n 0) (pteKey (n + 1) 0)).map fun p => (p.1 - pteKey n 0, p.2)

/-- The logical pages that the mapped pages of a partition name, and those that its moves in progress are to write, rising. -/
def namedLpns (s : State) (n : Nat) : List Nat :=
  (s.mem.moves.filter fun m => decide (m.part = n ∧ m.dest = .seam)).foldl (fun l m => nlAdd l m.frame)
    (((partPtes s n).filter fun p => p.2.home = .seam ∨ p.2.sv).foldl (fun l p => nlAdd l p.2.sLpn) [])

/-- A logical page that no mapped page and no move names: of either keeper, but of one with fewer than four channels that take units
only where the other has no page left (R254); which one is left open. -/
def freeLpn (s : State) (n : Nat) : Option Nat :=
  let size := (partLayout s n).seamPages
  let takes (k : Nat) : Bool := decide (4 ≤ (takingChannels s k).length) && pgState s (keeperPage k) != 3
  let pick (k : Nat) : Option Nat :=
    (pickFree ((namedLpns s n).filterMap fun l => if l % 2 = k then some (l / 2) else none) 0 ((size + 1 - k) / 2) (freeAt s 0).toNat).map (2 * · + k)
  let ks := if (freeAt s 1).getLsbD 0 then [1, 0] else [0, 1]
  (ks.filter takes ++ ks.filter fun k => !(takes k)).findSome? pick

/-- A free code block of the partition's code area (R216): 128 blocks to a frame. -/
def freeCode (s : State) (n : Nat) : Option Nat :=
  pickFree (s.mem.codeUsed.filterMap fun c => if c / 65536 = n then some (c % 65536) else none)
    0 (128 * (partLayout s n).codeArea) (freeAt s 0).toNat

def freeCodeCount (s : State) (n : Nat) : Nat :=
  128 * (partLayout s n).codeArea - (s.mem.codeUsed.filter fun c => decide (c / 65536 = n)).length

def takeGallery (s : State) (f : Nat) : State := { s with mem := { s.mem with galUsed := nlAdd s.mem.galUsed f } }
def takeDrift (s : State) (n f g : Nat) : State :=
  spendFree { s with mem := { s.mem with driftUsed := nlAdd s.mem.driftUsed f, driftLast := smSet 12 s.mem.driftLast n g } } 1
def takeCode (s : State) (n i : Nat) : State :=
  spendFree { s with mem := { s.mem with
    codeUsed := nlAdd s.mem.codeUsed (n * 65536 + i)
    codes := smClear s.mem.codes ((n * 65536 + i) * 1024) ((n * 65536 + i + 1) * 1024) } } 1
def dropCode (s : State) (n : Nat) (e : Pte) : State :=
  if e.zc then { s with mem := { s.mem with codeUsed := nlDel s.mem.codeUsed (n * 65536 + e.code) } } else s

/-- A physical page zeroed; the lines of a Gallery frame are written (R228), and a Drift or Seam page carries the write generation's tag
in every block (R492). -/
def zeroPage (s : State) (n : Nat) (t : Tier) (pa : Nat) : State :=
  let m := { s.mem with cells := smClear s.mem.cells pa (pa + pageBytes) }
  let blank := { m with gens := smClear m.gens (pa / 512) (pa / 512 + 128), salts := smClear m.salts (pa / 512) (pa / 512 + 128) }
  { s with mem := match t with
    | .gallery => { m with galBad := m.galBad.filter fun l => decide (l < pa / 128 ∨ pa / 128 + 512 ≤ l) }
    | _ => (List.range 128).foldl (fun g i => tagBlock512 s n g (pa / 512 + i)) blank }

/-- The cells of one physical page moved to another page's addresses. -/
def cellsAt (m : List Host.Cell) (src dst : Nat) : List Host.Cell :=
  (smRange m src (src + pageBytes)).map fun p => (p.1 - src + dst, p.2)

/-- A physical page copied onto another (R247 step 1), re-encrypted under the write generation where it lands in
Drift or Seam. -/
def copyPage (s : State) (n : Nat) (t : Tier) (src dst : Nat) : State :=
  let z := zeroPage s n t dst
  { z with mem := { z.mem with cells := (cellsAt s.mem.cells src dst).foldl (fun m p => cellSet m p.1 p.2) z.mem.cells } }

/-- Whether every block of a page's home can be read (R248). -/
def pageReadable (s : State) (part vpn : Nat) : Status :=
  firstBad ((List.range 1024).map fun i => byteStatus s part (vpn * pageBytes + 64 * i))

/-- The tier order: Gallery above Drift above Seam. -/
def tierRank : Tier → Nat
  | .gallery => 0
  | .drift => 1
  | .seam => 2

def tierOf (n : Nat) : Tier := if n = 0 then .gallery else if n = 1 then .drift else .seam

/-- The bytes of a page-table entry without CHECK, and CHECK (R215). -/
def pteWords (e : Pte) : List Word :=
  let home := tierRank e.home
  let w0 := e.v.toNat * 2 ^ 31 + home * 2 ^ 29 + e.w.toNat * 2 ^ 28 + e.kv.toNat * 2 ^ 27 + e.zc.toNat * 2 ^ 26 +
    e.gen.toNat * 2 ^ 24 + e.dv.toNat * 2 ^ 23 + e.sv.toNat * 2 ^ 22 + e.mig.toNat * 2 ^ 21 + e.loose.toNat * 2 ^ 20 +
    e.shared.toNat * 2 ^ 19 + e.gFrame % 2 ^ 15
  let w1 := e.hold % 2 ^ 14 * 2 ^ 18 + e.dFrame % 2 ^ 18
  let w2 := e.sLpn % 2 ^ 26
  let w3 := e.code % 2 ^ 16
  let bs := (List.range 15).map fun i => ((w0 + w1 * 2 ^ 32 + w2 * 2 ^ 64 + w3 * 2 ^ 96) >>> (8 * i)) % 256
  let check := bs.foldl (fun a b => a ^^^ b) 0
  [BitVec.ofNat 32 w0, BitVec.ofNat 32 w1, BitVec.ofNat 32 w2, BitVec.ofNat 32 (w3 + check * 2 ^ 24)]

end Sys2Proof.Machine
end

