-- ==== Sys2Proof/Machine/CoreBase.lean ====
section
/-! DEFINITION. The command streams of the cores as every block meets them: where a stream's state is kept (R147, R298), what
a core holds in WAIT or RUN, the first failure of a command (R150), and what the LAST registers record when one ends. -/

namespace Sys2Proof.Machine

/-- The key of a core's command stream: A-cores have two (R263). -/
def streamKey (k : CoreId) (stream : Nat) : Nat := 2 * coreCode k + stream
def noCore : CoreSt := ⟨none, none⟩
def coreSt (s : State) (k : CoreId) (stream : Nat) : CoreSt := smGet noCore s.cores (streamKey k stream)
def setCore (s : State) (k : CoreId) (stream : Nat) (c : CoreSt) : State :=
  { s with cores := smSet noCore s.cores (streamKey k stream) c }

def curOf (s : State) (k : CoreId) (stream : Nat) : Option CmdRun := (coreSt s k stream).cur
def setCur (s : State) (k : CoreId) (stream : Nat) (r : CmdRun) : State :=
  setCore s k stream { coreSt s k stream with cur := some r }

/-- How many command streams a core has. -/
def streamsOf (k : CoreId) : List Nat := if k.cls = .a then [0, 1] else [0]

/-- The core and the stream of a stream key. -/
def streamOfKey (n : Nat) : Option (CoreId × Nat) := (coreOfCode (n / 2)).map fun k => (k, n % 2)

/-- The first failure of a command decides its status (R150): a later one is only recorded. -/
def failCmd (s : State) (k : CoreId) (stream : Nat) (st : Status) : State :=
  match curOf s k stream with
  | none => s
  | some r => match r.fail with
    | some _ => s
    | none => setCur s k stream { r with fail := some st }

/-- A tier request of a command fails: of two that fail in one tick, the one of the lower tag decides (R150, R194). -/
def failRequest (s : State) (k : CoreId) (stream tag : Nat) (st : Status) : State :=
  match curOf s k stream with
  | none => s
  | some r =>
    let lower := match r.failTag with
      | some (t, n) => t == now s && decide (tag < n)
      | none => false
    if r.fail.isNone || lower then setCur s k stream { r with fail := some st, failTag := some (now s, tag) } else s

/-- Core clocks to a device tick (R21). -/
def clkPerTick : CoreCls → Nat
  | .v => 1200
  | .t => 600
  | _ => 800

/-- The clocks from a command's issue to the present: the ticks between, give or take one tick, whose fraction is a free value. -/
def spanClocks (s : State) (k : CoreId) (r : CmdRun) : Nat :=
  let c := clkPerTick k.cls
  let n := now s - r.issue
  if n = 0 then (freeAt s 0).toNat % c else n * c + (freeAt s 0).toNat % (2 * c) - c

/-! ### The state of a stream (R147, R298) -/

def streamState (s : State) (k : CoreId) (stream : Nat) : Nat :=
  if stream = 1 then regField s (corePage k) 0x118 7 4 else pgState s (corePage k)

/-- BUSY of the page (R147, R301): a stream in WAIT, RUN or SELFTEST. -/
def streamBusy (n : Nat) : Bool := n == cWait || n == cRun || n == cSelftest

def setStreamState (s : State) (k : CoreId) (stream st : Nat) : State :=
  let p := corePage k
  let t := if stream = 1 then setRegField (setRegField s p 0x118 7 4 st) p 0x118 0 0 (streamBusy st).toNat else setPgState s p st
  setBusy t p ((streamsOf k).any fun i => streamBusy (streamState t k i))

/-- The opcode field, and MODE or SUBOP, of PG_STAT or AC_APPEND_STAT (R154, R206, R301, R302). -/
def setStreamOp (s : State) (k : CoreId) (stream op sub : Nat) : State :=
  let p := corePage k
  if stream = 1 then setRegField s p 0x118 23 16 op
  else
    let t := setRegField s p 0x00C 23 16 op
    match k.cls with
    | .m => setRegField t p 0x00C 9 8 sub
    | .v => setRegField t p 0x00C 15 8 sub
    | _ => t

/-! ### What an end records (R155, R207, R302, R350, R389) -/

/-- The mask of a class's FLAGS register: LAST from bit 16. -/
def flagMask (k : CoreId) : Nat :=
  match k.cls with
  | .a | .l => 0x1F
  | .t => 0x7
  | _ => 0xF

/-- The LAST, LAST_CLK and FLAGS registers of a command that has ended. -/
def recordLast (s : State) (k : CoreId) (stream op flags clocks : Nat) (st : Status) : State :=
  let p := corePage k
  let t := setReg s p 0x100 (BitVec.ofNat 32 ((if stream = 1 then 2 ^ 21 else 0) + flags * 2 ^ 16 + op * 256 + statusCode st))
  orReg (setReg t p 0x104 (BitVec.ofNat 32 (min clocks 0xFFFFFFFF))) p 0x108 (BitVec.ofNat 32 (flags % (flagMask k + 1)))

/-- The counter slot of commands that ended with a failure status. -/
def failSlot (k : CoreId) : Nat := if k.cls = .a then 3 else 2

/-- The Face of a stream by byte (R121, R182): what pushed rows left in it. -/
def faceKey (k : CoreId) (stream o : Nat) : Nat := streamKey k stream * 2 ^ 26 + o
def clearFace (s : State) (k : CoreId) (stream : Nat) : State :=
  { s with face := smClear s.face (faceKey k stream 0) (faceKey k stream 0 + 2 ^ 26) }

/-- A pin is released in the tick of its command's end (R275): PIN lowered on every slot it pinned. -/
def dropPins (s : State) (part pool : Nat) (pins : List (Nat × Nat)) : State :=
  pins.foldl (fun t x =>
    let key := (part * 4 + pool) * 2 ^ 24 + x.1
    let r := smGet (⟨0, 0, 0, 0, 0, 0⟩ : KvRec) t.kv.recs key
    { t with kv := { t.kv with recs := smSet ⟨0, 0, 0, 0, 0, 0⟩ t.kv.recs key { r with pin := r.pin - 1 } } }) s

/-- The tags that a stream's command still holds. -/
def liveTags (s : State) (k : CoreId) (stream : Nat) : Bool := s.mem.tags.any fun x => x.2.live && x.2.holder == .core k stream

/-- A command that ends leaves its requests in flight: each holds its tag until its own completion (R190). -/
def leaveTags (s : State) (k : CoreId) (stream : Nat) : State :=
  { s with mem := { s.mem with tags := s.mem.tags.map fun x =>
      if x.2.holder == TagHolder.core k stream then (x.1, { x.2 with live := false }) else x } }

/-- The end of a command's list stream (R289): every page it still holds is released at the next boundary. -/
def kvPrefetchEnd (s : State) (k : CoreId) : State :=
  match s.mem.pf.find? fun x => x.2.core == some k && !x.2.kvList.isEmpty with
  | none => s
  | some (i, x) =>
    let held := (x.kvList.take x.fetched).drop x.released
    held.foldl (fun t v => atBoundary t (.pageRelease i x.part v)) { s with mem := { s.mem with pf := smDel s.mem.pf i } }

/-- The slots of rows that were not written return to FREE at the next boundary (R281). -/
def giveBack (s : State) (p pool : Nat) (rows : List KvRow) : State :=
  rows.foldl (fun t r => if r.fresh then atBoundary t (.kvGiveBack p pool r.slot) else t) s

/-- What a command gives up at its end, however it ends (R122, R190, R275, R289): its pins, its Face, its requests, and on stream 0 of
an A-core its prefetch. The stream returns to IDLE. -/
def quitStream (s : State) (k : CoreId) (stream : Nat) (r : CmdRun) : State :=
  let t := leaveTags (clearFace (dropPins s r.offer.part (field (r.offer.desc.getD 0 0) 8 7) r.pins) k stream) k stream
  let u := setStreamOp (setStreamState (setCore t k stream noCore) k stream cIdle) k stream 0 0
  if k.cls = .a ∧ stream = 0 then kvPrefetchEnd u k else u

/-- A command leaves its stream without completing (R149, R169, R550): its registers show the status and the clocks from its issue,
and the slots that an append took and did not fill are given back. -/
def abortCmd (s : State) (k : CoreId) (stream : Nat) (st : Status) (record : Bool) : State :=
  match curOf s k stream with
  | none => setCore s k stream noCore
  | some r =>
    let w := r.offer.desc.getD 0 0
    let t := if record then spendFree (ctrAdd (recordLast s k stream (field w 23 16) 0 (spanClocks s k r) st) (corePage k) (failSlot k) 1) 1 else s
    let u := match r.out with
      | some o => giveBack t r.offer.part (field w 8 7) o.append
      | none => t
    quitStream u k stream r

end Sys2Proof.Machine
end

