-- ==== Sys2Proof/Machine/Lead.lean ====
section
/-! DEFINITION. What every block asks of the pair (chapter 15): who leads, under which epoch (R613, R618), which partitions
agree (R600), and the messages queued for the mate (R596, R597, R608). -/

namespace Sys2Proof.Machine

def vlPage : Page := ⟨.vuvon, 0⟩
def isPair (s : State) : Bool := decide (s.dev.order = 2)

def vlOff : Nat := 0
def vlTrain : Nat := 1
def vlAuth : Nat := 2
def vlAlign : Nat := 3
def vlResync : Nat := 4
def vlPaired : Nat := 5
def vlApart : Nat := 6

/-- The link's state (R598): always OFF on a TKV16-A. -/
def linkState (s : State) : Nat := pgState s vlPage

/-- DEV_STATE[9] (R618): a single module leads while DEVICE is in RUN. -/
def leading (s : State) : Bool := if isPair s then s.vl.lead else devRunning s
def leadEpoch (s : State) : Word := if isPair s then s.vl.epoch else 0
def isStandby (s : State) : Bool := isPair s && !s.vl.lead

/-- The digest of a partition's loaded manifest that a MANIFEST message carries; zero where there is none. -/
def ownMan (s : State) (n : Nat) : List Byte :=
  match s.sec.parts.find? fun x => x.1 == n with
  | some x => match x.2.manifest with
    | some img => (img.drop 16).take 16
    | none => List.replicate 16 0
  | none => List.replicate 16 0

/-- Whether a partition partAgrees (R600). -/
def partAgrees (s : State) (n : Nat) : Bool :=
  ownMan s n != List.replicate 16 0 && (s.vl.mateMan.drop (16 * n)).take 16 == ownMan s n

/-- The priority of a message (R597). -/
def msgPrio (m : Msg) : Nat :=
  match m.cls with
  | 5 => if m.sub ≤ 3 then 1 else 2
  | 4 => 3
  | 6 => 4
  | _ => 0

def msgBytes (m : Msg) : Nat := 4 + m.body.length

/-- A message queued (R597): one of priority 1 or 2 that finds its 16 MiB queue full is dropped and counted. -/
def queueMsg (s : State) (m : Msg) : State :=
  let p := msgPrio m
  let used := ((s.vl.out.filter fun x => msgPrio x == p).map msgBytes).sum
  if (p = 1 ∨ p = 2) ∧ used + msgBytes m > 0x1000000 then
    rcEvent (setFlag (ctrAdd s vlPage 16 1) vlPage 8) vlPage 0x128 fun w => BitVec.ofNat 32 (min (w.toNat + 1) 0xFFFFFFFF)
  else { s with vl := { s.vl with out := s.vl.out ++ [m] } }

/-! ### Leadership (R613 to R617) -/

/-- JOIN_TMO in ticks (R623). -/
def joinTmo (s : State) : Nat := regField s vlPage 0x100 31 16 * 1000

/-- Whether position B leaves its time base to the mate (R601): while it follows, and until JOIN_TMO has passed without the link
reaching ALIGN. -/
def pairHoldsTime (s : State) : Bool :=
  isPair s && s.dev.pairPos && ([vlAlign, vlResync, vlPaired].contains (linkState s) ||
    !(s.vl.reached || s.vl.runAt.any fun r => decide (now s ≥ r + joinTmo s)))

/-- Whether the module is able to lead (R615). -/
def ableLead (s : State) : Bool :=
  devRunning s && [0, 1, 4, 5].contains s.dev.power.toNat && s.vl.epoch != 0xFFFFFFFF &&
    !(match s.sec.parts.find? fun x => x.1 == 0 with
      | some x => x.2.dbg == 2
      | none => false)

/-- A LEAD_TOKEN (R614), exchanged from CONFIRM onward (R598). -/
def sendToken (s : State) (yields : Bool) : State :=
  if linkState s < vlAlign then s
  else queueMsg s ⟨3, 0, 0xFF, (List.range 4).map (fun i => (s.vl.epoch >>> (8 * i)).setWidth 8) ++
    [BitVec.ofNat 8 (s.vl.lead.toNat + 2 * yields.toNat + 4 * (!(ableLead s)).toNat), BitVec.ofNat 8 s.dev.pairPos.toNat, 0, 0] ++
    (List.range 4).map (fun i => (nowW s >>> (8 * i)).setWidth 8)⟩

/-- A change of role with its cause (R622). -/
def roleChange (s : State) (lead : Bool) (cause : Nat) (yields : Bool) : State :=
  let t := { s with vl := { s.vl with lead := lead } }
  sendToken (ctrAdd (setReg (setReg t vlPage 0x118 (nowW s)) vlPage 0x11C (BitVec.ofNat 32 cause)) vlPage 7 1) yields

/-- The lead given up. -/
def yieldLead (s : State) (cause : Nat) : State := ctrAdd (roleChange s false cause true) vlPage 9 1

/-- A lead that has ceased to be able to lead yields in that tick (R615). -/
def yieldUnable (s : State) : State := if isPair s && s.vl.lead && !(ableLead s) then yieldLead s 7 else s

/-- A new epoch, whose record is due within 100,000 ticks (R613). -/
def setEpoch (s : State) (e : Word) : State :=
  if s.vl.epoch = e then s else { s with vl := { s.vl with epoch := e, epochDue := some (s.vl.epochDue.getD (now s + 100000)) } }

/-- Mirroring runs in RESYNC and PAIRED (R598). -/
def mirrors (s : State) : Bool := isPair s && (linkState s == vlResync || linkState s == vlPaired)

/-- A STATE_DELTA record of a partition (R608). -/
def sendDelta (s : State) (sub part : Nat) (bs : List Byte) : State :=
  if mirrors s && partAgrees s part then queueMsg s ⟨5, sub, part, bs⟩ else s

/-- What a digest is matched by (R607): SLOT and KEY, or the partition and NUMBER. -/
def digestKey (bs : List Byte) : List Byte :=
  bs.take 2 ++ (bs.drop 4).take 4 ++ (if bs.take 1 == [0xFF#8] then (bs.drop 2).take 2 else [])

/-- Two digests of one sample or instant compared (R607). -/
def compareDigest (s : State) (mine theirs : List Byte) : State :=
  let t := ctrAdd s vlPage 10 1
  if mine == theirs then t else setFlag (ctrAdd t vlPage 11 1) vlPage 4

/-- An INPUT_DIGEST sent, and matched or kept for its counterpart (R607). -/
def sendDigest (s : State) (part : Nat) (bs : List Byte) : State :=
  if mirrors s && partAgrees s part then
    let t := queueMsg s ⟨4, 0, part, bs⟩
    match t.vl.theirs.find? fun x => digestKey x.1 == digestKey bs with
    | some x => compareDigest { t with vl := { t.vl with theirs := t.vl.theirs.erase x } } bs x.1
    | none => { t with vl := { t.vl with mine := t.vl.mine ++ [(bs, now t)] } }
  else s

/-- The BULK MANIFEST of R600, at CONFIRM and after every LOAD_MANIFEST. -/
def sendManifest (s : State) : State :=
  if linkState s < vlAlign then s else queueMsg s ⟨6, 6, 0xFF, (List.range 16).flatMap (ownMan s)⟩

end Sys2Proof.Machine
end

