-- ==== Sys2Proof/Machine/Fatal.lean ====
section
/-! DEFINITION. The error classes (R548 to R552): a safety trip, what a partition-fatal and a device-fatal error do, and the
entry of Foxglove's channels into SAFE (R415) that HALT asks for. -/

namespace Sys2Proof.Machine

/-! ### Channels in SAFE -/

def fxPage (ch : Nat) : Page := ⟨.fxch, ch⟩
def ccPage (ch : Nat) : Page := ⟨.c, ch / 32⟩
def fxOff : Nat := 0
def fxArmed : Nat := 1
def fxRun : Nat := 2
def fxSafe : Nat := 3
def ccRun : Nat := 3
def ccSuspect : Nat := 5

def noFx : FxCh := ⟨0, none, 0, 0, 0, none, false, none, 0, none, [0, 0, 0, 0, 0, 0]⟩
def fxCh (s : State) (ch : Nat) : FxCh := smGet noFx s.fx.chans ch
def setFx (s : State) (ch : Nat) (x : FxCh) : State := { s with fx := { s.fx with chans := smSet noFx s.fx.chans ch x } }
def fxState (s : State) (ch : Nat) : Nat := pgState s (fxPage ch)

/-- Entry into SAFE with its cause (R415); a channel in OFF or SAFE stays. -/
def fxToSafe (s : State) (ch cause : Nat) : State :=
  if fxState s ch = fxArmed ∨ fxState s ch = fxRun then
    let t := setRegField (setPgState s (fxPage ch) fxSafe) (fxPage ch) 0x104 3 0 cause
    setFx (ctrAdd t (fxPage ch) 12 1) ch { fxCh t ch with step := none }
  else s

/-- Every channel of a list to SAFE. -/
def fxAllSafe (s : State) (cause : Nat) (chs : List Nat) : State := chs.foldl (fun t ch => fxToSafe t ch cause) s

def coreChans (i : Nat) : List Nat := (List.range 32).map (· + 32 * i)

/-! ### Trips -/

def fbPage (stack : Nat) : Page := ⟨.fireboss, stack⟩
def wdPage (stack : Nat) : Page := ⟨.fireboss, 2 + stack⟩
def fbChecking : Nat := 0
def fbReady : Nat := 1
def fbTripped : Nat := 2

def stackNo : Stack → Nat
  | .w => 0
  | .e => 1

/-- The stack in charge (R580). -/
def chargeOf (s : State) : Nat := s.dev.inCharge.toNat

/-- The stack whose Fireboss acts on an error of a page: the page's own stack, else the one in charge. -/
def actingStack (s : State) (p : Page) : Nat :=
  match p.cls with
  | .gallery | .keeper | .hoist => p.inst % 2
  | .fireboss => p.inst % 2
  | .drift => p.inst / 24
  | .seam => p.inst / 8
  | .tally => p.inst / 16
  | .fxch => p.inst / 32
  | _ => match pageCore p with
    | some k => stackNo (coreStack k)
    | none => chargeOf s

/-- A safety trip of a stack's Fireboss (R552): FB_TRIP and FB_TRIP_TICK keep the first since their last read; every trip sets
TRIP and is counted. -/
def trip (s : State) (stack cause cls : Nat) (p : Page) : State :=
  let fb := fbPage stack
  let w := BitVec.ofNat 32 (cause * 2 ^ 24 + cls * 2 ^ 16 + clsCode p.cls * 256 + p.inst)
  let t := rcEvent (rcEvent s fb 0x108 fun x => if x = 0 then w else x) fb 0x10C fun x => if regVal s fb 0x108 = 0 then nowW s else x
  ctrAdd (setFlag t fb 0) fb 1 1

/-- HALT (R550): DEVICE enters HALT, both Fireboss are TRIPPED, commands end without completion, every channel that runs
enters SAFE, the trip is written into Lamphouse's persistent state, and a lead yields (R615). -/
def enterHalt (s : State) (cause cls : Nat) (p : Page) : State :=
  let t := setFlag (setPgState s devPage stHalt) devPage 2
  let u := setPgState (setPgState t (fbPage 0) fbTripped) (fbPage 1) fbTripped
  let v := (u.cores.map Prod.fst).foldl (fun x n => match streamOfKey n with
    | some (k, i) => abortCmd x k i .safetyHold true
    | none => x) u
  let w := fxAllSafe v 7 (List.range 64)
  yieldUnable { w with sec := { w.sec with flash := { w.sec.flash with
      trips := w.sec.flash.trips ++ [(cause * 2 ^ 24 + cls * 2 ^ 16 + clsCode p.cls * 256 + p.inst, now w, chargeOf w)] } } }

/-- A device-fatal trip of a stack (R550, R551): in HALT it is only recorded and counted; during boot it takes effect when
DEVICE enters RUN (R556). -/
def fatalTrip (s : State) (stack cause : Nat) (p : Page) : State :=
  if devState s = stBoot then
    if s.fb.bootFail.isSome then s else { s with fb := { s.fb with bootFail := some (cause * 256 + clsCode p.cls, p.inst) } }
  else
    let t := trip s stack cause 4 p
    if devRunning s then enterHalt t cause 4 p else t

/-- A device-fatal error found by a block (R550): cause 1, or another cause of FB_TRIP. -/
def deviceFatal (s : State) (p : Page) (cause : Nat) : State :=
  fatalTrip s (actingStack s p) (if cause = 0 then 1 else cause) p

/-- A partition-fatal error of PTn (R549): a partial reset begins, with the effect of an accepted DEV_PRESET write; of
PT0 it is device-fatal. After a trip it is not begun (R583). -/
def partitionFatal (s : State) (n : Nat) (p : Page) : State :=
  if n = 0 then deviceFatal s p 1
  else if inReset s n ∨ s.atTick.contains (.presetBegin n) ∨ !(devRunning s) then s
  else atBoundary s (.presetBegin n)

end Sys2Proof.Machine
end

