-- ==== Sys2Proof/Machine/Moves.lean ====
section
/-! DEFINITION. The moves of pages between tiers (R242 to R251): their order, the tier tags that they hold, their start, their switch at
a tick boundary, and the pages that drop to a lower copy. -/

namespace Sys2Proof.Machine

/-! ### Who carries a move -/

/-- The page of a prefetcher's stack half (R260). -/
def pfPage (pf : Nat) : Page := ⟨.hoist, pf / 128⟩

/-- The Hoist page that carries the moves of a partition that no prefetcher asked for. -/
def hoistPage (part : Nat) : Page := ⟨.hoist, part % 2⟩

/-- The Hoist page of a move. -/
def movePage (who : MoveFor) (part : Nat) : Page :=
  match who with
  | .stream pf _ => pfPage pf
  | .stride pf => pfPage pf
  | _ => hoistPage part

/-- The order in which Hoist serves its moves (R251): PT0 first, then streams by prefetcher, then MIGRATE, a swap and a reload, then
strides. -/
def moveRank (part : Nat) (who : MoveFor) : Nat :=
  (if part = 0 then 0 else 4096) + match who with
    | .stream pf _ => pf
    | .migrate => 1024
    | .kvSwap => 1025
    | .digest => 1026
    | .stride pf => 2048 + pf

/-- An element put into a list ordered by a measure, after its equals. -/
def insertBy {α : Type} (f : α → Nat) (x : α) : List α → List α
  | [] => [x]
  | y :: ys => if f x < f y then x :: y :: ys else y :: insertBy f x ys

/-- A list ordered by a measure; equals keep their order. -/
def sortBy {α : Type} (f : α → Nat) (l : List α) : List α := l.foldl (fun acc x => insertBy f x acc) []

/-! ### Tags of a move (R191, R242) -/

/-- The lowest n free numbers of [lo, hi) that a rising list does not hold. -/
def lowestFree (used : List Nat) (lo hi : Nat) : Nat → List Nat
  | 0 => []
  | n + 1 => match nlLowestFree used lo hi with
    | some t => t :: lowestFree used (t + 1) hi n
    | none => []

def findMove (s : State) (part vpn : Nat) : Option Move := s.mem.moves.find? fun m => m.part = part ∧ m.vpn = vpn
def dropMove (s : State) (part vpn : Nat) : State :=
  { s with mem := { s.mem with moves := s.mem.moves.filter fun m => !decide (m.part = part ∧ m.vpn = vpn) } }

/-- A move in progress changed. -/
def setMove (s : State) (m : Move) : State :=
  { s with mem := { s.mem with moves := s.mem.moves.map fun x => if x.part = m.part ∧ x.vpn = m.vpn then m else x } }

/-- The 16 requests of 4 KiB of a page move issued on Hoist's tags; a move that finds too few waits (R190, R242). -/
def tagMove (s : State) (m : Move) : State :=
  let ts := lowestFree ((smRange s.mem.tags 8832 10880).map Prod.fst) 8832 10880 16
  if m.tagged ∨ m.dead ∨ ts.length < 16 then s
  else
    let e := pteOf s m.part m.vpn
    let req (i : Nat) : TagRec :=
      { holder := .hoist m.part m.vpn, live := true, held := false, part := m.part, write := false, addr := m.vpn * pageBytes + 4096 * i
        len := 4096, tier := e.home, frame := homeFrame e, issue := now s, st := .ok }
    let u := ((List.range 16).zip ts).foldl (fun t x => { t with mem := { t.mem with tags := smPut t.mem.tags x.2 (req x.1) } }) s
    setMove u { m with tagged := true }

/-- The moves that wait for tags, served in the order of R251. -/
def tagMoves (s : State) : State := (sortBy (fun m => moveRank m.part m.who) s.mem.moves).foldl tagMove s

/-- The tags that a move still holds, and their release (R222, R238). -/
def moveTags (s : State) (part vpn : Nat) : SMap TagRec := s.mem.tags.filter fun x => x.2.holder == .hoist part vpn
def settleTags (s : State) : State := settleErase (settleFreeing s)
def releaseMoveTags (s : State) (part vpn : Nat) : State :=
  settleTags { s with mem := { s.mem with tags := s.mem.tags.filter fun x => x.2.holder != .hoist part vpn } }

/-! ### Dropping to a lower copy (R244) -/

/-- The entry switched to a valid lower copy, and the frames above it freed; nothing is copied (R244). -/
def dropTo (s : State) (part vpn : Nat) (t : Tier) : State :=
  let e := pteOf s part vpn
  let s := readLoose s part vpn 0
  match e.home, t with
  | .gallery, .drift =>
    freeFrame (setPte s part vpn { e with home := .drift, loose := false }) .gallery e.gFrame
  | .gallery, .seam =>
    let u := freeFrame (clearCodes (setPte s part vpn { e with home := .seam, dv := false, loose := false }) part e) .gallery e.gFrame
    if e.dv then freeFrame u .drift e.dFrame else u
  | .drift, .seam =>
    freeFrame (clearCodes (setPte s part vpn { e with home := .seam, dv := false }) part e) .drift e.dFrame
  | _, _ => s

/-- A page dropped to its highest valid lower copy (R244), counted on a Hoist page; nothing without one. -/
def dropToCopy (s : State) (n vpn : Nat) (hp : Page) : State :=
  let e := pteOf s n vpn
  if e.home = .gallery ∧ e.dv then ctrAdd (dropTo s n vpn .drift) hp 3 1
  else if e.home ≠ .seam ∧ e.sv then ctrAdd (dropTo s n vpn .seam) hp 3 1
  else s

/-- The loose pages of a partition that may be reclaimed (R249): with a valid lower copy, not under move, and held by no stream. -/
def loosePages (s : State) (n : Nat) : List Nat :=
  ((partPtes s n).filter fun p => p.2.loose && p.2.home == .gallery && (p.2.dv || p.2.sv) && !p.2.mig && p.2.hold == 0).map Prod.fst

/-- The first of a list of pages that is least in a measure. -/
def leastBy (f : Nat → Nat) : List Nat → Option Nat
  | [] => none
  | x :: xs =>
    match leastBy f xs with
    | none => some x
    | some y => if f y < f x then some y else some x

/-- The least recently read of them. -/
def looseVpn (s : State) (n : Nat) : Option Nat := leastBy (fun v => smGet 0 s.mem.looseAt (pteKey n v)) (loosePages s n)

/-- A loose page reclaimed where no Gallery frame is free (R249), counted on a Hoist page. -/
def reclaimLoose (s : State) (n : Nat) (hp : Page) : State :=
  if (freeGallery s n).isSome then s
  else match looseVpn s n with
    | none => s
    | some v => ctrAdd (dropToCopy s n v hp) hp 7 1

/-! ### Start and switch (R247) -/

/-- A frame, or a logical page, of the target tier for a page that is to move there; none where the share lacks one. A move into Gallery
reclaims a loose page first (R249). -/
def moveTarget (s : State) (part : Nat) (e : Pte) (t : Tier) (hp : Page) : Option (Nat × State) :=
  match t with
  | .gallery =>
    let u := reclaimLoose s part hp
    (freeGallery u part).map fun f => (f, takeGallery u f)
  | .drift => (freeDrift s part).map fun p => (p.1, takeDrift s part p.1 p.2)
  | .seam => if e.sv then some (e.sLpn, s) else (freeLpn s part).map fun l => (l, spendFree s 2)

/-- A move begun (R247): MIG is set, the move stands among the moves in progress, and it takes its tags. -/
def startMove (s : State) (part vpn : Nat) (t : Tier) (f : Nat) (who : MoveFor) (code : Option Nat) : State :=
  let u := setPte s part vpn { pteOf s part vpn with mig := true }
  tagMoves { u with mem := { u.mem with moves := u.mem.moves ++ [⟨part, vpn, t, f, who, code, false, false, none⟩] } }

/-- A move of a page to a tier, for whoever asks: at once where the page is there already, is one that a share window keeps in Gallery
(R227), or has a valid lower copy to drop to (R244, R246); begun otherwise. None where it waits: for another move of the page, for
a frame, or for Hoist, which serves no request in INIT (R255). -/
def beginMove (s : State) (p vpn : Nat) (t : Tier) (who : MoveFor) (code : Option Nat) : Option (Bool × State) :=
  let e := pteOf s p vpn
  let hp := movePage who p
  if e.mig ∨ (findMove s p vpn).isSome then none
  else if e.home = t ∨ e.shared then some (true, s)
  else if tierRank e.home < tierRank t ∧ ((t = .drift ∧ e.dv) ∨ (t = .seam ∧ e.sv)) then
    some (true, ctrAdd (dropTo s p vpn t) hp 3 1)
  else if pgState s hp = 0 then none
  else (moveTarget s p e t hp).map fun x => (false, startMove x.2 p vpn t x.1 who code)

/-- The target of an abandoned or failed move becomes free, with the code block that it was to attach (R247 step 4, R248). -/
def freeTarget (s : State) (m : Move) : State :=
  let t := match m.code with
    | some c => { s with mem := { s.mem with codeUsed := nlDel s.mem.codeUsed (m.part * 65536 + c) } }
    | none => s
  match m.dest with
  | .gallery => freeFrame t .gallery m.frame
  | .drift => freeFrame t .drift m.frame
  | .seam => t

/-- The writes and the requests that waited for a page's switch go on at its home (R247 step 3), and their deadlines count from now
(R252). -/
def releaseHeldWrites (s : State) (part vpn : Nat) : State :=
  let e := pteOf s part vpn
  let mine (x : Nat × Nat × List Byte) : Bool := x.1 == part && vpnOf x.2.1 == vpn
  let t := { s with mem := { s.mem with
    migWrites := s.mem.migWrites.filter fun x => !(mine x)
    tags := s.mem.tags.map fun x =>
      if x.2.held ∧ x.2.part = part ∧ vpnOf x.2.addr = vpn then
        (x.1, { x.2 with held := false, tier := e.home, frame := homeFrame e, issue := now s })
      else x } }
  (s.mem.migWrites.filter mine).foldl (fun u x => if e.v then writePage u part x.2.1 x.2.2 else u) t

/-- The switch at the boundary (R247 steps 2 to 4): the content goes to the target, the entry names it as home; a
page moved up keeps its old home as a valid lower copy, a page moved down frees its old frames. A page that has been unmapped since
abandons the move. -/
def switchMove (s : State) (m : Move) : State :=
  let e := pteOf s m.part m.vpn
  let u := dropMove (releaseMoveTags s m.part m.vpn) m.part m.vpn
  if m.dead ∨ !e.v then freeTarget u m
  else
    let src := homeAddr m.part e
    let x := match m.code with
      | some c => { e with zc := true, code := c, mig := false }
      | none => { e with mig := false }
    let w := match m.dest with
      | .gallery =>
        let c := copyPage u m.part .gallery src (galleryAddr m.frame)
        match m.who with
        | .stride _ => readLoose (setPte c m.part m.vpn { x with home := .gallery, gFrame := m.frame, loose := true }) m.part m.vpn (now s)
        | _ => setPte c m.part m.vpn { x with home := .gallery, gFrame := m.frame }
      | .drift =>
        let c := copyPage u m.part .drift src (driftAddr m.frame)
        let d := setPte c m.part m.vpn { x with home := .drift, dFrame := m.frame, dv := true, loose := false }
        if e.home = .gallery then freeFrame d .gallery e.gFrame else d
      | .seam =>
        let c := programPage (copyPage u m.part .seam src (seamAddr m.part m.frame)) m.part m.frame
        let d := clearCodes (setPte c m.part m.vpn { x with home := .seam, sLpn := m.frame, sv := true, dv := false, loose := false }) m.part e
        let f := if e.home = .gallery then freeFrame d .gallery e.gFrame else d
        if e.dv then freeFrame f .drift e.dFrame else f
    releaseHeldWrites w m.part m.vpn

/-- A move given up: its tags, its target and the writes that waited. -/
def cancelMove (s : State) (m : Move) : State :=
  let u := freeTarget (dropMove (releaseMoveTags s m.part m.vpn) m.part m.vpn) m
  let e := pteOf u m.part m.vpn
  releaseHeldWrites (if m.dead ∨ !e.v then u else setPte u m.part m.vpn { e with mig := false }) m.part m.vpn

end Sys2Proof.Machine
end

