-- ==== Sys2Proof/Machine/Tiers.lean ====
section
/-! DEFINITION. Tier requests and their tags (R190 to R194, R252, R253), the tier-map requests of a partition (R218 to
R223, R684), Hoist's streams and moves (R242 to R251), the Seam keeper (R235 to R240) and the training of the tier
blocks (R255, R256). -/

namespace Sys2Proof.Machine

/-! ### Tags -/

/-- The tags reserved for a core: first and count (R191). -/
def tagBlock (k : CoreId) : Nat × Nat :=
  match k.cls with
  | .m => (512 * k.inst, 512)
  | .a => (4096 + 256 * k.inst, 256)
  | .v => (6144 + 64 * k.inst, 64)
  | .l => (8192 + 64 * k.inst, 64)
  | .f => (8448 + 64 * k.inst, 64)
  | .t => (8704 + 32 * k.inst, 32)
  | .c => (8768 + 32 * k.inst, 32)

def lowestTag (s : State) (lo n : Nat) : Option Nat :=
  nlLowestFree ((smRange s.mem.tags lo (lo + n)).map Prod.fst) lo (lo + n)

def sharedTags (s : State) (f : TagRec → Bool) : Nat :=
  ((smRange s.mem.tags 10880 16384).filter fun p => f p.2).length

def heldBy (k : CoreId) (r : TagRec) : Bool :=
  match r.holder with
  | .core k' _ => k' == k
  | .hoist _ _ => false

/-- The tag that the allocator grants a core's request (R191 to R193): the lowest free tag of its own block, else of
the shared pool within the core's 1,024 and the partition's cap. -/
def grantTag (s : State) (k : CoreId) (part : Nat) : Option Nat :=
  let b := tagBlock k
  match lowestTag s b.1 b.2 with
  | some t => some t
  | none =>
    if sharedTags s (heldBy k) < 1024 ∧ sharedTags s (fun r => r.part == part) < (partLayout s part).tagCap then
      lowestTag s 10880 5504
    else none

/-- The stride watch of a core after a read of a page (R249). -/
def watchRead (s : State) (k : CoreId) (part vpn : Nat) : State :=
  let key := coreCode k
  let w := smGet (⟨16, 0, 0, 0⟩ : StrideWatch) s.mem.watch key
  if w.part = part ∧ w.last = vpn then s
  else
    let d : Int := (vpn : Int) - w.last
    let times := if w.part ≠ part then 0 else if d = w.stride then w.times + 1 else 1
    { s with mem := { s.mem with watch := smSet ⟨16, 0, 0, 0⟩ s.mem.watch key ⟨part, vpn, if w.part = part then d else 0, times⟩ } }

def hoistW : Page := ⟨.hoist, 0⟩

/-- Whether stride detection is enabled for a partition (HS_STRIDE_EN, R260). -/
def strideOn (s : State) (part : Nat) : Bool := regBit s hoistW 0x100 part

/-- A tag released: frames that waited for it become free (R222), and blocks that did are erased (R238). -/
def releaseTag (s : State) (t : Nat) : State :=
  settleTags { s with mem := { s.mem with tags := smDel s.mem.tags t } }

/-- The pages that report for a request: the Gallery half, a Drift controller of the group, a Seam channel. -/
def galleryPageOf (f : Nat) : Page := ⟨.gallery, f / 16384⟩
def driftPageOf (f port : Nat) : Page := ⟨.drift, 4 * (f / 15360) + port % 4⟩

def keeperPageOf (lpn : Nat) : Page := keeperPage (lpn % 2)

/-- The channel that serves a request to a logical page: that of its unit, or the one that reports for a page without units. -/
def seamPageOf (s : State) (r : TagRec) (port : Nat) : Page :=
  match unitBlock s r.part r.frame (r.addr % pageBytes) with
  | some b => blockPage (r.frame % 2) b
  | none => ⟨.seam, 8 * (r.frame % 2) + port % 8⟩

/-- The move that a request of Hoist belongs to. -/
def tagMoveOf (s : State) (r : TagRec) : Option Move :=
  match r.holder with
  | .hoist part vpn => findMove s part vpn
  | .core _ _ => none

/-- Whether the banks serve a request in class 4 (R226): a Hoist move of a partition other than PT0, or of a stride prefetcher. -/
def classFour (m : Move) : Bool :=
  m.part != 0 || (match m.who with
    | .stride _ => true
    | _ => false)

/-- The bank clocks that a class 4 request waited beyond 256 (R261): the spec leaves them open. -/
def bankWait (s : State) (p : Page) : State := ctrAdd (spendFree s 1) p 7 ((freeAt s 0).toNat % 2 ^ 32)

/-- The counters of what a request of a move writes at its target (R261). -/
def countWritten (s : State) (m : Move) (port : Nat) : State :=
  match m.dest with
  | .gallery =>
    let t := ctrAdd s (galleryPageOf m.frame) 2 32
    if classFour m then bankWait t (galleryPageOf m.frame) else t
  | .drift => ctrAdd s (driftPageOf m.frame port) 2 8
  | .seam => s

/-- The counters of an access to a frame of a tier (R261): lines, blocks, or a unit and its logical page. -/
def countAccess (s : State) (t : Tier) (part frame addr len : Nat) (write : Bool) (port : Nat) : State :=
  let slot := if write then 2 else 1
  match t with
  | .gallery => ctrAdd s (galleryPageOf frame) slot ((len + 127) / 128)
  | .drift => ctrAdd s (driftPageOf frame port) slot ((len + 511) / 512)
  | .seam => if write then s else ctrAdd (readUnit s part frame (addr % pageBytes) 0 false) (keeperPageOf frame) 1 1

/-- The counters of a request served (R261). A move reads each unit, and its logical page, once. -/
def countServed (s : State) (r : TagRec) (port : Nat) : State :=
  match r.tier, tagMoveOf s r with
  | t, none => countAccess s t r.part r.frame r.addr r.len r.write port
  | .gallery, some m =>
    let t := ctrAdd s (galleryPageOf r.frame) 1 32
    countWritten (if classFour m then bankWait t (galleryPageOf r.frame) else t) m port
  | .drift, some m => countWritten (ctrAdd s (driftPageOf r.frame port) 1 8) m port
  | .seam, some m =>
    let t := if r.addr % 16384 = 0 then readUnit s r.part r.frame (r.addr % pageBytes) 0 false else s
    countWritten (if r.addr % pageBytes = 0 then ctrAdd t (keeperPageOf r.frame) 1 1 else t) m port

/-- The entry that a request was translated to (R214, R222): its tier and its frame. -/
def grantedPte (r : TagRec) : Pte := { noPte with v := true, home := r.tier, gFrame := r.frame, dFrame := r.frame, sLpn := r.frame }

/-- The status of a request that the tier serves cleanly: the state of its blocks and the tags it meets (R255, R491), at the frame that
it was translated to. -/
def servedStatus (s : State) (r : TagRec) : Status :=
  let e := grantedPte r
  if r.write then (if r.tier = .seam then lpnWriteStatus s r.frame else homeStatus s r.part e 0)
  else firstBad ((List.range ((r.addr % 64 + r.len - 1) / 64 + 1)).map fun i => readStatus s r.part (r.addr - r.addr % 64 + 64 * i) e)

/-- Whether an outcome is one of a request's tier (R253); what the physical tier cannot answer is no answer of its own. -/
def outcomeFits (s : State) (r : TagRec) (o : TierOutcome) : Bool :=
  match o with
  | .clean | .ptCheck => true
  | .corrected => r.tier != .seam
  | .galleryUe _ | .tagRefused => r.tier == .gallery
  | .driftUe _ => r.tier == .drift
  | .macFail => r.tier != .gallery
  | .ldpcFail | .seamRead _ _ _ => r.tier == .seam && !r.write
  | .mapCheck => r.tier == .seam
  | .progFail => (tagMoveOf s r).any fun m => m.dest == .seam

/-- The half in which a partition's page tables lie: that of the lowest frame of its share (R683). -/
def tablePage (s : State) (part : Nat) : Page :=
  galleryPageOf (((s.dev.layout.map fun l => (segAt (galleryShare l part) 0).getD 0)).getD 0)

/-- The partition whose share holds a Gallery frame. -/
def frameOwner (s : State) (f : Nat) : Nat :=
  ((List.range 16).find? fun n =>
    match s.dev.layout with
    | some l => (galleryShare l n).any fun g => decide (g.1 ≤ f ∧ f < g.1 + g.2)
    | none => false).getD 0

/-- Whether a read meets a block whose MAC does not verify, and nothing before it fails (R470, R491). -/
def macFails (s : State) (r : TagRec) : Bool :=
  r.tier != .gallery && !r.write && servedStatus s r == .integrity &&
    (List.range ((r.addr % 64 + r.len - 1) / 64 + 1)).any fun i =>
      macMiss s r.part (homeAddr r.part (grantedPte r) + (r.addr - r.addr % 64 + 64 * i) % pageBytes)

/-- What an outcome of the tier does beside ending the request (R253), and the status it gives. An unreadable codeword has been through
the soft decode and all eight retries, and its block is relocated and retired (R236). -/
def tierOutcome (s : State) (r : TagRec) (port : Nat) (o : TierOutcome) : Status × State :=
  match (if macFails s r then .macFail else if outcomeFits s r o then o else .clean) with
  | .clean => (servedStatus s r, countServed s r port)
  | .corrected =>
    let p := if r.tier = .gallery then galleryPageOf r.frame else driftPageOf r.frame port
    (servedStatus s r, ctrAdd (setFlag (countServed s r port) p 0) p 3 1)
  | .galleryUe line =>
    let p := galleryPageOf r.frame
    let t := rcPut (ctrAdd (setFlag s p 1) p 4 1) p 0x10C (BitVec.ofNat 32 (r.frame % 2 ^ 15 + line % 512 * 2 ^ 15))
    (.tierFault, t)
  | .tagRefused =>
    let p := galleryPageOf r.frame
    let t := rcPut (ctrAdd (setFlag s p 2) p 5 1) p 0x110
      (BitVec.ofNat 32 (r.frame % 2 ^ 15 + r.part % 16 * 2 ^ 15 + frameOwner s r.frame * 2 ^ 19))
    (.ownerDenied, partitionFatal t r.part p)
  | .ptCheck =>
    let p := tablePage s r.part
    (.integrity, partitionFatal (setFlag s p 3) r.part p)
  | .driftUe block =>
    let p := driftPageOf r.frame port
    let t := rcPut (ctrAdd (setFlag s p 1) p 4 1) p 0x10C (BitVec.ofNat 32 (r.frame % 2 ^ 18 + block % 128 * 2 ^ 18))
    (.tierFault, t)
  | .macFail =>
    match r.tier with
    | .seam => (.integrity, ctrAdd (setFlag s (keeperPageOf r.frame) 0) (keeperPageOf r.frame) 7 1)
    | _ => (.integrity, ctrAdd (setFlag s (driftPageOf r.frame port) 2) (driftPageOf r.frame port) 5 1)
  | .ldpcFail =>
    let p := seamPageOf s r port
    let t := ctrAdd (ctrAdd (ctrAdd (setFlag s p 0) p 3 1) p 4 8) p 5 1
    (.tierFault, match unitBlock t r.part r.frame (r.addr % pageBytes) with
      | some b => awaitReloc t (r.frame % 2) b true
      | none => t)
  | .progFail => match tagMoveOf s r with
    | some m => (servedStatus s r, programFailed (countServed s r port) (8 * (m.frame % 2) + port % 8))
    | none => (servedStatus s r, countServed s r port)
  | .seamRead retries bits soft =>
    let p := seamPageOf s r port
    let t := ctrAdd (readUnit s r.part r.frame (r.addr % pageBytes) bits (soft || retries != 0)) (keeperPageOf r.frame) 1 1
    (servedStatus s r, ctrAdd (if soft || retries != 0 then ctrAdd t p 3 1 else t) p 4 (min retries 8))
  | .mapCheck => (.integrity, deviceFatal (setFlag s (keeperPageOf r.frame) 3) (keeperPageOf r.frame) 1)

/-- The end of a request (R253): its command fails with its status, unless it is OK, or its move does (R248); its tag is released. Where
the command has ended, nothing but the tag is left of it (R150). -/
def endRequest (s : State) (t : Nat) (r : TagRec) (st : Status) : State :=
  let u := if st = .ok then s else
    match r.holder with
    | .core k stream => if r.live then failRequest s k stream t st else s
    | .hoist part vpn => match findMove s part vpn with
      | some m => setMove s { m with fault := some (m.fault.getD st) }
      | none => s
  releaseTag u t

/-- The deadline of a tier in ticks (R252). -/
def tierDeadline (s : State) (t : Tier) : Nat :=
  match t with
  | .gallery => 50
  | .drift => (regVal s hoistW 0x104).toNat
  | .seam => (regVal s hoistW 0x108).toNat

/-- A request past its deadline ends with TIMEOUT, and the channel or controller counts it (R252, R261). -/
def timeOut (s : State) (tag : Nat) (r : TagRec) : State :=
  endRequest (match r.tier with
    | .gallery => s
    | .drift => ctrAdd s (driftPageOf r.frame 0) 6 1
    | .seam => ctrAdd s (seamPageOf s r 0) 6 1) tag r .timeout

/-- Whether a request's deadline has passed; one that waits for a switch has none yet (R252). -/
def pastDeadline (s : State) (r : TagRec) : Bool := !r.held && decide (r.issue + tierDeadline s r.tier ≤ now s)

/-- TIER_REQUEST_COMPLETE (R253): a tag that is no longer held is a late return, which the tier discards, and one at or past its deadline
ends with TIMEOUT (R252). A block in INIT serves nothing (R255). -/
def execTierRequestComplete (tag : Fin 16384) (port : Fin 8) (outcome : TierOutcome) (s : State) : Res :=
  .next (
    match smFind s.mem.tags tag with
    | none => s
    | some r =>
      if r.held then s
      else if r.st ≠ .ok then endRequest s tag r r.st
      else if pastDeadline s r then timeOut s tag r
      else
        let x := tierOutcome s r port outcome
        if x.1 = .timeout then s else endRequest x.2 tag r x.1)

/-- TIER_REQUEST_TIMEOUT (R252): only a request past its deadline ends with TIMEOUT. -/
def execTierRequestTimeout (tag : Fin 16384) (s : State) : Res :=
  .next (
    match smFind s.mem.tags tag with
    | none => s
    | some r => if pastDeadline s r then timeOut s tag r else s)

/-! ### Tier-map requests -/

def tmOf (s : State) (p : Nat) : Option TmRun := smFind s.mem.tm p
def setTm (s : State) (p : Nat) (r : TmRun) : State := { s with mem := { s.mem with tm := smPut s.mem.tm p r } }

/-- TM_GO accepted (R218, R223): the parameters as they stand, BUSY, no page done. -/
def tmGo (s : State) (p : Nat) : State :=
  let pg := partPage p
  let op := regVal s pg 0x400
  let run : TmRun :=
    { op := field op 3 0, level := field op 31 28, zc := bit op 8, kv := bit op 7, w := bit op 6, tier := field op 5 4
      vpn := regField s pg 0x404 27 0, count := regField s pg 0x408 12 0, arg := regField s pg 0x40C 25 0
      checked := false, next := 0, done := 0, status := .ok }
  setReg (setTm s p run) pg 0x414 0x100

def tmPages (r : TmRun) : List Nat := (List.range r.count).map fun i => (r.vpn + i) % 2 ^ 28

/-- The window of a MAP_SHARE request, and its frame (R220, R227). -/
def shareFrame (s : State) (w off : Nat) : Option (ShareWin × Nat) :=
  match s.dev.layout with
  | none => none
  | some l => match l.shares[w]? with
    | none => none
    | some x => if x.valid ∧ off < x.frames then (segAt (galleryFrames s x.owner) (x.first + off)).map fun f => (x, f) else none

/-- Whether an entry is the owner's mapping of a share window: the reader's mappings carry W = 0 (R220). -/
def ownShare (e : Pte) : Bool := e.shared && e.w

/-- The whole check of a request, made before any page is changed (R219, R220, R684, R685). -/
def tmCheck (s : State) (p : Nat) (r : TmRun) : Status :=
  let lvl := regField s devPage 0x108 15 8
  let es := (tmPages r).map fun v => pteOf s p v
  let share := partLayout s p
  let bad (b : Bool) : Status := if b then .range else .ok
  if r.level > lvl then .levelUnsupported
  else if r.level = 0 ∨ r.op = 0 ∨ r.op > 8 ∨ r.tier = 3 then .range
  else if r.op = 7 then .ok
  else if r.op = 8 then
    match shareFrame s (r.arg % 32) (r.arg / 65536) with
    | none => .range
    | some (x, _) => bad ((pteOf s p r.vpn).v || !(x.readers.getLsbD p))
  else if r.count = 0 ∨ r.count > 4096 ∨ r.vpn + r.count > 2 ^ 28 then .range
  else
    let lpns := (List.range r.count).map fun i => r.arg + i
    match r.op with
    | 1 =>
      bad (es.any (·.v) || r.tier == 2 || decide ((if r.tier = 0 then freeGalleryCount s p else freeDriftCount s p) < r.count) ||
        (r.zc && decide (freeCodeCount s p < r.count)))
    | 2 => bad (es.any (·.v) || r.kv || lpns.any fun l => decide (l ≥ share.seamPages) || (namedLpns s p).contains l)
    | 3 => bad (es.any fun e => e.v && (ownShare e || e.hold != 0))
    | 4 =>
      let moving := es.filter fun e => tierRank e.home ≠ r.tier
      let needDrift := (moving.filter fun e => !(e.dv && e.home == .gallery)).length
      let needSeam := (moving.filter fun e => !e.sv).length
      bad (es.any (fun e => !e.v || e.shared) || (r.tier == 2 && es.any (·.kv)) ||
        (r.tier == 0 && decide (freeGalleryCount s p + (loosePages s p).length < moving.length)) ||
        (r.tier == 1 && decide (freeDriftCount s p < needDrift)) ||
        (r.tier == 2 && decide (share.seamPages < needSeam + (namedLpns s p).length)) ||
        (r.zc && r.tier != 2 && decide (freeCodeCount s p < (es.filter fun e => !e.zc).length)))
    | 5 => bad (es.any fun e => !e.v || e.shared)
    | _ =>
      bad (r.kv || es.any (fun e => !e.v || e.kv || e.home == .seam) ||
        (((List.range r.count).zip es).any fun x =>
          let l := r.arg + x.1
          decide (l ≥ share.seamPages) ||
            (partPtes s p).any fun q => decide (q.1 ≠ (r.vpn + x.1) % 2 ^ 28) && (q.2.home == .seam || q.2.sv) && q.2.sLpn == l))

/-- One page of a MAP_NEW (R220, R221, R492). -/
def tmMapNew (s : State) (p vpn : Nat) (r : TmRun) : State :=
  let kgen : BitVec 2 := BitVec.ofNat 2 (keysOf s p).gen
  let e0 : Pte := { noPte with v := true, w := r.w, kv := r.kv, gen := kgen }
  let (e1, u) := if r.zc then
      match freeCode s p with
      | some c => ({ e0 with zc := true, code := c }, takeCode s p c)
      | none => (e0, s)
    else (e0, s)
  match tierOf r.tier with
  | .gallery =>
    match freeGallery u p with
    | some f => setPte (zeroPage (takeGallery u f) p .gallery (galleryAddr f)) p vpn { e1 with home := .gallery, gFrame := f }
    | none => u
  | _ =>
    match freeDrift u p with
    | some (f, g) =>
      setPte (zeroPage (takeDrift u p f g) p .drift (driftAddr f)) p vpn { e1 with home := .drift, dFrame := f, dv := true }
    | none => u

/-- One page unmapped: its frames and its code block become free (R220, R222), and a move of it is abandoned at its switch (R247). -/
def unmapPage (s : State) (p vpn : Nat) : State :=
  let e := pteOf s p vpn
  if !e.v then s
  else
    let a := readLoose (match findMove s p vpn with
      | some m => setMove s { m with dead := true }
      | none => s) p vpn 0
    let u := dropCode (setPte a p vpn noPte) p e
    let w := if e.home = .gallery ∧ !e.shared then freeFrame u .gallery e.gFrame else u
    if e.dv ∨ e.home = .drift then freeFrame w .drift e.dFrame else w

/-- A page's home content written to a Seam logical page, whole and expanded (R216, R220 WRITEBACK, R239). -/
def writeBack (s : State) (p vpn lpn : Nat) : State :=
  let e := pteOf s p vpn
  let u := programPage (copyPage s p .seam (homeAddr p e) (seamAddr p lpn)) p lpn
  setPte (clearCodes u p e) p vpn { e with sv := true, sLpn := lpn }

def tmAdvance (s : State) (p : Nat) (r : TmRun) : State :=
  let r' := { r with next := r.next + 1, done := r.done + 1 }
  setRegField (setTm s p r') (partPage p) 0x414 31 16 r'.done

/-- One page of a MIGRATE, with the code block that it is to attach (R216, R220): at once, or by a move; it waits as R246 says. -/
def tmMove (s : State) (p vpn : Nat) (r : TmRun) (code : Option Nat) : State :=
  match beginMove s p vpn (tierOf r.tier) .migrate code with
  | none => match code with
    | some c => { s with mem := { s.mem with codeUsed := nlDel s.mem.codeUsed (p * 65536 + c) } }
    | none => s
  | some (true, v) =>
    let e := pteOf v p vpn
    tmAdvance (match code with
      | some c => setPte v p vpn { e with zc := true, code := c }
      | none => v) p r
  | some (false, v) => setTm v p { r with next := r.next + 1 }

/-- One page of a tier-map request, applied at a tick boundary (R214, R222, R684); the keeper takes no write in Brown-out (R542). -/
def tmPage (s : State) (p : Nat) (r : TmRun) : State :=
  let vpn := (r.vpn + r.next) % 2 ^ 28
  let e := pteOf s p vpn
  if r.op = 6 ∧ s.dev.power = 4 then s
  else match r.op with
  | 1 => tmAdvance (tmMapNew s p vpn r) p r
  | 2 =>
    let e1 : Pte := { noPte with v := true, home := .seam, w := r.w, sv := true, sLpn := r.arg + r.next, gen := BitVec.ofNat 2 (keysOf s p).gen }
    tmAdvance (setPte s p vpn e1) p r
  | 3 => tmAdvance (unmapPage s p vpn) p r
  | 4 =>
    let attach := r.zc && !e.zc && r.tier != 2
    match freeCode s p with
    | none => if attach then s else tmMove s p vpn r none
    | some c => if attach then tmMove (takeCode s p c) p vpn r (some c) else tmMove s p vpn r none
  | 5 => tmAdvance (setPte s p vpn { e with w := r.w }) p r
  | 6 =>
    let st := pageReadable s p vpn
    if st ≠ .ok then tmAdvance s p { r with status := st }
    else if pgState s (keeperPageOf (r.arg + r.next)) = 2 then
      tmAdvance (setFlag s (keeperPageOf (r.arg + r.next)) 2) p { r with status := .tierFault }
    else tmAdvance (writeBack s p vpn (r.arg + r.next)) p r
  | _ =>
    match shareFrame s (r.arg % 32) (r.arg / 65536) with
    | some (_, f) => tmAdvance (setPte s p r.vpn { noPte with v := true, home := .gallery, gFrame := f, shared := true }) p r
    | none => s

def tmTotal (r : TmRun) : Nat := if r.op = 8 then 1 else if r.op = 7 then 0 else r.count

/-- Up to n pages of a request at a tick boundary. -/
def tmStep (s : State) (p : Nat) : Nat → State
  | 0 => s
  | n + 1 =>
    match tmOf s p with
    | none => s
    | some r => if r.checked ∧ r.next < tmTotal r ∧ r.status ≠ .range then tmStep (tmPage s p r) p n else s

/-- A request that its check refuses ends with the reason and changes nothing (R220). -/
def tmRefuse (s : State) (p : Nat) (r : TmRun) (st : Status) : State :=
  setTm s p { r with checked := true, count := 0, op := 7, status := st }

/-- The step of a tier-map request of one kind: its check the first time, then the pages of this step at the next tick
boundary. -/
def tmRow (op p pages : Nat) (s : State) : Res :=
  .next (
    match tmOf s p with
    | none => s
    | some r =>
      if r.op ≠ op then s
      else if r.checked then atBoundary s (.tmPages p pages)
      else
        let st := tmCheck s p r
        if st = .ok then atBoundary (setTm s p { r with checked := true }) (.tmPages p pages)
        else tmRefuse s p r st)

/-- MAP_NEW (R220). -/
def execMapNew (p : Part) (pages : Nat) (s : State) : Res := tmRow 1 p pages s
/-- MAP_SEAM (R220). -/
def execMapSeam (p : Part) (pages : Nat) (s : State) : Res := tmRow 2 p pages s
/-- UNMAP (R220). -/
def execUnmap (p : Part) (pages : Nat) (s : State) : Res := tmRow 3 p pages s
/-- MIGRATE (R220). -/
def execMigrate (p : Part) (pages : Nat) (s : State) : Res := tmRow 4 p pages s
/-- PROTECT (R220). -/
def execProtect (p : Part) (pages : Nat) (s : State) : Res := tmRow 5 p pages s
/-- WRITEBACK (R220). -/
def execWriteback (p : Part) (pages : Nat) (s : State) : Res := tmRow 6 p pages s

/-- QUERY (R220, R684): it completes at the first tick boundary. -/
def execQuery (p : Part) (s : State) : Res :=
  .next (
    match tmOf s p with
    | none => s
    | some r =>
      if r.op ≠ 7 ∨ r.checked then s
      else
        let st := tmCheck s p r
        if st ≠ .ok then tmRefuse s p r st else atBoundary s (.tmQuery p))

/-- The entry of TM_VPN in TM_Q0 to TM_Q3, at the boundary. -/
def tmQuery (s : State) (p : Nat) : State :=
  match tmOf s p with
  | none => s
  | some r =>
    let ws := pteWords (pteOf s p r.vpn)
    setTm ((List.range 4).foldl (fun t i => setReg t (partPage p) (0x418 + 4 * i) (ws.getD i 0)) s) p { r with checked := true }

/-- MAP_SHARE (R220): one page of a share window, read-only. -/
def execMapShare (p : Part) (s : State) : Res := tmRow 8 p 1 s

/-- A request of an undefined operation, or one whose check has never been made, is refused when it is completed. -/
def tmFinal (s : State) (p : Nat) (r : TmRun) : Option Status :=
  if r.checked then (if r.done ≥ tmTotal r then some r.status else none)
  else
    let st := tmCheck s p r
    if st = .ok then none else some st

/-- TIER_MAP_COMPLETE (R684): the boundary after the last page has been changed completes the request. -/
def execTierMapComplete (p : Part) (s : State) : Res :=
  .next (
    match tmOf s p with
    | none => s
    | some r =>
      if ((tmFinal s p r).isSome ∨ s.atTick.contains (.tmQuery p)) ∧ !(s.atTick.contains (.tmDone p)) then atBoundary s (.tmDone p) else s)

/-- BUSY clears, the status stands in TM_STAT, and the completion goes out on vector 3. -/
def tmDone (s : State) (p : Nat) : State :=
  match tmOf s p with
  | none => s
  | some r => match tmFinal s p r with
    | none => s
    | some st =>
      let u := { s with mem := { s.mem with tm := smDel s.mem.tm p } }
      irq (setReg u (partPage p) 0x414 (setField (setField (regVal u (partPage p) 0x414) 8 8 0) 7 0 (statusCode st))) p 3
        (.service (partPage p))

/-! ### Hoist -/

def setPf (s : State) (pf : Nat) (x : Prefetcher) : State := { s with mem := { s.mem with pf := smPut s.mem.pf pf x } }
def pfOf (s : State) (pf : Nat) : Option Prefetcher := smFind s.mem.pf pf

/-- HS_PF_STATi (R260). -/
def pfStat (s : State) (pf : Nat) : Word :=
  match pfOf s pf with
  | none => 0
  | some x => BitVec.ofNat 32 (2 ^ 31 + x.kind * 2 ^ 29 + x.waitFrame.toNat * 2 ^ 28 + x.part * 2 ^ 24 + x.fault * 2 ^ 16 + x.fetched % 65536)

/-- The first page of unit j (R243): by stride, or from the unit list. -/
def unitBase (s : State) (x : Prefetcher) (j : Nat) : Nat :=
  if !x.kvList.isEmpty then x.kvList.getD j 0
  else if x.kind = 2 then (readWord s x.part (x.listAddr + 4 * j)).toNat % 2 ^ 28
  else (x.base + j * x.stride.toNat) % 2 ^ 28

def unitVpns (s : State) (x : Prefetcher) (j : Nat) : List Nat :=
  (List.range x.unitPages).map fun i => (unitBase s x j + i) % 2 ^ 28

/-- Signed 32-bit progress of a Tally since job start (R244). -/
def progress (s : State) (t : Nat) (base : Word) : Int := (tallyVal s t - base).toInt

/-- HOLD of a page raised or lowered (R246). -/
def addHold (s : State) (n vpn : Nat) (up : Bool) : State :=
  let e := pteOf s n vpn
  if !e.v then s else setPte s n vpn { e with hold := if up then e.hold + 1 else e.hold - 1 }

def streamMoving (s : State) (pf j : Nat) : Bool := s.mem.moves.any fun m => m.who == .stream pf j

/-- Units that have become ready, in order, each advancing READY_TALLY (R244); at most k of them. -/
def readyUnits (s : State) (pf : Nat) : Nat → State
  | 0 => s
  | k + 1 =>
    match pfOf s pf with
    | none => s
    | some x =>
      if x.readied < x.fetched ∧ !(streamMoving s pf x.readied) then
        let t := setPf s pf { x with readied := x.readied + 1 }
        readyUnits (if x.kvList.isEmpty then tallyAdd t x.ready 1 else t) pf k
      else s

/-- A page of a unit that cannot be fetched (R248): the prefetcher records why, and its half counts it. -/
def fetchFailed (s : State) (pf : Nat) (st : Status) : State :=
  let t := match pfOf s pf with
    | some x => setPf s pf { x with fault := statusCode st }
    | none => s
  ctrAdd (setFlag t (pfPage pf) 0) (pfPage pf) 4 1

/-- The pages of a unit fetched one after another; none where a frame is wanting. -/
def fetchPages (pf j : Nat) (t : Tier) (n : Nat) : State → List Nat → Option State
  | s, [] => some s
  | s, v :: vs =>
    if !(pteOf s n v).v then fetchPages pf j t n (fetchFailed s pf .range) vs
    else
      match beginMove s n v t (.stream pf j) none with
      | none => none
      | some (_, w) => fetchPages pf j t n (addHold w n v true) vs

/-- Whether a stream may fetch unit j now (R244, R246, R255): the lead and the list allow it, and no page of it is under move or held
by 16,383. -/
def mayFetch (s : State) (pf j : Nat) (x : Prefetcher) : Bool :=
  let d : Int := if x.kvList.isEmpty then progress s x.done x.d0 else (x.released : Int)
  let listed := x.kind ≠ 2 ∨ ¬ x.kvList.isEmpty ∨ progress s x.list x.l0 ≥ (j : Int) + 1
  devRunning s && x.kind != 3 && decide (j < x.units ∧ (j : Int) ≤ d + x.lead ∧ listed) && pgState s (pfPage pf) != 0 &&
    !((unitVpns s x j).any fun v => (pteOf s x.part v).mig || (findMove s x.part v).isSome || decide ((pteOf s x.part v).hold ≥ 16383))

/-- HOIST_FETCH (R244 to R246): the next unit of a stream, once the lead and the list allow it; its pages are changed at the next
boundary (R214). -/
def execHoistFetch (pf : Fin 256) (s : State) : Res :=
  .next (
    match pfOf s pf with
    | none => s
    | some x => if mayFetch s pf (x.fetched + s.atTick.count (.hoistFetch pf)) x then atBoundary s (.hoistFetch pf) else s)

/-- The fetch at the boundary; it waits for frames (R245). -/
def hoistFetch (s : State) (pf : Nat) : State :=
  match pfOf s pf with
  | none => s
  | some x =>
    if !(mayFetch s pf x.fetched x) then s
    else
      match fetchPages pf x.fetched x.dest x.part s (unitVpns s x x.fetched) with
      | none => ctrAdd (setPf s pf { x with waitFrame := true }) (pfPage pf) 5 1
      | some u =>
        let y := (pfOf u pf).getD x
        let w := readyUnits (setPf u pf { y with fetched := x.fetched + 1, waitFrame := false }) pf (x.units + 1)
        match x.core, x.kvList with
        | some k, _ :: _ => ctrAdd w (corePage k) 9 1
        | _, _ => w

/-- HOIST_RELEASE (R244, R289): a unit that its consumer has done, or has passed where a command's own list is run; its pages' HOLD falls, and at 0 they drop to a lower copy
at the next boundary. -/
def execHoistRelease (pf : Fin 256) (s : State) : Res :=
  .next (
    match pfOf s pf with
    | none => s
    | some x =>
      let j := x.released
      if x.kind = 3 ∨ ¬ x.releaseEn ∨ j ≥ x.fetched ∨ (x.kvList.isEmpty ∧ progress s x.done x.d0 < (j : Int) + 1) then s
      else
        (unitVpns s x j).foldl (fun t v => atBoundary t (.pageRelease pf x.part v))
          (setPf s pf { x with released := j + 1 }))

/-- One page's release at the boundary (R244). -/
def pageRelease (s : State) (pf n vpn : Nat) : State :=
  let u := addHold s n vpn false
  if (pteOf u n vpn).hold = 0 ∧ (pteOf u n vpn).v ∧ !(pteOf u n vpn).mig then dropToCopy u n vpn (pfPage pf) else u

/-- What follows a move's end for the one who asked for it: a unit may be ready (also after a failure, R248); a
tier-map request counts the page. -/
def moveDone (s : State) (m : Move) (st : Status) : State :=
  match m.who with
  | .stream pf _ =>
    match pfOf s pf with
    | none => s
    | some x =>
      let u := if st = .ok then s else setPf s pf { x with fault := statusCode st }
      readyUnits u pf (x.units + 1)
  | .migrate =>
    match tmOf s m.part with
    | none => s
    | some r =>
      let r' := { r with done := r.done + 1, status := if st = .ok then r.status else st }
      setRegField (setTm s m.part r') (partPage m.part) 0x414 31 16 r'.done
  | .stride pf =>
    match pfOf s pf with
    | none => s
    | some x => if st = .ok then s else setPf s pf { x with fault := statusCode st }
  | .kvSwap | .digest => s

/-- A move that failed (R248): the page stays where it was, with its entry unchanged. -/
def moveFailed (s : State) (m : Move) (st : Status) : State :=
  let hp := movePage m.who m.part
  tagMoves (moveDone (ctrAdd (setFlag (cancelMove s m) hp 0) hp 4 1) m st)

/-- How the target of a move takes it: its blocks, and a keeper that takes writes (R240, R254). -/
def targetStatus (s : State) (m : Move) : Status :=
  match m.dest with
  | .gallery => tierPageStatus s (galleryPageOf m.frame)
  | .drift => groupStatus s (m.frame / 15360)
  | .seam => lpnWriteStatus s m.frame

/-- How a move ends (R248, R253, R255): with the first failure of its requests, else with the one reported, else as Hoist, the source and
the target stand. -/
def moveStatus (s : State) (m : Move) (st : Status) : Status :=
  firstBad [m.fault.getD .ok, st, if pgState s (movePage m.who m.part) = 3 then .tierFault else .ok, pageReadable s m.part m.vpn, targetStatus s m]

/-- HOIST_MOVE_COMPLETE (R247, R248): a verified copy completes the move's requests and switches the entry at the next boundary. A move
into a DEGRADED keeper sets READ_ONLY (R240); one that waits for its tags has no copy, and the keeper programs nothing in Brown-out. -/
def execHoistMoveComplete (p : Part) (vpn : BitVec 28) (st : Status) (s : State) : Res :=
  .next (
    match findMove s p vpn.toNat with
    | none => s
    | some m =>
      let act : BAct := .moveEnd p vpn.toNat
      if s.atTick.contains act then s
      else if m.dead then atBoundary s act
      else if !m.tagged ∨ (m.dest = .seam ∧ s.dev.power = 4) then s
      else
        let st' := moveStatus s m st
        if st' = .ok then
          let t := ((List.range 16).zip (moveTags s p vpn.toNat)).foldl (fun t x => countServed t x.2.2 x.1) s
          atBoundary (releaseMoveTags t p vpn.toNat) act
        else
          let t := if m.dest = .seam ∧ pgState s (keeperPageOf m.frame) = 2 then setFlag s (keeperPageOf m.frame) 2 else s
          moveFailed t m st')

/-- The prefetchers that serve stride detection, on a stack's half (R242). -/
def stridePfs (k : Stack) : List Nat := (List.range 16).map fun i => (match k with | .w => 112 | .e => 240) + i

/-- Pages ahead of a stride moved into Gallery as loose pages at a boundary (R249); one under move waits for that move (R246), and one
that finds no frame waits for the next boundary of the stride. -/
def strideFetch (s : State) (pf n : Nat) (vs : List Nat) : State :=
  let all := (match pfOf s pf with
    | some x => x.waits
    | none => []) ++ vs
  let r := all.foldl (fun (acc : List Nat × State) v =>
    let e := pteOf acc.2 n v
    if !e.v ∨ e.home = .gallery ∨ acc.1.contains v then acc
    else match beginMove acc.2 n v .gallery (.stride pf) none with
      | some (_, u) => (acc.1, u)
      | none => (acc.1 ++ [v], acc.2)) ([], s)
  match pfOf r.2 pf with
  | some x => setPf r.2 pf { x with waits := r.1 }
  | none => r.2

/-- The switch of a move at the boundary, with the counters of R261; an abandoned one counts nothing. What waited for its tags or for its
end goes on. -/
def moveEnd (s : State) (p vpn : Nat) : State :=
  match findMove s p vpn with
  | none => s
  | some m =>
    let e := pteOf s p vpn
    let slot := if tierRank m.dest < tierRank e.home then 1 else 2
    let u := switchMove s m
    let v := moveDone (if m.dead ∨ !e.v then u else ctrAdd u (movePage m.who p) slot 1) m .ok
    (v.mem.pf.filter fun x => x.2.kind == 3 && x.2.part == p && !x.2.waits.isEmpty).foldl (fun t x => strideFetch t x.1 p []) (tagMoves v)

/-- The next k pages of a stride after a page, of 28-bit page numbers. -/
def aheadVpns (last : Nat) (stride : Int) (k : Nat) : List Nat :=
  (List.range k).map fun (i : Nat) => (((last : Int) + stride * ((i : Int) + 1)) % (2 ^ 28 : Int)).toNat

/-- STRIDE_DETECT (R249): three equal non-zero strides of at most 64 pages start a free stride prefetcher, 8 strides
ahead. -/
def execStrideDetect (k : CoreId) (s : State) : Res :=
  .next (
    let w := smGet (⟨16, 0, 0, 0⟩ : StrideWatch) s.mem.watch (coreCode k)
    let ok := devRunning s ∧ w.part < 16 ∧ strideOn s w.part ∧ w.times ≥ 3 ∧ w.stride ≠ 0 ∧ w.stride.natAbs ≤ 64 ∧
      ¬ (s.mem.pf.any fun p => p.2.core == some k)
    if ¬ ok then s
    else
      match (stridePfs (coreStack k)).find? fun i => (pfOf s i).isNone with
      | none => s
      | some pf =>
        let x : Prefetcher :=
          { part := w.part, job := 65536, kind := 3, dest := .gallery, releaseEn := false, base := w.last, units := 256
            unitPages := 1, stride := w.stride, ready := 0, done := 0, list := 0, listAddr := 0, lead := 8, d0 := 0, l0 := 0
            fetched := 0, readied := 0, released := 0, waitFrame := false, fault := 0, core := some k, kvList := [], moved := 8, missed := 0, waits := [] }
        ctrAdd (atBoundary (setPf s pf x) (.strideFetch pf w.part (aheadVpns w.last w.stride 8))) (pfPage pf) 6 1)

/-- A read of a core that a stride prefetcher serves (R249): the next page of the stride moves one more page, 8 strides
ahead; any other page leaves the stride. The prefetcher stops after 256 pages or 64 reads that left the stride. -/
def strideFollow (s : State) (k : CoreId) (vpn : Nat) : State :=
  match s.mem.pf.find? fun p => p.2.core == some k with
  | none => s
  | some (pf, x) =>
    let inStride := decide ((vpn : Int) = ((x.base : Int) + x.stride) % (2 ^ 28 : Int))
    let u :=
      if vpn = x.base then s
      else if inStride then
        atBoundary (setPf s pf { x with base := vpn, moved := x.moved + 1 }) (.strideFetch pf x.part ((aheadVpns vpn x.stride 8).drop 7))
      else setPf s pf { x with missed := x.missed + 1 }
    match pfOf u pf with
    | none => u
    | some y => if y.moved ≥ 256 ∨ y.missed ≥ 64 then { u with mem := { u.mem with pf := smDel u.mem.pf pf } } else u

/-- Whether a command's writes may go to the pages of a KV pool (R277): those of KV_APPEND on the append stream. -/
def kvWriter (k : CoreId) (stream : Nat) (r : CmdRun) : Bool := k.cls == .a && stream == 1 && field (r.offer.desc.getD 0 0) 23 16 == 2

/-- TIER_TAG_GRANT (R190 to R193): a waiting request of the command in RUN, within one page, gets its tag; without a free tag it goes on
waiting. The request is translated now (R214); a write to a page under move is held until the switch (R247). -/
def execTierTagGrant (k : CoreId) (stream : Fin 2) (addr : Nat) (len : Fin 4097) (write : Bool) (s : State) : Res :=
  .next (
    match (coreSt s k stream).cur with
    | none => s
    | some r =>
      let part := r.offer.part
      let vpn := vpnOf addr
      if streamState s k stream ≠ cRun ∨ len.val = 0 ∨ addr % pageBytes + len.val > pageBytes then s
      else
      match grantTag s k part with
      | none => s
      | some t =>
        let e := pteOf s part vpn
        let st := match translate s part addr write true (kvWriter k stream r) with
          | .ok _ => Status.ok
          | .error x => x
        let rec_ : TagRec :=
          { holder := .core k stream, live := true, held := write && e.mig && st == .ok, part := part, write := write, addr := addr, len := len
            tier := e.home, frame := homeFrame e, issue := now s, st := st }
        let u := { s with mem := { s.mem with tags := smPut s.mem.tags t rec_ } }
        if write || !e.v then u
        else
          let v := if e.loose then readLoose u part vpn (now s) else u
          if !(strideOn s part) then v else strideFollow (if e.home != .gallery then watchRead v k part vpn else v) k vpn)

/-! ### Gallery scrub and the Seam keeper -/

/-- GALLERY_SCRUB (R228): one line read by the scrub engine of a half, while GL_SCRUB enables it. -/
def execGalleryScrub (half : Stack) (frame : Fin 16384) (line : Fin 512) (err : EccResult) (s : State) : Res :=
  let h := match half with | .w => 0 | .e => 1
  let p : Page := ⟨.gallery, h⟩
  let f := 16384 * h + frame.val
  .next (
    if !(regBit s p 0x108 0) then s
    else
      let t := ctrAdd s p 6 1
      match err with
      | .clean => t
      | .corrected => ctrAdd (setFlag t p 0) p 3 1
      | .uncorrectable =>
        let u := ctrAdd (setFlag t p 1) p 4 1
        let v := { u with mem := { u.mem with galBad := nlAdd u.mem.galBad (512 * f + line.val) } }
        rcPut v p 0x10C (BitVec.ofNat 32 (f % 2 ^ 15 + line.val * 2 ^ 15 + 2 ^ 24)))

/-- GARBAGE_COLLECTION (R235): it starts below 3 % of free blocks and stops above 5 %; its blocks are emptied at the next boundary. -/
def execGarbageCollection (s : Stack) (freed : Nat) (st : State) : Res :=
  let k := stackNo s
  .next (
    if collects st k then atBoundary st (.gcEnd k freed) else { st with mem := { st.mem with keeperGc := setAt st.mem.keeperGc k false } })

/-- READ_DISTURB_RELOCATE (R237): a block whose reads have reached its threshold awaits relocation. -/
def execReadDisturbRelocate (s : Stack) (block : BitVec 24) (st : State) : Res :=
  let k := stackNo s
  let w := wearOf st k block.toNat
  .next (if w.reloc ∨ w.bad ∨ w.reads = 0 ∨ w.reads < readThreshold st k w then st else awaitReloc st k block.toNat false)

/-- RELOCATION_COMPLETE (R238, R240): the block's units have been copied and verified; the map switches at the next boundary, and the block
is erased once the reads translated before have completed. `ok` says whether its erase succeeds. -/
def execRelocationComplete (s : Stack) (block : BitVec 24) (ok : Bool) (st : State) : Res :=
  let k := stackNo s
  .next (if (wearOf st k block.toNat).reloc && !(erasing st k block.toNat) then atBoundary st (.relocEnd k block.toNat ok) else st)

/-! ### Training -/

/-- Whether a Drift channel of a controller holds a mapped frame: a frame is striped over all channels of its group
(R229). -/
def driftHeld (s : State) (k : Nat) : Bool :=
  s.mem.ptes.any fun p => p.2.v && (p.2.home == .drift || p.2.dv) && p.2.dFrame / 15360 == k / 4

/-- TRAINING_COMPLETE (R255, R258): a channel's training passes or fails; the controller leaves INIT when neither
channel trains. -/
def execTrainingComplete (p : Page) (ch : Fin 2) (pass : Bool) (s : State) : Res :=
  .next (
    match p.cls with
    | .drift =>
      let lo := 2 * ch.val
      if p.inst ≥ 48 ∨ regField s p 0x104 (lo + 1) lo ≠ 0 then s
      else
        let t := ctrAdd (setRegField s p 0x104 (lo + 1) lo (if pass then 1 else 2)) p 7 1
        let u := if pass then t else setFlag t p 3
        let a := regField u p 0x104 1 0
        let b := regField u p 0x104 3 2
        if a = 0 ∨ b = 0 then u
        else setPgState u p (if a = 1 ∧ b = 1 then 1 else if a = 2 ∧ b = 2 then 3 else 2)
    | .seam =>
      if p.inst ≥ 16 ∨ pgState s p ≠ 0 then s
      else if pass then setPgState s p 1 else setPgState (setFlag s p 3) p 3
    | .gallery | .keeper | .hoist =>
      if p.inst ≥ 2 ∨ pgState s p ≠ 0 then s else setPgState s p (if pass then 1 else 3)
    | _ => s)

/-- A Drift channel's retraining begins (R256). -/
def driftRetrain (s : State) (k : Nat) (chs : Nat) : State :=
  let p : Page := ⟨.drift, k⟩
  let t := if chs % 2 = 1 then setRegField s p 0x104 1 0 0 else s
  let u := if chs / 2 % 2 = 1 then setRegField t p 0x104 3 2 0 else t
  setPgState u p 0

/-- TIER_CHANNEL_LOST (R255): a channel fails in service. A Drift controller goes to DEGRADED with one channel failed
and to FAILED with both; a Seam channel goes to FAILED. -/
def execTierChannelLost (p : Page) (ch : Fin 2) (s : State) : Res :=
  .next (
    match p.cls with
    | .drift =>
      if p.inst ≥ 48 ∨ pgState s p = 0 ∨ pgState s p = 3 then s
      else
        let t := setRegField s p 0x104 (2 * ch.val + 1) (2 * ch.val) 2
        setPgState t p (if regField t p 0x104 3 0 = 10 then 3 else 2)
    | .seam => if p.inst ≥ 16 ∨ pgState s p = 0 then s else setPgState s p 3
    | _ => s)

/-- HS_BUSY_PF (R260). -/
def busyPf (s : State) (h : Nat) : Nat := (smRange s.mem.pf (128 * h) (128 * h + 128)).length

/-- GL_FREE (R257): the frames of a half that no partition's share holds. -/
def unassignedFrames (s : State) (h : Nat) : Nat :=
  match s.dev.layout with
  | none => 16384
  | some l =>
    16384 - ((List.range 16).map fun n =>
      ((galleryShare l n).map fun g => min (g.1 + g.2) (16384 * (h + 1)) - max g.1 (16384 * h)).sum).sum

/-- The registers of the tier pages that show the machine's stores (R257 to R260). -/
def tierView (s : State) (p : Page) (off : Nat) : Option Word :=
  match p.cls with
  | .gallery => if off = 0x104 then some (BitVec.ofNat 32 (unassignedFrames s p.inst)) else none
  | .keeper =>
    if off = 0x104 then some (BitVec.ofNat 32 (freeBlocks s p.inst))
    else if off = 0x108 then some (BitVec.ofNat 32 (spareBlocks s p.inst))
    else if off = 0x10C then some (wearWord s p.inst)
    else none
  | .seam => if off = 0x100 then some (BitVec.ofNat 32 (planeBlocks + blockUnits * 2 ^ 13 + 3 * 2 ^ 25 + 1 * 2 ^ 28)) else none
  | .hoist =>
    if off = 0x10C then some (BitVec.ofNat 32 (busyPf s p.inst))
    else if 0x400 ≤ off ∧ off < 0x600 then some (pfStat s (128 * p.inst + (off - 0x400) / 4))
    else none
  | _ => none

/-- RANGE, STATE_ILLEGAL and BUSY of a write to a tier page or a tier-map register (R218, R223, R256, R257, R259,
R260). -/
def tierCheck (s : State) (p : Page) (off : Nat) (v : Word) : Option Status :=
  let st := pgState s p
  match p.cls with
  | .gallery =>
    if off = 0x108 then if field v 31 16 = 0 then some .range else if st = 3 then some .stateIllegal else none else none
  | .drift =>
    if off = 0x108 then
      if field v 1 0 = 0 then none else if st = 0 ∨ driftHeld s p.inst then some .busy else none
    else none
  | .seam => if off = 0x108 then if bit v 0 ∧ (st = 0 ∨ seamHeld s p.inst) then some .busy else none else none
  | .keeper =>
    if off = 0x110 then
      if v.toNat < 50000 ∨ v.toNat > 400000 then some .range else if st = 3 then some .stateIllegal else none
    else none
  | .hoist =>
    if p.inst ≠ 0 then none
    else if off = 0x104 then if v.toNat < 10 then some .range else none
    else if off = 0x108 then if v.toNat < 1000 ∨ v.toNat > 1000000 then some .range else none
    else none
  | .part =>
    if 0x400 ≤ off ∧ off ≤ 0x410 then
      if off = 0x400 ∧ field v 5 4 = 3 then some .range
      else if off = 0x408 ∧ (v = 0 ∨ v.toNat > 4096) then some .range
      else if (tmOf s p.inst).isSome ∧ (off ≠ 0x410 ∨ bit v 0) then some .busy
      else none
    else none
  | _ => none

/-- The effect of an accepted write on a tier page or a tier-map register. -/
def tierAct (s : State) (p : Page) (off : Nat) (v : Word) : State :=
  match p.cls with
  | .drift => if off = 0x108 ∧ field v 1 0 ≠ 0 then driftRetrain s p.inst (field v 1 0) else s
  | .seam => if off = 0x108 ∧ bit v 0 then setPgState s p 0 else s
  | .part => if off = 0x410 ∧ bit v 0 then tmGo s p.inst else s
  | _ => s

end Sys2Proof.Machine
end

