-- ==== Sys2Proof/Machine/Kv.lean ====
section
/-! DEFINITION. The KV cache (chapter 07): pools, page records and sequence tables (R265 to R269), allocation and swaps
(R281, R288), the pin pass (R275), the rows of KV_APPEND (R279), FORK, FREE and QUERY (R283, R284, R307), reclaim (R287)
and the delta records of a pair (R293, R294). -/

namespace Sys2Proof.Machine

/-! ### Pools -/

/-- A pool as its registers configure it (R305, R306). -/
structure PoolCfg where
  valid  : Bool
  base   : Nat
  size   : Nat
  d      : Nat
  bf16   : Bool
  limit  : Nat
  bmax   : Nat
  heads  : Nat
  layers : Nat
  deriving DecidableEq, Repr

def kvReg (p pool off : Nat) : Nat := 0x480 + 0x20 * pool + off + 0 * p

def poolCfgOf (cfg base size geom : Word) : PoolCfg :=
  { valid := bit cfg 31, base := base.toNat, size := size.toNat, d := 64 * 2 ^ field cfg 1 0, bf16 := bit cfg 3
    limit := field cfg 30 16, bmax := field geom 31 21 + 1, heads := field geom 20 13 + 1, layers := field geom 12 5 + 1 }

def poolCfg (s : State) (p pool : Nat) : PoolCfg :=
  let r (o : Nat) : Word := regVal s (partPage p) (kvReg p pool o)
  poolCfgOf (r 0) (r 4) (r 8) (r 12)

def aPoolOf (c : PoolCfg) : APool := ⟨c.d, c.bf16, c.bmax⟩

/-- The bytes of a slot (R265) and how many lie in a device page. -/
def slotBytes (c : PoolCfg) : Nat := 128 * c.d * (if c.bf16 then 2 else 1)
def slotsPerPage (c : PoolCfg) : Nat := pageBytes / slotBytes c
def slotCount (c : PoolCfg) : Nat := c.size * slotsPerPage c

/-- The device-virtual address of a slot (R266). -/
def slotAddr (c : PoolCfg) (k : Nat) : Nat := (c.base + k / slotsPerPage c) * pageBytes + k % slotsPerPage c * slotBytes c

/-- The address of a K row, or of a V row, of a slot (R265). -/
def kvRowAddr (c : PoolCfg) (k row : Nat) (v : Bool) : Nat :=
  slotAddr c k + (row + if v then 64 else 0) * (c.d * if c.bf16 then 2 else 1)

/-- The bytes of the KV area that a pool's records and table take (R267, R269). -/
def kvAreaNeed (c : PoolCfg) : Nat := 8 * slotCount c + 4 * 512 * c.layers * c.heads * c.bmax

/-! ### Records and tables -/

def noRec : KvRec := ⟨0, 0, 0, 0, 0, 0⟩
def poolNo (p pool : Nat) : Nat := p * 4 + pool
def recKey (p pool k : Nat) : Nat := poolNo p pool * 2 ^ 24 + k
def kvRec (s : State) (p pool k : Nat) : KvRec := smGet noRec s.kv.recs (recKey p pool k)
def setRec (s : State) (p pool k : Nat) (r : KvRec) : State :=
  { s with kv := { s.kv with recs := smSet noRec s.kv.recs (recKey p pool k) r } }

def kvEmpty : Nat := 0xFFFFFFFF
def seqKey (p pool seq layer head block : Nat) : Nat := (((poolNo p pool * 512 + seq) * 256 + layer) * 256 + head) * 2048 + block
def seqEntry (s : State) (p pool seq layer head block : Nat) : Nat := smGet kvEmpty s.kv.seqt (seqKey p pool seq layer head block)
def setSeqEntry (s : State) (key e : Nat) : State := { s with kv := { s.kv with seqt := smSet kvEmpty s.kv.seqt key e } }

/-- KPN and GEN8 of an entry (R269). -/
def entKpn (e : Nat) : Nat := e % 2 ^ 24
def entGen (e : Nat) : Nat := e / 2 ^ 24
def entIsEmpty (e : Nat) : Bool := entKpn e == 0xFFFFFF
def mkEntry (k gen : Nat) : Nat := gen % 256 * 2 ^ 24 + k

/-- FREE slots of a pool (KV_PFREE). -/
def freeSlots (s : State) (p pool : Nat) : Nat :=
  slotCount (poolCfg s p pool) - ((smRange s.kv.recs (recKey p pool 0) (recKey p (pool + 1) 0)).filter fun x => x.2.st ≠ 0).length

/-- The device pages of a lane, by their number in the pool (R266). -/
def lanePages (c : PoolCfg) (lane : Nat) : List Nat := (List.range (c.size / 8)).map fun i => 8 * i + lane
def pageSlots (c : PoolCfg) (dp : Nat) : List Nat := (List.range (slotsPerPage c)).map fun j => dp * slotsPerPage c + j
def pageHome (s : State) (p : Nat) (c : PoolCfg) (dp : Nat) : Tier := (pteOf s p ((c.base + dp) % 2 ^ 28)).home

/-- The lowest FREE slot of a lane in the device pages of one home. -/
def freeSlotIn (s : State) (p pool lane : Nat) (t : Tier) : Option Nat :=
  let c := poolCfg s p pool
  (lanePages c lane).findSome? fun dp =>
    if pageHome s p c dp = t then (pageSlots c dp).find? fun k => (kvRec s p pool k).st == 0 else none

/-- ALLOC (R281): Gallery-homed pages first, then Drift-homed ones. -/
def findSlot (s : State) (p pool lane : Nat) : Option Nat :=
  match freeSlotIn s p pool lane .gallery with
  | some k => some k
  | none => freeSlotIn s p pool lane .drift

def takeSlot (s : State) (p pool k : Nat) : State :=
  setRec s p pool k { kvRec s p pool k with st := 1, fill := 0, ref := 0, filled := 0 }

/-! ### Swaps (R288) -/

def swapMoving (s : State) (p : Nat) (c : PoolCfg) (lane : Nat) : Bool :=
  s.mem.moves.any fun m => m.part == p && m.who == .kvSwap && decide (c.base ≤ m.vpn ∧ m.vpn < c.base + c.size) &&
    (m.vpn - c.base) % 8 == lane

/-- The tick at which the last slot of a page filled; FREE slots do not count. -/
def pageFilledAt (s : State) (p pool : Nat) (c : PoolCfg) (dp : Nat) : Nat :=
  (pageSlots c dp).foldl (fun m k => max m (kvRec s p pool k).filled) 0

/-- The page that a swap moves down, and the page that it moves up (R288). -/
def swapDownPage (s : State) (p pool lane : Nat) : Option Nat :=
  let c := poolCfg s p pool
  leastBy (pageFilledAt s p pool c) ((lanePages c lane).filter fun dp =>
    let e := pteOf s p ((c.base + dp) % 2 ^ 28)
    e.home == .gallery && e.hold == 0 && !e.mig &&
      (pageSlots c dp).all fun k => let r := kvRec s p pool k; r.st == 0 || r.fill == 64)

def freeInPage (s : State) (p pool : Nat) (c : PoolCfg) (dp : Nat) : Nat :=
  ((pageSlots c dp).filter fun k => (kvRec s p pool k).st == 0).length

def swapUpPage (s : State) (p pool lane : Nat) : Option Nat :=
  let c := poolCfg s p pool
  leastBy (fun dp => slotsPerPage c - freeInPage s p pool c dp) ((lanePages c lane).filter fun dp =>
    let e := pteOf s p ((c.base + dp) % 2 ^ 28)
    e.v && e.home == .drift && !e.mig)

/-- The device pages of a lane that are homed in Gallery, or are on their way there. -/
def laneGallery (s : State) (p pool lane : Nat) : Nat :=
  let c := poolCfg s p pool
  ((lanePages c lane).filter fun dp =>
    let vpn := (c.base + dp) % 2 ^ 28
    pageHome s p c dp == .gallery || (findMove s p vpn).any fun m => m.dest == .gallery).length

/-- The second half of a swap: the lane keeps at most GAL_LIMIT pages in Gallery. -/
def swapUp (s : State) (p pool lane : Nat) : State :=
  let c := poolCfg s p pool
  match (if laneGallery s p pool lane < c.limit then swapUpPage s p pool lane else none) with
  | some dp => match beginMove s p ((c.base + dp) % 2 ^ 28) .gallery .kvSwap none with
    | some (_, u) => u
    | none => s
  | none => s

/-- At the boundary after an ALLOC: a lane without a FREE slot in a Gallery-homed page starts one swap. Its page moves up once the one
that moves down has left Gallery. -/
def swapCheck (s : State) (p pool lane : Nat) : State :=
  let c := poolCfg s p pool
  if (freeSlotIn s p pool lane .gallery).isSome ∨ swapMoving s p c lane then s
  else
    match swapDownPage s p pool lane with
    | none => s
    | some dp =>
      match beginMove s p ((c.base + dp) % 2 ^ 28) .drift .kvSwap none with
      | none => s
      | some (true, u) => swapUp u p pool lane
      | some (false, u) => u

/-- What follows the switch of a swap's move down (R288 step 2). -/
def swapAfter (s : State) (m : Move) : State :=
  if m.who ≠ .kvSwap ∨ m.dest ≠ .drift ∨ m.dead then s
  else
    match (List.range 4).find? fun i =>
        let c := poolCfg s m.part i
        c.valid && decide (c.base ≤ m.vpn ∧ m.vpn < c.base + c.size) with
    | none => s
    | some i => swapUp s m.part i ((m.vpn - (poolCfg s m.part i).base) % 8)

/-! ### The pin pass (R275) -/

/-- The length table of a command, with the status of reading it (R270). -/
def lenTableStatus (s : State) (p : Nat) (a : ADesc) : Status := readRange s p (a.lenAddr + 8 * a.entryFirst) (8 * a.entries)
def lenTable (s : State) (p : Nat) (a : ADesc) (bmax : Nat) : List LenEntry :=
  (List.range a.entries).map fun i =>
    let o := a.lenAddr + 8 * (a.entryFirst + i)
    lenEntry (readWord s p o) (readWord s p (o + 4)) bmax

/-- What stops a pin pass or an append: the status, POS_GAP, and the PG_ERR flag it sets. -/
structure KvStop where
  status : Status
  posGap : Bool
  flag   : Option Nat
  deriving DecidableEq, Repr

/-- The pin pass over pages (sequence, block, last visible offset): the slots pinned with their FILL, and what stopped
it. -/
def pinPages (p : Nat) (a : ADesc) : State → List (Nat × Nat × Nat) → List (Nat × Nat) → State × List (Nat × Nat) × Option KvStop
  | s, [], acc => (s, acc, none)
  | s, (seq, b, off) :: rest, acc =>
    let e := seqEntry s p a.pool seq a.layer a.head b
    if entIsEmpty e then (s, acc, some ⟨.range, true, none⟩)
    else
      let r := kvRec s p a.pool (entKpn e)
      if r.gen % 256 ≠ entGen e then (s, acc, some ⟨.integrity, false, some 4⟩)
      else
        let u := setRec s p a.pool (entKpn e) { r with pin := r.pin + 1 }
        let acc' := acc ++ [(entKpn e, r.fill)]
        if off ≥ r.fill then (u, acc', some ⟨.range, true, none⟩) else pinPages p a u rest acc'

/-- The pages of a command in the order of its pin pass. -/
def pinList (a : ADesc) (es : List LenEntry) : List (Nat × Nat × Nat) :=
  es.flatMap fun e =>
    let hi := (visible a e (e.qTokens - 1)).2
    (entryPages a e).map fun b => (e.seq, b, if hi ≥ 64 * (b + 1) then 63 else hi - 1 - 64 * b)

/-- The pins of a command released (R275). -/
def unpin (s : State) (p pool : Nat) (pins : List (Nat × Nat)) : State :=
  pins.foldl (fun t x => let r := kvRec t p pool x.1; setRec t p pool x.1 { r with pin := r.pin - 1 }) s

/-- Elements of K and V of a command's pinned pages. -/
def pinnedElem (s : State) (p : Nat) (a : ADesc) (es : List LenEntry) (pins : List (Nat × Nat)) (v : Bool) (e pos d : Nat) : FpVal :=
  let c := poolCfg s p a.pool
  let before := ((es.take e).map fun x => (entryPages a x).length).sum
  let slot := (pins.getD (before + (pos / 64 - a.kpFirst)) (0, 0)).1
  tensorElem (fun i => readByte s p i) (poolFmt (aPoolOf c)) (kvRowAddr c slot (pos % 64) v) c.d 0 d

/-- The status of reading the rows below FILL of every pinned slot. -/
def pinnedStatus (s : State) (p : Nat) (a : ADesc) (pins : List (Nat × Nat)) : Status :=
  let c := poolCfg s p a.pool
  firstBad (pins.flatMap fun x =>
    [readRange s p (kvRowAddr c x.1 0 false) (x.2 * (c.d * if c.bf16 then 2 else 1)),
     readRange s p (kvRowAddr c x.1 0 true) (x.2 * (c.d * if c.bf16 then 2 else 1))])

/-! ### Prefetch of Drift-homed pages (R289) -/

/-- The distinct Drift-homed device pages of pinned slots, in order. -/
def driftPinned (s : State) (p : Nat) (a : ADesc) (pins : List (Nat × Nat)) : List Nat :=
  let c := poolCfg s p a.pool
  pins.foldl (fun l x =>
    let vpn := (c.base + x.1 / slotsPerPage c) % 2 ^ 28
    if (pteOf s p vpn).home = .drift ∧ ¬ l.contains vpn then l ++ [vpn] else l) []

/-- A free prefetcher of a stack within the partition's quota (R242). -/
def freePrefetcher (s : State) (part : Nat) (k : Stack) : Option Nat :=
  let used := (s.mem.pf.filter fun x => x.2.part == part && x.1 % 128 < 112).length
  if used ≥ (partLayout s part).pfQuota then none
  else ((List.range 112).map fun i => (match k with | .w => 0 | .e => 128) + i).find? fun i => (pfOf s i).isNone

/-- The list stream of a command over the Drift-homed pages it pinned. -/
def kvPrefetch (s : State) (k : CoreId) (p : Nat) (a : ADesc) (pins : List (Nat × Nat)) : State :=
  let vs := driftPinned s p a pins
  match vs, freePrefetcher s p (coreStack k) with
  | [], _ => s
  | _, none => s
  | _, some i =>
    setPf s i
      { part := p, job := 65536, kind := 2, dest := .gallery, releaseEn := true, base := 0, units := vs.length, unitPages := 1
        stride := 0, ready := 0, done := 0, list := 0, listAddr := 0, lead := regField s (corePage k) 0x10C 3 0
        d0 := 0, l0 := 0, fetched := 0, readied := 0, released := 0, waitFrame := false, fault := 0
        core := some k, kvList := vs, moved := 0, missed := 0, waits := [] }

/-! ### The rows of KV_APPEND (R279) -/

/-- The rows that an append would write as the records stand, on a scratch copy of them: what its nominal time is judged by at issue
(R296). -/
def appendPlan (p : Nat) (a : ADesc) (lane : Nat) : State → List (Nat × Nat × Nat) → List KvRow → List KvRow × Option KvStop
  | _, [], acc => (acc, none)
  | s, (seq, pos, i) :: rest, acc =>
    let b := pos / 64
    let r := pos % 64
    let key := seqKey p a.pool seq a.layer a.head b
    let ent := smGet kvEmpty s.kv.seqt key
    let put (t : State) (k : Nat) (row : KvRow) : List KvRow × Option KvStop :=
      let x := kvRec t p a.pool k
      appendPlan p a lane (setSeqEntry (setRec t p a.pool k { x with st := 1, ref := max x.ref 1, fill := r + 1 }) key (mkEntry k x.gen))
        rest (acc ++ [row])
    if entIsEmpty ent then
      if r ≠ 0 then (acc, some ⟨.range, true, none⟩)
      else
        match findSlot s p a.pool lane with
        | none => (acc, some ⟨.range, false, some 5⟩)
        | some k => put (takeSlot s p a.pool k) k ⟨seq, b, r, k, none, true, i⟩
    else
      let k := entKpn ent
      let x := kvRec s p a.pool k
      if x.gen % 256 ≠ entGen ent then (acc, some ⟨.integrity, false, some 4⟩)
      else if r > x.fill then (acc, some ⟨.range, true, none⟩)
      else if x.ref > 1 ∨ (r < x.fill ∧ x.pin > 0) then
        match findSlot s p a.pool lane with
        | none => (acc, some ⟨.range, false, some 5⟩)
        | some n => put (takeSlot (setRec s p a.pool k { x with ref := x.ref - 1 }) p a.pool n) n ⟨seq, b, r, n, some k, true, i⟩
      else put s k ⟨seq, b, r, k, none, false, i⟩

/-- The rows of an append: sequence, position and place among the appended rows, in entry order then token order. -/
def appendRows (es : List LenEntry) : List (Nat × Nat × Nat) :=
  let flat := es.flatMap fun e => (List.range e.qTokens).map fun i => (e.seq, e.pos + i)
  ((List.range flat.length).zip flat).map fun x => (x.2.1, x.2.2, x.1)

/-- The bytes that the copies of a plan move. -/
def copiedBytes (c : PoolCfg) (rows : List KvRow) : Nat :=
  (rows.map fun r => if r.source.isSome then 2 * r.row * (c.d * if c.bf16 then 2 else 1) else 0).sum

/-- One row's copy and writes; the status where one of them fails. -/
def appendRow (s : State) (p : Nat) (a : ADesc) (c : PoolCfg) (r : KvRow) (row : List Byte) : Except Status State :=
  let rb := c.d * if c.bf16 then 2 else 1
  let n := r.row * rb
  let src := r.source.getD 0
  let st := match r.source with
    | none => Status.ok
    | some k => firstBad [readRange s p (kvRowAddr c k 0 false) n, readRange s p (kvRowAddr c k 0 true) n]
  let wr := firstBad [writeRange s p (kvRowAddr c r.slot r.row false) rb true true, writeRange s p (kvRowAddr c r.slot r.row true) rb true true]
  if st ≠ .ok then .error st
  else if wr ≠ .ok then .error wr
  else
    let u := match r.source with
      | none => s
      | some _ =>
        let ks := readBytes s p (kvRowAddr c src 0 false) n
        let vs := readBytes s p (kvRowAddr c src 0 true) n
        writeBytes (writeBytes s p (kvRowAddr c r.slot 0 false) ks) p (kvRowAddr c r.slot 0 true) vs
    let w := writeBytes (writeBytes u p (kvRowAddr c r.slot r.row false) (row.take rb)) p (kvRowAddr c r.slot r.row true) (row.drop rb)
    .ok (atBoundary w (.kvSwitch p a.pool a.layer a.head r))

/-- REF lowered by 1: a page at 0 enters ORPHAN (R283). -/
def lowerRef (s : State) (p pool k : Nat) : State :=
  let r := kvRec s p pool k
  setRec s p pool k { r with ref := r.ref - 1, st := if r.ref ≤ 1 then 2 else r.st }

/-- The record changes of one row at its boundary (R279). -/
def kvSwitch (s : State) (p pool layer head : Nat) (row : KvRow) : State :=
  let r := kvRec s p pool row.slot
  let filled := if row.row + 1 = 64 then now s else r.filled
  if !row.fresh then setRec s p pool row.slot { r with fill := row.row + 1, filled := filled }
  else
    let t := setRec s p pool row.slot { r with st := 1, ref := 1, fill := row.row + 1, filled := filled }
    let u := match row.source with
      | some k => lowerRef t p pool k
      | none => t
    setSeqEntry u (seqKey p pool row.seq layer head row.block) (mkEntry row.slot r.gen)

/-- A slot becomes FREE, with GEN advanced (R281, R287). -/
def freeSlot (s : State) (p pool k : Nat) : State :=
  setRec s p pool k { noRec with gen := ((kvRec s p pool k).gen + 1) % 2 ^ 16 }

/-- KV_RECLAIM (R287): reclaim is judged and applied at the tick boundary, after all lane operations of the tick. -/
def execKvReclaim (p : Part) (pool : Fin 4) (slot : BitVec 24) (s : State) : Res :=
  .next (atBoundary s (.kvReclaim p pool slot.toNat))

/-- An ORPHAN slot with no reference and no pin becomes FREE. -/
def kvReclaim (s : State) (p pool k : Nat) : State :=
  let r := kvRec s p pool k
  if r.st = 2 ∧ r.ref = 0 ∧ r.pin = 0 then freeSlot s p pool k else s

/-! ### One row of KV_APPEND (R279 to R281) -/

/-- The rows of a head that wait for the boundary of their switch. -/
def pendingRows (s : State) (p : Nat) (a : ADesc) : List KvRow :=
  s.atTick.filterMap fun b => match b with
    | .kvSwitch q pool layer head row => if q = p ∧ pool = a.pool ∧ layer = a.layer ∧ head = a.head then some row else none
    | _ => none

/-- The records and the table as the append itself sees them: with its own rows of this tick. -/
def appendView (s : State) (p : Nat) (a : ADesc) : State :=
  (pendingRows s p a).foldl (fun t r => kvSwitch t p a.pool a.layer a.head r) s

/-- What R279 decides for one row: where it goes, with a slot found but not yet taken, or what ends the append. -/
def appendDecide (s : State) (p : Nat) (a : ADesc) (lane seq pos i : Nat) : Except KvStop KvRow :=
  let v := appendView s p a
  let b := pos / 64
  let r := pos % 64
  let ent := seqEntry v p a.pool seq a.layer a.head b
  let fresh (src : Option Nat) : Except KvStop KvRow := match findSlot s p a.pool lane with
    | none => .error ⟨.range, false, some 5⟩
    | some n => .ok ⟨seq, b, r, n, src, true, i⟩
  if entIsEmpty ent then if r ≠ 0 then .error ⟨.range, true, none⟩ else fresh none
  else
    let k := entKpn ent
    let x := kvRec v p a.pool k
    if x.gen % 256 ≠ entGen ent then .error ⟨.integrity, false, some 4⟩
    else if r > x.fill then .error ⟨.range, true, none⟩
    else if x.ref > 1 ∨ (r < x.fill ∧ x.pin > 0) then fresh (some k)
    else .ok ⟨seq, b, r, k, none, false, i⟩

/-- An append under way: the state, the rows written, what stopped it, and whether it waits for the switch of a page (R288). -/
structure AppendSt where
  st   : State
  rows : List KvRow
  stop : Option KvStop
  wait : Bool

/-- One row decided, its slot taken, copied and written (R279). A row that fails gives its slot back at the next boundary (R281). -/
def appendOne (p : Nat) (a : ADesc) (lane : Nat) (ready : Nat → Bool) (data : Nat → List Byte) (x : AppendSt) (row : Nat × Nat × Nat) :
    AppendSt :=
  let c := poolCfg x.st p a.pool
  if x.stop.isSome || x.wait then x
  else if !(ready row.2.2) then { x with wait := true }
  else match appendDecide x.st p a lane row.1 row.2.1 row.2.2 with
    | .error stop => { x with stop := some stop }
    | .ok r =>
      if (pteOf x.st p ((c.base + r.slot / slotsPerPage c) % 2 ^ 28)).mig then { x with wait := true }
      else
        let t := if r.fresh then atBoundary (takeSlot x.st p a.pool r.slot) (.kvSwap p a.pool lane) else x.st
        match appendRow t p a c r (data row.2.2) with
        | .ok u => { x with st := u, rows := x.rows ++ [r] }
        | .error st => { x with st := if r.fresh then giveBack t p a.pool [r] else t, stop := some ⟨st, false, none⟩ }

/-! ### FORK, FREE and QUERY -/

def kvRunOf (s : State) (p : Nat) : Option KvRun := smFind s.kv.runs p
def setKvRun (s : State) (p : Nat) (r : KvRun) : State := { s with kv := { s.kv with runs := smPut s.kv.runs p r } }

/-- KV_GO accepted (R307): the parameters as they stand; BUSY. -/
def kvGo (s : State) (p : Nat) : State :=
  let pg := partPage p
  let op := regVal s pg 0x500
  let a0 := regVal s pg 0x504
  let a1 := regVal s pg 0x508
  let run : KvRun :=
    { op := field op 3 0, level := field op 31 28, pool := field op 5 4, src := field a0 8 0, dst := field a0 24 16
      layer := field a1 31 24, head := field a1 23 16, blocks := field a1 11 0, checked := false, next := 0, status := .ok }
  setReg (setKvRun s p run) pg 0x510 0x100

/-- The entries of one sequence in a pool that lie below a block count, with their places. -/
def seqEntries (s : State) (p pool seq blocks : Nat) : SMap Nat :=
  (smRange s.kv.seqt (seqKey p pool seq 0 0 0) (seqKey p pool (seq + 1) 0 0 0)).filter fun x => x.1 % 2048 < blocks

/-- The check of an operation before any entry changes (R284, R307, R104). -/
def kvOpCheck (s : State) (p : Nat) (r : KvRun) : Status :=
  let c := poolCfg s p r.pool
  let src := seqEntries s p r.pool r.src r.blocks
  if r.level > regField s devPage 0x108 15 8 then .levelUnsupported
  else if r.level = 0 ∨ r.op = 0 ∨ r.op > 3 then .range
  else if r.op = 1 ∧ (r.blocks = 0 ∨ r.blocks > c.bmax ∨ r.src = r.dst ∨
      src.any fun x => decide ((kvRec s p r.pool (entKpn x.2)).ref + (src.filter fun y => entKpn y.2 == entKpn x.2).length > 65535)) then .range
  else if r.op = 3 ∧ (r.layer ≥ c.layers ∨ r.head ≥ c.heads ∨ r.blocks ≥ c.bmax) then .range
  else if ¬ c.valid then .stateIllegal
  else if r.op = 1 ∧ ¬ (seqEntries s p r.pool r.dst r.blocks).isEmpty then .stateIllegal
  else .ok

/-- How many entries an operation goes through. -/
def kvOpTotal (s : State) (p : Nat) (r : KvRun) : Nat :=
  let c := poolCfg s p r.pool
  if r.op = 1 then c.layers * c.heads * r.blocks else if r.op = 2 then c.layers * c.heads * c.bmax else 0

/-- One entry of FORK or FREE, in ascending layer, head and block (R283, R284). -/
def kvOpEntry (s : State) (p : Nat) (r : KvRun) : State :=
  let c := poolCfg s p r.pool
  let nb := if r.op = 1 then r.blocks else c.bmax
  let b := r.next % nb
  let h := r.next / nb % c.heads
  let l := r.next / nb / c.heads
  let e := seqEntry s p r.pool r.src l h b
  let t := setKvRun s p { r with next := r.next + 1 }
  if entIsEmpty e then t
  else if r.op = 1 then
    let x := kvRec t p r.pool (entKpn e)
    setSeqEntry (setRec t p r.pool (entKpn e) { x with ref := x.ref + 1 }) (seqKey p r.pool r.dst l h b) e
  else setSeqEntry (lowerRef t p r.pool (entKpn e)) (seqKey p r.pool r.src l h b) kvEmpty

/-- Up to n entries of an operation. A partial reset stops it at its next entry (R307). -/
def kvOpSteps (s : State) (p : Nat) : Nat → State
  | 0 => s
  | n + 1 =>
    match kvRunOf s p with
    | none => s
    | some r => if r.checked ∧ r.status = .ok ∧ r.next < kvOpTotal s p r ∧ ¬ inReset s p then kvOpSteps (kvOpEntry s p r) p n else s

/-- The step of one kind of operation: its check the first time, then up to n entries. -/
def kvOpRow (op p n : Nat) (s : State) : Res :=
  .next (
    match kvRunOf s p with
    | none => s
    | some r =>
      if r.op ≠ op then s
      else if r.checked then kvOpSteps s p n
      else kvOpSteps (setKvRun s p { r with checked := true, status := kvOpCheck s p r }) p n)

/-- FORK (R283, R284). -/
def execFork (p : Part) (entries : Nat) (s : State) : Res := kvOpRow 1 p entries s
/-- FREE (R283). -/
def execFree (p : Part) (entries : Nat) (s : State) : Res := kvOpRow 2 p entries s

/-- KV_QUERY (R307): one entry and its page record, read together. -/
def execKvQuery (p : Part) (s : State) : Res :=
  .next (
    match kvRunOf s p with
    | none => s
    | some r =>
      if r.op ≠ 3 ∨ r.checked then s
      else
        let st := kvOpCheck s p r
        let t := setKvRun s p { r with checked := true, status := st }
        if st ≠ .ok then t
        else
          let e := seqEntry s p r.pool r.src r.layer r.head r.blocks
          let x := if entIsEmpty e then noRec else kvRec s p r.pool (entKpn e)
          let pg := partPage p
          setReg (setReg (setReg t pg 0x514 (BitVec.ofNat 32 (entKpn e)))
            pg 0x518 (BitVec.ofNat 32 (x.pin * 65536 + x.ref)))
            pg 0x51C (BitVec.ofNat 32 (x.st * 2 ^ 24 + x.fill * 65536 + x.gen)))

/-- The status of an operation that has nothing more to change; none while it has. An operation of an undefined code
has no step of its own. -/
def kvOpFinal (s : State) (p : Nat) (r : KvRun) : Option Status :=
  if r.checked then (if r.status ≠ .ok ∨ r.next ≥ kvOpTotal s p r then some r.status else none)
  else if r.op = 0 ∨ r.op > 3 then some (kvOpCheck s p r) else none

/-- KV_OP_COMPLETE (R284): BUSY clears, the status stands in KV_STAT, and the completion goes out on vector 3. -/
def execKvOpComplete (p : Part) (s : State) : Res :=
  .next (
    match kvRunOf s p with
    | none => s
    | some r => match kvOpFinal s p r with
      | none => s
      | some st =>
        let u := { s with kv := { s.kv with runs := smDel s.kv.runs p } }
        irq (setReg u (partPage p) 0x510 (BitVec.ofNat 32 (statusCode st))) p 3 (.service (partPage p)))

/-! ### Pool registers -/

/-- Whether the pool that a configuration describes can be put into service (R306). -/
def poolOk (s : State) (p pool : Nat) (c : PoolCfg) : Bool :=
  let others := ((List.range 4).filter (· ≠ pool)).filter fun i => (poolCfg s p i).valid
  decide (8 ≤ c.size ∧ 1 ≤ c.limit ∧ c.base + c.size ≤ 2 ^ 28) &&
    ((List.range c.size).all fun i => let e := pteOf s p (c.base + i); e.v && e.kv) &&
    (others.all fun i => let o := poolCfg s p i; decide (c.base + c.size ≤ o.base ∨ o.base + o.size ≤ c.base)) &&
    decide (kvAreaNeed c + (others.map fun i => kvAreaNeed (poolCfg s p i)).sum ≤ (partLayout s p).kvArea * pageBytes)

/-- The pool that a KV register belongs to, and its offset there. -/
def poolRegOf (off : Nat) : Option (Nat × Nat) :=
  if 0x480 ≤ off ∧ off < 0x500 then some ((off - 0x480) / 0x20, (off - 0x480) % 0x20) else none

/-- KV registers that are shown, not stored: KV_PFREE. -/
def kvView (s : State) (p : Page) (off : Nat) : Option Word :=
  match p.cls with
  | .part =>
    match poolRegOf off with
    | some (i, 0x10) => some (BitVec.ofNat 32 (if (poolCfg s p.inst i).valid then freeSlots s p.inst i else 0))
    | _ => none
  | _ => none

/-- RANGE, STATE_ILLEGAL and BUSY of a write to a KV register, in that order (R305 to R307, R223). -/
def kvCheck (s : State) (p : Page) (off : Nat) (v : Word) : Option Status :=
  match p.cls with
  | .a => if off = 0x10C ∧ field v 3 0 = 0 then some .range else none
  | .part =>
    match poolRegOf off with
    | some (i, o) =>
      let old := regVal s p off
      let c := poolCfg s p.inst i
      if o = 0 then
        if field v 1 0 = 3 then some .range
        else if c.valid then
          if v ||| 0x80000000#32 ≠ old then some .stateIllegal
          else if ¬ bit v 31 ∧ freeSlots s p.inst i ≠ slotCount c then some .busy
          else none
        else if bit v 31 then
          let r (k : Nat) : Word := regVal s p (kvReg 0 i k)
          if poolOk s p.inst i (poolCfgOf v (r 4) (r 8) (r 12)) then none else some .range
        else none
      else if o = 8 ∧ (v.toNat % 8 ≠ 0 ∨ v.toNat < 8 ∨ v.toNat > 1048568) then some .range
      else if (o = 4 ∨ o = 8 ∨ o = 12) ∧ c.valid ∧ v ≠ old then some .stateIllegal
      else none
    | none => if 0x500 ≤ off ∧ off ≤ 0x50C ∧ (kvRunOf s p.inst).isSome then some .busy else none
  | _ => none

/-- The sequence table of a pool emptied. -/
def clearSeqTable (s : State) (p pool : Nat) : State :=
  { s with kv := { s.kv with seqt := smClear s.kv.seqt (seqKey p pool 0 0 0 0) (seqKey p (pool + 1) 0 0 0 0) } }

/-- The effect of an accepted write: a pool put into service starts with an empty table (R269); KV_GO. -/
def kvAct (s : State) (p : Page) (off : Nat) (v old : Word) : State :=
  match p.cls with
  | .part =>
    match poolRegOf off with
    | some (i, 0) => if bit v 31 ∧ ¬ bit old 31 then clearSeqTable s p.inst i else s
    | _ => if off = 0x50C ∧ bit v 0 then kvGo s p.inst else s
  | _ => s

/-- What the completion of a partial reset does to the pools of a partition (R298). -/
def kvReset (s : State) (p : Nat) : State :=
  let t := (List.range 4).foldl (fun u i =>
    let used := smRange u.kv.recs (recKey p i 0) (recKey p (i + 1) 0)
    clearSeqTable (used.foldl (fun w x => if x.2.st = 0 then w else freeSlot w p i (x.1 - recKey p i 0)) u) p i) s
  { t with kv := { t.kv with runs := smDel t.kv.runs p } }

/-! ### Delta records (R293, R294) -/

/-- The 128-bit digest of the K and V rows below FILL of a slot: the first 16 bytes of their SHA-384. -/
def kvDigest (s : State) (p pool k fill : Nat) : Nat :=
  let c := poolCfg s p pool
  let n := fill * (c.d * if c.bf16 then 2 else 1)
  bytesNat ((sha384 (readBytes s p (kvRowAddr c k 0 false) n ++ readBytes s p (kvRowAddr c k 0 true) n)).take 16)

/-- Whether two delta records name the same page and FILL. -/
def sameDelta (a b : KvDelta) : Bool :=
  a.part == b.part && a.pool == b.pool && a.layer == b.layer && a.head == b.head && a.fill == b.fill && a.seq == b.seq && a.block == b.block

/-- The A-core of a KV head (R264). -/
def kvHeadPage (head : Nat) : Page := ⟨.a, head % 8⟩

/-- KV_DELTA_LATE (R294): the oldest record without a counterpart for 2,000 ticks is counted and dropped. -/
def execKvDeltaLate (s : State) : Res :=
  .next (
    match (s.kv.theirs ++ s.kv.mine).find? fun d => decide (now s ≥ d.seen + 2000) with
    | none => s
    | some d =>
      let u := { s with kv := { s.kv with theirs := s.kv.theirs.erase d, mine := s.kv.mine.erase d } }
      ctrAdd u (kvHeadPage d.head) 11 1)

end Sys2Proof.Machine
end

