-- ==== Sys2Proof/Machine/LArith.lean ====
section
/-! DEFINITION. The arithmetic of the planning checkers (Larkspur, chapter 09): the descriptor (R382), the primitive library
(R363, R364), candidates and their check (R366 to R369), the cost-to-go field (R370), selection and time scaling (R371,
R372), the stops (R374 to R376), and what R383 and R384 judge. -/

namespace Sys2Proof.Machine

/-- The fields of an L-core descriptor (R382). -/
structure LDesc where
  opcode   : Nat
  first    : Bool
  cycle    : Nat
  count    : Nat
  arg      : Nat
  candAddr : Nat
  resAddr  : Nat
  ctgAddr  : Nat
  libAddr  : Nat
  ctgW     : Word
  timeW    : Word
  libCount : Nat
  deriving DecidableEq, Repr

def lDesc (d : List Word) : LDesc :=
  { opcode := df d 0 23 16, first := bit (dw d 0) 2, cycle := df d 1 15 0, count := df d 2 31 16, arg := df d 2 15 0
    candAddr := addr44 (df d 7 3 0) (dw d 3).toNat, resAddr := addr44 (df d 7 7 4) (dw d 4).toNat
    ctgAddr := addr44 (df d 7 11 8) (dw d 5).toNat, libAddr := addr44 (df d 7 15 12) (dw d 6).toNat
    ctgW := dw d 8, timeW := dw d 9, libCount := df d 10 11 0 }

/-- The inputs of an L-core command: each operand's bytes by offset from its address. -/
structure LOperands where
  cand : Nat → Byte
  res  : Nat → Byte
  ctg  : Nat → Byte
  lib  : Nat → Byte
  grid : Nat → Byte

def f32two : Word := 0x40000000#32

/-- A number of ticks as FP32 seconds. -/
def secOfTicks (n : Int) : Word := f32of (fpDiv (valOfInt n 0) (valOfInt 1000000 0))

/-- FP32 seconds as ticks; a NaN or an infinity is no tick. -/
def ticksOfSec (w : Word) : Option Int :=
  match fpMul (f32val w) (valOfInt 1000000 0) with
  | .fin n m e => some (roundInt .rne n m e)
  | _ => none

/-! ### The library -/

/-- A primitive's header (R363). -/
structure Prim where
  nSamp : Nat
  h0    : Nat
  h1    : Nat
  dx    : Int
  dy    : Int
  first : Nat
  len   : Word
  vNom  : Word
  aAcc  : Word
  aDec  : Word
  span  : Nat
  masks : List Nat
  deriving DecidableEq, Repr

def primOf (lib : Nat → Byte) (i : Nat) : Prim :=
  let b := 64 * i
  let w (o : Nat) : Word := BitVec.ofNat 32 (leBytes lib (b + o) 4)
  { nSamp := leBytes lib b 2, h0 := leBytes lib (b + 2) 1 % 16, h1 := leBytes lib (b + 3) 1 % 16
    dx := sInt 16 (leBytes lib (b + 4) 2), dy := sInt 16 (leBytes lib (b + 6) 2), first := leBytes lib (b + 8) 4
    len := w 12, vNom := w 16, aAcc := w 20, aDec := w 24, span := leBytes lib (b + 28) 1
    masks := (List.range 16).map fun k => leBytes lib (b + 32 + 2 * k) 2 }

/-- A sample (R364): column and row offset, nominal passage in 10 ms units, mask index. -/
structure Samp where
  dx   : Int
  dy   : Int
  tOfs : Nat
  msk  : Nat
  deriving DecidableEq, Repr

def sampOf (lib : Nat → Byte) (i : Nat) : Samp :=
  let w := leBytes lib (0x40000 + 4 * i) 4
  ⟨sInt 9 (w >>> 23), sInt 9 (w >>> 14), (w >>> 4) % 1024, w % 16⟩

/-- TD (R364): the nominal duration in ticks; open where LEN and V_NOM give no number. -/
def primTicks (p : Prim) : Nat :=
  match fpMul (fpDiv (f32val p.len) (f32val p.vNom)) (valOfInt 1000000 0) with
  | .fin n m e => (roundInt .rne n m e).toNat
  | _ => Config.planDuration p.len p.vNom

/-- The arc length of a sample in its primitive (R364). -/
def sampArc (p : Prim) (x : Samp) : Word := f32of (fpDiv (fpMul (f32val p.vNom) (valOfInt x.tOfs 0)) (valOfInt 100 0))

/-- The size of the library in bytes (R363): to the end of its last sample. -/
def libBytes (lib : Nat → Byte) (count : Nat) : Nat :=
  0x40000 + 4 * ((List.range count).map fun i => let p := primOf lib i; p.first + p.nSamp).foldl max 0

/-! ### Chains -/

/-- A sample of a chain, placed: its arc length from the chain's start, its cell, its mask, its slack, and its nominal
passage in ticks after the chain's start (R367). -/
structure Pt where
  arc  : Word
  row  : Int
  col  : Int
  mask : Nat
  span : Nat
  tick : Nat
  deriving DecidableEq, Repr

/-- Where a chain stands after some of its primitives. -/
structure ChainPos where
  row  : Int
  col  : Int
  arc  : Word
  tick : Nat
  deriving DecidableEq, Repr

def chainStep (c : ChainPos) (p : Prim) : ChainPos :=
  ⟨c.row + p.dy, c.col + p.dx, f32add c.arc p.len, c.tick + primTicks p⟩

def primPts (lib : Nat → Byte) (c : ChainPos) (p : Prim) : List Pt :=
  (List.range p.nSamp).map fun i =>
    let x := sampOf lib (p.first + i)
    ⟨f32add c.arc (sampArc p x), c.row + x.dy, c.col + x.dx, p.masks.getD x.msk 0, p.span, c.tick + 10000 * x.tOfs⟩

/-- The samples of a chain in order, and its end. -/
def chainPts (lib : Nat → Byte) : ChainPos → List Prim → List Pt × ChainPos
  | c, [] => ([], c)
  | c, p :: ps =>
    let r := chainPts lib (chainStep c p) ps
    (primPts lib c p ++ r.1, r.2)

def chainStart (row col : Int) : ChainPos := ⟨row, col, 0, 0⟩

/-! ### The grid -/

/-- A time layer's word at a cell (R357). -/
def layerWord (grid : Nat → Byte) (layer row col : Nat) : Nat :=
  leBytes grid (0x50000 + layer * 0x80000 + 2 * (512 * row + col)) 2

def gridTick (grid : Nat → Byte) : Nat := leBytes grid 8 8

/-- The layer of a tick before it is held to the grid (R367): below 0 taken as 0. -/
def layerAt (g : Nat) (t : Int) : Nat := ((t - g) / 250000).toNat

def inGrid (row col : Int) : Bool := decide (0 ≤ row ∧ row < 512 ∧ 0 ≤ col ∧ col < 512)

/-- What the test of one sample in a core's layers gives: layer tests, a hit, a hit outside the grid, a part beyond the
grid's last layer. -/
structure PtTest where
  tests  : Nat
  hit    : Bool
  out    : Bool
  beyond : Bool
  deriving DecidableEq, Repr

/-- The layers tested one after another until the first hit (R369). -/
def layerTests (grid : Nat → Byte) (row col mask : Nat) : List Nat → Nat × Bool
  | [] => (0, false)
  | l :: ls =>
    if layerWord grid l row col &&& mask ≠ 0 then (1, true)
    else
      let r := layerTests grid row col mask ls
      (r.1 + 1, r.2)

/-- One sample over the layers lo to hi, in core i's layers 4i to 4i + 3 (R367, R368). -/
def testPt (grid : Nat → Byte) (core lo hi : Nat) (p : Pt) : PtTest :=
  let beyond := decide (hi > 15)
  if !(inGrid p.row p.col) then ⟨0, true, true, beyond⟩
  else
    let ls := (List.range 4).filterMap fun k => let l := 4 * core + k; if lo ≤ l ∧ l ≤ hi then some l else none
    let r := layerTests grid p.row.toNat p.col.toNat p.mask ls
    ⟨r.1, r.2, false, beyond⟩

/-! ### Candidates -/

/-- A candidate (R366). -/
structure Cand where
  prims : List Nat
  n     : Nat
  score : Word
  clean : Bool
  deriving DecidableEq, Repr

def candOf (cand : Nat → Byte) (i : Nat) : Cand :=
  let b := 32 * i
  let ps := (List.range 8).map fun k => leBytes cand (b + 2 * k) 2
  { prims := ps.map (· % 4096), n := leBytes cand (b + 16) 1, score := BitVec.ofNat 32 (leBytes cand (b + 24) 4)
    clean := ps.all (· < 4096) && (List.range 7).all (fun k => leBytes cand (b + 17 + k) 1 == 0) && leBytes cand (b + 28) 4 == 0 }

def candPrims (lib : Nat → Byte) (c : Cand) : List Prim := (c.prims.take c.n).map (primOf lib)

/-- Headings that follow one another along a chain. -/
def headingsMeet : Nat → List Prim → Bool
  | _, [] => true
  | h, p :: ps => p.h0 == h && headingsMeet p.h1 ps

/-- INVALID (R366). -/
def candInvalid (lib : Nat → Byte) (libCount heading : Nat) (c : Cand) : Bool :=
  c.n == 0 || decide (c.n > 8) || !c.clean || f32isNan c.score || (c.prims.take c.n).any (· ≥ libCount) ||
    !(headingsMeet heading (candPrims lib c))

/-- What the scan of a chain gives: samples scanned, layer tests, samples beyond, the index of the first hit and whether it
lay outside the grid. -/
structure Scan where
  samples : Nat
  tests   : Nat
  beyond  : Nat
  hit     : Option (Nat × Bool)
  deriving DecidableEq, Repr

/-- A scan that stops at the first hit (R369). -/
def scanPts (test : Pt → PtTest) : Nat → List Pt → Scan
  | _, [] => ⟨0, 0, 0, none⟩
  | i, p :: ps =>
    let t := test p
    if t.hit then ⟨1, t.tests, t.beyond.toNat, some (i, t.out)⟩
    else
      let r := scanPts test (i + 1) ps
      ⟨r.samples + 1, r.tests + t.tests, r.beyond + t.beyond.toNat, r.hit⟩

/-- The check of a chain from D on (R367). -/
def scanChain (o : LOperands) (core : Nat) (d : Nat) (row col : Int) (ps : List Prim) : Scan :=
  let g := gridTick o.grid
  scanPts (fun p => testPt o.grid core (layerAt g ((d : Int) + p.tick)) (layerAt g ((d : Int) + p.tick + 10000 * p.span)) p) 0
    (chainPts o.lib (chainStart row col) ps).1

/-- What an L-core command gives when it ends with OK: the stores as offsets from an operand's address, its flags
LC_LAST[20:16], its counts by slot (R392), its nominal clocks, and what it posts. -/
structure LOut where
  bytes  : List (Nat × List Byte)
  flags  : Nat
  counts : List (Nat × Nat)
  clocks : Nat
  post   : Option LPost
  deriving DecidableEq, Repr

/-- CHECK on core i (R368): one word a candidate at RES + i·0x1_0000 + 4·index. -/
def checkCompute (l : LDesc) (o : LOperands) (core : Nat) (c : Cycle) : LOut :=
  let one (k : Nat) : Nat × Scan × Bool :=
    let x := candOf o.cand (l.arg + k)
    if candInvalid o.lib l.libCount c.heading x then (2 ^ 29 + 0xFFFFFF, ⟨0, 0, 0, none⟩, true)
    else
      let s := scanChain o core c.dTick c.row c.col (candPrims o.lib x)
      match s.hit with
      | none => (2 ^ 31 + 0xFFFFFF, s, false)
      | some (i, out) => (2 ^ 31 + 2 ^ 30 + (if out then 2 ^ 28 else 0) + i % 2 ^ 24, s, false)
  let rs := (List.range l.count).map one
  let sum (f : Scan → Nat) : Nat := (rs.map fun r => f r.2.1).sum
  let invalid := rs.any fun r => r.2.2
  let beyond := sum fun s => s.beyond
  { bytes := [(l.resAddr + core * 0x10000 + 4 * l.arg, rs.flatMap fun r => (List.range 4).map fun i => BitVec.ofNat 8 (r.1 >>> (8 * i)))]
    flags := 2 * invalid.toNat + 8 * (decide (beyond > 0)).toNat
    counts := [(3, (rs.filter fun r => !r.2.2).length), (4, sum fun s => s.tests), (5, (rs.filter fun r => r.2.1.hit.isSome).length), (6, beyond)]
    clocks := 64 + 6400 + (rs.map fun r => ceilDiv r.2.1.samples 4 + r.2.1.tests).foldl max 0 + 64 + 96
    post := none }

/-! ### The cost-to-go field -/

/-- The goal cells of a buffer header (R358). -/
def goalCells (grid : Nat → Byte) : List Nat :=
  (List.range (min (leBytes grid 16 4) 4096)).map fun i =>
    let w := leBytes grid (64 + 4 * i) 4
    512 * (w / 65536 % 512) + w % 512

/-- The value that a cell takes from its eight neighbours (R370). -/
def waveCell (cost : Nat) (f : Array Nat) (cell : Nat) : Nat :=
  let r := cell / 512
  let c := cell % 512
  let at' (dr dc : Int) (w : Nat) : Nat :=
    let r' := (r : Int) + dr
    let c' := (c : Int) + dc
    if inGrid r' c' then min 0xFFFE (f.getD (512 * r'.toNat + c'.toNat) 0xFFFF + cost * w) else 0xFFFE
  [at' (-1) 0 10, at' 1 0 10, at' 0 (-1) 10, at' 0 1 10, at' (-1) (-1) 14, at' (-1) 1 14, at' 1 (-1) 14, at' 1 1 14].foldl min 0xFFFE

/-- One sweep over the cells in the order given, in place; whether it changed anything. -/
def waveSweep (grid : Nat → Byte) (goals : Array Bool) (cells : List Nat) (f : Array Nat) : Array Nat × Bool :=
  cells.foldl (fun x cell =>
    let cost := (grid (0x10000 + cell)).toNat
    let v := if goals.getD cell false then 0 else if cost = 0 ∨ cost = 255 then 0xFFFF else waveCell cost x.1 cell
    if x.1.getD cell 0xFFFF = v then x else (x.1.set! cell v, true)) (f, false)

/-- Sweeps in alternating raster order until one changes nothing. -/
def waveSweeps (grid : Nat → Byte) (goals : Array Bool) : Nat → Bool → Array Nat → Array Nat × Bool
  | 0, _, f => (f, false)
  | n + 1, forward, f =>
    let order := List.range 262144
    let r := waveSweep grid goals (if forward then order else order.reverse) f
    if r.2 then waveSweeps grid goals n (!forward) r.1 else (r.1, true)

/-- WAVE (R370). -/
def waveCompute (l : LDesc) (o : LOperands) : LOut :=
  let goals := (goalCells o.grid).foldl (fun a c => a.set! c true) (Array.replicate 262144 false)
  let start : Array Nat :=
    if l.first then (goalCells o.grid).foldl (fun a c => a.set! c 0) (Array.replicate 262144 0xFFFF)
    else ((List.range 262144).map fun i => leBytes o.ctg (2 * i) 2).toArray
  let r := waveSweeps o.grid goals l.arg true start
  { bytes := [(l.ctgAddr, r.1.toList.flatMap fun v => [BitVec.ofNat 8 v, BitVec.ofNat 8 (v / 256)])]
    flags := 16 * r.2.toNat, counts := []
    clocks := 64 + (if l.first then 256 else 768) + 1024 * l.arg + 512 + 96, post := none }

/-! ### Speed profiles -/

/-- The speed and the arc length at a time on a profile (R379): constant acceleration between knots, the first knot before
it, the last speed held after it. -/
def profileAt : List Knot → Word → Word × Word
  | [], _ => (0, 0)
  | [k], t => if f32le t k.t then (k.s, k.v) else (f32add k.s (f32mul k.v (f32sub t k.t)), k.v)
  | k :: k' :: ks, t =>
    if f32le t k.t then (k.s, k.v)
    else if f32lt k'.t t then profileAt (k' :: ks) t
    else
      let dt := f32sub t k.t
      let v := f32add k.v (f32mul (f32div (f32sub k'.v k.v) (f32sub k'.t k.t)) dt)
      (f32add k.s (f32mul (f32mul 0x3F000000#32 (f32add k.v v)) dt), v)

/-- The time at which a profile passes an arc length; none before its first knot and where it is never reached. -/
def passTime : List Knot → Word → Option Word
  | [], _ => none
  | [k], s =>
    if f32lt s k.s then none
    else if s = k.s then some k.t
    else if f32lt 0 k.v then some (f32add k.t (f32div (f32sub s k.s) k.v)) else none
  | k :: k' :: ks, s =>
    if f32lt s k.s then none
    else if f32lt k'.s s then passTime (k' :: ks) s
    else if f32le s k.s then some k.t
    else
      let ds := f32sub s k.s
      let a := f32div (f32sub (f32mul k'.v k'.v) (f32mul k.v k.v)) (f32mul f32two (f32sub k'.s k.s))
      let v := f32sqrt (f32add (f32mul k.v k.v) (f32mul f32two (f32mul a ds)))
      some (f32add k.t (f32div (f32mul f32two ds) (f32add k.v v)))

def lMin (a b : Word) : Word := if f32lt b a then b else a
def lMax (a b : Word) : Word := if f32lt a b then b else a

/-- The speed from which, or to which, an acceleration leads over a length (R372). -/
def speedOver (v a len : Word) : Word := f32sqrt (f32add (f32mul v v) (f32mul f32two (f32mul a len)))

/-- The forward pass (R372). -/
def forwardPass : Word → List Prim → List Word
  | _, [] => []
  | v, p :: ps =>
    let e := lMin p.vNom (speedOver v p.aAcc p.len)
    e :: forwardPass e ps

/-- The capped entry speeds of the backward pass (R372). -/
def entryCaps : List Prim → List Word
  | [] => []
  | [p] => [p.vNom]
  | p :: p' :: ps =>
    let r := entryCaps (p' :: ps)
    lMin p.vNom (speedOver (r.headD 0) p.aDec p.len) :: r

/-- The end speeds after both passes. -/
def endSpeeds (v0 : Word) (ps : List Prim) : List Word :=
  let f := forwardPass v0 ps
  let caps := (entryCaps ps).drop 1
  (List.range ps.length).map fun k =>
    let e := f.getD k 0
    match caps[k]? with
    | some c => lMin e c
    | none => e

/-- A segment to a speed over a length, appended as a knot; none of no length. -/
def addSeg (ks : List Knot) (ds v : Word) : List Knot :=
  if f32le ds 0 then ks
  else
    let k := ks.getLastD ⟨0, 0, 0⟩
    ks ++ [⟨f32add k.s ds, v, f32add k.t (f32div (f32mul f32two ds) (f32add k.v v))⟩]

/-- The segments of one primitive from its entry speed to its end speed (R372): up to a peak at A_ACC, held at V_NOM where
the peak meets it, down at A_DEC. None where the primitive is too short to come down. -/
def primSegs (ks : List Knot) (p : Prim) (v1 : Word) : Option (List Knot) :=
  let v0 := (ks.getLastD ⟨0, 0, 0⟩).v
  let sq (v : Word) : Word := f32mul v v
  let dist (a b acc : Word) : Word := f32div (f32sub (sq a) (sq b)) (f32mul f32two acc)
  if f32lt (speedOver v1 p.aDec p.len) v0 then none
  else if f32lt p.vNom v0 then
    let d1 := dist v0 p.vNom p.aDec
    let d3 := if f32lt v1 p.vNom then dist p.vNom v1 p.aDec else 0
    some (addSeg (addSeg (addSeg ks d1 p.vNom) (f32sub (f32sub p.len d1) d3) p.vNom) d3 v1)
  else
    let num := f32add (f32add (f32mul (f32mul f32two (f32mul p.aAcc p.aDec)) p.len) (f32mul p.aDec (sq v0))) (f32mul p.aAcc (sq v1))
    let peak := lMin p.vNom (f32sqrt (f32div num (f32add p.aAcc p.aDec)))
    let d1 := if f32lt v0 peak then dist peak v0 p.aAcc else 0
    let d3 := if f32lt v1 peak then dist peak v1 p.aDec else 0
    some (addSeg (addSeg (addSeg ks d1 peak) (f32sub (f32sub p.len d1) d3) peak) d3 v1)

def profileSegs (ks : List Knot) : List (Prim × Word) → Option (List Knot)
  | [] => some ks
  | (p, v) :: r =>
    match primSegs ks p v with
    | none => none
    | some ks' => profileSegs ks' r

/-- Whether a sample is passed after the end of its window (R372). -/
def passedLate (ks : List Knot) (p : Pt) : Bool :=
  match (passTime ks p.arc).bind ticksOfSec with
  | some t => decide (t > (p.tick : Int) + 10000 * p.span)
  | none => true

/-- The time scaling of a chain (R372): its knots, or SCALE_FAIL. -/
def scaleChain (lib : Nat → Byte) (v0 : Word) (row col : Int) (ps : List Prim) : Option (List Knot) :=
  match ps with
  | [] => none
  | p0 :: _ =>
    if f32lt (speedOver p0.vNom p0.aDec p0.len) v0 then none
    else
      match profileSegs [⟨0, v0, 0⟩] (ps.zip (endSpeeds v0 ps)) with
      | none => none
      | some ks =>
        if ks.length > 32 ∨ (chainPts lib (chainStart row col) ps).1.any (passedLate ks) then none else some ks

/-! ### Selection -/

/-- The place of an FP32 value in ascending order; that of a NaN is open. -/
def f32rank (w : Word) : Int :=
  if f32isNan w then Config.nanRank
  else if w.msb then -((w &&& 0x7FFFFFFF#32).toNat : Int) else (w.toNat : Int)

/-- A candidate before scaling: its index, its key and its chain. -/
structure Ranked where
  index : Nat
  key   : Word
  prims : List Nat
  deriving DecidableEq, Repr

def rankedLe (a b : Ranked) : Bool :=
  decide (f32rank a.key < f32rank b.key ∨ (f32rank a.key = f32rank b.key ∧ a.index ≤ b.index))

/-- Whether the four result arrays call a candidate clean (R368). -/
def resClean (res : Nat → Byte) (i : Nat) : Bool :=
  (List.range 4).all fun c => leBytes res (c * 0x10000 + 4 * i) 4 / 2 ^ 29 == 4

/-- KEY (R371). -/
def candKey (l : LDesc) (o : LOperands) (c : Cycle) (x : Cand) : Word :=
  let e := (chainPts o.lib (chainStart c.row c.col) (candPrims o.lib x)).2
  let ctg := if inGrid e.row e.col then leBytes o.ctg (2 * (512 * e.row.toNat + e.col.toNat)) 2 else 0xFFFF
  f32add (f32mul (f32ofInt ctg) l.ctgW) x.score

/-- The walk of the order (R371): the candidates that scaled, with their cost and knots, and how many failed. -/
def scaleWalk (l : LDesc) (o : LOperands) (c : Cycle) : Nat → List Ranked → List (Ranked × Word × List Knot) × Nat → List (Ranked × Word × List Knot) × Nat
  | 0, _, x => x
  | _, [], x => x
  | n + 1, r :: rs, x =>
    if x.1.length ≥ l.arg then x
    else
      let ps := r.prims.map (primOf o.lib)
      match scaleChain o.lib c.v c.row c.col ps with
      | none => scaleWalk l o c n rs (x.1, x.2 + 1)
      | some ks =>
        let tN := (chainPts o.lib (chainStart c.row c.col) ps).2.tick
        let lag := f32sub (ks.getLastD ⟨0, 0, 0⟩).t (secOfTicks tN)
        scaleWalk l o c n rs (x.1 ++ [(r, f32add r.key (f32mul l.timeW lag), ks)], x.2)

/-- The least cost, ties to the earlier. -/
def leastCost : List (Ranked × Word × List Knot) → Option (Ranked × Word × List Knot)
  | [] => none
  | x :: xs => match leastCost xs with
    | none => some x
    | some y => if f32rank y.2.1 < f32rank x.2.1 then some y else some x

/-- A trajectory that a cycle computes, before the commit fills its outcome. -/
def cycleTraj (c : Cycle) (row col heading : Nat) (prims : List Nat) (ks : List Knot) : Traj :=
  { cycle := c.n, epoch := c.epoch, dTick := BitVec.ofNat 32 c.dTick, outcome := 1, status := 0, flags := 0, heldAge := 0
    row := row, col := col, heading := heading, prims := prims, cand := 0xFFFFFFFF#32, cost := 0
    origin := BitVec.ofNat 32 c.dTick, knots := ks }

/-- SELECT (R371). -/
def selectCompute (l : LDesc) (o : LOperands) (c : Cycle) : LOut :=
  let clean := (List.range l.count).filterMap fun i =>
    let x := candOf o.cand i
    if resClean o.res i && !(candInvalid o.lib l.libCount c.heading x) then
      some (⟨i, candKey l o c x, x.prims.take x.n⟩ : Ranked) else none
  let r := scaleWalk l o c 512 (clean.mergeSort rankedLe) ([], 0)
  let win := (leastCost r.1).map fun x =>
    { cycleTraj c c.row c.col c.heading x.1.prims x.2.2 with outcome := 0, cand := BitVec.ofNat 32 x.1.index, cost := x.2.1 }
  { bytes := [], flags := 4 * (decide (r.2 > 0)).toNat, counts := [(21, r.2)]
    clocks := 64 + 1536 + 2 * l.count + 80 * (r.1.length + r.2) + 96
    post := some (.select win) }

/-! ### Stops -/

/-- A stop from a state on a path (R374, R376): its knots from D. -/
def stopKnots (arc v dec : Word) : List Knot :=
  if f32le v 0 then [⟨arc, 0, 0⟩]
  else [⟨arc, v, 0⟩, ⟨f32add arc (f32div (f32mul v v) (f32mul f32two dec)), 0, f32div v dec⟩]

/-- The deceleration of the new stop (R374): raised just enough to rest at the path's end. -/
def stopDecel (arc v dec len : Word) : Word :=
  let left := f32sub len arc
  if f32le v 0 ∨ f32le (f32div (f32mul v v) (f32mul f32two dec)) left then dec
  else if f32le left 0 then 0x7F800000#32 else f32div (f32mul v v) (f32mul f32two left)

/-- The scan of a stop in a core's layers (R374): its samples up to the rest point, those near it to the last layer; a
sample passed before `frm` is not tested. -/
def scanStop (o : LOperands) (core : Nat) (t : Traj) (body : Word) (d : Nat) : Scan :=
  let g := gridTick o.grid
  let rest := (t.knots.getLastD ⟨0, 0, 0⟩).s
  let base : Int := (d : Int) + (t.origin - BitVec.ofNat 32 d).toInt
  let pts := (chainPts o.lib (chainStart t.row t.col) (t.prims.map (primOf o.lib))).1
  let timed := pts.filterMap fun p =>
    if f32lt rest p.arc then none
    else match (passTime t.knots p.arc).bind ticksOfSec with
      | some x => if base + x < d then none else some ({ p with tick := (base + x - d).toNat } : Pt)
      | none => none
  scanPts (fun p =>
    let a : Int := (d : Int) + p.tick
    let near := f32le (f32sub rest p.arc) body
    testPt o.grid core (layerAt g a) (if near then max 15 (layerAt g a) else layerAt g (a + 10000 * p.span)) p) 0 timed

/-- STOP (R374) on one core: the cleanness of the new stop and of the held stop in its layers. -/
def stopCompute (o : LOperands) (core : Nat) (c : Cycle) (force held : Traj) (dec emerg body : Word) : LOut :=
  let ps := force.prims.map (primOf o.lib)
  let len := (chainPts o.lib (chainStart force.row force.col) ps).2.arc
  let a := stopDecel c.arc c.v dec len
  let short := f32lt emerg a
  let t := cycleTraj c force.row force.col force.heading force.prims (stopKnots c.arc c.v a)
  let x := if short then ⟨0, 0, 0, some (0, false)⟩ else scanStop o core t body c.dTick
  let y := scanStop o core held body c.dTick
  { bytes := [], flags := short.toNat + 8 * (decide (x.beyond + y.beyond > 0)).toNat
    counts := [(4, x.tests + y.tests), (5, (!short && x.hit.isSome).toNat + y.hit.isSome.toNat), (6, x.beyond + y.beyond)]
    clocks := 64 + 6400 + 2 * (2048 + 32768) + 96
    post := some (.stop x.hit.isNone y.hit.isNone t) }

/-- What an L-core command computes. -/
def lCompute (l : LDesc) (o : LOperands) (core : Nat) (c : Cycle) (force held : Traj) (dec emerg body : Word) : LOut :=
  match l.opcode with
  | 1 => waveCompute l o
  | 2 => checkCompute l o core c
  | 3 => stopCompute o core c force held dec emerg body
  | 4 => selectCompute l o c
  | _ => ⟨[], 0, [], 64, none⟩

/-! ### What is judged at issue -/

/-- The RANGE conditions of R383 for a defined opcode on core i; `lib` is the library's size where its headers can be
read. -/
def lRangeBad (l : LDesc) (core : Nat) (lib : Option Nat) : Bool :=
  let big := match lib with
    | some n => decide (n > 4352 * 1024)
    | none => false
  match l.opcode with
  | 0 => false
  | 1 => core != 0 || l.arg == 0 || decide (l.arg > 64)
  | 2 => l.count == 0 || decide (l.count > 4096) || decide (l.arg + l.count > 16384) || l.libCount == 0 || big
  | 3 => l.libCount == 0 || big
  | _ => core != 0 || l.count == 0 || decide (l.count > 16384) || l.arg == 0 || decide (l.arg > 256) || l.libCount == 0 || big ||
      f32isNan l.ctgW || f32isNan l.timeW

/-- The bits of each word that an L-core opcode names (R382, R685). -/
def lNamed (d : List Word) : List Word :=
  let full : Word := 0xFFFFFFFF#32
  let tail : List Word := [0x3FFF#32, full, 0x3FFFFFFF#32]
  match (lDesc d).opcode with
  | 1 => [0xF0FF001C#32, 0xFFFF#32, 0xFFFF#32, 0, 0, full, 0, 0xF00#32, 0, 0, 0, 0, 0] ++ tail
  | 2 => [0xF0FF0018#32, 0xFFFF#32, full, full, full, 0, full, 0xF0FF#32, 0, 0, 0xFFF#32, 0, 0] ++ tail
  | 3 => [0xF0FF0018#32, 0xFFFF#32, 0, 0, 0, 0, full, 0xF000#32, 0, 0, 0xFFF#32, 0, 0] ++ tail
  | 4 => [0xF0FF0018#32, 0xFFFF#32, full, full, full, full, full, 0xFFFF#32, full, full, 0xFFF#32, 0, 0] ++ tail
  | _ => [0xF0FF0018#32, 0, 0, 0, 0, 0, 0, 0, 0, 0, 0, 0, 0] ++ tail

end Sys2Proof.Machine
end

