-- ==== Sys2Proof/Machine/Loop.lean ====
section
/-! DEFINITION. The loopback in progress and its end (R672 to R676). -/

namespace Sys2Proof.Machine

def testPage : Page := ⟨.test, 0⟩
def lbIdle : Nat := 0
def lbActive : Nat := 1

/-- The states of an interface unit (R651), as its page reports them. -/
def portOff : Nat := 0
def portDown : Nat := 1
def portUp : Nat := 2
def portFault : Nat := 3

/-- Whether a unit is looped. -/
def isLooped (s : State) (p : Page) : Bool := s.loop.any fun l => l.page == p

/-- A unit left by its loopback: OFF, or DOWN if it is enabled (R673). The Vuvon link stays in OFF, and PCIe has no such state. -/
def unitAfterLoop (s : State) (p : Page) : State :=
  match p.cls with
  | .eth | .can | .aphy => setPgState s p (if enabled s p then portDown else portOff)
  | .spi => setPgState s p (if enabled s p then portUp else portOff)
  | _ => s

/-- What the generator and the checker have counted where no command brings it: left open. -/
def openCounts (s : State) : LoopCount :=
  ⟨(freeAt s 0).toNat % 2 ^ 32, (freeAt s 1).toNat % 2 ^ 32, (freeAt s 2).toNat % 2 ^ 32, (freeAt s 3).setWidth 32⟩

/-- A loopback ended (R673 to R676): by a Foxglove frame with SAFETY_HOLD, else with what its checker found; LB_ERR is set with
INTEGRITY. -/
def loopEnd (s : State) (hold : Bool) : State :=
  match s.loop with
  | none => s
  | some l =>
    let c := l.count.getD (openCounts s)
    let t0 := if l.count.isSome then s else spendFree s 4
    let t := unitAfterLoop { t0 with loop := none } l.page
    let bad := decide (c.errors ≠ 0)
    let st : Status := if hold then .safetyHold else if bad then .integrity else .ok
    let u := setReg (setReg (setBusy (setPgState t testPage lbIdle) testPage false) testPage 0x10C (BitVec.ofNat 32 (statusCode st)))
      testPage 0x110 (if bad then c.first else 0)
    let v := ctrAdd (ctrAdd (ctrAdd u testPage 1 c.sent) testPage 2 c.received) testPage 3 c.errors
    if hold then ctrAdd v testPage 5 1 else if bad then setFlag v testPage 0 else v

/-- The unit's ENABLE cleared or its page reset (R673). -/
def loopUnitReset (s : State) (p : Page) : State := if isLooped s p then loopEnd s false else s

end Sys2Proof.Machine
end

