-- ==== Sys2Proof/Machine/Time.lean ====
section
/-! DEFINITION. Device time, the TICK and PTP pages and network time (chapter 02). -/

namespace Sys2Proof.Machine

/-- The states of the time base in PG_STAT[7:4] of the TICK page (R60). -/
def tbFree : Nat := 0
def tbAcquire : Nat := 1
def tbLocked : Nat := 2
def tbGm : Nat := 3
def tbHold : Nat := 4
def tbState (s : State) : Nat := pgState s tickPage

/-- The state by which a command is judged: from the acceptance of TIME_SET on, GM (R64). -/
def tbJudged (s : State) : Nat := if s.time.setPend then tbGm else tbState s

/-- Device time at the boundary of tick t (R42). -/
def boundaryNs (s : State) (t : Nat) : DWord := s.time.origin + BitVec.ofNat 64 (1000 * t)

/-- What one cycle of the 1 GHz clock adds to device time, in units of 2⁻³² ns (R41): 1 ns · (1 + FREQ_ADJ · 10⁻⁶). PRESUMED: FREQ_ADJ is
rounded down to the resolution of the fraction (log 16). -/
def cycleStep (s : State) : Nat := (4294967296 + s.time.freqAdj.toInt / 1000000).toNat

/-- The tick-time of boundary t in units of 2⁻³² ns (R42). -/
def boundaryInst (t : Nat) : Nat := t * (1000 * 2 ^ 32)

/-- The tick-time of the cycle at which a read completes (R45, R56): a free number of cycles after the last one shown, at most to the
boundary that ends the tick. -/
def instNext (s : State) : Nat :=
  let step := cycleStep s
  s.time.inst + (freeAt s 0).toNat % ((boundaryInst (now s) - s.time.inst) / step + 1) * step

/-- The first cycle of the clock after the boundary that ends the present tick. -/
def instBegin (s : State) : Nat :=
  let step := cycleStep s
  s.time.inst + ((boundaryInst (now s) - s.time.inst) / step + 1) * step

/-- Device time in units of 2⁻³² ns at the instant of a read (R45, R56). -/
def instantNow (s : State) : Nat := s.time.origin.toNat * 2 ^ 32 + instNext s

/-- The clock has come to the instant last shown. -/
def advanceInst (s : State) : State := spendFree { s with time := { s.time with inst := instNext s } } 1

/-- Position B follows its mate's ticks (R601): the link is in ALIGN, RESYNC or PAIRED. -/
def pairFollows (s : State) : Bool := isPair s && s.dev.pairPos && [vlAlign, vlResync, vlPaired].contains (linkState s)

/-- TIME_STAT (R57); ROLE reads 0b11 while B follows its mate (R601). -/
def timeStat (s : State) : Word :=
  let t := s.time
  BitVec.ofNat 32 (16 * (if pairFollows s then 3 else t.role.toNat) + 8 * t.freqClamp.toNat + 4 * t.timeFault.toNat + 2 * t.stepDone.toNat + t.locked.toNat)

/-- OFFSET_LAST saturates at ±(2³¹ − 1) (R75). -/
def offsetLast (s : State) : Word := BitVec.ofInt 32 (clampI (-2147483647) 2147483647 s.time.offset)
where
  clampI (lo hi x : Int) : Int := max lo (min hi x)

def tsqHead (s : State) : Option TsEntry := s.time.tsq.head?

/-- TSQ_ENTRY0 to TSQ_ENTRY3 of the head entry; zero where the queue is empty (R75). -/
def tsqWord (s : State) (i : Nat) : Word :=
  match tsqHead s with
  | none => 0
  | some e =>
    match i with
    | 0 => BitVec.ofNat 32 (e.frameId.toNat * 65536 + e.port.toNat * 4096 + e.mtype.toNat * 256 + 1)
    | 1 => e.ns.setWidth 32
    | 2 => (e.ns >>> 32).setWidth 32
    | _ => e.frac

/-- The registers of the TICK and PTP pages that show the time base and the queue. -/
def timeView (s : State) (p : Page) (off : Nat) : Option Word :=
  match p.cls with
  | .tick =>
    if off = 0x100 then some (nowW s)
    else if off = 0x108 then some (BitVec.ofNat 32 (instantNow s / 2 ^ 32))
    else if off = 0x114 then some (timeStat s)
    else if off = 0x118 then some (s.time.origin.setWidth 32)
    else if off = 0x11C then some ((s.time.origin >>> 32).setWidth 32)
    else if off = 0x120 then some (s.time.freqAdj.setWidth 32)
    else if off = 0x124 then some ((s.time.freqAdj >>> 32).setWidth 32)
    else none
  | .ptp =>
    if off = 0x10C then some (offsetLast s)
    else if off = 0x110 then some (BitVec.ofNat 32 (min s.time.tsq.length 64))
    else if off = 0x114 then some (tsqWord s 0)
    else if off = 0x118 then some (tsqWord s 1)
    else if off = 0x11C then some (tsqWord s 2)
    else if off = 0x120 then some (tsqWord s 3)
    else none
  | _ => none

def ptpEnabled (s : State) : Bool := regBit s ptpPage 0x100 0

/-- How many ports PTP_PORTS enables. -/
def ptpPorts (s : State) : Nat := ((List.range 16).filter fun i => regBit s ptpPage 0x104 i).length

/-- A signed byte of PTP_INTV within its range (R65). -/
def intvOk (v : Word) : Bool :=
  let sb (lo : Nat) : Int := (BitVec.ofNat 8 (field v (lo + 7) lo)).toInt
  decide (-7 ≤ sb 0 ∧ sb 0 ≤ 0 ∧ -3 ≤ sb 8 ∧ sb 8 ≤ 3 ∧ -3 ≤ sb 16 ∧ sb 16 ≤ 3)

/-- RANGE and STATE_ILLEGAL of a write to the TICK or PTP page, in that order (R58, R64, R72); a B that leaves its time base
to the mate refuses TIME_SET (R601). -/
def timeCheck (s : State) (p : Page) (off : Nat) (v : Word) : Option Status :=
  match p.cls with
  | .tick =>
    if off = 0x130 then
      if field v 1 0 ≥ 2 then some .range
      else if field v 1 0 = 1 ∧ (tbJudged s ≠ tbFree ∨ pairHoldsTime s) then some .stateIllegal
      else none
    else none
  | .ptp =>
    if off = 0x100 then
      if bit v 0 ∧ ((¬ bit v 1 ∧ ptpPorts s > 4) ∨ ptpPorts s > 12) then some .range
      else if ptpEnabled s ∧ v ≠ setBit (regVal s ptpPage 0x100) 0 false then some .stateIllegal
      else none
    else if off = 0x104 then if ptpEnabled s then some .stateIllegal else none
    else if off = 0x108 then if intvOk v then none else some .range
    else none
  | _ => none

/-- A comparator armed, or its value changed while armed: LATE is owed when the value is already reached (R53). -/
def cmpArmed (s : State) (n : Nat) : State :=
  let late := regBit s tickPage (0x160 + 4 * n) 0 && reached (nowW s) (regVal s tickPage (0x140 + 4 * n))
  { s with time := { s.time with cmpLate := setLate s.time.cmpLate n late } }
where
  setLate (b : Byte) (n : Nat) (x : Bool) : Byte :=
    (b &&& ~~~(BitVec.ofNat 8 (1 <<< n))) ||| (if x then BitVec.ofNat 8 (1 <<< n) else 0)

/-- TIME_SET accepted (R64): the step to the value that TIME_SET holds now, at the next boundary. -/
def timeSetAccept (s : State) : State :=
  let target := (regVal s tickPage 0x12C).toNat * 2 ^ 32 + (regVal s tickPage 0x128).toNat
  let off : Int := Int.ofNat target - Int.ofNat (boundaryNs s (now s)).toNat
  atBoundary { s with time := { s.time with setPend := true } } (.timeStep off false)

/-- The effect of an accepted write on the TICK or PTP page, after its bits are stored. -/
def timeAct (s : State) (p : Page) (off : Nat) (v old : Word) : State :=
  match p.cls with
  | .tick =>
    if off = 0x130 then if field v 1 0 = 1 then timeSetAccept s else s
    else if 0x140 ≤ off ∧ off < 0x160 then cmpArmed s ((off - 0x140) / 4)
    else if 0x160 ≤ off ∧ off < 0x180 then cmpArmed s ((off - 0x160) / 4)
    else s
  | .ptp =>
    if off = 0x100 then
      if bit old 0 then
        -- ENABLE cleared: PTP stops at the next boundary (R72)
        atBoundary (setReg s ptpPage 0x100 (setBit (regVal s ptpPage 0x100) 0 true)) .ptpStop
      else if bit v 0 then { s with time := { s.time with role := 1, run := [], lastSync := now s } }
      else s
    else s
  | _ => s

/-- The time base leaves GM when the grandmaster role is lost (R62, R63): LOCKED, with no step. -/
def gmLost (s : State) : State :=
  if tbState s = tbGm then setPgState s tickPage tbLocked else s

/-- Whether an action of the boundary is the first-lock step (R66). -/
def isFirstStep (a : BAct) : Bool :=
  match a with
  | .timeStep _ first => first
  | _ => false

/-- GM entered (R62, R63): STEP_DONE is set whether or not TIME_SET was used, and a first-lock step that awaits its boundary is not
made any more (R67: no step after STEP_DONE). -/
def enterGm (s : State) : State :=
  let t := setPgState { s with atTick := s.atTick.filter fun a => !(isFirstStep a) } tickPage tbGm
  { t with time := { t.time with stepDone := true, locked := false, run := [], lockPend := false } }

/-- The step of R44 at a tick boundary: the first lock enters LOCKED (R66), TIME_SET enters GM (R64). -/
def applyTimeStep (s : State) (off : Int) (first : Bool) : State :=
  let t := { s with time := { s.time with origin := s.time.origin + BitVec.ofInt 64 off, setPend := false, lockPend := false } }
  if first then
    let u := setPgState t tickPage tbLocked
    { u with time := { u.time with stepDone := true, locked := true, run := [] } }
  else enterGm t

/-- PTP stops (R72): the role is given up, and a grandmaster's time base goes to LOCKED. -/
def applyPtpStop (s : State) : State :=
  let t := setRegField s ptpPage 0x100 0 0 0
  let u := if t.time.role = 2 then gmLost t else t
  { u with time := { u.time with role := 0, locked := false } }

/-- The servo (R67): the demand held within ±200 ppm, FREQ_CLAMP for as long as it exceeds them, and one change of FREQ_ADJ a tick. A
further measurement of the tick is summed and changes nothing else. DESIGN CHOICE (log 16): while the servo does not act (GM, HOLD, PTP
stopped), FREQ_CLAMP shows what its last demand left. -/
def servo (s : State) (off : Int) : State :=
  let limit : Int := 858993459200
  let u := { s with time := { s.time with integ := s.time.integ + off, locked := true } }
  if s.time.adjAt = some (now s) then u
  else
    let d := Config.servoDemand off u.time.integ s.time.freqAdj.toInt s.time.syncs
    let c := max (-limit) (min limit d)
    let t := { u with time := { u.time with freqAdj := BitVec.ofInt 48 c, freqClamp := decide (d ≠ c), adjAt := some (now s) } }
    if d ≠ c then setFlag t tickPage 1 else t

/-- HOLD entered (R68): TIME_FAULT, with FREQ_ADJ frozen. -/
def enterHold (s : State) : State :=
  let t := setFlag (setPgState s tickPage tbHold) tickPage 0
  { t with time := { t.time with timeFault := true, locked := false } }

/-- A measurement in LOCKED (R67, R68). -/
def lockedMeasure (s : State) (off : Int) : State :=
  if off > 1000000 ∨ off < -1000000 then enterHold s else servo s off

/-- Offsets that agree with one another within 500 ns (R66). -/
def agrees (run : List Int) (off : Int) : Bool := run.all fun x => decide ((x - off).natAbs ≤ 500)

/-- Ticks of one Sync interval (R65). -/
def syncInterval (s : State) : Nat :=
  let e := (BitVec.ofNat 8 (regField s ptpPage 0x108 7 0)).toInt
  1000000 / 2 ^ (-e).toNat

/-- The run of agreeing offsets after a measurement in ACQUIRE (R66). DEDUCED (log 16): a Sync whose offset does not agree with those
before it, and that has a valid link delay, is itself the first of the new run. -/
def nextRun (s : State) (off : Int) (delayOk gap : Bool) : List Int :=
  if !delayOk then []
  else
    let r := if gap then [] else s.time.run
    if agrees r off then r ++ [off] else [off]

/-- A measurement in ACQUIRE: the fourth agreeing offset is the first lock (R66). -/
def acquireMeasure (s : State) (off : Int) (delayOk : Bool) : State :=
  if s.time.lockPend then s
  else
    let gap := decide (now s ≥ s.time.lastSync + 2 * syncInterval s)
    let r := nextRun s off delayOk gap
    let t := { s with time := { s.time with run := r } }
    if r.length ≥ 4 then atBoundary { t with time := { t.time with lockPend := true } } (.timeStep off true) else t

/-- A Sync measurement of a follower, from the network or from the mate (R62, R66 to R69). -/
def syncMeasure (s : State) (off : Int) (delayOk : Bool) : State :=
  let t := if delayOk then { s with time := { s.time with offset := off, syncs := s.time.syncs + 1 } } else s
  let u :=
    if tbState t = tbFree then
      let v := setPgState t tickPage tbAcquire
      { v with time := { v.time with run := [] } }
    else if tbState t = tbAcquire then acquireMeasure t off delayOk
    else if tbState t = tbLocked then if delayOk then lockedMeasure t off else t
    else if tbState t = tbGm then
      let v := setPgState t tickPage tbLocked
      if delayOk then lockedMeasure v off else v
    else t
  { u with time := { u.time with lastSync := now s } }

/-- SYNC_RECEIVED (R66): a Sync has effect while PTP runs, the device follows, and a B has its time base to itself (R601). -/
def execSyncReceived (offset : Int) (delayOk : Bool) (s : State) : Res :=
  .next (if ptpEnabled s ∧ s.time.role = 1 ∧ !(pairHoldsTime s) then syncMeasure s offset delayOk else s)

/-- SYNC_RECEIPT_TIMEOUT (R69): LOCKED is cleared in TIME_STAT, FREQ_ADJ is held, SYNC_LOST is set; a run of
offsets is broken (R66). -/
def execSyncReceiptTimeout (s : State) : Res :=
  .next (if ptpEnabled s ∧ s.time.role = 1 ∧ now s ≥ s.time.lastSync + 3 * syncInterval s then
    setFlag { s with time := { s.time with locked := false, run := [] } } ptpPage 2
  else s)

/-- PDELAY_FAIL (R77): a port of PTP lacked a valid link delay for three Pdelay intervals. -/
def execPdelayFail (port : Fin 16) (s : State) : Res :=
  .next (if ptpEnabled s ∧ regBit s ptpPage 0x104 port then setFlag s ptpPage 1 else s)

/-- GRANDMASTER_ROLE_CHANGE (R62, R63, R68): HOLD never takes the grandmaster role, and the role is taken only where
PTP_CTRL allows it (R76) and no B follows its mate (R601). -/
def execGrandmasterRoleChange (role : BitVec 2) (s : State) : Res :=
  .next (
    if !(ptpEnabled s) ∨ pairHoldsTime s then s
    else if role = 2 then
      if tbState s = tbHold ∨ ¬ regBit s ptpPage 0x100 2 ∨ regField s ptpPage 0x100 23 16 = 0xFF then s
      else
        let t := enterGm s
        { t with time := { t.time with role := 2 } }
    else if role = 0 then s
    else
      let t := if s.time.role = 2 then gmLost s else s
      { t with time := { t.time with role := role } })

/-- The compare value after a periodic match: the first of C + k·PERIOD that is not yet reached (R55). -/
def nextCompare (t c period : Word) : Word :=
  c + BitVec.ofNat 32 (period.toNat * ((t - c).toNat / period.toNat + 1))

/-- A comparator that is armed and reached (R52, R53), with what is in force now. -/
def cmpReached (s : State) (n : Nat) : Option CmpDue :=
  if regBit s tickPage (0x160 + 4 * n) 0 && reached (nowW s) (regVal s tickPage (0x140 + 4 * n)) then
    some ⟨n, regVal s tickPage (0x140 + 4 * n), regVal s tickPage (0x160 + 4 * n), s.time.cmpLate.getLsbD n⟩
  else none

/-- The comparators that are reached when a tick begins (R54). -/
def cmpEval (s : State) : State := { s with time := { s.time with cmpDue := (List.range 8).filterMap (cmpReached s) } }

/-- The registers of a comparator after its match (R55, R59): the next value of the series, or ARM cleared. A write of the same tick
takes effect after the match (R54, R80) and stands. -/
def cmpNext (s : State) (d : CmpDue) : State :=
  let ctl := 0x160 + 4 * d.n
  let val := 0x140 + 4 * d.n
  let period := field d.ctl 31 16
  if regVal s tickPage val ≠ d.c ∨ regField s tickPage ctl 31 16 ≠ period ∨ !(regBit s tickPage ctl 0) then s
  else
    let t := { s with time := { s.time with cmpLate := cmpArmed.setLate s.time.cmpLate d.n false } }
    if period = 0 then clearReg t tickPage ctl 1 else setReg t tickPage val (nextCompare (nowW s) d.c (BitVec.ofNat 32 period))

/-- TICK_CMP_MATCH (R52 to R55): a comparator that the tick found reached sets MATCHED, and LATE where it was owed. -/
def execTickCmpMatch (n : Fin 8) (s : State) : Res :=
  .next (
    match s.time.cmpDue.find? fun d => d.n == n.val with
    | none => s
    | some d =>
      let t := orReg { s with time := { s.time with cmpDue := s.time.cmpDue.filter fun x => x.n != n.val } } tickPage (0x160 + 4 * n.val)
        (if d.late then 0x6 else 0x2)
      let w := cmpNext t d
      if regBit w devPage 0x124 n.val then w else irq w 0 2 (.compare n.val))

/-- Whether transmit timestamps go to the queue (R71: the largest configuration). -/
def tsqInUse (s : State) : Bool :=
  ptpEnabled s && (regBit s ptpPage 0x100 1 || decide (ptpPorts s ≥ 5))

/-- TSQ_PUSH (R73, R74): queued while fewer than 64 entries stand; otherwise held until the pops of this tick are
known (the queue is full only if 64 entries remain after them). -/
def execTsqPush (frameId : Half) (port mtype : BitVec 4) (ns : DWord) (frac : Word) (s : State) : Res :=
  let e : TsEntry := ⟨frameId, port, mtype, ns, frac⟩
  .next (
    if !(tsqInUse s) then s
    else if s.time.tsqLate.isEmpty && decide (s.time.tsq.length < 64) then { s with time := { s.time with tsq := s.time.tsq ++ [e] } }
    else { s with time := { s.time with tsqLate := s.time.tsqLate ++ [e] } })

/-- The end of a tick for the queue: held entries take the places that pops freed; the others are discarded, with
TSQ_OVF and the overflow counter (R74). -/
def tsqSettle (s : State) : State :=
  let room := 64 - s.time.tsq.length
  let lost := (s.time.tsqLate.drop room).length
  let t := { s with time := { s.time with tsq := s.time.tsq ++ s.time.tsqLate.take room, tsqLate := [] } }
  if lost = 0 then t
  else
    let c := min ((regVal t ptpPage 0x124).toNat + lost) 0xFFFFFFFF
    setFlag (setReg t ptpPage 0x124 (BitVec.ofNat 32 c)) ptpPage 0

/-- A read of TSQ_ENTRY3 pops the head entry (R75). -/
def tsqPopHead (s : State) : State := { s with time := { s.time with tsq := s.time.tsq.drop 1 } }

end Sys2Proof.Machine
end

