-- ==== Sys2Proof/Machine/Sensors.lean ====
section
/-! DEFINITION. The sensor front end (chapter 08): A-PHY ports (R311 to R317, R343), lidar sources (R318, R319), fusion
instants (R320 to R324), and what their registers check. -/

namespace Sys2Proof.Machine

def aphyPage (p : Nat) : Page := ⟨.aphy, p⟩
def ethPage (p : Nat) : Page := ⟨.eth, p⟩

/-- The states of an A-PHY port (R343). -/
def apOff : Nat := 0
def apDown : Nat := 1
def apUp : Nat := 2
def apStream : Nat := 3
def apStalled : Nat := 4

def noPort : PortSt := ⟨0, 0, false, [], none, none, false, false, false⟩
def portSt (s : State) (p : Nat) : PortSt := smGet noPort s.sens.ports p
def setPort (s : State) (p : Nat) (x : PortSt) : State := { s with sens := { s.sens with ports := smSet noPort s.sens.ports p x } }

def noLidar : LidarSt := ⟨0, 0, none, [], none, 0, 0, false, false⟩
def lidarSt (s : State) (i : Nat) : LidarSt := smGet noLidar s.sens.lidars i
def setLidar (s : State) (i : Nat) (x : LidarSt) : State := { s with sens := { s.sens with lidars := smSet noLidar s.sens.lidars i x } }

def noInst : InstSt := ⟨[], none, false⟩
def instSt (s : State) (p : Nat) : InstSt := smGet noInst s.sens.insts p
def setInst (s : State) (p : Nat) (x : InstSt) : State := { s with sens := { s.sens with insts := smSet noInst s.sens.insts p x } }

/-- Whether the time base is in LOCKED or GM. -/
def timeLocked (s : State) : Bool := tbState s == tbLocked || tbState s == tbGm

/-- The log of R325's TIME_UNLOCKED, kept at each tick. -/
def logLock (s : State) : State :=
  let b := timeLocked s
  match s.sens.lockLog with
  | (_, x) :: _ => if x = b then s else { s with sens := { s.sens with lockLog := (now s, b) :: s.sens.lockLog } }
  | [] => { s with sens := { s.sens with lockLog := [(now s, b)] } }

/-- Whether the time base was in LOCKED or GM at a tick. -/
def lockedAt (s : State) (t : Int) : Bool :=
  match s.sens.lockLog.find? fun p => decide ((p.1 : Int) ≤ t) with
  | some p => p.2
  | none => false

/-- Sensor writes go through the owner's page table; one that cannot be written is lost. -/
def sensorWrite (s : State) (part a : Nat) (bs : List Byte) : State :=
  if writeRange s part a bs.length true false = .ok then writeBytes s part a bs else s

/-- Bytes that the spec leaves undefined (R15), given where a sample left a part of its buffer unwritten. -/
def sensorSpoil (s : State) (part a n : Nat) : State := spendBytes (sensorWrite s part a (freeBytes s n)) n

/-! ### Samples and the release rule -/

/-- The release rule of R313 for frame k of a ring of n buffers. -/
def released (rel rel0 : Word) (k n : Nat) : Bool := decide (0 ≤ (rel - rel0 - BitVec.ofInt 32 ((k : Int) - n + 1)).toInt)

/-- Whether the consumer has released frame k's buffer. -/
def bufferReleased (rel rel0 : Word) (k : Nat) : Bool := decide (0 ≤ (rel - rel0 - BitVec.ofNat 32 (k + 1)).toInt)

def slotPage (slot : Nat) : Page := if slot < 16 then aphyPage slot else ethPage (slot - 16)
/-- The counter slot of a sample counter (R351). -/
def slotCtr (slot n : Nat) : Nat := if slot < 16 then n else n + 5
def countSample (s : State) (slot n : Nat) : State := ctrAdd s (slotPage slot) (slotCtr slot n) 1

/-- The RELTALLY of a slot. -/
def slotRel (s : State) (slot : Nat) : Word :=
  tallyVal s (if slot < 16 then regField s (aphyPage slot) 0x124 13 0 else regField s (ethPage (slot - 16)) 0x61C 29 16)

/-- The device time of a tick's instant (R42). -/
def tickTime (s : State) (tick : Int) : DWord := s.time.origin + BitVec.ofInt 64 (1000 * tick)

/-- The 32-byte record of a sample (R314). SAMPLE_TIME was taken when the sample began: a later step does not rewrite it (R70). -/
def sampleRecord (slot seq : Nat) (tick : Int) (time : DWord) (arrival health fn buf rows : Nat) : List Byte :=
  let lo (x : Int) : Nat := (x % (2 ^ 32 : Int)).toNat
  natBytes 4 seq ++ natBytes 4 (lo tick) ++ natBytes 4 arrival ++
    natBytes 8 time.toNat ++
    natBytes 2 health ++ natBytes 2 fn ++ [BitVec.ofNat 8 slot, BitVec.ofNat 8 buf] ++ natBytes 2 rows ++ natBytes 4 0

/-! ### Fusion instants -/

def instPage (p : Nat) : Page := partPage p
def instEnabled (s : State) (p : Nat) : Bool := regBit s (instPage p) 0x600 0
def instTick (s : State) (p n : Nat) : Nat := regField s (instPage p) 0x604 15 0 + 50000 * n
def instClose (s : State) (p n : Nat) : Nat := instTick s p n + 12000

/-- The first instant at or after a sample tick (R320). -/
def instantOf (s : State) (p : Nat) (t : Int) : Nat :=
  let d : Int := t - regField s (instPage p) 0x604 15 0
  if d ≤ 0 then 0 else ((d + 49999) / 50000).toNat

/-- The first instant whose close is at or after a tick (R321). -/
def closeAfter (s : State) (p : Nat) (a : Nat) : Nat := instantOf s p ((a : Int) - 12000)

/-- The instant that a sample is offered to, and whether it is carried there (R320, R321). -/
def offeredTo (s : State) (p : Nat) (x : Sample) : Nat × Bool :=
  let n := instantOf s p x.tick
  if x.arrival ≤ instClose s p n then (n, false) else (closeAfter s p x.arrival, true)

/-- A completed sample: discarded when it is stamped ahead (R310), else offered to the owner's instant unit. -/
def offerSample (s : State) (part : Nat) (x : Sample) : State :=
  if x.tick > x.arrival then setFlag (countSample s x.slot 3) (slotPage x.slot) 0
  else if !(instEnabled s part) || !(regBit s (instPage part) 0x608 x.slot) then s
  else
    let late := (offeredTo s part x).2
    let t := if late then countSample s x.slot 4 else s
    setInst t part { instSt t part with samples := (instSt t part).samples ++ [x] }

/-- A carried sample that may still be used at an instant (R321). -/
def carriedOk (s : State) (p n : Nat) (x : Sample) : Bool :=
  decide ((instTick s p n : Int) - x.tick ≤ 100000) && !(bufferReleased (slotRel s x.slot) x.rel0 x.seq)

/-- Ascending sample tick, ties by SEQ. -/
def sampleLe (a b : Sample) : Bool := decide (a.tick < b.tick ∨ (a.tick = b.tick ∧ a.seq ≤ b.seq))

/-- Descending sample tick, ties to the lower SEQ: the order in which R322 keeps samples. -/
def newerLe (a b : Sample) : Bool := decide (b.tick < a.tick ∨ (a.tick = b.tick ∧ a.seq ≤ b.seq))

/-- The selection of one slot (R322): what is used, and how many candidates are dropped as superseded and as
overflow. -/
def selectSlot (all : Bool) (onTime carried : List Sample) : List InstEntry × Nat × Nat :=
  if all then
    let c := (onTime.map fun x => (⟨x, false⟩ : InstEntry)) ++ carried.map fun x => ⟨x, true⟩
    let newest := (c.mergeSort fun a b => newerLe a.sample b.sample).take 64
    (newest.mergeSort fun a b => sampleLe a.sample b.sample, 0, c.length - 64)
  else
    let best (l : List Sample) : Option Sample :=
      l.foldl (fun b x => match b with
        | none => some x
        | some y => if x.tick > y.tick ∨ (x.tick = y.tick ∧ x.seq < y.seq) then some x else some y) none
    match best onTime, best carried with
    | some x, _ => ([⟨x, false⟩], onTime.length + carried.length - 1, 0)
    | none, some y => ([⟨y, true⟩], carried.length - 1, 0)
    | none, none => ([], 0, 0)

/-- What one slot gives at the close of an instant: its entries, how many were dropped, and the counters moved. -/
def closeSlot (p n slot : Nat) (mine : List Sample) (x : State × List InstEntry × Nat) : State × List InstEntry × Nat :=
  let s := x.1
  let here := mine.filter fun y => y.slot = slot
  let onTime := here.filter fun y => !(offeredTo s p y).2
  let late := here.filter fun y => (offeredTo s p y).2
  let ok := late.filter (carriedOk s p n)
  let sel := selectSlot (regBit s (instPage p) 0x60C slot) onTime ok
  let gone := (late.length - ok.length) + sel.2.1
  let used := (sel.1.filter fun e => e.carried).length
  let t := ctrAdd (ctrAdd s (slotPage slot) (slotCtr slot 5) used) (slotPage slot) (slotCtr slot 6) gone
  (t, x.2.1 ++ sel.1, x.2.2 + gone + sel.2.2)

/-- INSTANT_CLOSE (R320 to R322): at the tick of a close of the partition's unit. -/
def execInstantClose (p : Part) (s : State) : Res :=
  .next (
    let ph := regField s (instPage p) 0x604 15 0
    if !(instEnabled s p) ∨ now s < ph + 12000 ∨ (now s - ph - 12000) % 50000 ≠ 0 then s
    else
      let n := (now s - ph - 12000) / 50000
      let u := instSt s p
      let mine := u.samples.filter fun x => (offeredTo s p x).1 ≤ n
      let r := (List.range 24).foldl (fun x slot => closeSlot p n slot mine x) (s, [], 0)
      setInst r.1 p { u with samples := u.samples.filter (fun x => (offeredTo s p x).1 > n), table := some ⟨n, r.2.1, r.2.2⟩ })

/-- The bytes of an instant table (R324), padded to 32 KiB. -/
def tableBytes (s : State) (p : Nat) (t : InstTable) : List Byte :=
  let tick := instTick s p t.number
  let mask (f : InstEntry → Bool) : Nat := ((List.range 24).map fun k => if t.entries.any fun e => e.sample.slot == k && f e then 2 ^ k else 0).sum
  let entry (e : InstEntry) : List Byte :=
    [BitVec.ofNat 8 e.sample.slot, BitVec.ofNat 8 e.carried.toNat] ++
      natBytes 2 (e.sample.health + if e.carried then 512 else 0) ++ natBytes 4 e.sample.seq ++
      natBytes 4 (((tick : Int) - e.sample.tick) % (2 ^ 32 : Int)).toNat ++ natBytes 4 (e.sample.tick % (2 ^ 32 : Int)).toNat
  let body := natBytes 8 tick ++ natBytes 4 t.number ++ natBytes 4 (tick + 12000) ++ natBytes 4 (mask fun _ => true) ++
    natBytes 4 (mask fun e => e.carried) ++ natBytes 2 t.entries.length ++ natBytes 2 0 ++ natBytes 2 t.dropped ++
    List.replicate 34 0 ++ t.entries.flatMap entry
  body ++ List.replicate (32768 - body.length) 0

/-- The INPUT_DIGEST of an instant table (R607). -/
def tableDigest (s : State) (p : Nat) (t : InstTable) : List Byte :=
  let bs := tableBytes s p { t with entries := t.entries.map fun e => { e with sample := { e.sample with seq := 0 } } }
  let d := (sha384 bs).take 16
  [0xFF#8, 1] ++ natBytes 2 p ++ natBytes 4 t.number ++ bs.take 4 ++ d.take 8 ++ d.drop 8 ++ natBytes 4 0

/-- INSTANT_TABLE_WRITE (R323): the closed table goes to its slot and IR_TALLY advances; a disable that awaited it takes
effect (R344). -/
def execInstantTableWrite (p : Part) (s : State) : Res :=
  .next (
    let u := instSt s p
    match u.table with
    | none => s
    | some t =>
      let a := regField s (instPage p) 0x610 27 0 * pageBytes + t.number % 4 * 32768
      let d := sendDigest (sensorWrite s p a (tableBytes s p t)) p (tableDigest s p t)
      let w := tallyAdd d (regField s (instPage p) 0x614 13 0) 1
      if u.stop then clearReg (setInst w p noInst) (instPage p) 0x600 1 else setInst w p { u with table := none })

/-! ### A-PHY ports -/

def apRows (s : State) (p : Nat) : Nat := regField s (aphyPage p) 0x104 31 16
def apCols (s : State) (p : Nat) : Nat := regField s (aphyPage p) 0x104 15 0
def apPitch (s : State) (p : Nat) : Nat := roundUp (2 * apCols s p) 64
def apBufPages (s : State) (p : Nat) : Nat := ceilDiv (apRows s p * apPitch s p + 4096) pageBytes
def apBuf (s : State) (p k : Nat) : Nat :=
  (regField s (aphyPage p) 0x10C 27 0 + k % regField s (aphyPage p) 0x110 3 0 * apBufPages s p) * pageBytes
def apRec (s : State) (p k : Nat) : Nat :=
  addr44 (regField s (aphyPage p) 0x118 3 0) (regVal s (aphyPage p) 0x114).toNat + k % regField s (aphyPage p) 0x110 3 0 * 32

/-- The 64-bit FNV-1a hash of the sampled pixels (R315). -/
def fnv1a (bs : List Nat) : Nat :=
  bs.foldl (fun h b => ((h ^^^ b) * 0x00000100000001B3) % 2 ^ 64) 0xCBF29CE484222325
def frameHash (f : FrameRx) : Nat :=
  fnv1a ((List.range 4096).flatMap fun i => let v := smGet 0 f.samp i; [v % 256, v / 256 % 256])

/-- The pixels of a row that R315 samples, by place. -/
def sampleRow (s : State) (p r : Nat) (px : List Half) (m : SMap Nat) : SMap Nat :=
  (List.range 64).foldl (fun m i =>
    if (2 * i + 1) * apRows s p / 128 = r then
      (List.range 64).foldl (fun m j => smSet 0 m (64 * i + j) (px.getD ((2 * j + 1) * apCols s p / 128) 0).toNat) m
    else m) m

/-- The flags of the frame-number check (R316); a frame dropped since the last accepted one shows as FN_JUMP. -/
def fnFlags (s : State) (p fn : Nat) (prev : Option Nat) (missed : Bool) : Nat :=
  let chk := regVal s (aphyPage p) 0x128
  match prev with
  | none => 0
  | some f =>
    if ¬ bit chk 16 ∨ fn = 0 then 0
    else
      let want := if f = field chk 15 0 then 1 else f + 1
      if missed then 16 else if fn = f then 8 else if fn = want then 0 else 16

/-- The INPUT_DIGEST of a sample (R607). -/
def sampleDigest (slot health key : Nat) (tick : Int) (hash rows : Nat) : List Byte :=
  [BitVec.ofNat 8 slot, 0] ++ natBytes 2 health ++ natBytes 4 key ++ wordBytes (BitVec.ofInt 32 tick) ++ natBytes 8 hash ++
    natBytes 4 rows ++ List.replicate 8 0

/-- The rows that a cut frame leaves undefined (R317): those from ROWS_RCVD on. -/
def spoilRows (s : State) (p : Nat) (f : FrameRx) (k : Nat) : State :=
  (List.range (apRows s p - f.rows)).foldl (fun t i =>
    sensorSpoil t (pageOwner s (aphyPage p)) (apBuf s p k + (f.rows + i) * apPitch s p) (2 * apCols s p)) s

/-- A frame delivered (R312 to R317, R557): whole at Frame End, or cut short. A frozen-frame detector that is `blind` flags no match: in
the self-check of STREAM_START that is device-fatal (R346). -/
def deliverFrame (s : State) (p : Nat) (f : FrameRx) (more : Nat) (blind : Bool) : State :=
  let pg := aphyPage p
  let x := portSt s p
  let part := pageOwner s pg
  let h := frameHash f
  let unlocked := if lockedAt s f.tick then 0 else 128
  let frozen := if (x.inject || x.hashes.contains h) && !blind then 4 else 0
  let fnf := fnFlags s p f.fn x.fnPrev x.missed
  let health := f.bad ||| more ||| unlocked ||| frozen ||| fnf
  let n := regField s pg 0x110 3 0
  let total := ceilDiv (apRows s p) (regField s pg 0x11C 6 0)
  let cut := if bit (BitVec.ofNat 32 more) 5 then spoilRows s p f x.k else s
  let t := sensorWrite cut part (apRec s p x.k) (sampleRecord p x.k f.tick f.time (now s) health f.fn (x.k % n) f.rows)
  let u := if total > f.adds then tallyAdd t (regField s pg 0x120 13 0) (total - f.adds) else t
  let v := setReg (setReg (setReg u pg 0x130 (BitVec.ofNat 32 (health * 65536 + f.fn)))
    pg 0x134 (BitVec.ofNat 32 h)) pg 0x138 (BitVec.ofNat 32 (h / 2 ^ 32))
  let w := if frozen ≠ 0 then ctrAdd v pg 7 1 else v
  let y := if fnf ≠ 0 then ctrAdd w pg 8 1 else w
  let z := if health % 2 = 1 then ctrAdd y pg 9 1 else y
  let d := sendDigest z part (sampleDigest p health f.fn f.tick h f.rows)
  let next := { x with k := x.k + 1, hashes := (h :: x.hashes).take 4, fnPrev := some f.fn, frame := none, inject := false, check := false
                       missed := false }
  let o := offerSample (advanceInst (setPort d p next)) part
    { slot := p, seq := x.k, tick := f.tick, arrival := now s, health := health, rel0 := x.rel0, digest := h + f.rows * 2 ^ 64
      stamp := instantNow d }
  if x.check ∧ frozen = 0 then deviceFatal (setFlag o pg 2) pg 1 else o

/-- FRAME_START (R309, R313, R317): of the port's virtual channel, while it streams. -/
def execFrameStart (port : Fin 16) (vc : BitVec 5) (fn : Half) (s : State) : Res :=
  .next (
    let pg := aphyPage port
    if pgState s pg ≠ apStream ∨ vc.toNat ≠ regField s pg 0x100 31 27 then s
    else
      let s := match (portSt s port).frame with
        | some f => deliverFrame s port f 32 false
        | none => s
      let x := portSt s port
      if released (slotRel s port) x.rel0 x.k (regField s pg 0x110 3 0) then
        let tick := (now s : Int) - regField s pg 0x108 15 0
        let f : FrameRx := ⟨fn.toNat, tick, tickTime s tick, 0, 0, 0, 0, 0, []⟩
        ctrAdd (setPort s port { x with frame := some f }) pg 1 1
      else setFlag (ctrAdd (setPort s port { x with missed := true }) pg 2 1) pg 0)

/-- The bits of a pixel of a data type, right-justified (R311). -/
def pixelBits (dt : Nat) : Nat := if dt = 0x2B then 10 else if dt = 0x2C then 12 else if dt = 0x2D then 14 else 16

/-- LINE_RECEIVED (R311, R312): a line of the port's data type is written to its row unless its CRC fails; embedded lines
go to the last 4 KiB of the buffer; other lines are ignored. -/
def execLineReceived (port : Fin 16) (vc : BitVec 5) (dt : BitVec 6) (data : List Half) (crcOk ecc : Bool) (s : State) : Res :=
  .next (
    let pg := aphyPage port
    let x := portSt s port
    match x.frame with
    | none => s
    | some f =>
      let part := pageOwner s pg
      let bad := f.bad ||| (if crcOk then 0 else 1) ||| (if ecc then 2 else 0)
      if vc.toNat ≠ regField s pg 0x100 31 27 then s
      else if dt.toNat = 0x12 then
        let room := data.take (4096 - f.emb)
        let a := apBuf s port x.k + apBufPages s port * pageBytes - 4096 + f.emb
        let t := if crcOk then sensorWrite s part a (room.map fun h => h.setWidth 8) else s
        setPort t port { x with frame := some { f with emb := f.emb + room.length, bad := bad } }
      else if dt.toNat ≠ regField s pg 0x100 26 21 then s
      else
        let r := f.lines
        if r ≥ apRows s port ∨ ¬ crcOk then setPort s port { x with frame := some { f with lines := r + 1, bad := bad } }
        else
          let px := (data.take (apCols s port)).map fun h => h &&& BitVec.ofNat 16 (2 ^ pixelBits dt.toNat - 1)
          let t := sensorWrite s part (apBuf s port x.k + r * apPitch s port) (px.flatMap fun h => natBytes 2 h.toNat)
          let rows := f.rows + 1
          let add := rows % regField s pg 0x11C 6 0 = 0
          let f' := { f with lines := r + 1, rows := rows, bad := bad, adds := if add then f.adds + 1 else f.adds
                             samp := sampleRow s port r px f.samp }
          let u := setPort t port { x with frame := some f' }
          if add then tallyAdd u (regField s pg 0x120 13 0) 1 else u)

/-- FRAME_END (R312, R343): the sample completes; a stop that awaited it takes effect. -/
def execFrameEnd (port : Fin 16) (vc : BitVec 5) (found : FrameFound) (s : State) : Res :=
  .next (
    let pg := aphyPage port
    if pgState s pg ≠ apStream ∨ vc.toNat ≠ regField s pg 0x100 31 27 then s
    else
      let t := match (portSt s port).frame with
        | some f => deliverFrame s port f (if found.linkEvent then 64 else 0) found.blind
        | none => s
      if (portSt t port).stop then setPgState (setBusy (setPort t port { portSt t port with stop := false }) pg false) pg apUp else t)

/-- APHY_LINK_TRAINED (R343). -/
def execAphyLinkTrained (port : Fin 16) (gear : BitVec 3) (s : State) : Res :=
  .next (
    let pg := aphyPage port
    let st := pgState s pg
    if (st = apDown ∨ st = apStalled) ∧ !(isLooped s pg) ∧ powered s then
      setPgState (setReg s pg 0x13C (BitVec.ofNat 32 (8 + gear.toNat))) pg (if st = apDown then apUp else apStream)
    else s)

/-- APHY_LINK_LOST (R343): a frame in progress ends TRUNCATED (R317). -/
def execAphyLinkLost (port : Fin 16) (s : State) : Res :=
  .next (
    let pg := aphyPage port
    let st := pgState s pg
    let t := setReg s pg 0x13C 0
    if st = apUp then setPgState t pg apDown
    else if st = apStream then
      let u := match (portSt t port).frame with
        | some f => deliverFrame t port f 32 false
        | none => t
      setPgState (setFlag u pg 1) pg apStalled
    else s)

/-- STREAM_START and STREAM_STOP accepted (R343). At each start Fireboss injects into DETECTOR (R557). -/
def streamStart (s : State) (p : Nat) : State :=
  setPgState (setBusy (setPort s p { noPort with rel0 := slotRel s p, inject := true, check := true }) (aphyPage p) true) (aphyPage p) apStream
def streamStop (s : State) (p : Nat) : State :=
  let pg := aphyPage p
  if pgState s pg = apStalled then setPgState (setBusy (setPort s p { portSt s p with stop := false }) pg false) pg apDown
  else setPort s p { portSt s p with stop := true }

/-! ### Lidar sources -/

def beAt (bs : List Byte) (o n : Nat) : Nat := beNat ((bs.drop o).take n)

/-- n bytes of a payload at an offset; those past its end are not the spec's to say: free values. -/
def payloadAt (s : State) (bs : List Byte) (o n : Nat) : List Byte :=
  let have_ := (bs.drop o).take n
  have_ ++ freeBytes s (n - have_.length)

/-- The device-time timestamp of a packet in ns (R318). -/
def lidarStamp (s : State) (i : Nat) (bs : List Byte) : Nat :=
  let o := regField s (ethPage i) 0x608 15 0
  let w := payloadAt s bs o 10
  if regField s (ethPage i) 0x608 17 16 = 0 then bytesNat (w.take 8) else beAt w 0 6 * 1000000000 + beAt w 6 4

/-- A device time as a tick (R309). -/
def tickOfNs (s : State) (ns : Nat) : Int := ((ns : Int) - s.time.origin.toInt + 999) / 1000

def liPkts (s : State) (i : Nat) : Nat := regField s (ethPage i) 0x610 10 0
def liBufs (s : State) (i : Nat) : Nat := regField s (ethPage i) 0x618 3 0
def liBase (s : State) (i : Nat) : Nat := regField s (ethPage i) 0x614 27 0 * pageBytes

/-- FNV-1a over the payloads of the received packets in slot order (R607), and their number. -/
def lidarDigest (s : State) (i : Nat) (x : LidarSt) : Nat :=
  let part := pageOwner s (ethPage i)
  let slotA (n : Nat) : Nat := liBase s i + (x.k % liBufs s i * liPkts s i + n) * 2048
  let bytes := x.filled.flatMap fun n => readBytes s part (slotA n) (min 2016 (readWord s part (slotA n + 2044)).toNat)
  fnv1a (bytes.map (·.toNat)) + x.filled.length * 2 ^ 64

/-- The packet slots that a sample leaves undefined (R319). -/
def spoilSlots (s : State) (i : Nat) (x : LidarSt) : State :=
  ((List.range (liPkts s i)).filter fun n => !(x.filled.contains n)).foldl (fun t n =>
    sensorSpoil t (pageOwner s (ethPage i)) (liBase s i + (x.k % liBufs s i * liPkts s i + n) * 2048) 2048) s

/-- A disable that awaited the end of a sample takes effect (R343). -/
def lidarStopped (s : State) (i : Nat) : State :=
  if (lidarSt s i).stop then setRegField (setLidar s i noLidar) (ethPage i) 0x600 0 0 0 else s

/-- A lidar sample completes (R319), or is cut short (R343); the next sample starts at the next sequence numbers. -/
def lidarComplete (s : State) (i more : Nat) : State :=
  let x := lidarSt s i
  let pg := ethPage i
  let next := { x with base := x.base.map fun b => (b + liPkts s i) % 65536, filled := [], tick := none, time := 0, bad := 0, drop := false }
  match x.tick with
  | none => setLidar s i next
  | some t =>
    if x.drop then lidarStopped (setLidar s i next) i
    else
      let part := pageOwner s pg
      let loss := if x.filled.length < liPkts s i then 256 else 0
      let health := x.bad ||| more ||| loss ||| (if lockedAt s t then 0 else 128)
      let a := liBase s i + liBufs s i * liPkts s i * 2048 + x.k % liBufs s i * 32
      let w := sensorWrite (spoilSlots s i x) part a (sampleRecord (16 + i) x.k t x.time (now s) health x.filled.length (x.k % liBufs s i) 0)
      let u := tallyAdd w (regField s pg 0x61C 13 0) 1
      let v := if health % 2 = 1 ∨ loss ≠ 0 then countSample u (16 + i) 9 else u
      let h := lidarDigest w i x
      let d := sendDigest v part (sampleDigest (16 + i) health (x.base.getD 0) t (h % 2 ^ 64) x.filled.length)
      lidarStopped (offerSample (advanceInst (setLidar d i { next with k := x.k + 1 })) part
        { slot := 16 + i, seq := x.k, tick := t, arrival := now s, health := health, rel0 := x.rel0, digest := h, stamp := instantNow d }) i

/-- One accepted packet put into its slot, when it belongs to the current sample. -/
def lidarPlace (s : State) (i : Nat) (payload : List Byte) (n : Nat) (bad : Nat) : State :=
  let x := lidarSt s i
  let pg := ethPage i
  let fresh := x.tick.isNone
  let ok := released (slotRel s (16 + i)) x.rel0 x.k (liBufs s i)
  let tick := tickOfNs s (lidarStamp s i payload)
  let x1 := if fresh then { x with tick := some tick, time := tickTime s tick, drop := !ok } else x
  let x2 := { x1 with bad := x1.bad ||| bad }
  let s0 := if fresh then spendBytes s 10 else s
  let t := if !fresh then s0 else if ok then countSample s0 (16 + i) 1 else setFlag (countSample s0 (16 + i) 2) pg 0
  let put := bad % 2 = 0 ∧ ¬ x2.drop
  let a := liBase s i + (x.k % liBufs s i * liPkts s i + n) * 2048
  let u := if put then
      sensorWrite (sensorWrite t (pageOwner s pg) a payload) (pageOwner s pg) (a + 2044) (natBytes 4 payload.length)
    else t
  let v := setLidar u i { x2 with filled := if bad % 2 = 0 then nlAdd x2.filled n else x2.filled }
  if (lidarSt v i).filled.length ≥ liPkts s i then lidarComplete v i 0 else v

/-- LIDAR_PACKET (R318, R319): a UDP payload for the source's port. -/
def execLidarPacket (src : Fin 8) (port : Half) (payload : List Byte) (crcOk linkEvent : Bool) (s : State) : Res :=
  .next (
    let pg := ethPage src
    if pgState s pg ≠ portUp ∨ isLooped s pg then s
    else
    let s := if crcOk then ctrAdd s pg 1 1 else setFlag (ctrAdd s pg 3 1) pg 2
    if !(regBit s pg 0x600 0) ∨ port.toNat ≠ regField s pg 0x604 15 0 ∨ payload.length > 2016 ∨ liPkts s src = 0 ∨ liBufs s src = 0 then s
    else
      let seq := beNat (payloadAt s payload (regField s pg 0x60C 15 0) 2)
      let s := spendBytes s 2
      let x := lidarSt s src
      let b := x.base.getD seq
      let d := ((seq : Int) - b) % 65536
      let bad := (if crcOk then 0 else 1) + if linkEvent then 64 else 0
      let t := setLidar s src { x with base := some b }
      if d ≥ 32768 then t
      else if d < liPkts s src then lidarPlace t src payload d.toNat bad
      else
        let u := lidarComplete t src 0
        let q := d.toNat / liPkts s src
        let v := setLidar u src { lidarSt u src with base := some ((b + q * liPkts s src) % 65536) }
        lidarPlace v src payload (d.toNat % liPkts s src) bad)

/-! ### Registers -/

/-- The Tally that a sensor register names, to be one of the partition's (R176, R137). -/
def sensorTallies (p : Page) (off : Nat) (v : Word) : List Nat :=
  match p.cls with
  | .aphy => if off = 0x120 ∨ off = 0x124 then [field v 13 0] else []
  | .eth => if off = 0x61C ∧ p.inst < 8 then [field v 13 0, field v 29 16] else []
  | .part => if off = 0x614 then [field v 13 0] else []
  | _ => []

/-- RANGE, STATE_ILLEGAL and BUSY of a write to a sensor register, in that order (R343, R344, R347 to R349). -/
def sensorCheck (s : State) (p : Page) (off : Nat) (v : Word) : Option Status :=
  match p.cls with
  | .aphy =>
    let st := pgState s p
    let dt := field v 26 21
    let gear := field v 20 18
    if off = 0x100 ∧ (dt < 0x2B ∨ dt > 0x2E ∨ gear = 0 ∨ gear > 5 ∨ (¬ bit v 17 ∧ gear > 3)) then some .range
    else if off = 0x104 ∧ (field v 31 16 < 16 ∨ field v 31 16 > 8192 ∨ field v 15 0 < 64 ∨ field v 15 0 > 8192) then some .range
    else if off = 0x110 ∧ (field v 3 0 < 2 ∨ field v 3 0 > 8) then some .range
    else if off = 0x11C ∧ (field v 6 0 = 0 ∨ field v 6 0 > 64) then some .range
    else if off = 0x12C then
      if field v 1 0 = 1 then (if st = apUp then none else some .stateIllegal)
      else if field v 1 0 = 2 then (if st = apStream ∨ st = apStalled then none else some .stateIllegal)
      else some .range
    else if 0x100 ≤ off ∧ off < 0x12C ∧ (st = apStream ∨ st = apStalled) then some .stateIllegal
    else none
  | .eth =>
    if p.inst < 8 ∧ 0x604 ≤ off ∧ off < 0x620 then
      if off = 0x608 ∧ field v 17 16 > 1 then some .range
      else if off = 0x610 ∧ (field v 10 0 = 0 ∨ field v 10 0 > 1024) then some .range
      else if off = 0x618 ∧ (field v 3 0 < 2 ∨ field v 3 0 > 8) then some .range
      else if regBit s p 0x600 0 then some .stateIllegal
      else none
    else none
  | .part =>
    if off = 0x600 then
      let owned := (List.range 24).all fun k => !(regBit s p 0x608 k) || pageOwner s (slotPage k) == p.inst
      if bit v 0 ∧ ¬ instEnabled s p.inst ∧ ¬ owned then some .range else none
    else if 0x604 ≤ off ∧ off < 0x618 then
      if off = 0x604 ∧ field v 15 0 > 49999 then some .range
      else if instEnabled s p.inst then some .stateIllegal
      else none
    else none
  | _ => none

/-- The effect of an accepted write. -/
def sensorAct (s : State) (p : Page) (off : Nat) (v old : Word) : State :=
  match p.cls with
  | .aphy => if off = 0x12C then (if field v 1 0 = 1 then streamStart s p.inst else streamStop s p.inst) else s
  | .eth =>
    if off = 0x600 ∧ p.inst < 8 ∧ bit v 0 ≠ bit old 0 then
      if bit v 0 then setLidar s p.inst { noLidar with rel0 := slotRel s (16 + p.inst) }
      else if pgState s p = portUp then orReg (setLidar s p.inst { lidarSt s p.inst with stop := true }) p 0x600 1
      else setLidar s p.inst noLidar
    else if off = 0x600 ∧ p.inst < 8 ∧ bit v 0 then setLidar s p.inst { lidarSt s p.inst with stop := false }
    else s
  | .part =>
    if off = 0x600 then
      if bit v 0 then
        if bit old 0 then setInst s p.inst { instSt s p.inst with stop := false } else setInst s p.inst noInst
      else if bit old 0 then
        orReg (setInst s p.inst { instSt s p.inst with stop := true }) p 0x600 1
      else s
    else s
  | _ => s

end Sys2Proof.Machine
end

