-- ==== Sys2Proof/Machine/Planner.lean ====
section
/-! DEFINITION. The planning sequencer of L0 (chapter 09): epochs of the grid (R357 to R362), the cycle (R352 to R355), the
commit (R378 to R381), and what its registers check (R386, R390, R391). -/

namespace Sys2Proof.Machine

def lk : Page := ⟨.l, 0⟩

/-- LK_SEQ_STAT[7:4] (R386). -/
def lkOff : Nat := 0
def lkWaitGrid : Nat := 1
def lkCycling : Nat := 2
def lkState (s : State) : Nat := regField s lk 0x230 7 4
def setLkState (s : State) (n : Nat) : State := setRegField s lk 0x230 7 4 n

def noTraj : Traj := ⟨0, 0, 0, 3, 0, 0, 0, 0, 0, 0, [], 0xFFFFFFFF#32, 0, 0, [⟨0, 0, 0⟩]⟩
def noSeq : SeqSt := ⟨0, none, none, false, noTraj, noTraj, 0, none, none, none⟩

def setSeq (s : State) (q : SeqSt) : State := { s with seq := q }

def pubTally (s : State) : Nat := regField s lk 0x214 29 16
def freeTally (s : State) : Nat := regField s lk 0x214 13 0
def cycTally (s : State) : Nat := regField s lk 0x218 29 16
def chkTally (s : State) : Nat := regField s lk 0x218 13 0
def lkDeadline (s : State) : Nat := regField s lk 0x208 15 0
def lkBudget (s : State) : Nat := regField s lk 0x208 31 16
def lkPhase (s : State) : Nat := regField s lk 0x204 14 0

/-- The sequencer runs while L0 to L3 are all PT0's (R352). -/
def lkOwned (s : State) : Bool := (List.range 4).all fun i => pageOwner s ⟨.l, i⟩ == 0

/-- The device-virtual address of a grid buffer, and its bytes (R357). -/
def gridBuf (s : State) (b : Nat) : Nat := regField s lk (0x20C + 4 * b) 27 0 * pageBytes
def gridByte (s : State) (b : Nat) : Nat → Byte := fun o => readByte s 0 (gridBuf s b + o)

/-- The EPOCH word of a buffer, where its page can be read. -/
def bufEpoch (s : State) (b : Nat) : Option Word :=
  if readRange s 0 (gridBuf s b) 4 = .ok then some (readWord s 0 (gridBuf s b)) else none

def recAddr (s : State) (o : Nat) : Nat := regField s lk 0x228 27 0 * pageBytes + o

/-- The next epoch (R358). -/
def nextEpoch (e : Word) : Word := if e = 0xFFFFFFFF#32 then 2 else e + 1

def heldBuf (s : State) : Option Nat := s.seq.cycle.map fun c => c.buf

/-- The bytes of a trajectory record (R379). -/
def trajBytes (t : Traj) : List Byte :=
  let ks := t.knots.take 32
  natBytes 4 t.cycle ++ wordBytes t.epoch ++ wordBytes t.dTick ++
    [BitVec.ofNat 8 t.outcome, BitVec.ofNat 8 t.status, BitVec.ofNat 8 t.flags, BitVec.ofNat 8 (min t.heldAge 255)] ++
    natBytes 2 t.row ++ natBytes 2 t.col ++ [BitVec.ofNat 8 t.heading, BitVec.ofNat 8 t.prims.length, BitVec.ofNat 8 ks.length, 0] ++
    ((List.range 8).flatMap fun i => natBytes 2 (t.prims.getD i 0)) ++ wordBytes t.cand ++ wordBytes t.cost ++ wordBytes t.origin ++
    natBytes 12 0 ++ (ks.flatMap fun k => wordBytes k.s ++ wordBytes k.v ++ wordBytes k.t) ++
    List.replicate (12 * (32 - ks.length)) 0

/-- The trajectory that a record's bytes spell (R379, R380). -/
def trajOf (b : List Byte) : Traj :=
  let n (o k : Nat) : Nat := bytesNat ((b.drop o).take k)
  { cycle := n 0 4, epoch := BitVec.ofNat 32 (n 4 4), dTick := BitVec.ofNat 32 (n 8 4), outcome := n 12 1, status := n 13 1
    flags := n 14 1, heldAge := n 15 1, row := n 16 2, col := n 18 2, heading := n 20 1
    prims := (List.range (n 21 1)).map fun i => n (24 + 2 * i) 2, cand := BitVec.ofNat 32 (n 40 4), cost := BitVec.ofNat 32 (n 44 4)
    origin := BitVec.ofNat 32 (n 48 4)
    knots := (List.range (n 22 1)).map fun i =>
      ⟨BitVec.ofNat 32 (n (64 + 12 * i) 4), BitVec.ofNat 32 (n (68 + 12 * i) 4), BitVec.ofNat 32 (n (72 + 12 * i) 4)⟩ }

/-! ### The start state -/

/-- The cell and heading of a path at an arc length: the last sample passed, and the heading of the primitive it is in. -/
structure PathPos where
  row     : Int
  col     : Int
  heading : Nat
  deriving DecidableEq, Repr

def pathPos (lib : Nat → Byte) (arc : Word) : ChainPos → PathPos → List Prim → PathPos
  | _, q, [] => q
  | c, q, p :: ps =>
    let q' := (primPts lib c p).foldl (fun q x => if f32le x.arc arc then ⟨x.row, x.col, p.h0⟩ else q) ⟨q.row, q.col, p.h0⟩
    let c' := chainStep c p
    if f32le c'.arc arc then pathPos lib arc c' ⟨c'.row, c'.col, p.h1⟩ ps else q'

/-- Seconds from a trajectory's ORIGIN_TICK to a tick. -/
def trajSec (t : Traj) (tick : Nat) : Word := secOfTicks (BitVec.ofNat 32 tick - t.origin).toInt

/-- The library last named, as a reader of bytes by offset. -/
def libByte (s : State) : Nat → Byte := fun o => match s.seq.lib with
  | some (a, _) => readByte s 0 (a + o)
  | none => 0

/-- The state of the trajectory in force at D (R359): cell, heading, speed and arc length. -/
def startState (s : State) (d : Nat) : PathPos × Word × Word :=
  let t := s.seq.force
  let x := profileAt t.knots (trajSec t d)
  let q := pathPos (libByte s) x.1 (chainStart t.row t.col) ⟨t.row, t.col, t.heading⟩ (t.prims.map (primOf (libByte s)))
  (q, x.2, x.1)

/-! ### The commands and events of the sequencer -/

/-- The lead's records taken in (R380). -/
def takeMate (s : State) : State :=
  let q := s.seq
  let u := match q.mateForce with
    | some t => { q with force := t, mateForce := none }
    | none => q
  let v := match u.mateHeld with
    | some t => { u with held := t, age := t.heldAge, mateHeld := none }
    | none => u
  setSeq s v

/-- GRID_PUBLICATION (R358, R360): the header of buffer e mod 2 decides. -/
def execGridPublication (s : State) : Res :=
  .next (
    let q := s.seq
    if lkState s = lkOff ∨ !(lkOwned s) ∨ !(reached (tallyVal s (pubTally s)) q.pubNext) then s
    else
      let e := nextEpoch (regVal s lk 0x234)
      let b := e.toNat % 2
      let t := ctrAdd (setSeq s { q with pubNext := q.pubNext + 1 }) lk 19 1
      if bufEpoch s b = some e then
        let u := setSeq (setReg t lk 0x234 e) { t.seq with active := some b }
        let v := if lkState u = lkWaitGrid then setLkState u lkCycling else u
        if heldBuf v = some (1 - b) then v else tallyAdd v (freeTally v) 1
      else tallyAdd (ctrAdd (setFlag t lk 3) lk 20 1) (freeTally t) 1)

/-- The cycle header (R359). -/
def cycleHeader (s : State) (c : Cycle) : List Byte :=
  natBytes 4 c.n ++ wordBytes c.epoch ++ natBytes 4 c.dTick ++ natBytes 4 (regField s lk (0x20C + 4 * c.buf) 27 0) ++
    natBytes 2 c.row ++ natBytes 2 c.col ++ [BitVec.ofNat 8 c.heading, 0, 0, 0] ++ wordBytes c.v ++ wordBytes c.arc

/-- CYCLE_START (R352, R359, R362): at S, while the sequencer cycles. -/
def execCycleStart (s : State) : Res :=
  .next (
    let ph := lkPhase s
    if lkState s ≠ lkCycling ∨ !(lkOwned s) ∨ s.seq.cycle.isSome ∨ now s < ph ∨ (now s - ph) % 20000 ≠ 0 then s
    else match s.seq.active with
      | none => s
      | some b =>
        let s := takeMate s
        let n := (now s - ph) / 20000
        let d := now s + lkDeadline s
        let x := startState s d
        let c : Cycle :=
          { n := n, dTick := d, epoch := regVal s lk 0x234, buf := b, row := (x.1.row % 65536).toNat, col := (x.1.col % 65536).toNat
            heading := x.1.heading, v := x.2.1, arc := x.2.2, opened := false, stops := [], newStop := none, winner := none }
        let t := setSeq s { s.seq with cycle := some c }
        let u := setReg (setRegField t lk 0x230 31 16 n) lk 0x238 c.epoch
        tallyAdd (sensorWrite u 0 (recAddr u 0) (cycleHeader u c)) (cycTally u) 1)

/-- CHECK_WINDOW_OPEN (R353): at D − BUDGET. -/
def execCheckWindowOpen (s : State) : Res :=
  .next (
    match s.seq.cycle with
    | none => s
    | some c =>
      if c.opened ∨ now s + lkBudget s ≠ c.dTick then s
      else tallyAdd (setSeq s { s.seq with cycle := some { c with opened := true } }) (chkTally s) 1)

/-- What the commit table gives (R378): the trajectory, its OUTCOME and STATUS, its flags, and the counter of the commit. -/
structure Commit where
  traj    : Traj
  outcome : Nat
  status  : Status
  flags   : Nat
  slot    : Nat
  deriving DecidableEq, Repr

/-- HELD_CLEAN as the four cores' STOPs found it; none unless all four have posted (R374). -/
def combineStops (c : Cycle) : Option (Bool × Bool) :=
  if c.stops.length < 4 then none else some (c.stops.all fun x => x.2.1, c.stops.all fun x => x.2.2)

/-- The emergency profile (R376). -/
def emergTraj (s : State) (c : Cycle) : Traj :=
  let f := s.seq.force
  cycleTraj c f.row f.col f.heading f.prims (stopKnots c.arc c.v (regVal s lk 0x220))

/-- The table of R378 over the held stop in force at it. -/
def commitTable (s : State) (c : Cycle) (same : Bool) (stops : Option (Bool × Bool)) (held : Traj) (newHeld : Bool) : Commit :=
  let nh := if newHeld then 8 else 0
  if !same then
    if held.prims.isEmpty ∧ f32lt 0 c.v then ⟨emergTraj s c, 2, .integrity, 0, 18⟩ else ⟨held, 1, .integrity, 0, 17⟩
  else match c.winner, stops with
    | some (some w), _ => ⟨w, 0, .ok, nh, 14⟩
    | _, none => ⟨held, 1, .timeout, 1, 17⟩
    | some none, some (_, hc) => if hc ∨ newHeld then ⟨held, 1, .ok, 2 + nh, 16⟩ else ⟨emergTraj s c, 2, .emergStop, nh, 18⟩
    | none, some (_, hc) => if hc ∨ newHeld then ⟨held, 1, .timeout, 4 + nh, 15⟩ else ⟨emergTraj s c, 2, .emergStop, nh, 18⟩

/-- The release of the snapshot buffer (R360). -/
def releaseBuf (s : State) (b : Nat) : State := if s.seq.active = some b then s else tallyAdd s (freeTally s) 1

/-- COMMIT (R361, R375, R378 to R381). -/
def execCommit (s : State) : Res :=
  .next (
    match s.seq.cycle with
    | none => s
    | some c =>
      if now s ≠ c.dTick then s
      else
        let same := bufEpoch s c.buf == some c.epoch
        let stops := combineStops c
        let fresh := match same, stops, c.newStop with
          | true, some (true, _), some t => some t
          | _, _, _ => none
        let age := match fresh with
          | some _ => 0
          | none => s.seq.age + 1
        let held := fresh.getD s.seq.held
        let k := commitTable s c same stops held fresh.isSome
        let r := { k.traj with cycle := c.n, epoch := c.epoch, dTick := BitVec.ofNat 32 c.dTick, outcome := k.outcome
                               status := statusCode k.status, flags := k.flags, heldAge := min age 255 }
        let t := setSeq s { s.seq with cycle := none, force := r, held := held, age := age }
        let u := sensorWrite (sensorWrite t 0 (recAddr t (0x10000 * (1 + c.n % 2))) (trajBytes r)) 0 (recAddr t 0x30000)
          (trajBytes { held with heldAge := min age 255 })
        let v := setReg u lk 0x23C (BitVec.ofNat 32 (c.n % 65536 * 65536 + k.outcome * 4096 + k.flags % 16 * 256 + statusCode k.status))
        let w := ctrAdd (ctrAdd v lk 13 1) lk k.slot 1
        let x := if same then w else setFlag w lk 4
        let y := if k.outcome = 2 then setFlag x lk 5 else x
        let z := releaseBuf (sendDelta (sendDelta y 2 0 (trajBytes r)) 3 0 (trajBytes { held with heldAge := min age 255 })) c.buf
        if z.seq.stopping then setLkState (setSeq z { z.seq with stopping := false }) lkOff else z)

/-- A posting of a completing STOP or SELECT on core i (R354): only to its own cycle, before its D. -/
def postPlan (s : State) (core : Nat) (p : LPost) : State :=
  match s.seq.cycle with
  | none => s
  | some c =>
    let c' := match p with
      | .stop n h t =>
        { c with stops := c.stops.filter (fun x => x.1 ≠ core) ++ [(core, n, h)], newStop := if core = 0 then some t else c.newStop }
      | .select w => { c with winner := some w }
    setSeq s { s.seq with cycle := some c' }

/-- Whether a planning command of a cycle is too late now (R354, R355). -/
def planLate (s : State) (cycle : Nat) : Bool :=
  match s.seq.cycle with
  | none => true
  | some c => c.n % 65536 != cycle || decide (now s ≥ c.dTick)

/-! ### The registers -/

/-- FP32 bounds, a NaN outside them. -/
def f32within (lo hi v : Word) : Bool := f32le lo v && f32le v hi

def tallyOf0 (s : State) (i : Nat) : Bool := ownsTally s 0 i

/-- What a write of a planner register checks beside the common order (R386, R390, R391). -/
def plannerCheck (s : State) (p : Page) (off : Nat) (v : Word) : Option Status :=
  if p ≠ lk ∨ off < 0x200 then none
  else
    let n := v.toNat
    let range (b : Bool) : Option Status := if b then none else some .range
    let bad : Option Status := match off with
      | 0x200 => if bit v 0 ∧ lkState s = lkOff ∧ !(lkOwned s) then some .range else none
      | 0x204 => range (n % 32768 < 20000)
      | 0x208 =>
        let dl := n % 65536
        let b := n / 65536
        range (1000 ≤ b ∧ b ≤ 6000 ∧ 6000 ≤ dl ∧ dl ≤ 19000 ∧ b ≤ dl)
      | 0x214 | 0x218 => if tallyOf0 s (n / 65536 % 16384) && tallyOf0 s (n % 16384) then none else some .ownerDenied
      | 0x21C => range (f32within 0x3F000000#32 0x40C00000#32 v)
      | 0x220 => range (f32within (regVal s lk 0x21C) 0x41400000#32 v)
      | 0x224 => range (f32within 0x3F000000#32 0x41F00000#32 v)
      | _ => none
    match bad with
    | some e => some e
    | none => if off ≠ 0x200 ∧ off < 0x230 ∧ lkState s ≠ lkOff then some .stateIllegal else none

/-- The standstill at LK_START (R375). -/
def standstill (s : State) : Traj :=
  { noTraj with row := regField s lk 0x22C 24 16, heading := regField s lk 0x22C 15 12, col := regField s lk 0x22C 8 0
                dTick := nowW s, origin := nowW s }

/-- EN written 1 in OFF (R360, R375, R386): WAIT_GRID, no active buffer, the standstill in force and held, and buffer 1
given to the writer. -/
def lkEnable (s : State) : State :=
  let t := setReg (setLkState s lkWaitGrid) lk 0x234 0
  let u := setSeq t { noSeq with pubNext := tallyVal t (pubTally t) + 1, force := standstill t, held := standstill t, lib := t.seq.lib }
  tallyAdd (sensorWrite u 0 (recAddr u 0x30000) (trajBytes (standstill u))) (freeTally u) 1

/-- EN written 0 (R386): at once, or at the commit of the cycle in progress. -/
def lkDisable (s : State) : State :=
  if s.seq.cycle.isSome then setSeq s { s.seq with stopping := true } else setLkState s lkOff

/-- What an accepted write of LK_CTRL does. -/
def plannerAct (s : State) (p : Page) (off : Nat) (v : Word) : State :=
  if p = lk ∧ off = 0x200 then
    if bit v 0 then (if lkState s = lkOff then lkEnable s else s)
    else if lkState s = lkOff then s else lkDisable s
  else s

/-- L0's block reset (R89): the sequencer is off. -/
def plannerReset (s : State) : State := setSeq s noSeq

end Sys2Proof.Machine
end

