-- ==== Sys2Proof/Machine/JobBase.lean ====
section
/-! DEFINITION. Jobs as every block meets them: the ring area and the completion record (R430, R433), who holds a core (R427,
R573), window watchdogs (R559 to R563), and how a job fails and ends (R438, R439). -/

namespace Sys2Proof.Machine

/-! ### The ring area (R430) -/

def ringKey (part o : Nat) : Nat := part * 2 ^ 16 + o
def ringByte (s : State) (part o : Nat) : Byte := smGet 0 s.ring (ringKey part o)
def ringWord (s : State) (part o : Nat) : Word :=
  BitVec.ofNat 32 (bytesNat ((List.range 4).map fun i => ringByte s part (o + i)))
def putRing (s : State) (part : Nat) : Nat → List Byte → State
  | _, [] => s
  | o, b :: bs => putRing { s with ring := smSet 0 s.ring (ringKey part o) b } part (o + 1) bs

def sbPage (part : Nat) : Page := ⟨.ring, part + 1⟩
def roPage : Page := ⟨.ring, 0⟩

/-! ### Jobs (R458) -/

def jPending : Nat := 0
def jStarting : Nat := 1
def jRunning : Nat := 2
def jSuspending : Nat := 3
def jSuspended : Nat := 4
def jEnding : Nat := 5
def jDone : Nat := 6

def jobKey (part entry : Nat) : Nat := part * 256 + entry % 256
def canaryKey : Nat := 4096
def jobPart (key : Nat) : Nat := if key = canaryKey then 0 else key / 256
def jobOf (s : State) (key : Nat) : Option Job := smFind s.jobs key
def setJob (s : State) (key : Nat) (j : Job) : State := { s with jobs := smPut s.jobs key j }

/-- A count of a partition's submission page; the canary context has none (R565). -/
def sbCount (s : State) (key slot : Nat) : State := if key = canaryKey then s else ctrAdd s (sbPage (jobPart key)) slot 1

/-- The shadow of a primary core (R573), by the valid FB_DUPLEX entries. -/
def duplexWord (s : State) (i : Nat) : Word := regVal s (fbPage 0) (0x200 + 4 * i)
def shadowOf (s : State) (k : CoreId) : Option CoreId :=
  ((List.range 32).find? fun i => bit (duplexWord s i) 31 && field (duplexWord s i) 7 0 == coreCode k).bind fun i =>
    coreOfCode (field (duplexWord s i) 15 8)
def primaryOf (s : State) (k : CoreId) : Option CoreId :=
  ((List.range 32).find? fun i => bit (duplexWord s i) 31 && field (duplexWord s i) 15 8 == coreCode k).bind fun i =>
    coreOfCode (field (duplexWord s i) 7 0)

/-- The cores that a job names, with the shadows of its primaries (R427, R573). -/
def jobCores (s : State) (j : Job) : List CoreId :=
  j.stages.flatMap fun x => x.core :: (match shadowOf s x.core with
    | some k => [k]
    | none => [])

/-- A stream runs a command of a job. -/
def runsJob (s : State) (k : CoreId) (stream key : Nat) : Bool :=
  match curOf s k stream with
  | some r => r.offer.job == key
  | none => false

def coreRunsJob (s : State) (k : CoreId) (key : Nat) : Bool := (streamsOf k).any fun i => runsJob s k i key

/-- A stream still holds tier tags (R441). -/
def coreHasTags (s : State) (k : CoreId) : Bool := s.mem.tags.any fun x => heldBy k x.2

/-- Whether a started job holds a core (R427): a suspending one until its command has ended and its tags are back (R441). -/
def holds (s : State) (key : Nat) (j : Job) (k : CoreId) : Bool :=
  (j.state == jRunning || j.state == jEnding || (j.state == jSuspending && (coreRunsJob s k key || coreHasTags s k))) &&
    (jobCores s j).contains k

/-- The started jobs that hold a core, the canary context apart (R565). -/
def holders (s : State) (k : CoreId) : List (Nat × Job) := s.jobs.filter fun x => x.1 != canaryKey && holds s x.1 x.2 k

/-- Whether a job has a command in WAIT or RUN (R439). -/
def jobBusy (s : State) (key : Nat) : Bool :=
  s.cores.any fun x => match x.2.cur with
    | some r => r.offer.job == key
    | none => false

/-- The offers of a job that no core has accepted are taken back. -/
def dropOffers (s : State) (key : Nat) : State :=
  { s with cores := s.cores.filterMap fun x =>
      let c := match x.2.offered with
        | some o => if o.job = key then { x.2 with offered := none } else x.2
        | none => x.2
      if c = noCore then none else some (x.1, c) }

/-- One stage of a job changed. -/
def mapStage (j : Job) (i : Nat) (f : StageRt → StageRt) : Job :=
  { j with stages := match j.stages[i]? with
      | some x => j.stages.set i (f x)
      | none => j.stages }

/-- A job fails, or is cancelled, and enters ENDING (R438, R440): the first decision stands. -/
def failJob (s : State) (key stage : Nat) (st : Status) : State :=
  match jobOf s key with
  | none => s
  | some j =>
    if j.decided ∨ j.state = jDone then s
    else dropOffers (setJob s key { j with decided := true, status := st, stage := stage, state := jEnding }) key

/-! ### Window watchdogs -/

def dogKey (stack n : Nat) : Nat := stack * 256 + n
def dogOf (s : State) (d : Nat) : Option Dog := smFind s.fb.dogs d
def setDog (s : State) (d : Nat) (x : Dog) : State := { s with fb := { s.fb with dogs := smPut s.fb.dogs d x } }
def wdCfg (s : State) (d : Nat) : Word := regVal s (wdPage (d / 256)) (0x400 + 4 * (d % 256))
def wdWin (s : State) (d : Nat) : Word := regVal s (wdPage (d / 256)) (0x800 + 4 * (d % 256))
def wdStat (d : Nat) : Nat := 0xC00 + 4 * (d % 256)
def setWdBit (s : State) (d n : Nat) (b : Bool) : State :=
  if b then orReg s (wdPage (d / 256)) (wdStat d) (bitMask n) else setRegField s (wdPage (d / 256)) (wdStat d) n n 0

/-- RO_ORIGIN (R453). -/
def roOrigin (s : State) : Nat := (regVal s roPage 0x108).toNat + (regVal s roPage 0x10C).toNat * 2 ^ 32

/-- The ticks in which ABS window j opens and closes (R560). -/
def absOpen (s : State) (d j : Nat) : Nat := roOrigin s + j * (field (wdCfg s d) 23 16 * 1000) + field (wdWin s d) 15 0
def absClose (s : State) (d j : Nat) : Nat := roOrigin s + j * (field (wdCfg s d) 23 16 * 1000) + field (wdWin s d) 31 16

/-- The ticks in which a watchdog's present window opens and closes (R560). -/
def dogOpen (s : State) (d : Nat) (x : Dog) : Nat :=
  if field (wdCfg s d) 31 30 = 1 then absOpen s d x.next else x.base + field (wdWin s d) 15 0
def dogClose (s : State) (d : Nat) (x : Dog) : Nat :=
  if field (wdCfg s d) 31 30 = 1 then absClose s d x.next else x.base + field (wdWin s d) 31 16

/-- The first ABS window that opens after a tick. -/
def absAfter (s : State) (d t : Nat) : Nat :=
  let o := absOpen s d 0
  let p := field (wdCfg s d) 23 16 * 1000
  if t < o then 0 else if p = 0 then 0 else (t - o) / p + 1

/-- A watchdog's windows begin after a tick: K of a REL watchdog, the next window of an ABS one (R560, R563). -/
def dogFrom (s : State) (d t : Nat) (x : Dog) : Dog :=
  let j := absAfter s d t
  { x with base := t, next := j, first := j }

/-- The watchdog of a stage armed at the job's start (R559), else the stage runs unwatched. -/
def armDog (s : State) (key stage : Nat) (x : StageRt) : State :=
  let d := dogKey (stackNo (coreStack x.core)) x.wd
  let p := wdPage (d / 256)
  let c := wdCfg s d
  if field c 27 24 = jobPart key ∧ field c 31 30 ≠ 0 ∧ (dogOf s d).isNone then
    ctrAdd (setWdBit (setDog s d (dogFrom s d (now s) ⟨key, stage, 0, 0, 0, false, false⟩)) d 31 true) p 1 1
  else ctrAdd (setWdBit s d 29 true) p 6 1

/-- Every watchdog of a job disarmed, at its end (R559). -/
def disarmDogs (s : State) (key : Nat) : State :=
  let mine := s.fb.dogs.filter fun x => x.2.job == key
  let t := mine.foldl (fun u x => setWdBit (setWdBit u x.1 31 false) x.1 30 false) s
  { t with fb := { t.fb with dogs := t.fb.dogs.filter fun x => x.2.job != key } }

/-- A watchdog held, or released (R563). -/
def holdDog (s : State) (d : Nat) (b : Bool) : State :=
  match dogOf s d with
  | none => s
  | some x =>
    if x.held = b then s
    else if b then ctrAdd (setWdBit (setDog s d { x with held := true }) d 30 true) (wdPage (d / 256)) 7 1
    else setWdBit (setDog s d (dogFrom s d (now s) { x with held := false })) d 30 false

/-- Every watchdog of a job held, or released (R441, R563). -/
def holdDogs (s : State) (key : Nat) (b : Bool) : State :=
  (s.fb.dogs.filter fun x => x.2.job == key).foldl (fun t x => holdDog t x.1 b) s

/-- The watchdog of one stage of a job. -/
def stageDog (s : State) (key stage : Nat) : Option Nat :=
  (s.fb.dogs.find? fun x => x.2.job == key && x.2.stage == stage).map Prod.fst

/-- What ends with an expired stage (R169, R562): its wait, or a command held for pushed rows or credits. -/
def endStageWaits (s : State) (key stage : Nat) : State :=
  match (jobOf s key).bind fun j => j.stages[stage]? with
  | none => s
  | some x =>
    (x.core :: (match shadowOf s x.core with
      | some k => [k]
      | none => [])).foldl (fun t k =>
        if runsJob t k x.stream key then
          if streamState t k x.stream = cWait then abortCmd t k x.stream .timeout true
          else match curOf t k x.stream with
            | some r => if r.win.isEmpty ∧ r.push.isEmpty then t else failCmd t k x.stream .timeout
            | none => t
        else t) s

/-- An expiry (R561, R562): EXPIRED and EARLY, its counters, and what ACTION decides. -/
def expireDog (s : State) (d : Nat) (early : Bool) : State :=
  match dogOf s d with
  | none => s
  | some x =>
    let p := wdPage (d / 256)
    let c := wdCfg s d
    let act := field c 29 28
    let t := setDog (setWdBit (setWdBit s d 27 true) d 28 early) d { x with out := true }
    let u := ctrAdd (ctrAdd t p (if early then 4 else 3) 1) p 5 (if act = 1 ∨ act = 2 then 1 else 0)
    match act with
    | 1 => partitionFatal u (field c 27 24) p
    | 2 => fatalTrip u (d / 256) 1 p
    | _ => endStageWaits (failJob u x.job x.stage .timeout) x.job x.stage

/-- What a kick is at a tick (R560, R561): ignored, a feed of the window, or EARLY. -/
inductive Kick | ignored | feeds | early
  deriving DecidableEq, Repr

/-- What a kick is at the present tick; the window's ticks are compared by R52. -/
def kickOf (s : State) (d : Nat) (x : Dog) : Kick :=
  if x.held ∨ x.out then .ignored
  else if !(reachedAt s (dogOpen s d x)) then (if field (wdCfg s d) 31 30 = 1 ∧ x.next = x.first then .ignored else .early)
  else if reachedAt s (dogClose s d x + 1) then .ignored else .feeds

/-- The watchdog that an end with OK of a stage's command kicks (R560). -/
def kickedDog (s : State) (key stage index : Nat) : Option Nat :=
  match stageDog s key stage with
  | none => none
  | some d =>
    let c := field (wdCfg s d) 15 0
    if c = 0xFFFF ∨ c = index then some d else none

/-- A kick applied: recorded and counted, and a window fed. An EARLY kick is an expiry, applied before the end that
brought it (R687). -/
def kickDog (s : State) (d : Nat) : State :=
  match dogOf s d with
  | none => s
  | some x =>
    let p := wdPage (d / 256)
    let t := ctrAdd (setRegField s p (wdStat d) 15 0 (now s % 65536)) p 2 1
    match kickOf s d x with
    | .feeds => setDog t d { x with base := now s, next := x.next + 1 }
    | _ => t

/-! ### The end of a job (R433, R439) -/

/-- The completion record of an entry. -/
def writeRecord (s : State) (part entry : Nat) (jobId : Word) (st : Status) (flags stage start stop : Nat) : State :=
  putRing s part (0x9000 + 16 * (entry % 256))
    (wordBytes jobId ++ [BitVec.ofNat 8 (statusCode st), BitVec.ofNat 8 flags] ++ natBytes 2 stage ++ natBytes 4 start ++ natBytes 4 stop)

/-- FLAGS of a record. -/
def recFlags (j : Job) (isDone : Bool) : Nat :=
  isDone.toNat + 2 * j.started.toNat + 4 * j.cancelled.toNat + 8 * j.retried.toNat + 16 * j.suspended.toNat

/-- SB_RETIRE moved past every entry whose record has DONE = 1, in ring order (R432). -/
def retireStep (part : Nat) : Nat → State → State
  | 0, s => s
  | n + 1, s =>
    let p := sbPage part
    let c := regVal s p 0x108
    let key := jobKey part (c.toNat % 256)
    if c = regVal s p 0x104 then s
    else match jobOf s key with
      | some j => if j.state = jDone then retireStep part n { setReg s p 0x108 (c + 1) with jobs := smDel s.jobs key } else s
      | none => s

def retireRing (s : State) (part : Nat) : State := retireStep part 256 s

/-- A job's streams end (R245, R439): the pages that they hold are released. -/
def endStreams (s : State) (key : Nat) : State :=
  (s.mem.pf.filter fun x => x.2.job == key).foldl (fun t x =>
    let js := (List.range x.2.fetched).drop x.2.released
    let u := js.foldl (fun t j => (unitVpns t x.2 j).foldl (fun t v => atBoundary t (.pageRelease x.1 x.2.part v)) t) t
    { u with mem := { u.mem with pf := smDel u.mem.pf x.1 } }) s

/-- A job ends: cores, streams and watchdogs are given up, its record is written, DONE_TALLY is signalled and the interrupt
sent. The canary context has no record: its status awaits the compare (R565). -/
def endJob (s : State) (key : Nat) : State :=
  match jobOf s key with
  | none => s
  | some j =>
    let t := endStreams (disarmDogs (dropOffers s key) key) key
    if key = canaryKey then
      { t with jobs := smDel t.jobs key, fb := { t.fb with canEnd := some j.status } }
    else
      let part := jobPart key
      let entry := key % 256
      let stop := (nowW s).toNat
      let jd := { j with state := jDone }
      let u := setJob t key jd
      let v := writeRecord u part entry j.jobId j.status (recFlags jd true) j.stage (if j.started then j.startTick % 2 ^ 32 else 0) stop
      let w := sbCount v key (if j.status = .ok then 3 else 4)
      let x := if j.sigEn ∧ ownsTally w part j.doneTally then tallyAdd w j.doneTally 1 else w
      let y := if j.irqEn then irq x part 0 (.jobDone entry) else x
      retireRing y part

end Sys2Proof.Machine
end

