-- ==== Sys2Proof/Machine/RosterBase.lean ====
section
/-! DEFINITION. The roster as the job machinery and Fireboss meet it: its state (R455), windows (R449), canary entries (R451)
and quiet intervals (R571); and the graph image of a job (R425). -/

namespace Sys2Proof.Machine

/-! ### The roster in force -/

def roOff : Nat := 0
def roArmed : Nat := 1
def roRun : Nat := 2
def roState (s : State) : Nat := pgState s roPage
def frameTicks : Nat := 100000

def roEntries (s : State) : List RoEntry := s.roster.table.getD []

/-- The entries of the major frame after this one: those of the pending table where there is one; none where the roster
stops (R446, R451, R455). -/
def nextEntries (s : State) : List RoEntry :=
  if s.roster.stop then [] else match s.roster.pend with
    | some t => t
    | none => roEntries s

/-- The START of the next CANARY entry, in this major frame or the next (R451). -/
def nextCanary (s : State) : Option Nat :=
  if roState s ≠ roRun then none
  else match (roEntries s).find? fun e => e.kind == 2 && decide (now s < s.roster.frame0 + e.start) with
    | some e => some (s.roster.frame0 + e.start)
    | none => ((nextEntries s).find? fun e => e.kind == 2).map fun e => s.roster.frame0 + frameTicks + e.start

/-- Whether a CANARY entry is in progress. -/
def inCanary (s : State) : Bool := decide (now s < s.roster.canaryEnd)

/-- The window in force on a core group (R449). -/
def windowOf (s : State) (g : Nat) : Option WinNow := smFind s.roster.wins g

/-- The group of a core, where it is time-shared. -/
def groupOf (s : State) (k : CoreId) : Option Nat :=
  match coreAssign s k with
  | .group g => some g
  | _ => none

/-- The end of the quiet interval of a core that the present tick lies in (R571). -/
def quietEnd (s : State) (k : CoreId) : Option Nat :=
  if roState s ≠ roRun then none
  else
    let o := now s - s.roster.frame0
    ((smGet [] s.fb.quiet (stackNo (coreStack k))).find? fun q =>
      q.core == coreCode k && decide (q.start ≤ o ∧ o < q.start + q.dur)).map fun q => s.roster.frame0 + q.start + q.dur

/-! ### Graph images -/

/-- A stage entry (R425); `bad` where a reserved bit is set. -/
structure GStage where
  core   : Nat
  stream : Nat
  loop   : Bool
  retry  : Bool
  wd     : Nat
  addr   : Nat
  count  : Nat
  bad    : Bool
  deriving DecidableEq, Repr

/-- A graph image (R425). -/
structure Graph where
  level  : Nat
  safety : Bool
  count  : Nat
  batch  : Nat
  bad    : Bool
  stages : List GStage
  deriving DecidableEq, Repr

def gStage (w0 w1 w2 w3 : Word) : GStage :=
  { core := field w0 31 24, stream := field w0 23 23, loop := bit w0 22, retry := bit w0 21, wd := field w0 7 0
    addr := field w2 19 16 * 2 ^ 40 + w1.toNat * 256, count := field w2 15 0
    bad := field w0 20 8 != 0 || field w2 31 20 != 0 || w3 != 0 }

/-- A graph image as it stands in a partition's range, or the status of reading it. The stage entries are read where STAGES
is in range. -/
def readGraph (s : State) (part addr : Nat) : Except Status Graph :=
  let hs := readRange s part addr 64
  if hs ≠ .ok then .error hs
  else
    let h := readWords s part addr 16
    let n := field (h.getD 0 0) 6 0
    let bad := field (h.getD 0 0) 27 17 != 0 || field (h.getD 0 0) 15 7 != 0 || field (h.getD 1 0) 31 16 != 0 || (h.drop 2).any (· != 0)
    let g : Graph := ⟨field (h.getD 0 0) 31 28, bit (h.getD 0 0) 16, n, field (h.getD 1 0) 15 0, bad, []⟩
    if n = 0 ∨ n > 66 then .ok g
    else
      let es := readRange s part (addr + 64) (16 * n)
      if es ≠ .ok then .error es
      else
        let word (i j : Nat) : Word := readWord s part (addr + 64 + 16 * i + 4 * j)
        .ok { g with stages := (List.range n).map fun i => gStage (word i 0) (word i 1) (word i 2) (word i 3) }

/-- The address of the canary graph, and the canary cores with their shadows (R564). -/
def canaryGraph (s : State) : Nat := regField s (fbPage 0) 0x124 27 0 * pageBytes
def canaryCores (s : State) : List CoreId :=
  match readGraph s 0 (canaryGraph s) with
  | .error _ => []
  | .ok g => g.stages.flatMap fun x => match coreOfCode x.core with
    | none => []
    | some k => k :: (match shadowOf s k with
      | some j => [j]
      | none => [])

end Sys2Proof.Machine
end

