-- ==== Sys2Proof/Machine/TArith.lean ====
section
/-! DEFINITION. The arithmetic of the T-cores (Lupin, chapter 08): track records (R334), prediction (R335), UPDATE (R337),
BIRTH (R338), the integer auction of ASSIGN (R339), the descriptor (R340) and what R341 judges. -/

namespace Sys2Proof.Machine

/-- The fields of a T-core descriptor (R340). -/
structure TDesc where
  opcode   : Nat
  classGate : Bool
  first    : Nat
  count    : Nat
  target   : Word
  rows     : Nat
  cols     : Nat
  dets     : Nat
  inAddr   : Nat
  outAddr  : Nat
  paramAddr : Nat
  missCost : Nat
  deriving DecidableEq, Repr

def tDesc (d : List Word) : TDesc :=
  { opcode := df d 0 23 16, classGate := bit (dw d 0) 5, first := df d 1 24 16, count := df d 1 9 0
    target := dw d 2, rows := df d 2 24 16, cols := df d 2 8 0, dets := df d 3 15 0
    inAddr := addr44 (df d 7 3 0) (dw d 4).toNat, outAddr := addr44 (df d 7 7 4) (dw d 5).toNat
    paramAddr := addr44 (df d 7 11 8) (dw d 6).toNat, missCost := df d 8 23 0 }

/-- A track record (R334); the covariance is kept whole, both triangles equal. -/
structure Track where
  s       : List Word
  p       : List (List Word)
  id      : Nat
  last    : Word
  status  : Nat
  model   : Nat
  cls     : Nat
  flags   : Nat
  hits    : Nat
  misses  : Nat
  lastDet : Nat
  rest    : List Byte
  deriving DecidableEq, Repr

def bAt (bs : List Byte) (i : Nat) : Byte := bs.getD i 0
def wAt (bs : List Byte) (i : Nat) : Word := BitVec.ofNat 32 (leBytes (bAt bs) i 4)
def nAt (bs : List Byte) (i n : Nat) : Nat := leBytes (bAt bs) i n
def n12 : List Nat := List.range 12

/-- The place of element (i, j), i ≤ j, in the upper triangle, row-major. -/
def triIdx (i j : Nat) : Nat := i * 12 - i * (i - 1) / 2 + (j - i)

def mAt (m : List (List Word)) (i j : Nat) : Word := (m.getD i []).getD j 0

/-- A record from its 512 bytes. -/
def trackOf (bs : List Byte) : Track :=
  { s := n12.map fun i => wAt bs (4 * i)
    p := n12.map fun i => n12.map fun j => wAt bs (48 + 4 * triIdx (min i j) (max i j))
    id := nAt bs 360 4, last := wAt bs 364, status := nAt bs 368 1, model := nAt bs 369 1, cls := nAt bs 370 1
    flags := nAt bs 371 1, hits := nAt bs 372 2, misses := nAt bs 374 2, lastDet := nAt bs 376 4, rest := bs.drop 380 }

def tle (n k : Nat) : List Byte := (List.range n).map fun i => BitVec.ofNat 8 (k >>> (8 * i))

/-- The 512 bytes of a record. -/
def trackBytes (t : Track) : List Byte :=
  t.s.flatMap (fun w => tle 4 w.toNat) ++
  (n12.flatMap fun i => (n12.filter (i ≤ ·)).flatMap fun j => tle 4 (mAt t.p i j).toNat) ++
  tle 4 t.id ++ tle 4 t.last.toNat ++ [BitVec.ofNat 8 t.status, BitVec.ofNat 8 t.model, BitVec.ofNat 8 t.cls, BitVec.ofNat 8 t.flags] ++
  tle 2 t.hits ++ tle 2 t.misses ++ tle 4 t.lastDet ++ t.rest

/-- The parameter block (R340). -/
structure TParam where
  gate    : List Word
  coarse  : Word
  q0      : List Word
  q1      : List Word
  p0      : List Word
  confirm : Nat
  maxMiss : Nat
  maxMissT : Nat
  birthModel : Nat
  deriving DecidableEq, Repr

def tParam (rd : Nat → Byte) : TParam :=
  let w (i : Nat) : Word := BitVec.ofNat 32 (leBytes rd i 4)
  { gate := (List.range 4).map fun i => w (4 * i), coarse := w 16
    q0 := n12.map fun i => w (20 + 4 * i), q1 := n12.map fun i => w (68 + 4 * i), p0 := n12.map fun i => w (116 + 4 * i)
    confirm := leBytes rd 164 1, maxMiss := leBytes rd 165 1, maxMissT := leBytes rd 166 1, birthModel := leBytes rd 167 1 }

/-! ### FP32 matrices: every product and every sum rounded, in ascending index (R335) -/

def dotAsc (xs ys : List Word) : Word := (xs.zip ys).foldl (fun a p => f32add a (f32mul p.1 p.2)) 0
def transpose12 (m : List (List Word)) : List (List Word) := n12.map fun j => n12.map fun i => mAt m i j
def matMul12 (a b : List (List Word)) : List (List Word) :=
  let bt := transpose12 b
  a.map fun r => bt.map fun c => dotAsc r c
def matAdd12 (a b : List (List Word)) : List (List Word) := n12.map fun i => n12.map fun j => f32add (mAt a i j) (mAt b i j)

/-- Only the upper triangle is formed; the lower mirrors it. -/
def symm12 (m : List (List Word)) : List (List Word) := n12.map fun i => n12.map fun j => mAt m (min i j) (max i j)

def fHalf : Word := 0x3F000000#32
def fTwo : Word := 0x40000000#32
def fThird : Word := 0x3EAAAAAB#32
def f1em4 : Word := 0x38D1B717#32
def piF : Word := 0x40490FDB#32

/-- ψ wrapped into (−π, π]. -/
def tWrap (x : Word) : Word := if f32lt (f32neg piF) x && f32le x piF then x else Config.tWrap x

/-- Δt in seconds (R335). -/
def deltaT (target last : Word) : Word :=
  let d := (target - last).toInt
  f32of (ratioVal (d < 0) d.natAbs 1000000 0)

/-- A row of the identity with some entries replaced. -/
def idRow (i : Nat) (ov : List (Nat × Word)) : List Word :=
  n12.map fun j => match ov.find? fun p => p.1 == j with
    | some p => p.2
    | none => if i = j then f32one else 0

/-- Model 0: constant acceleration on each axis. -/
def jacCA (dt : Word) : List (List Word) :=
  let h := f32mul fHalf (f32mul dt dt)
  n12.map fun i =>
    if i < 3 then idRow i [(i + 3, dt), (i + 6, h)] else if i < 6 then idRow i [(i + 3, dt)] else idRow i []

/-- Model 1: the displacement and its derivatives, by the closed form or by the limit of ω = 0 (R335). -/
structure CtraStep where
  dx  : Word
  dy  : Word
  xw  : Word
  yw  : Word
  xv  : Word
  yv  : Word
  xa  : Word
  ya  : Word
  deriving DecidableEq, Repr

/-- SIN and COS (R335): free functions of their input, within 2 units in the last place. -/
def tSin (x : Word) : Word := BitVec.ofNat 32 (boundedBits fmtFP32 2 (sinExact (f32val x)) (Config.tSin x).toNat)
def tCos (x : Word) : Word := BitVec.ofNat 32 (boundedBits fmtFP32 2 (cosExact (f32val x)) (Config.tCos x).toNat)

def ctraStep (psi v w a dt : Word) : CtraStep :=
  let c0 := tCos psi
  let s0 := tSin psi
  if f32lt (f32abs w) f1em4 then
    let h := f32mul fHalf (f32mul dt dt)
    let d := f32add (f32mul v dt) (f32mul a h)
    let k := f32add (f32mul v h) (f32mul (f32mul a (f32mul (f32mul dt dt) dt)) fThird)
    { dx := f32mul d c0, dy := f32mul d s0, xw := f32neg (f32mul k s0), yw := f32mul k c0
      xv := f32mul dt c0, yv := f32mul dt s0, xa := f32mul h c0, ya := f32mul h s0 }
  else
    let p1 := f32add psi (f32mul w dt)
    let c1 := tCos p1
    let s1 := tSin p1
    let u := f32add v (f32mul a dt)
    let w2 := f32mul w w
    let w3 := f32mul w2 w
    let ex := f32sub (f32mul u s1) (f32mul v s0)
    let ey := f32sub (f32mul v c0) (f32mul u c1)
    let dc := f32sub c1 c0
    let ds := f32sub s1 s0
    let adt := f32mul a dt
    { dx := f32add (f32div ex w) (f32div (f32mul a dc) w2)
      dy := f32add (f32div ey w) (f32div (f32mul a ds) w2)
      xw := f32sub (f32sub (f32sub (f32div (f32mul (f32mul u dt) c1) w) (f32div ex w2)) (f32div (f32mul adt s1) w2))
        (f32div (f32mul fTwo (f32mul a dc)) w3)
      yw := f32sub (f32add (f32sub (f32div (f32mul (f32mul u dt) s1) w) (f32div ey w2)) (f32div (f32mul adt c1) w2))
        (f32div (f32mul fTwo (f32mul a ds)) w3)
      xv := f32div ds w, yv := f32neg (f32div dc w)
      xa := f32add (f32div (f32mul dt s1) w) (f32div dc w2)
      ya := f32sub (f32div ds w2) (f32div (f32mul dt c1) w) }

def ctraS (s : List Word) (i : Nat) : Word := s.getD i 0

/-- One track predicted to a target tick (R335). -/
def predictTrack (q : TParam) (target : Word) (t : Track) : Track :=
  let dt := deltaT target t.last
  let g := ctraS t.s
  let st := ctraStep (g 3) (g 4) (g 5) (g 6) dt
  let f := if t.model = 0 then jacCA dt
    else n12.map fun i =>
      match i with
      | 0 => idRow 0 [(3, f32neg st.dy), (4, st.xv), (5, st.xw), (6, st.xa)]
      | 1 => idRow 1 [(3, st.dx), (4, st.yv), (5, st.yw), (6, st.ya)]
      | 2 => idRow 2 [(7, dt)]
      | 3 => idRow 3 [(5, dt)]
      | 4 => idRow 4 [(6, dt)]
      | i => idRow i []
  let s' := if t.model = 0 then f.map fun r => dotAsc r t.s
    else n12.map fun i =>
      match i with
      | 0 => f32add (g 0) st.dx
      | 1 => f32add (g 1) st.dy
      | 2 => f32add (g 2) (f32mul (g 7) dt)
      | 3 => tWrap (f32add (g 3) (f32mul (g 5) dt))
      | 4 => f32add (g 4) (f32mul (g 6) dt)
      | i => g i
  let qs := if t.model = 0 then q.q0 else q.q1
  let diag := n12.map fun i => n12.map fun j => if i = j then f32mul (qs.getD i 0) dt else 0
  { t with s := s', p := symm12 (matAdd12 (matMul12 (matMul12 f t.p) (transpose12 f)) diag), last := target }

/-! ### Detections and UPDATE -/

/-- A detection (R336). -/
structure Det where
  mt   : Nat
  cls  : Nat
  tick : Word
  z    : List Word
  r    : List Word
  deriving DecidableEq, Repr

def detOf (rd : Nat → Byte) (i : Nat) : Det :=
  let o := 64 * i
  { mt := leBytes rd o 1, cls := leBytes rd (o + 1) 1, tick := BitVec.ofNat 32 (leBytes rd (o + 4) 4)
    z := (List.range 7).map fun k => BitVec.ofNat 32 (leBytes rd (o + 8 + 4 * k) 4)
    r := (List.range 7).map fun k => BitVec.ofNat 32 (leBytes rd (o + 36 + 4 * k) 4) }

/-- The states that a measurement type measures; none where it is not valid for the model (R336). -/
def measured (mt model : Nat) : Option (List Nat) :=
  match mt, model with
  | 0, 0 => some [0, 1]
  | 0, 1 => some [0, 1]
  | 1, 1 => some [0, 1, 2, 3]
  | 2, 1 => some [0, 1, 2, 3, 8, 9, 10]
  | 3, 0 => some [0, 1, 3, 4]
  | _, _ => none

/-- The Cholesky factor, row by row; none at a pivot ≤ 0. -/
def cholesky (a : List (List Word)) (n : Nat) : Option (List (List Word)) :=
  (List.range n).foldl (fun acc i =>
    match acc with
    | none => none
    | some l =>
      let row := (List.range i).foldl (fun (r : List Word) j =>
        let s := (List.range j).foldl (fun x k => f32sub x (f32mul (r.getD k 0) (mAt l j k))) (mAt a i j)
        r ++ [f32div s (mAt l j j)]) []
      let d := row.foldl (fun x y => f32sub x (f32mul y y)) (mAt a i i)
      if f32le d 0 then none else some (l ++ [row ++ [f32sqrt d]])) (some [])

/-- L u = y by forward substitution. -/
def forwardSub (l : List (List Word)) (y : List Word) : List Word :=
  (List.range y.length).foldl (fun u i =>
    let s := (List.range i).foldl (fun x k => f32sub x (f32mul (mAt l i k) (u.getD k 0))) (y.getD i 0)
    u ++ [f32div s (mAt l i i)]) []

/-- Lᵀ x = u by back substitution. -/
def backSub (l : List (List Word)) (u : List Word) : List Word :=
  let n := u.length
  (List.range n).foldl (fun x k =>
    let i := n - 1 - k
    let s := (List.range k).foldl (fun a j => f32sub a (f32mul (mAt l (i + 1 + j) i) (x.getD j 0))) (u.getD i 0)
    f32div s (mAt l i i) :: x) []

/-- The residual y, with ψ wrapped, and the Cholesky factor of S_y (R337 step 2). -/
def innovation (t : Track) (d : Det) (idx : List Nat) : List Word × Option (List (List Word)) :=
  let n := idx.length
  let y := ((List.range n).zip idx).map fun p =>
    let e := f32sub (d.z.getD p.1 0) (t.s.getD p.2 0)
    if t.model = 1 ∧ p.2 = 3 then tWrap e else e
  let s := ((List.range n).zip idx).map fun p => ((List.range n).zip idx).map fun q =>
    if p.1 = q.1 then f32add (mAt t.p p.2 q.2) (d.r.getD p.1 0) else mAt t.p p.2 q.2
  (y, cholesky s n)

/-- A pair that came through the coarse gate, judged by the fine gate: d² where it passes, and NUM_FAULT. -/
def fineGate (gate : List Word) (t : Track) (d : Det) : Option Word × Bool :=
  match measured d.mt t.model with
  | none => (none, false)
  | some idx =>
    let v := innovation t d idx
    match v.2 with
    | none => (none, true)
    | some l =>
      let u := forwardSub l v.1
      let d2 := dotAsc u u
      (if f32le d2 (gate.getD d.mt 0) then some d2 else none, false)

/-- Step 4 of R337: one assigned track updated. -/
def updateTrack (t : Track) (d : Det) : Track :=
  match measured d.mt t.model with
  | none => t
  | some idx =>
    let v := innovation t d idx
    match v.2 with
    | none => t
    | some l =>
      let ks := n12.map fun i => backSub l (forwardSub l (idx.map fun j => mAt t.p i j))
      let s' := n12.map fun i =>
        let x := f32add (t.s.getD i 0) (dotAsc (ks.getD i []) v.1)
        if t.model = 1 ∧ i = 3 then tWrap x else x
      let m := n12.map fun i => n12.map fun j =>
        let base : Word := if i = j then f32one else 0
        match idx.idxOf? j with
        | some c => f32sub base (mAt ks i c)
        | none => base
      let a := matMul12 (matMul12 m t.p) (transpose12 m)
      let kr := n12.map fun i => n12.map fun j =>
        (List.range idx.length).foldl (fun x c => f32add x (f32mul (f32mul (mAt ks i c) (d.r.getD c 0)) (mAt ks j c))) 0
      { t with s := s', p := symm12 (matAdd12 a kr) }

/-- A pair with its d². -/
structure Pair where
  track : Nat
  det   : Nat
  d2    : Word
  deriving DecidableEq, Repr

/-- Ascending d², ties by track and then by detection. -/
def pairLe (a b : Pair) : Bool :=
  if f32lt a.d2 b.d2 then true
  else if f32lt b.d2 a.d2 then false
  else decide (a.track < b.track ∨ (a.track = b.track ∧ a.det ≤ b.det))

/-- Step 3 of R337. -/
def assignPairs (ps : List Pair) : List Pair :=
  (ps.mergeSort pairLe).foldl (fun acc p => if acc.any (fun q => q.track == p.track || q.det == p.det) then acc else acc ++ [p]) []

/-- What a T-core command does: records to write by slot, bytes for OUT, flags, counts of R351, births. -/
structure TOut where
  tracks : List (Nat × List Byte)
  bytes  : List Byte
  flags  : Nat
  counts : List (Nat × Nat)
  births : Nat
  spent  : Bool
  clocks : Nat
  deriving DecidableEq, Repr

def noDet : Nat := 0xFFFFFFFF

/-- Step 5 of R337 for one track. -/
def trackLife (q : TParam) (t : Track) (fault : Bool) (det : Option Nat) : Track :=
  match det with
  | some d =>
    let h := min (t.hits + 1) 65535
    { t with hits := h, misses := 0, lastDet := d, flags := fault.toNat, status := if h ≥ q.confirm then 2 else t.status }
  | none =>
    let m := t.misses + 1
    let lim := if t.status = 1 then q.maxMissT else q.maxMiss
    { t with misses := m % 65536, lastDet := noDet, flags := fault.toNat + 2, status := if m > lim then 0 else t.status }

/-- UPDATE (R337) over the tracks of the range, in (slot, record) form. -/
def tUpdate (d : TDesc) (q : TParam) (ts : List (Nat × Track)) (dets : List Det) : TOut :=
  let live := ts.filter fun x => x.2.status ≠ 0
  let di := (List.range dets.length).zip dets
  let coarse := live.flatMap fun x => di.filterMap fun y =>
    let okClass := !d.classGate || y.2.cls == 255 || y.2.cls == x.2.cls
    let near (i : Nat) : Bool := f32le (f32abs (f32sub (y.2.z.getD i 0) (x.2.s.getD i 0))) q.coarse
    if okClass && (measured y.2.mt x.2.model).isSome && near 0 && near 1 then some (x, y) else none
  let tested := coarse.take 4096
  let fine := tested.map fun p => (p, fineGate q.gate p.1.2 p.2.2)
  let pairs := fine.filterMap fun f => f.2.1.map fun w => (⟨f.1.1.1, f.1.2.1, w⟩ : Pair)
  let got := assignPairs pairs
  let faulty (k : Nat) : Bool := fine.any fun f => f.1.1.1 == k && f.2.2
  let out := live.map fun x =>
    match got.find? fun p => p.track == x.1 with
    | some p => (x.1, trackLife q (updateTrack x.2 (dets.getD p.det ⟨0, 0, 0, [], []⟩)) (faulty x.1) (some p.det))
    | none => (x.1, trackLife q x.2 (faulty x.1) none)
  let numFault := fine.any fun f => f.2.2
  { tracks := out.map fun x => (x.1, trackBytes x.2)
    bytes := di.flatMap fun y => tle 4 (match got.find? fun p => p.det == y.1 with
      | some p => p.track
      | none => noDet)
    flags := numFault.toNat + 2 * (decide (coarse.length > 4096)).toNat
    counts := [(4, tested.length), (5, got.length), (7, (out.filter fun x => x.2.status == 0).length),
      (9, (live.filter fun x => faulty x.1).length)]
    births := 0, spent := false
    clocks := 160 + ceilDiv (d.count * d.dets) 16 + 4 * tested.length + 60 * got.length }

/-- BIRTH (R338). -/
def tBirth (d : TDesc) (q : TParam) (idBase nextId : Nat) (ts : List (Nat × Track)) (dets : List Det) : TOut :=
  let frees := (ts.filter fun x => x.2.status = 0).map Prod.fst
  let place (acc : List (Option (Nat × Det)) × List Nat) (x : Det) : List (Option (Nat × Det)) × List Nat :=
    match measured x.mt q.birthModel, acc.2 with
    | some _, f :: rest => (acc.1 ++ [some (f, x)], rest)
    | _, fs => (acc.1 ++ [none], fs)
  let placed := (dets.foldl place ([], frees)).1
  let good := placed.filterMap id
  let recs := ((List.range good.length).zip good).map fun y =>
    let idx := (measured y.2.2.mt q.birthModel).getD []
    let s := n12.map fun i => match idx.idxOf? i with
      | some c => y.2.2.z.getD c 0
      | none => 0
    let t : Track :=
      { s := s, p := n12.map fun i => n12.map fun j => if i = j then q.p0.getD i 0 else 0
        id := idBase + (nextId + y.1) % 2 ^ 31, last := y.2.2.tick, status := 1, model := q.birthModel, cls := y.2.2.cls
        flags := 0, hits := 0, misses := 0, lastDet := noDet, rest := List.replicate 132 0 }
    (y.2.1, trackBytes t)
  { tracks := recs, bytes := placed.flatMap fun p => tle 4 (match p with
      | some x => x.1
      | none => noDet)
    flags := 4 * (decide (good.length < placed.length)).toNat, counts := [(6, good.length)], births := good.length, spent := false
    clocks := 160 + 64 * d.dets }

/-! ### ASSIGN (R339) -/

/-- The state of the auction: the price of every column (the dummy of row i after the COLS columns), who holds what. -/
structure Auction where
  price : List Int
  owner : List (Option Nat)
  deriving DecidableEq, Repr

/-- The allowed columns of a row with their benefits, ascending; the row's dummy last. -/
def benefits (d : TDesc) (cost : Nat → Nat → Option Nat) (i : Nat) : List (Nat × Int) :=
  let k : Int := d.rows + 1
  ((List.range d.cols).filterMap fun j => (cost i j).map fun c => (j, -(c : Int) * k)) ++ [(d.cols + i, -(d.missCost : Int) * k)]

/-- The best column of a row, its value, and the second greatest value where there is one. -/
def bestTwo (price : List Int) : List (Nat × Int) → Option (Nat × Int × Option Int)
  | [] => none
  | (j, b) :: rest =>
    let x := b - price.getD j 0
    match bestTwo price rest with
    | none => some (j, x, none)
    | some (j', y, z) =>
      if x ≥ y then some (j, x, some y)
      else some (j', y, some (match z with
        | some z => max x z
        | none => x))

/-- The lowest row that holds no column. -/
def freeRow (d : TDesc) (a : Auction) : Option Nat := (List.range d.rows).find? fun i => !(a.owner.contains (some i))

/-- The auction at one eps, for at most n bids. -/
def auctionPhase (d : TDesc) (bs : List (List (Nat × Int))) (eps : Int) : Nat → Auction → Option (Nat × Auction)
  | 0, _ => none
  | n + 1, a =>
    match freeRow d a with
    | none => some (n, a)
    | some i =>
      match bestTwo a.price (bs.getD i []) with
      | none => none
      | some (j, x, w) =>
        let w' := w.getD (x - eps)
        auctionPhase d bs eps n
          { price := a.price.set j (a.price.getD j 0 + (x - w') + eps), owner := a.owner.set j (some i) }

/-- The phases of the auction: eps falls by a factor of 4 until 1; at most m phases, and n bids in all. -/
def auctionRun (d : TDesc) (bs : List (List (Nat × Int))) : Nat → Int → Nat → Auction → Option Auction
  | 0, _, _, _ => none
  | m + 1, eps, n, a =>
    match auctionPhase d bs eps n { a with owner := a.owner.map fun _ => none } with
    | none => none
    | some (n', a') => if eps = 1 then some a' else auctionRun d bs m (max 1 (eps / 4)) n' a'

/-- More bids than any solve makes: prices and benefits have fewer than 2³⁶ values. -/
def bidFuel : Nat := 2 ^ 64

/-- ASSIGN: the words of the matrix by index. A solve that reaches 120,000 clocks writes nothing; one whose costs are at most 0x0F_FFFF
does not reach them, and of others the spec does not say which do. -/
def tAssign (d : TDesc) (word : Nat → Word) : TOut :=
  let cost (i j : Nat) : Option Nat :=
    let w := word (i * d.cols + j)
    if bit w 31 then none else some (field w 23 0)
  let bs := (List.range d.rows).map (benefits d cost)
  let all := (bs.flatMap id).map Prod.snd
  let hi := all.foldl max (all.headD 0)
  let lo := all.foldl min (all.headD 0)
  let n := d.cols + d.rows
  let words := (List.range (d.rows * d.cols)).map word
  let dear := decide (d.missCost > 0xFFFFF) || words.any fun w => !(bit w 31) && decide (field w 23 0 > 0xFFFFF)
  let r := auctionRun d bs 40 (max 1 ((hi - lo) / 4)) bidFuel ⟨List.replicate n 0, List.replicate n none⟩
  match if dear && Config.assignSlow d.rows d.cols d.missCost words then none else r with
  | none => { tracks := [], bytes := [], flags := 0, counts := [(8, 1)], births := 0, spent := true, clocks := 120000 }
  | some a =>
    let col (i : Nat) : Nat := (a.owner.idxOf? (some i)).getD (d.cols + i)
    let total := ((List.range d.rows).map fun i => if col i < d.cols then (cost i (col i)).getD 0 else d.missCost).sum
    let cols := (List.range d.rows).flatMap fun i => tle 2 (if col i < d.cols then col i else 0xFFFF)
    { tracks := [], bytes := cols ++ List.replicate ((8 - cols.length % 8) % 8) 0 ++ tle 8 total, flags := 0
      counts := [(8, 1)], births := 0, spent := false, clocks := 0 }

/-! ### What R341 judges -/

def tRangeBad (d : TDesc) : Bool :=
  let range := d.count == 0 || decide (d.first + d.count > 512)
  match d.opcode with
  | 0 => false
  | 1 => range
  | 2 => range || d.dets == 0 || decide (d.dets > 1024)
  | 3 => range || d.dets == 0 || decide (d.dets > 512)
  | 6 => d.rows == 0 || decide (d.rows > 256) || d.cols == 0 || decide (d.cols > 256)
  | _ => range

/-- The nominal clocks of the opcodes whose time the descriptor gives (R341). -/
def tClocks (d : TDesc) : Nat :=
  match d.opcode with
  | 1 => 160 + 100 * d.count
  | 2 => 160 + ceilDiv (d.count * d.dets) 16 + 16384 + 60 * min d.count d.dets
  | 3 => 160 + 64 * d.dets
  | 4 => 160 + 64 * d.count
  | 5 => 160 + 64 * d.count
  | 6 => 120000
  | _ => 0

/-- The bits of each word that a T-core opcode names (R340, R685). -/
def tNamed (d : List Word) : List Word :=
  let t := tDesc d
  let full : Word := 0xFFFFFFFF#32
  let tail : List Word := [0x3FFF#32, full, 0x3FFFFFFF#32]
  let w0 : Word := 0xF0FF0018#32
  let rng : Word := 0x01FF03FF#32
  match t.opcode with
  | 1 => [w0, rng, full, 0, 0, 0, full, 0xF00#32, 0, 0, 0, 0, 0] ++ tail
  | 2 => [w0 ||| 0x20#32, rng, 0, 0xFFFF#32, full, full, full, 0xFFF#32, 0, 0, 0, 0, 0] ++ tail
  | 3 => [w0, rng, 0, 0xFFFF#32, full, full, full, 0xFFF#32, 0, 0, 0, 0, 0] ++ tail
  | 4 => [w0, rng, 0, 0, 0, full, 0, 0xF0#32, 0, 0, 0, 0, 0] ++ tail
  | 5 => [w0, rng, 0, 0, full, 0, 0, 0xF#32, 0, 0, 0, 0, 0] ++ tail
  | 6 => [w0, 0, 0x01FF01FF#32, 0, full, full, 0, 0xFF#32, 0xFFFFFF#32, 0, 0, 0, 0] ++ tail
  | _ => [w0, 0, 0, 0, 0, 0, 0, 0, 0, 0, 0, 0, 0] ++ tail

end Sys2Proof.Machine
end

