-- ==== Sys2Proof/Machine/VArith.lean ====
section
/-! DEFINITION. The arithmetic of the V-core (R195 to R203): its descriptor, its compute types, the fixed reduction
order, every opcode of R200, the RANGE conditions of R202 and the nominal time of R203. -/

namespace Sys2Proof.Machine

/-- The fields of a V-core descriptor (R201). -/
structure VDesc where
  opcode : Nat
  subop  : Nat
  xSrc   : Nat
  zDst   : Nat
  ct     : Nat
  xFmt   : Nat
  yFmt   : Nat
  zFmt   : Nat
  round  : Nat
  ovf    : Bool
  zc     : Bool
  salt   : Nat
  rows   : Nat
  cols   : Nat
  xAddr  : Nat
  yAddr  : Nat
  zAddr  : Nat
  pAddr  : Nat
  bcast  : Bool
  faceX  : Nat
  faceY  : Nat
  faceZ  : Nat
  faceP  : Nat
  alpha  : Word
  beta   : Word
  inRows : Nat
  inCols : Nat
  ch     : Nat
  xRows  : Nat
  eps    : Word
  deriving DecidableEq, Repr

def vDesc (d : List Word) : VDesc :=
  { opcode := df d 0 23 16, subop := df d 0 15 8, xSrc := df d 0 7 6, zDst := df d 0 5 4, ct := df d 0 1 0
    xFmt := df d 1 31 28, yFmt := df d 1 27 24, zFmt := df d 1 23 20, round := df d 1 19 18
    ovf := bit (dw d 1) 17, zc := bit (dw d 1) 16, salt := df d 1 15 0
    rows := df d 2 31 16, cols := df d 2 15 0
    xAddr := addr44 (df d 6 3 0) (dw d 3).toNat, yAddr := addr44 (df d 6 7 4) (dw d 4).toNat
    zAddr := addr44 (df d 6 11 8) (dw d 5).toNat, pAddr := addr44 (df d 6 15 12) (dw d 7).toNat
    bcast := bit (dw d 6) 16
    faceX := df d 8 15 0 * 64, faceY := df d 8 31 16 * 64, faceZ := df d 9 15 0 * 64, faceP := df d 9 31 16 * 64
    alpha := dw d 10, beta := dw d 11, inRows := df d 11 15 0, inCols := df d 12 31 16, ch := df d 12 15 0
    xRows := df d 12 15 0, eps := dw d 12 }

/-- A V-core input format: the codes of R124 without INT4, and UINT16 as 0xE (R196). -/
inductive VFmt
  | num (f : NumFmt)
  | u16
  deriving DecidableEq, Repr

def vFmtOf (code : Nat) : Option VFmt :=
  if code = 0xB then none else if code = 0xE then some .u16 else (numFmtOf code).map VFmt.num

/-- The tensor format whose layout a V-core format has. -/
def vLayout : VFmt → NumFmt
  | .num f => f
  | .u16 => .fp16

/-- Element (row, col) of a V-core operand with its scale (R126). -/
def vElem (rd : Nat → Byte) (f : VFmt) (rows cols row col : Nat) : FpVal :=
  match f with
  | .num g => tensorVal rd g 0 rows cols row col
  | .u16 => valOfInt (leBytes rd (row * rowStride .fp16 cols + 2 * col) 2 : Nat) 0

/-- A value rounded as a step of compute type CT requires (R197): FP32, or BF16. -/
def ctRound (ct : Nat) (v : FpVal) : FpVal :=
  if ct = 1 then fpDecode fmtBF16 (fpEncodeIeee fmtBF16 v) else f32val (f32of v)

/-- A saturating INT32 step and whether it saturated (R197). -/
def satStep (x : Int) : Int × Bool := (satInt32 x, decide (satInt32 x ≠ x))

/-- One computed value and INT_SAT. -/
abbrev VVal := FpVal × Bool

def vSat (x : Int) : VVal := (valOfInt (satInt32 x) 0, decide (satInt32 x ≠ x))

/-- The result of an elementary operation under CT: exact, then rounded once or saturated (R197). -/
def ctOp (ct : Nat) (v : FpVal) : VVal :=
  if ct = 2 then vSat (valInt v) else (ctRound ct v, false)

/-- α·x + β, one rounding (R197: an FMA is rounded once). -/
def ctFma (ct : Nat) (a x b : FpVal) : FpVal := ctRound ct (fpAdd (fpMul a x) b)

/-- The greater of two values; a NaN wins. -/
def fpMax (a b : FpVal) : FpVal :=
  if fpIsNan a then a else if fpIsNan b then b else if fpLt a b then b else a

def fpMin (a b : FpVal) : FpVal :=
  if fpIsNan a then a else if fpIsNan b then b else if fpLt b a then b else a

/-- A V-core function of R198 by SUBOP: a free function of the input in the compute type's bits, within the stated error. -/
def vFunc (sub ct : Nat) (v : FpVal) : FpVal :=
  match sub with
  | 0 => v
  | 1 => match v with
    | .fin n _ _ => if n then .fin false 0 0 else v
    | .inf n => if n then .fin false 0 0 else v
    | .nan => .nan
  | _ =>
    if ct = 1 then
      fpDecode fmtBF16 (boundedBits fmtBF16 1 (vExact sub v) ((Config.vFunc sub 1 (BitVec.ofNat 32 (fpEncodeIeee fmtBF16 v))).toNat % 65536))
    else fpDecode fmtFP32 (boundedBits fmtFP32 2 (vExact sub v) (Config.vFunc sub 0 (f32of v)).toNat)

/-- The pairwise tree over 2^k lanes (R199). -/
def laneTree (op : VVal → VVal → VVal) : Nat → List VVal → VVal
  | 0, xs => xs.headD (.fin false 0 0, false)
  | k + 1, xs => op (laneTree op k (xs.take (2 ^ k))) (laneTree op k (xs.drop (2 ^ k)))

/-- A reduction along a row (R199): element i into lane i mod 256 in ascending i, then the tree. -/
def laneReduce (init : FpVal) (into op : VVal → VVal → VVal) (xs : List VVal) : VVal :=
  let lane (j : Nat) : VVal :=
    ((List.range (ceilDiv (xs.length - j) 256)).map fun i => xs.getD (256 * i + j) (init, false)).foldl into (init, false)
  laneTree op 8 ((List.range 256).map lane)

def vAdd (ct : Nat) (a b : VVal) : VVal :=
  let r := ctOp ct (fpAdd a.1 b.1)
  (r.1, a.2 || b.2 || r.2)

/-- acc + x², one rounding. -/
def vSquareInto (ct : Nat) (acc x : VVal) : VVal :=
  let r := ctOp ct (fpAdd (fpMul x.1 x.1) acc.1)
  (r.1, acc.2 || x.2 || r.2)

def vPick (f : FpVal → FpVal → FpVal) (a b : VVal) : VVal := (f a.1 b.1, a.2 || b.2)

/-- The reductions of REDUCE by SUBOP (R200). -/
def vReduce (sub ct : Nat) (xs : List VVal) : VVal :=
  let lowest : FpVal := if ct = 2 then valOfInt (-2147483648) 0 else .inf true
  let highest : FpVal := if ct = 2 then valOfInt 2147483647 0 else .inf false
  match sub with
  | 0 => laneReduce (.fin false 0 0) (vAdd ct) (vAdd ct) xs
  | 1 => laneReduce lowest (vPick fpMax) (vPick fpMax) xs
  | 2 => laneReduce highest (vPick fpMin) (vPick fpMin) xs
  | _ => laneReduce (.fin false 0 0) (vSquareInto ct) (vAdd ct) xs

/-- The bytes of X, Y and P by offset from each operand's base. -/
structure VOperands where
  x : Nat → Byte
  y : Nat → Byte
  p : Nat → Byte

def vx (v : VDesc) : VFmt := (vFmtOf v.xFmt).getD .u16
def vy (v : VDesc) : VFmt := (vFmtOf v.yFmt).getD .u16
def vz (v : VDesc) : NumFmt := (numFmtOf v.zFmt).getD .fp32

/-- Rows and columns of X as stored (R200). -/
def xRowsOf (v : VDesc) : Nat :=
  if v.opcode = 7 then v.rows + 2 else if v.opcode = 8 then v.inRows else if v.opcode = 9 then v.xRows else v.rows
def xColsOf (v : VDesc) : Nat := if v.opcode = 8 then v.inCols * v.ch else v.cols

/-- Rows and columns of Z (R200). -/
def zColsOf (v : VDesc) : Nat :=
  if v.opcode = 3 then 1 else if v.opcode = 7 then v.cols * 3 else if v.opcode = 8 then v.cols * v.ch else v.cols

def yRowsOf (v : VDesc) : Nat := if v.bcast then 1 else v.rows

/-- The bytes of P (R200). -/
def pBytes (v : VDesc) : Nat :=
  if v.opcode = 4 then 8 * v.cols else if v.opcode = 8 then 8 * v.rows * v.cols
  else if v.opcode = 9 then 4 * v.rows else 0

/-- Step 1 of R197: an input in the compute type. -/
def vIn (v : VDesc) (o : VOperands) (r c : Nat) : FpVal :=
  let e := vElem o.x (vx v) (xRowsOf v) (xColsOf v) r c
  if v.ct = 2 then e else ctRound v.ct e

def vInY (v : VDesc) (o : VOperands) (r c : Nat) : FpVal :=
  let e := vElem o.y (vy v) (yRowsOf v) v.cols (if v.bcast then 0 else r) c
  if v.ct = 2 then e else ctRound v.ct e

/-- A 32-bit word of P at a byte offset. -/
def pWord (o : VOperands) (off : Nat) : Word := BitVec.ofNat 32 (leBytes o.p off 4)

/-- The integer that a finite value is, where it is one. -/
def exactInt : FpVal → Option Int
  | .fin s m e =>
    let n : Option Nat := if e ≥ 0 then some (m <<< e.toNat) else if m % 2 ^ (-e).toNat = 0 then some (m / 2 ^ (-e).toNat) else none
    n.map fun k => if s then -(k : Int) else k
  | _ => none

/-- What a descriptor gives to a result that CT INT32 leaves open. -/
def vOpenKey (v : VDesc) : List Nat := [v.opcode, v.subop, v.alpha.toNat, v.beta.toNat, v.eps.toNat]

/-- α·r + β with CT INT32 (R197, R200): where the exact value is an integer, that integer, saturating; how a fraction is rounded the
spec does not state (log 20). -/
def intAffine (v : VDesc) (r β : FpVal) (c : Nat) : VVal :=
  ctOp 2 (valOfInt ((exactInt (fpAdd (fpMul (f32val v.alpha) r) β)).getD (Config.vOpen (vOpenKey v) [valInt r] c)) 0)

/-- z = α·(x op y) + β (R200). -/
def vBinary (v : VDesc) (x y : FpVal) : VVal :=
  let r : FpVal := match v.subop with
    | 0 => fpAdd x y
    | 1 => fpAdd x (fpNeg y)
    | 2 => fpMul x y
    | 3 => fpMax x y
    | _ => fpMin x y
  if v.ct = 2 then
    let a := ctOp 2 r
    let b := intAffine v a.1 (f32val v.beta) 0
    (b.1, a.2 || b.2)
  else (ctFma v.ct (ctRound v.ct (f32val v.alpha)) (ctRound v.ct r) (ctRound v.ct (f32val v.beta)), false)

/-- One NORM row (R200): LayerNorm or RMSNorm with γ and β from P. -/
def vNormRow (v : VDesc) (o : VOperands) (r : Nat) : List VVal :=
  let ct := v.ct
  let xs := (List.range v.cols).map fun c => ((vIn v o r c, false) : VVal)
  let n := valOfInt v.cols 0
  let mean := if v.subop = 0 then ctRound ct (fpDiv (vReduce 0 ct xs).1 n) else .fin false 0 0
  let ds : List VVal := xs.map fun x =>
    (if v.subop = 0 then ctRound ct (fpAdd x.1 (fpNeg mean)) else x.1, false)
  let var := ctRound ct (fpDiv (vReduce 3 ct ds).1 n)
  let rs := vFunc 8 ct (ctRound ct (fpAdd var (f32val v.eps)))
  ((List.range v.cols).zip ds).map fun p =>
    let g := ctRound ct (f32val (pWord o (4 * p.1)))
    let b := ctRound ct (f32val (pWord o (4 * (v.cols + p.1))))
    (ctFma ct (ctRound ct (fpMul p.2.1 rs)) g b, false)

/-- One SOFTMAX row (R200): of α·x, with the row maximum subtracted first. -/
def vSoftmaxRow (v : VDesc) (o : VOperands) (r : Nat) : List VVal :=
  let ct := v.ct
  let ys := (List.range v.cols).map fun c =>
    ((ctRound ct (fpMul (ctRound ct (f32val v.alpha)) (vIn v o r c)), false) : VVal)
  let mx := (vReduce 1 ct ys).1
  let es := ys.map fun y => ((vFunc 6 ct (ctRound ct (fpAdd y.1 (fpNeg mx))), false) : VVal)
  let sum := (vReduce 0 ct es).1
  es.map fun e => (ctRound ct (fpDiv e.1 sum), false)

/-- The colour of a Bayer sample: 0 red, 1 green, 2 blue, by SUBOP and the parities of row and column (R200). -/
def bayerAt (sub r c : Nat) : Nat :=
  let pat : List Nat := match sub with
    | 0 => [0, 1, 1, 2]
    | 1 => [1, 0, 2, 1]
    | 2 => [1, 2, 0, 1]
    | _ => [2, 1, 1, 0]
  pat.getD (2 * (r % 2) + c % 2) 0

/-- One DEBAYER output value v for channel k at output row r (halo row r is one above) and column c. -/
def vDebayer (v : VDesc) (o : VOperands) (r c k : Nat) : FpVal :=
  let at_ (dr : Nat) (dc : Int) : FpVal :=
    vIn v o (r + dr) (clampInt 0 ((v.cols : Int) - 1) ((c : Int) + dc)).toNat
  let add (x y : FpVal) := ctRound v.ct (fpAdd x y)
  let own := bayerAt v.subop r c
  if k = own then at_ 1 0
  else if own = 1 then
    if bayerAt v.subop r (c + 1) = k then fpScale (add (at_ 1 (-1)) (at_ 1 1)) (-1)
    else fpScale (add (at_ 0 0) (at_ 2 0)) (-1)
  else if k = 1 then
    fpScale (add (add (at_ 0 0) (at_ 2 0)) (add (at_ 1 (-1)) (at_ 1 1))) (-2)
  else fpScale (add (add (at_ 0 (-1)) (at_ 0 1)) (add (at_ 2 (-1)) (at_ 2 1))) (-2)

/-- One RESAMPLE output value (R200): Q16.16 coordinates clamped to the input, FP32 weights. -/
def vResample (v : VDesc) (o : VOperands) (r c k : Nat) : FpVal :=
  let off := 8 * (r * v.cols + c)
  let y := min (pWord o off).toNat ((v.inRows - 1) * 65536)
  let x := min (pWord o (off + 4)).toNat ((v.inCols - 1) * 65536)
  let px (yy xx : Nat) := vIn v o (min yy (v.inRows - 1)) (min xx (v.inCols - 1) * v.ch + k)
  if v.subop = 1 then px ((y + 32768) / 65536) ((x + 32768) / 65536)
  else
    let fy := FpVal.fin false (y % 65536) (-16)
    let fx := FpVal.fin false (x % 65536) (-16)
    let one := valOfInt 1 0
    let gy := fpAdd one (fpNeg fy)
    let gx := fpAdd one (fpNeg fx)
    let w (a b : FpVal) := f32val (f32of (fpMul a b))
    let y0 := y / 65536
    let x0 := x / 65536
    let s0 := ctRound v.ct (fpMul (w gy gx) (px y0 x0))
    let s1 := ctFma v.ct (w gy fx) (px y0 (x0 + 1)) s0
    let s2 := ctFma v.ct (w fy gx) (px (y0 + 1) x0) s1
    ctFma v.ct (w fy fx) (px (y0 + 1) (x0 + 1)) s2

/-- Whether CT INT32 leaves an opcode's result unstated: the opcodes that R200 defines by real arithmetic; the nearest sample of a
RESAMPLE is exact. -/
def vIntUnstated (v : VDesc) : Bool := v.ct = 2 && (v.opcode = 4 || v.opcode = 5 || v.opcode = 7 || (v.opcode = 8 && v.subop = 0))

/-- The inputs of one output row of an operation whose result CT INT32 leaves open. -/
def vOpenInputs (v : VDesc) (o : VOperands) (r : Nat) : List Int :=
  let row (i : Nat) : List Int := (List.range (xColsOf v)).map fun c => valInt (vIn v o i c)
  match v.opcode with
  | 4 => row r ++ (List.range (2 * v.cols)).map fun i => ((pWord o (4 * i)).toNat : Int)
  | 5 => row r
  | 7 => (r % 2 : Int) :: (row r ++ row (r + 1) ++ row (r + 2))
  | _ => ((List.range (2 * v.cols)).map fun i => ((pWord o (4 * (2 * r * v.cols + i))).toNat : Int)) ++ (List.range v.inRows).flatMap row

/-- The values of one output row, before step 3 of R197, and IDX_OOB. -/
def vRow (v : VDesc) (o : VOperands) (r : Nat) : List VVal × Bool :=
  let cs := List.range v.cols
  if vIntUnstated v then
    ((List.range (zColsOf v)).map fun c => ctOp 2 (valOfInt (Config.vOpen (vOpenKey v) (vOpenInputs v o r) c) 0), false)
  else
    match v.opcode with
    | 1 =>
      (cs.map fun c =>
        let x := vIn v o r c
        if v.ct = 2 then (vFunc v.subop 2 x, false)
        else (ctRound v.ct (vFunc v.subop v.ct
          (ctFma v.ct (ctRound v.ct (f32val v.alpha)) x (ctRound v.ct (f32val v.beta)))), false), false)
    | 2 => (cs.map fun c => vBinary v (vIn v o r c) (vInY v o r c), false)
    | 3 => ([vReduce v.subop v.ct (cs.map fun c => (vIn v o r c, false))], false)
    | 4 => (vNormRow v o r, false)
    | 5 => (vSoftmaxRow v o r, false)
    | 6 =>
      (cs.map fun c =>
        let x := vIn v o r c
        if v.ct = 2 then intAffine v x (.fin true 0 0) 0 else (ctRound v.ct (fpMul (ctRound v.ct (f32val v.alpha)) x), false), false)
    | 7 =>
      ((List.range (3 * v.cols)).map fun i =>
        (ctFma v.ct (ctRound v.ct (f32val v.alpha)) (vDebayer v o r (i / 3) (i % 3)) (ctRound v.ct (f32val v.beta)), false),
       false)
    | 8 => ((List.range (v.cols * v.ch)).map fun i => (vResample v o r (i / v.ch) (i % v.ch), false), false)
    | _ =>
      let idx := sInt 32 (leBytes o.p (4 * r) 4)
      if 0 ≤ idx ∧ idx < v.xRows then (cs.map fun c => (vIn v o idx.toNat c, false), false)
      else (cs.map fun _ => (.fin false 0 0, false), true)

/-- The whole command (R197, R199): rows in order, the generator advancing in row, then column order. -/
def vCompute (v : VDesc) (o : VOperands) (jobSeed : DWord) : KOut :=
  let f := vz v
  let rows := (List.range v.rows).map (vRow v o)
  let rnd := roundings (v.round = 1) (lfsrSeed jobSeed v.salt) (v.rows * zColsOf v)
  let rrows := rowsOf (zColsOf v) v.rows rnd
  let conv := (rows.zip rrows).map fun p => convertRow f v.ovf ((p.1.1.map Prod.fst).zip p.2) (rowBlocks (zColsOf v))
  let cf := conv.foldl (fun a r => convOr a r.2.2) {}
  let intSat := rows.any fun r => r.1.any Prod.snd
  { stores := layoutTensor f 0 v.rows (zColsOf v) (conv.map fun r => (r.1, r.2.1))
    rows := conv.map fun r => packElems (elemBits f) r.1
    flags := cf.outSat.toNat + 2 * intSat.toNat + 4 * cf.nanOut.toNat + 8 * (rows.any Prod.snd).toNat }

/-- Cost in lane operations per output element (R200). -/
def vCost (v : VDesc) : Nat :=
  match v.opcode with
  | 1 => match v.subop with
    | 2 => 6
    | 3 | 4 | 5 => 5
    | 6 => 4
    | 7 | 8 => 3
    | _ => 1
  | 2 => 1
  | 4 => 6
  | 5 => 8
  | 6 => if isMx (vz v) then 2 else 1
  | 7 => 4
  | 8 => 4
  | _ => 0

/-- The bytes of X, Y and P staged in (R203). -/
def vInBytes (v : VDesc) : Nat :=
  stagedBytes (vLayout (vx v)) (xRowsOf v) (xColsOf v) +
    (if v.opcode = 2 then stagedBytes (vLayout (vy v)) (yRowsOf v) v.cols else 0) + pBytes v

/-- T_comp of R203. -/
def vCompClocks (v : VDesc) : Nat :=
  let lanes := if v.ct = 1 then 512 else 256
  ceilDiv (if v.opcode = 3 then v.rows * v.cols + 8 * v.rows else v.rows * zColsOf v * vCost v) lanes

/-- The nominal time in V-core clocks (R203); a NOP takes 48. -/
def vClocks (v : VDesc) : Nat :=
  if v.opcode = 0 then 48
  else 48 + max (ceilDiv (vInBytes v) 256) (max (vCompClocks v) (ceilDiv (stagedBytes (vz v) v.rows (zColsOf v)) 256)) + 96

/-- The Face regions of a V-core command (R202, R121). -/
def vFaceRegions (v : VDesc) : List (Nat × Nat) :=
  [(v.faceX, tensorExtent (vLayout (vx v)) (xRowsOf v) (xColsOf v)), (v.faceZ, tensorExtent (vz v) v.rows (zColsOf v))] ++
  (if v.opcode = 2 then [(v.faceY, tensorExtent (vLayout (vy v)) (yRowsOf v) v.cols)] else []) ++
  (if pBytes v = 0 then [] else [(v.faceP, pBytes v)])

/-- How many SUBOPs an opcode has (R200). -/
def vSubops (op : Nat) : Nat :=
  match op with
  | 1 => 9
  | 2 => 5
  | 3 => 4
  | 4 => 2
  | 7 => 4
  | 8 => 2
  | _ => 1

/-- The format conditions of R196, R197 and R202. That DEBAYER takes UINT16 alone is read from R200 (DEDUCED, log 66); that CT INT32 takes
no float Z is the model's (DESIGN CHOICE, log 66). -/
def vFormatBad (v : VDesc) : Bool :=
  match vFmtOf v.xFmt, numFmtOf v.zFmt with
  | some x, some z =>
    let okInt (f : VFmt) : Bool := f == .u16 || f == .num .int8 || f == .num .int32
    z == .int4 ||
      (x == .u16 && !(v.opcode == 6 || v.opcode == 7 || v.opcode == 8)) ||
      (v.ct == 2 && (!(okInt x) || !(z == .int8 || z == .int32))) ||
      (v.opcode == 2 && (match vFmtOf v.yFmt with
        | some y => y == .u16 || (v.ct == 2 && !(okInt y))
        | none => true)) ||
      (v.round == 1 && (z == .fp32 || z == .int32)) ||
      (decide (v.cols % 32 ≠ 0) && (isMx (vLayout x) || isMx z || (v.opcode == 2 && isMx (vLayout (vy v))))) ||
      (v.opcode == 7 && x != .u16) ||
      (v.zc && (v.zDst == 1 || !(z == .e4m3 || z == .e5m2 || z == .int8 || z == .bf16 || z == .fp16)))
  | _, _ => true

/-- The RANGE conditions of R202 for a defined opcode. -/
def vRangeBad (v : VDesc) : Bool :=
  if v.opcode = 0 then v.subop != 0
  else
    decide (v.subop ≥ vSubops v.opcode) || decide (v.xSrc > 1) || decide (v.zDst > 1) || v.ct == 3 ||
      decide (v.round > 1) || (v.opcode == 1 && v.ct == 2 && decide (v.subop > 1)) ||
      vFormatBad v || v.rows == 0 || v.cols == 0 ||
      (v.opcode == 8 && (v.inRows == 0 || v.inCols == 0 || v.ch == 0)) || (v.opcode == 9 && v.xRows == 0) ||
      (v.xSrc == 1 && !(v.opcode == 1 || v.opcode == 2 || v.opcode == 6 || v.opcode == 7)) ||
      (vFaceRegions v).any (fun p => decide (p.1 + p.2 > 0x400000)) || anyOverlap (vFaceRegions v) ||
      decide (vClocks v > 120000)

/-- The bits of each word that a V-core opcode names (R201, R685). -/
def vNamed (d : List Word) : List Word :=
  let v := vDesc d
  let tail : List Word := [0x3FFF#32, 0xFFFFFFFF#32, 0x3FFFFFFF#32]
  if v.opcode = 0 then [0xF0FFFF0C#32, 0, 0, 0, 0, 0, 0, 0, 0, 0, 0, 0, 0] ++ tail
  else
    let full : Word := 0xFFFFFFFF#32
    let bin := v.opcode = 2
    let hasP := v.opcode = 4 ∨ v.opcode = 8 ∨ v.opcode = 9
    let w1 : Word := 0xF0FF0000#32 ||| (if bin then 0x0F000000#32 else 0) ||| (if v.round = 0 then 0 else 0xFFFF#32)
    let alpha := (v.opcode = 1 ∧ v.ct ≠ 2) ∨ bin ∨ v.opcode = 5 ∨ v.opcode = 6 ∨ v.opcode = 7
    let beta := (v.opcode = 1 ∧ v.ct ≠ 2) ∨ bin ∨ v.opcode = 7
    let w6 : Word := (if v.xSrc = 1 then 0 else 0xF#32) ||| (if v.zDst = 1 then 0 else 0xF00#32) |||
      (if bin then 0x100F0#32 else 0) ||| (if hasP then 0xF000#32 else 0)
    [0xF0FFFFFF#32, w1, full, if v.xSrc = 1 then 0xFF#32 else full, if bin then full else 0,
     if v.zDst = 1 then 0xFF#32 else full, w6, if hasP then full else 0,
     if bin then full else 0xFFFF#32, if hasP then full else 0xFFFF#32,
     if alpha then full else 0, if beta then full else if v.opcode = 8 then 0xFFFF#32 else 0,
     if v.opcode = 4 ∨ v.opcode = 8 then full else if v.opcode = 9 then 0xFFFF#32 else 0] ++ tail

end Sys2Proof.Machine
end

