-- ==== Sys2Proof/Machine/CmdDesc.lean ====
section
/-! DEFINITION. Command descriptors of every core class: their common fields, what their checks at issue judge (R137, R202,
R296, R333, R341, R383), and their nominal times (R139, R203, R297, R333, R341, R384). -/

namespace Sys2Proof.Machine

/-! ### Common fields -/

def opOf (d : List Word) : Nat := df d 0 23 16

/-- How many opcodes a class defines. -/
def opCount : CoreCls → Nat
  | .m => 4 | .v => 10 | .a => 5 | .f => 4 | .t => 7 | .l => 5 | .c => 0

def waitEn (k : CoreId) (d : List Word) : Bool := bit (dw d 0) (if k.cls = .v then 3 else 4)
def signalEn (k : CoreId) (d : List Word) : Bool := bit (dw d 0) (if k.cls = .v then 2 else 3)
def waitTally (d : List Word) : Nat := df d 13 13 0
def waitThresh (d : List Word) : Word := dw d 14
def sigTally (d : List Word) : Nat := df d 15 13 0
def sigInc (d : List Word) : Nat := df d 15 29 14

/-- The bits of each word that an opcode of a class names. -/
def cmdNamed (k : CoreId) (d : List Word) : List Word :=
  match k.cls with
  | .m => mNamed d | .v => vNamed d | .a => aNamed d | .f => fNamed d | .t => tNamed d | .l => lNamed d | .c => []

def cmdReservedSet (k : CoreId) (d : List Word) : Bool :=
  (List.range 16).any fun i => (dw d i &&& ~~~((cmdNamed k d).getD i 0)) != 0

/-- The receive windows that a command names (R177), with the operand each feeds: 0 for A, X or Q, 1 for B. -/
def cmdWindows (k : CoreId) (d : List Word) : List (Nat × Nat) :=
  match k.cls with
  | .m =>
    let m := mDesc d
    if m.opcode = 0 then [] else (if m.aSrc = 1 then [(0, df d 5 7 0)] else []) ++ (if m.bSrc = 1 then [(1, df d 6 7 0)] else [])
  | .v => if opOf d ≠ 0 ∧ (vDesc d).xSrc = 1 then [(0, df d 3 7 0)] else []
  | .a => if (opOf d = 1 ∨ opOf d = 2) ∧ (aDesc d).qSrc = 1 then [(0, df d 5 7 0)] else []
  | _ => []

/-- The push channel that a command names. -/
def cmdPush (k : CoreId) (d : List Word) : Option Nat :=
  match k.cls with
  | .m => if opOf d ≠ 0 ∧ (mDesc d).cDst = 1 then some (df d 7 7 0) else none
  | .v => if opOf d ≠ 0 ∧ (vDesc d).zDst = 1 then some (df d 5 7 0) else none
  | .a => if (opOf d = 1 ∨ opOf d = 3) ∧ (aDesc d).oDst = 1 then some (df d 6 7 0) else none
  | _ => none

/-! ### Times -/

/-- The most blocks that an entry of the length table may reach (R270): BMAX of the pool, and all of a sequence for ATTN_BWD, which works
on no pool (R291). -/
def tableMax (s : State) (part : Nat) (a : ADesc) : Nat := if a.opcode = 4 then 2048 else (poolCfg s part a.pool).bmax

/-- The length table of an A-core command as it stands, where its bytes can be read and every entry is valid. -/
def goodTable (s : State) (part : Nat) (a : ADesc) : Option (List LenEntry) :=
  let es := lenTable s part a (tableMax s part a)
  if lenTableStatus s part a = .ok ∧ es.all fun e => e.good then some es else none

/-- The bytes that the copies of an append would move. -/
def aCopied (s : State) (part : Nat) (a : ADesc) (es : List LenEntry) : Nat :=
  if a.opcode = 2 then copiedBytes (poolCfg s part a.pool) (appendPlan part a (a.head % 8) s (appendRows es) []).1 else 0

/-- The nominal time of a command in its core's clocks: the bound of R341 and R384 where the data decides it, and the length
table as it stands. -/
def nominalClocks (s : State) (k : CoreId) (part : Nat) (d : List Word) : Nat :=
  match k.cls with
  | .m => mClocks (mDesc d)
  | .v => vClocks (vDesc d)
  | .a =>
    let a := aDesc d
    match goodTable s part a with
    | some es => aClocks a (aPoolOf (poolCfg s part a.pool)) es (aCopied s part a es)
    | none => 64
  | .f => fClocks (fDesc d)
  | .t => tClocks (tDesc d)
  | .l =>
    let l := lDesc d
    match l.opcode with
    | 1 => 64 + (if l.first then 256 else 768) + 1024 * l.arg + 512 + 96
    | 2 => 33248
    | 3 => 76192
    | 4 => 75424
    | _ => 64
  | .c => 0

def nominalTicks (s : State) (k : CoreId) (part : Nat) (d : List Word) : Nat := ceilDiv (nominalClocks s k part d) (clkPerTick k.cls)

/-! ### The RANGE conditions -/

/-- The conditions of R296 on the pool, the length table and the stream. -/
def aPlaceBad (s : State) (k : CoreId) (stream part : Nat) (a : ADesc) : Bool :=
  let c := poolCfg s part a.pool
  (a.opcode != 0 && (if a.opcode = 2 then stream == 0 else stream == 1)) ||
    ((a.opcode == 1 || a.opcode == 2) &&
      (!c.valid || (a.qFmt == 8) != c.bf16 || decide (a.head ≥ c.heads) || decide (a.layer ≥ c.layers) || a.head % 8 != k.inst)) ||
    (a.opcode != 0 && match goodTable s part a with
      | some es => aSizeBad a (aPoolOf c) es (aCopied s part a es)
      | none => false)

/-- The place of a track record in the store (R334). -/
def trkKey (core slot : Nat) : Nat := (core * 512 + slot) * 512
def trackRec (s : State) (core slot : Nat) : List Byte := (List.range 512).map fun i => smGet 0 s.tracks.bytes (trkKey core slot + i)

def trkOf (s : State) (core : Nat) : TrkMirror := s.vl.trk.getD core ⟨0, none, [], 0⟩
def setTrk (s : State) (core : Nat) (x : TrkMirror) : State := { s with vl := { s.vl with trk := s.vl.trk.set core x } }

/-- A T-core's table cleared (R334): every record FREE, and CMD_SEQ counts anew (R609). -/
def clearTracks (s : State) (core : Nat) : State :=
  setTrk { s with tracks := { s.tracks with bytes := smClear s.tracks.bytes (trkKey core 0) (trkKey (core + 1) 0) } } core ⟨0, none, [], 0⟩

/-- A PREDICT whose target lies before the LAST_TICK of a track of its range (R341). -/
def predictBack (s : State) (core : Nat) (t : TDesc) : Bool :=
  t.opcode == 1 && (List.range t.count).any fun i =>
    let r := trackOf (trackRec s core (t.first + i))
    r.status != 0 && (t.target - r.last).msb

/-- The size of a library whose headers can be read. -/
def libSize (s : State) (part : Nat) (l : LDesc) : Option Nat :=
  if readRange s part l.libAddr (64 * l.libCount) = .ok then some (libBytes (fun o => readByte s part (l.libAddr + o)) l.libCount) else none

def cmdRangeBad (s : State) (k : CoreId) (stream : Nat) (o : Offer) : Bool :=
  let d := o.desc
  decide (opOf d ≥ opCount k.cls) || (o.retry && (!(cmdWindows k d).isEmpty || (cmdPush k d).isSome)) ||
    match k.cls with
    | .m => mRangeBad (mDesc d)
    | .v => vRangeBad (vDesc d)
    | .a => aRangeBad (aDesc d) || aPlaceBad s k stream o.part (aDesc d)
    | .f => fRangeBad (fDesc d)
    | .t => tRangeBad (tDesc d) || predictBack s k.inst (tDesc d)
    | .l => lRangeBad (lDesc d) k.inst (libSize s o.part (lDesc d))
    | .c => true

/-- DEV_LEVEL[15:8], the level in force (R101). -/
def levelInForce (s : State) : Nat := regField s devPage 0x108 15 8

/-- The check of a descriptor at issue, in the order of R104. A descriptor whose OPCODE is undefined names LEVEL and OPCODE alone
(R685). -/
def issueStatus (s : State) (k : CoreId) (stream : Nat) (o : Offer) : Status :=
  let d := o.desc
  let lv := df d 0 31 28
  let st := streamState s k stream
  if opOf d ≥ opCount k.cls then (if lv > levelInForce s then .levelUnsupported else .range)
  else if (waitEn k d ∧ !(ownsTally s o.part (waitTally d))) ∨ (signalEn k d ∧ !(ownsTally s o.part (sigTally d))) then .ownerDenied
  else if cmdReservedSet k d then .reservedSet
  else if lv > levelInForce s then .levelUnsupported
  else if lv = 0 ∨ (signalEn k d ∧ sigInc d = 0) ∨ cmdRangeBad s k stream o then .range
  else if st = cOff ∨ st = cSuspect ∨ (k.cls = .a ∧ opOf d = 4 ∧ s.dev.power ≠ 5) then .stateIllegal
  else .ok

end Sys2Proof.Machine
end

