-- ==== Sys2Proof/Machine/CmdCalc.lean ====
section
/-! DEFINITION. What a command in RUN computes: its operands as they are read (R181, R182, R686), the failures that reading
them meets, and what it will store, push and count when it ends with OK. -/

namespace Sys2Proof.Machine

/-! ### Windows and operands -/

def chanOf (s : State) (job c : Nat) : Option Channel := (jobOf s job).bind fun j => smFind j.chans c
def chanPitch (c : Channel) : Nat := c.units * 64

/-- A byte of an operand that a receive window feeds: what landed in Face, or a free value where no channel of the window covers it. So
are the scales of a pushed MX tensor: rows carry elements, and the spec does not say how the scales reach the consumer (log 66). -/
def winByte (s : State) (k : CoreId) (stream : Nat) (r : CmdRun) (op face o : Nat) : Byte :=
  if r.win.any fun w => w.2.1 == op && (match chanOf s r.offer.job w.1 with
    | some c => decide (c.dstRow * chanPitch c ≤ o ∧ o < (c.dstRow + c.rows) * chanPitch c)
    | none => false)
  then smGet 0 s.face (faceKey k stream (face + o)) else (Config.freeWord (r.free0 + op * 2 ^ 25 + o)).setWidth 8

/-- A byte of memory as a command reads it: as it was at RUN, where the command has kept it, else as it stands (R686). -/
def seenByte (s : State) (r : CmdRun) (a : Nat) : Byte :=
  match r.seen.find? fun x => decide (x.1 ≤ a ∧ a < x.1 + x.2.length) with
  | some x => x.2.getD (a - x.1) 0
  | none => readByte s r.offer.part a

/-- A byte of an operand, from its window or from memory. -/
def opByte (s : State) (k : CoreId) (stream : Nat) (r : CmdRun) (op addr face : Nat) : Nat → Byte := fun o =>
  if (cmdWindows k r.offer.desc).any fun w => w.1 == op then winByte s k stream r op face o else seenByte s r (addr + o)

/-- Bytes of memory from an address on. -/
def memAt (s : State) (r : CmdRun) (addr : Nat) : Nat → Byte := fun o => seenByte s r (addr + o)

def fmtBytes (code : Nat) : Nat := elemBits (fmtOr code) / 8

/-- The entries of the length table that a command has read. -/
def runTable (s : State) (r : CmdRun) : List LenEntry :=
  r.lens.map fun w => lenEntry w.1 w.2 (tableMax s r.offer.part (aDesc r.offer.desc))

/-- The nine addresses of ATTN_BWD (R291). -/
def bwdAddr (s : State) (r : CmdRun) (i : Nat) : Nat := leBytes (memAt s r (aDesc r.offer.desc).qAddr) (8 * i) 8 % 2 ^ 44

/-- The device-virtual ranges that a command stages in, as (address, bytes); the KV pages of ATTN apart. -/
def cmdReads (s : State) (k : CoreId) (r : CmdRun) : List (Nat × Nat) :=
  let d := r.offer.desc
  match k.cls with
  | .m =>
    let m := mDesc d
    if m.opcode = 0 then []
    else (if m.aSrc = 0 then tensorRegions (fmtOr m.aFmt) m.aAddr (aRows m) (aCols m) (mGroups m) else []) ++
      (if m.bSrc = 0 then tensorRegions (fmtOr m.bFmt) m.bAddr (bRows m) (bCols m) (mGroups m) else []) ++
      (if m.biasEn then (List.range (mGroups m)).map fun g => (m.biasAddr + g * groupStride (roundUp (4 * biasCount m) 64), 4 * biasCount m)
       else [])
  | .v =>
    let v := vDesc d
    if v.opcode = 0 then []
    else (if v.xSrc = 0 then tensorRegions (vLayout (vx v)) v.xAddr (xRowsOf v) (xColsOf v) 1 else []) ++
      (if v.opcode = 2 then tensorRegions (vLayout (vy v)) v.yAddr (yRowsOf v) v.cols 1 else []) ++
      (if pBytes v = 0 then [] else [(v.pAddr, pBytes v)])
  | .a =>
    let a := aDesc d
    let p := aPoolOf (poolCfg s r.offer.part a.pool)
    let es := runTable s r
    let rows := aRowCount a es
    match a.opcode with
    | 1 => if a.qSrc = 0 then [(a.qAddr, rows * p.d * poolElem p)] else []
    | 2 => if a.qSrc = 0 then [(a.qAddr, aTokens es * 2 * p.d * poolElem p)] else []
    | 3 => [(a.qAddr, a.mergeN * partialSize rows p.d)]
    | 4 =>
      let keys := (es.map fun e => e.pos + e.qTokens).sum
      let b (i : Nat) : Nat := bwdAddr s r i
      [(a.qAddr, 128), (b 0, rows * p.d * 2), (b 1, keys * p.d * 2), (b 2, keys * p.d * 2), (b 3, rows * p.d * 2),
       (b 4, rows * p.d * 2), (b 5, 8 * rows)]
    | _ => []
  | .f =>
    let f := fDesc d
    let acc := if f.first then [] else [(f.accAddr, bandVoxels f * (f.ch + 1) * 4)]
    match f.opcode with
    | 1 => [(f.inAddr, f.featRows * f.featCols * f.ch * fmtBytes f.inFmt), (f.tabAddr, 8 * f.entries)] ++ acc
    | 2 => [(f.inAddr, 16 * f.points), (f.tabAddr, f.points * f.ch * fmtBytes f.inFmt), (f.paramAddr, 16)] ++ acc
    | 3 => [(f.tabAddr, 64 + 16 * leBytes (memAt s r f.tabAddr) 24 2), (f.paramAddr, 24 * 0x8000)]
    | _ => []
  | .t =>
    let t := tDesc d
    match t.opcode with
    | 1 => [(t.paramAddr, 168)]
    | 2 | 3 => [(t.inAddr, 64 * t.dets), (t.paramAddr, 168)]
    | 5 => [(t.inAddr, 512 * t.count)]
    | 6 => [(t.inAddr, 4 * t.rows * t.cols)]
    | _ => []
  | .l =>
    let l := lDesc d
    let lib := (l.libAddr, libBytes (memAt s r l.libAddr) l.libCount)
    let grid := match s.seq.cycle with
      | some c => [(gridBuf s c.buf, 8512 * 1024)]
      | none => []
    match l.opcode with
    | 1 => grid ++ (if l.first then [] else [(l.ctgAddr, 2 * 262144)])
    | 2 => grid ++ [(l.candAddr + 32 * l.arg, 32 * l.count), lib]
    | 3 => grid ++ [lib]
    | 4 => grid ++ [(l.candAddr, 32 * l.count), (l.ctgAddr, 2 * 262144), lib] ++
        (List.range 4).map fun i => (l.resAddr + i * 0x10000, 4 * l.count)
    | _ => []
  | .c => []

/-- The first failure of a command's reads. -/
def readsStatus (s : State) (k : CoreId) (r : CmdRun) : Status :=
  firstBad ((cmdReads s k r).map fun x => readRange s r.offer.part x.1 x.2)

/-! ### Outputs -/

def noOut : CmdOut := ⟨[], [], 0, [], [], [], [], none, 0, 0, false⟩

/-- The granules of a compressed output (R145) and their codes. A row's last granule of fewer than 64 bytes is judged with zeros after
its bytes (DESIGN CHOICE, log 66). -/
def zcCodes (bits : Nat) (stores : List (Nat × List Byte)) : List (Nat × Nat) :=
  stores.flatMap fun x => (List.range (ceilDiv x.2.length 64)).map fun i =>
    let g := (x.2.drop (64 * i)).take 64
    (x.1 + 64 * i, granuleCode bits (g ++ List.replicate (64 - g.length) 0))

/-- Where an output goes: to memory at an address, with its codes if it is compressed, or to the push machinery. -/
def tensorOut (s : State) (part : Nat) (o : KOut) (addr : Nat) (push zc : Bool) (bits clocks : Nat) (words : List (Nat × Nat)) : CmdOut :=
  if push then { noOut with rows := o.rows, flags := o.flags, words := words, clocks := clocks }
  else
    let st := o.stores.map fun x => (addr + x.1, x.2)
    let codes := if zc then (zcCodes bits st).map fun c => if (pteOf s part (vpnOf c.1)).zc then c else (c.1, 8) else []
    { noOut with
      stores := st, flags := o.flags, codes := codes, clocks := clocks
      words := words ++ [(8, (codes.filter fun c => c.2 < 8).length), (9, (codes.filter fun c => c.2 == 8).length)] }

/-- The output of an M-core command. Its clocks with issue and its clocks stalled on weight load are those of R139's nominal passes (log 27). -/
def outM (s : State) (k : CoreId) (r : CmdRun) : CmdOut :=
  let m := mDesc r.offer.desc
  let ops : MOperands := ⟨opByte s k 0 r 0 m.aAddr m.faceA, opByte s k 0 r 1 m.bAddr m.faceB, memAt s r m.biasAddr⟩
  let o := mCompute m ops r.offer.seed
  let busy := ((mPasses m).map Prod.snd).sum
  tensorOut s r.offer.part o m.cAddr (m.cDst == 1) m.zc (elemBits (fmtOr m.cFmt)) (mClocks m)
    [(3, busy), (5, mArrayClocks m - busy), (7, if m.opcode = 3 then tilesH m * tilesW m else 0), (12, o.flags % 2)]

def outV (s : State) (k : CoreId) (r : CmdRun) : CmdOut :=
  let v := vDesc r.offer.desc
  let ops : VOperands := ⟨opByte s k 0 r 0 v.xAddr v.faceX, memAt s r v.yAddr, memAt s r v.pAddr⟩
  let o := vCompute v ops r.offer.seed
  tensorOut s r.offer.part o v.zAddr (v.zDst == 1) v.zc (elemBits (vz v)) (vClocks v) [(3, vCompClocks v), (12, o.flags % 2)]

/-- The tile clocks with issue of an A-core command (R297). -/
def tileClocks (a : ADesc) (p : APool) (es : List LenEntry) : Nat :=
  match a.opcode with
  | 1 => (es.map fun e => ((groupTokens a e).map fun t => ceilDiv (keyPages (visible a e t)).length 4 * (2 * p.d * poolElem p)).sum).sum
  | 4 => (es.map fun e => ((groupTokens a e).map fun t => ceilDiv (seeEnd a e t) 256 * (20 * p.d)).sum).sum
  | _ => 0

/-- The output of ATTN and ATTN_MERGE: rows pushed, or stored at O and STATS, or as a partial region (R290). -/
def attnOut (a : ADesc) (d rows : Nat) (o : AOut) (clocks : Nat) (words : List (Nat × Nat)) : CmdOut :=
  let base := { noOut with flags := o.flags, clocks := clocks, words := words }
  if a.oDst = 1 then { base with rows := o.o }
  else if a.partialOut then { base with stores := [(a.oAddr, o.o.flatMap id), (a.oAddr + partialStats rows d, o.stats)] }
  else
    let st := rowStride (fmtOr a.oFmt) d
    { base with
      stores := (((List.range o.o.length).zip o.o).map fun x => (a.oAddr + x.1 * st, x.2)) ++
        (if a.stats then [(a.statsAddr, o.stats)] else []) }

def outA (s : State) (k : CoreId) (r : CmdRun) : CmdOut :=
  let a := aDesc r.offer.desc
  let p := aPoolOf (poolCfg s r.offer.part a.pool)
  let es := runTable s r
  let rows := aRowCount a es
  let clocks := aClocks a p es 0
  match a.opcode with
  | 1 =>
    let x : AOperands := ⟨opByte s k 0 r 0 a.qAddr a.faceQ, pinnedElem s r.offer.part a es r.pins false, pinnedElem s r.offer.part a es r.pins true⟩
    attnOut a p.d rows (attnCompute a p es x r.offer.seed) clocks [(4, tileClocks a p es)]
  | 3 => attnOut { a with partialOut := false } p.d rows (mergeCompute a p.d rows (memAt s r a.qAddr) r.offer.seed) clocks []
  | 4 =>
    let t (i : Nat) : Nat → Nat → FpVal := fun row c => tensorElem (memAt s r (bwdAddr s r i)) .bf16 0 p.d row c
    let x : BwdOperands := ⟨t 0, t 1, t 2, t 3, t 4, fun row => BitVec.ofNat 32 (leBytes (memAt s r (bwdAddr s r 5)) (8 * row + 4) 4)⟩
    let g := bwdCompute a p.d (es.getD 0 ⟨0, 0, 0, false⟩) x
    { noOut with
      stores := [(bwdAddr s r 6, g.1.flatMap le32), (bwdAddr s r 7, g.2.1.flatMap le32), (bwdAddr s r 8, g.2.2.flatMap le32)]
      clocks := clocks, words := [(4, tileClocks a p es)] }
  | _ => { noOut with clocks := clocks }

def outF (s : State) (r : CmdRun) : CmdOut :=
  let f := fDesc r.offer.desc
  let ops : FOperands := ⟨memAt s r f.inAddr, memAt s r f.tabAddr, memAt s r f.accAddr, memAt s r f.paramAddr⟩
  let go (o : FOut) : CmdOut := { noOut with stores := [(f.outAddr, o.bytes)], flags := o.flags, words := o.counts, clocks := fClocks f }
  match f.opcode with
  | 1 => go (liftCompute f ops r.offer.seed)
  | 2 => go (voxelCompute f ops r.offer.seed)
  | 3 => go (chanCompute f ops)
  | _ => { noOut with clocks := fClocks f }

def outT (s : State) (k : CoreId) (r : CmdRun) : CmdOut :=
  let t := tDesc r.offer.desc
  let q := tParam (memAt s r t.paramAddr)
  let slots := (List.range t.count).map fun i => t.first + i
  let ts := slots.map fun i => (i, trackOf (trackRec s k.inst i))
  let dets := (List.range t.dets).map (detOf (memAt s r t.inAddr))
  let go (o : TOut) : CmdOut :=
    { noOut with
      stores := if o.bytes.isEmpty then [] else [(t.outAddr, o.bytes)]
      flags := o.flags, words := o.counts, tracks := o.tracks, births := o.births, spent := o.spent, clocks := o.clocks }
  match t.opcode with
  | 1 =>
    let live := ts.filter fun x => x.2.status != 0
    { noOut with
      tracks := live.map fun x => (x.1, trackBytes (predictTrack q t.target x.2)), words := [(3, live.length)], clocks := tClocks t }
  | 2 => go (tUpdate t q ts dets)
  | 3 => go (tBirth t q (k.inst * 2 ^ 31) (s.tracks.nextId.getD k.inst 0) ts dets)
  | 4 => { noOut with stores := [(t.outAddr, slots.flatMap (trackRec s k.inst))], clocks := tClocks t }
  | 5 =>
    { noOut with
      tracks := slots.map fun i => (i, (List.range 512).map fun b => memAt s r t.inAddr (512 * (i - t.first) + b)), clocks := tClocks t }
  | 6 => go (tAssign t fun i => BitVec.ofNat 32 (leBytes (memAt s r t.inAddr) (4 * i) 4))
  | _ => { noOut with clocks := tClocks t }

def outL (s : State) (k : CoreId) (r : CmdRun) : CmdOut :=
  let l := lDesc r.offer.desc
  if l.opcode = 0 then { noOut with clocks := 64 }
  else match s.seq.cycle with
    | none => noOut
    | some c =>
      let x : LOperands := ⟨memAt s r l.candAddr, memAt s r l.resAddr, memAt s r l.ctgAddr, memAt s r l.libAddr, gridByte s c.buf⟩
      let o := lCompute l x k.inst c s.seq.force s.seq.held (regVal s lk 0x21C) (regVal s lk 0x220) (regVal s lk 0x224)
      { noOut with stores := o.bytes, flags := o.flags, words := o.counts, clocks := o.clocks, plan := o.post }

/-- What a command computes from its operands as they stand. -/
def computeOut (s : State) (k : CoreId) (stream : Nat) (r : CmdRun) : CmdOut :=
  if opOf r.offer.desc = 0 then { noOut with clocks := nominalClocks s k r.offer.part r.offer.desc }
  else match k.cls with
    | .m => outM s k r
    | .v => outV s k r
    | .a => if stream = 1 then noOut else outA s k r
    | .f => outF s r
    | .t => outT s k r
    | .l => outL s k r
    | .c => noOut

def runOut (s : State) (k : CoreId) (stream : Nat) (r : CmdRun) : CmdOut :=
  match r.out with
  | some o => o
  | none => computeOut s k stream r

end Sys2Proof.Machine
end

