-- ==== Sys2Proof/Machine/Layout.lean ====
section
/-! DEFINITION. The partition layout image (R476, R477): reading its body, the conditions under which it is refused (R30,
R82, R192, R478), and what its acceptance sets (R29, R81, R98). -/

namespace Sys2Proof.Machine

/-- A fixed key, seed or hash of the device (R483), by kind and number; its bytes have no value that a step knows. -/
def fusedBytes (kind n : Nat) : List Byte := (List.range n).map fun i => Config.fused kind i
def fuseVfw : List Byte := fusedBytes 1 48
def fuseVsv : List Byte := fusedBytes 2 48
def fuseIrk : List Byte := fusedBytes 3 48
def fusePlk : List Byte := fusedBytes 4 32
def fuseHlk (n : Nat) : List Byte := fusedBytes (16 + n) 32
def fuseIk : Nat := beNat (fusedBytes 5 48) % (p384N - 1) + 1
def romDigest : List Byte := fusedBytes 6 48
def certDigest : List Byte := fusedBytes 7 48
def identityKey : List Byte := ecToBytes (ecMul fuseIk ecG)
def identityDigest : List Byte := sha384 identityKey

def at8 (b : List Byte) (o : Nat) : Nat := (b.getD o 0).toNat
def atN (b : List Byte) (o n : Nat) : Nat := bytesNat ((b.drop o).take n)
def sub (b : List Byte) (o n : Nat) : List Byte := (b.drop o).take n

def coreAssignOf (b : Nat) : CoreAssign :=
  if b = 0xFF then .unassigned else if b ≥ 128 then .group (b % 16) else .part (b % 16) (b / 64 % 2 == 1)

/-- The layout that a body spells (R476, R477). -/
def parseLayout (b : List Byte) (svn : Nat) : Layout :=
  { cores := (List.range 60).map fun i => coreAssignOf (at8 b (1024 + i))
    groups := (List.range 16).map fun g => BitVec.ofNat 16 (atN b (1088 + 8 * g) 2)
    parts := (List.range 16).map fun n =>
      let o := 1216 + 64 * n
      { tallyFirst := at8 b o, tallyPages := at8 b (o + 1), tagCap := atN b (o + 2) 2, pfQuota := at8 b (o + 4)
        galBg := BitVec.ofNat 32 (atN b (o + 8) 4), galFrames := atN b (o + 12) 4, ptArea := atN b (o + 16) 2
        codeArea := atN b (o + 18) 2, kvArea := atN b (o + 20) 2, driftGroups := BitVec.ofNat 16 (atN b (o + 22) 2)
        driftFrames := atN b (o + 24) 4, seamPages := atN b (o + 28) 4, ownerHash := sub b (48 * n) 48
        confidential := (atN b 768 2).testBit n, minSvn := at8 b (770 + n) }
    shares := (List.range 32).map fun w =>
      let o := 2240 + 16 * w
      { owner := at8 b o, valid := at8 b (o + 1) % 2 == 1, readers := BitVec.ofNat 16 (atN b (o + 2) 2)
        first := atN b (o + 4) 4, frames := atN b (o + 8) 4, vpn := atN b (o + 12) 4 % 2 ^ 28 }
    ioOwner := (List.range 52).map fun i => at8 b (2752 + i)
    tallyRd := BitVec.ofNat 32 (atN b 2816 4), stbyEn := at8 b 2820 % 2 == 1, stbyOfs := atN b 2822 2
    tamperPin := at8 b 786 % 2 == 1, svn := svn }

/-- Whether the bytes [o, o + n) are all 0. -/
def zeros (b : List Byte) (o n : Nat) : Bool := (sub b o n).all (· == 0)

/-- The security section (R476). -/
def securityBad (b : List Byte) : Bool :=
  sub b 0 48 != fuseIrk || (List.range 16).any (fun n => decide (at8 b (770 + n) > 63)) || decide (at8 b 786 > 1) || !(zeros b 787 237)

/-- The byte conditions of R477 in the order of their offsets: the offset, and whether it fails. -/
def bodyChecks (b : List Byte) : List (Nat × Bool) :=
  let l := parseLayout b 0
  let core (i : Nat) : Nat × Bool :=
    let v := at8 b (1024 + i)
    (1024 + i, if i ≥ 60 then v != 0xFF
      else v != 0xFF && (decide (v / 16 % 4 ≠ 0) || (decide (v / 64 % 2 = 1) && decide (v / 128 = 1 ∨ v % 16 ≠ 0))))
  let group (g : Nat) : List (Nat × Bool) :=
    let empty := !(l.cores.contains (.group g))
    [(1088 + 8 * g, empty && decide (atN b (1088 + 8 * g) 2 ≠ 0)), (1090 + 8 * g, !(zeros b (1090 + 8 * g) 6))]
  let part (n : Nat) : List (Nat × Bool) :=
    let o := 1216 + 64 * n
    [(o, decide (at8 b o > 31)), (o + 1, decide (at8 b (o + 1) > 32 ∨ at8 b o + at8 b (o + 1) > 32)), (o + 4, decide (at8 b (o + 4) > 224)),
     (o + 5, !(zeros b (o + 5) 3)), (o + 23, decide (at8 b (o + 23) > 15)), (o + 32, !(zeros b (o + 32) 32))]
  let share (w : Nat) : List (Nat × Bool) :=
    let o := 2240 + 16 * w
    let valid := at8 b (o + 1) % 2 == 1
    [(o, valid && decide (at8 b o > 15)), (o + 1, decide (at8 b (o + 1) > 1)), (o + 8, valid && decide (atN b (o + 8) 4 = 0)),
     (o + 15, decide (at8 b (o + 15) > 15))]
  (List.range 64).map core ++ (List.range 16).flatMap group ++ (List.range 16).flatMap part ++ (List.range 32).flatMap share ++
    (List.range 52).map (fun i => (2752 + i, decide (at8 b (2752 + i) > 15))) ++
    [(2804, !(zeros b 2804 12)), (2820, decide (at8 b 2820 > 1)), (2821, !(zeros b 2821 1)), (2822, decide (atN b 2822 2 > 12629)),
     (2824, !(zeros b 2824 1272))]

/-- The cores of a class in the order of the layout's bits. -/
def coreAt (i : Nat) : Option CoreId := allCores.find? fun k => coreIndex k == i

/-- The frames of each Drift channel group that the shares may use (R540). -/
def driftGroupRoom (l : Layout) : Nat := 15360 - (if l.stbyEn then 2731 else 0)

/-- The rows of R30, 1 to 6: whether each is broken. -/
def r30Bad (l : Layout) : List Bool :=
  let at' (i : Nat) : CoreAssign := l.cores.getD i .unassigned
  let isP0 (a : CoreAssign) : Bool := match a with
    | .part 0 _ => true
    | _ => false
  let mixed (g : Nat) : Bool :=
    let ks := (allCores.filter fun k => at' (coreIndex k) == .group g).map fun k => k.cls
    match ks with
    | [] => false
    | x :: xs => xs.any (· != x)
  let overlap : Bool := (List.range 16).any fun i => (List.range i).any fun j =>
    let p := l.parts.getD i noPart
    let q := l.parts.getD j noPart
    decide (p.tallyPages ≠ 0 ∧ q.tallyPages ≠ 0 ∧ p.tallyFirst < q.tallyFirst + q.tallyPages ∧ q.tallyFirst < p.tallyFirst + p.tallyPages)
  let twice := (List.range 32).any fun g => decide ((l.parts.filter fun p => bit p.galBg g).length > 1)
  let galBad := twice || !(sharesFit l) ||
    l.parts.any fun p => decide (areasOf p > if p.galBg ≠ 0 then 1024 * ((List.range 32).filter fun g => bit p.galBg g).length else p.galFrames)
  let driftBad := ((List.range 12).any fun g => decide ((l.parts.map fun p => driftInGroup p g).sum > driftGroupRoom l)) ||
    l.parts.any fun p => decide (p.driftFrames ≠ 0 ∧ driftGroupsOf p = [])
  let seamBad := decide ((l.parts.map fun p => p.seamPages).sum > 50331648)
  [!(isP0 (at' 58) && isP0 (at' 59)), decide (((List.range 8).filter fun i => isP0 (at' i)).length > 4), false,
   (List.range 16).any mixed, overlap, galBad || driftBad || seamBad]

/-- R192: the caps of PT1 to PT15 leave PT0 its share of tags. -/
def r192Bad (l : Layout) : Bool :=
  decide (((l.parts.drop 1).map fun p => p.tagCap).sum + ((l.parts.headD noPart).tagCap) > 5504)

/-- The first index of a list of truth values that holds. -/
def firstTrue (l : List Bool) : Option Nat := let i := l.findIdx id; if i < l.length then some i else none

/-- Why a body is refused (R478 steps 3 to 7): MB_REASON's class and detail. -/
def layoutBad (b : List Byte) : Option (Nat × Nat) :=
  let l := parseLayout b 0
  if b.length ≠ 4096 then some (8, min (min b.length 4096 / 16) 255)
  else if securityBad b then some (7, 0)
  else match (bodyChecks b).find? fun x => x.2 with
    | some x => some (8, x.1 / 16)
    | none => match firstTrue (r30Bad l) with
      | some i => some (4, i + 1)
      | none => if r192Bad l then some (6, 0) else none

/-! ### What an accepted layout sets -/

/-- PG_OWNER of a page under a layout: the partition, the lock of an unassigned core or Tally page
(R31, R174) and of a group core outside every window (R449), SHARED_RD and GROUP (R93). -/
def ownerWord (l : Layout) (p : Page) : Option Nat :=
  let io (i : Nat) : Nat := l.ioOwner.getD i 0
  match p.cls with
  | .m | .v | .a | .l | .f | .t =>
    match pageCore p with
    | none => none
    | some k => match l.cores.getD (coreIndex k) .unassigned with
      | .unassigned => some 0x100
      | .part n _ => some n
      | .group _ => some 0x500
  | .tally =>
    let n := ((List.range 16).find? fun n =>
      let q := l.parts.getD n noPart
      decide (q.tallyFirst ≤ p.inst ∧ p.inst < q.tallyFirst + q.tallyPages)).getD 0x100
    some (n + if bit l.tallyRd p.inst then 0x200 else 0)
  | .eth => some (io p.inst)
  | .aphy => some (io (16 + p.inst))
  | .can => some (io (32 + p.inst))
  | .plca => some (io (40 + p.inst))
  | .spi => some (io (44 + p.inst))
  | _ => none

/-- The layout in force: ownership of every page that it sets (R81, R98). -/
def applyLayout (s : State) (l : Layout) : State :=
  allPages.foldl (fun t p => match ownerWord l p with
    | some w => setReg t p 0x020 (BitVec.ofNat 32 w)
    | none => t) { s with dev := { s.dev with layout := some l } }

end Sys2Proof.Machine
end

