-- ==== Sys2Proof/Machine/Lamphouse.lean ====
section
/-! DEFINITION. Lamphouse's mailbox (chapter 12): images (R472 to R474, R682), sealed requests (R510), the commands of R509
but for sealed register accesses, key generations (R493 to R498), and the mailbox page (R507 to R511). -/

namespace Sys2Proof.Machine

def mbPage (n : Nat) : Page := ⟨.mailbox, n⟩
def noSec : PartSec := ⟨0, 0, [], 0, [0, 0], [], none, none, none, 0, 0, none, 0, false, 0, false⟩
def secOf (s : State) (n : Nat) : PartSec := smGet noSec s.sec.parts n
def setSec (s : State) (n : Nat) (x : PartSec) : State := { s with sec := { s.sec with parts := smSet noSec s.sec.parts n x } }
def setFlash (s : State) (f : FlashSt) : State := { s with sec := { s.sec with flash := f } }

def lifecycle (s : State) : Nat := s.dev.lifecycle.toNat
def lcBlank : Nat := 0
def lcSealed : Nat := 1
def lcService : Nat := 2
def lcScrapped : Nat := 3

/-- MB_NONCE redrawn (R502). -/
def drawNonce (s : State) (n : Nat) : State := spendBytes (setSec s n { secOf s n with nonce := freeBytes s 48 }) 48

/-- The derived session keys of a partition (R484): the label and n. -/
def ascii (t : String) : List Byte := t.toList.map fun c => BitVec.ofNat 8 c.toNat
def sessionKey (s : State) (n : Nat) (label : String) : List Byte := hkdf384 [] (secOf s n).sk (ascii label ++ [BitVec.ofNat 8 n]) 32

/-! ### Images -/

/-- A refusal of an image: the status it ends with and MB_REASON's class (R511). -/
structure Refusal1 where
  status : Status
  cls    : Nat
  deriving DecidableEq, Repr

def refFormat : Refusal1 := ⟨.range, 1⟩
def refSigner : Refusal1 := ⟨.integrity, 2⟩
def refRollback : Refusal1 := ⟨.stateIllegal, 3⟩

def imgBodyLen (img : List Byte) : Nat := atN img 12 4
def imgBody (img : List Byte) : List Byte := sub img 384 (imgBodyLen img)
def imgSvn (img : List Byte) : Nat := atN img 8 4
def imgDigest (img : List Byte) : List Byte := sub img 16 48

/-- What a header must say before the body is judged (R682, R474): MAGIC, TYPE and BODY_LEN. -/
def headerBad (img : List Byte) (type limit : Nat) : Bool :=
  decide (img.length < 384 ∨ atN img 0 4 ≠ 0x544B5631 ∨ atN img 4 4 ≠ type ∨ imgBodyLen img > limit)

/-- R474 in its order; none where the image is accepted. -/
def imageBad (img : List Byte) (type limit : Nat) (signer : List Byte) (floor : Nat) : Option Refusal1 :=
  if headerBad img type limit then some refFormat
  else if sha384 (imgBody img) ≠ imgDigest img then some refSigner
  else if sub img 64 48 ≠ signer ∨ sub img 64 48 ≠ sha384 (sub img 224 97) then some refSigner
  else if !(ecdsaVerify (sub img 224 97) (sub img 0 128) (sub img 128 96)) then some refSigner
  else if !(zeros img 112 16) ∧ sub img 112 16 ≠ sub identityDigest 0 16 then some refSigner
  else if imgSvn img < floor ∨ imgSvn img > 63 then some refRollback
  else none

/-- An image of host memory: the length that the request names, then R474. -/
def hostImageBad (img : List Byte) (len type limit : Nat) (signer : List Byte) (floor : Nat) : Option Refusal1 :=
  if len = 0 ∨ headerBad img type limit ∨ len ≠ 384 + imgBodyLen img then some refFormat else imageBad img type limit signer floor

/-- The largest body of a firmware component (R473). -/
def compLimit (i : Nat) : Nat := [2, 8, 1, 16].getD i 0 * 2 ^ 20
def fuseCounter (s : State) (i : Nat) : Nat := s.sec.flash.counters.getD i 0

/-- The reason of a refusal recorded in MB_REASON of PT0 (R507, R511). -/
def setReason (s : State) (cls detail type : Nat) : State :=
  setReg s (mbPage 0) 0x124 (BitVec.ofNat 32 (cls * 256 + detail + type % 16 * 65536))

def reasonOf (s : State) (n cls detail type : Nat) : State := if n = 0 then setReason s cls detail type else s

/-! ### The mailbox -/

def mbBusy (s : State) (n : Nat) : Bool := (secOf s n).mb.isSome

/-- A failed authentication (R512, R513). -/
def authFail (s : State) (n : Nat) : State := setFlag (ctrAdd s (mbPage n) 3 1) (mbPage n) 1

def pt0Ops : List Nat := [0x10, 0x11, 0x12, 0x13, 0x20]
def sealedOps : List Nat := [0x03, 0x04, 0x05, 0x06]
def knownOps : List Nat := [0x01, 0x02, 0x03, 0x04, 0x05, 0x06, 0x10, 0x11, 0x12, 0x13, 0x20, 0x21]

/-- The bytes of an array of registers. -/
def pageBytesAt (s : State) (p : Page) (off words : Nat) : List Byte := (List.range words).flatMap fun i => wordBytes (regVal s p (off + 4 * i))

/-- The status with which a command ends before its own rules are met (R102, R113, R509). -/
def mbEarly (s : State) (n op level : Nat) : Option Status :=
  if pt0Ops.contains op ∧ n ≠ 0 then some .ownerDenied
  else if level > regField s devPage 0x108 15 8 then some .levelUnsupported
  else if level = 0 ∨ !(knownOps.contains op) then some .range
  else if devState s = stRefused ∧ op ≠ 0x13 then some .stateIllegal
  else if lifecycle s = lcService ∧ op ≤ 6 then some .stateIllegal
  else none

/-- Additional data of a sealed request (R510). -/
def sealAad (n op seq : Nat) : List Byte := [BitVec.ofNat 8 n, BitVec.ofNat 8 op, 0, 0] ++ natBytes 4 seq

/-- A sealed request opened: its plain bytes, or the status it ends with. -/
def openSealed (s : State) (n op : Nat) (raw : List Byte) : Except Status (List Byte) :=
  let x := secOf s n
  if x.session = 0 then .error .stateIllegal
  else if raw.length < 32 then .error .range
  else if atN raw 12 4 ≠ x.mbSeq then .error .integrity
  else match gcmOpen (sessionKey s n "MBQ") (sub raw 0 12) (sealAad n op x.mbSeq) (sub raw 16 (raw.length - 32)) (sub raw (raw.length - 16) 16) with
    | some m => .ok m
    | none => .error .integrity

/-- MB_GO accepted (R511): the command stands as MB_GO found it. -/
def mbGo (s : State) (n : Nat) : State :=
  let pg := mbPage n
  let cmd := regVal s pg 0x100
  let op := field cmd 7 0
  let raw := (pageBytesAt s pg 0x800 256).take (regField s pg 0x104 10 0)
  let x := secOf s n
  let run : MbRun := ⟨op, bit cmd 8, raw, x.mbSeq, now s, none⟩
  let start (t : State) (r : MbRun) : State := setReg (setSec t n { secOf t n with mb := some r }) pg 0x10C 0x100
  match mbEarly s n op (field cmd 31 28) with
  | some e => start s { run with result := some (e, []) }
  | none =>
    if !(bit cmd 8) then start s run
    else match openSealed s n op raw with
      | .ok m => start (setSec s n { x with mbSeq := (x.mbSeq + 1) % 2 ^ 32 }) { run with req := m }
      | .error e => start (if e = .integrity then authFail s n else s) { run with result := some (e, []) }

/-- One command's own work: done once, on a command of that opcode that has no result yet. -/
def mbStep (s : State) (n op : Nat) (f : State → MbRun → State × Status × List Byte) : State :=
  match (secOf s n).mb with
  | none => s
  | some r =>
    if r.op ≠ op ∨ r.result.isSome then s
    else
      let x := f s r
      setSec x.1 n { secOf x.1 n with mb := some { r with result := some x.2 } }

/-- MAILBOX_COMPLETE (R511): the status and the response are posted. -/
def mbPost (s : State) (n : Nat) : State :=
  let pg := mbPage n
  let x := secOf s n
  match x.mb with
  | none => s
  | some r => match r.result with
    | none => s
    | some (st, plain) =>
      let nonce := natBytes 4 r.seq ++ natBytes 8 0
      let rsp := if r.sealed ∧ st = .ok then
          let c := gcmSeal (sessionKey s n "MBR") nonce (sealAad n r.op r.seq) plain
          nonce ++ natBytes 4 r.seq ++ c.1 ++ c.2
        else plain
      let t := (List.range 256).foldl (fun t i => setReg t pg (0xC00 + 4 * i) (bytesWord rsp i)) (setSec s n { x with mb := none })
      let u := setReg t pg 0x10C (BitVec.ofNat 32 (rsp.length * 65536 + statusCode st))
      irq (ctrAdd u pg (if st = .ok then 1 else 2) 1) n 3 (.service pg)

def execMailboxComplete (p : Part) (s : State) : Res := .next (mbPost s p)

/-- Whether a command reads an image from host memory (R682). -/
def readsHost (op : Nat) : Bool := op == 0x01 || op == 0x06 || op == 0x10 || op == 0x13

/-- HOST_READ_TIMEOUT (R682): no completion within 1,000 ticks. -/
def execHostReadTimeout (p : Part) (s : State) : Res :=
  .next (
    let x := secOf s p
    match x.mb with
    | none => s
    | some r =>
      if r.result.isSome ∨ !(readsHost r.op) ∨ now s < r.go + 1000 then s
      else setSec s p { x with mb := some { r with result := some (.timeout, []) } })

/-! ### LOAD_MANIFEST (R475) -/

/-- The readers that the layout's windows over a partition's frames name. -/
def shareReaders (s : State) (n : Nat) : Nat :=
  match s.dev.layout with
  | none => 0
  | some l => (l.shares.filter fun w => w.valid && w.owner == n).foldl (fun m w => m ||| w.readers.toNat) 0

def manifestBad (s : State) (n : Nat) (img : List Byte) : Bool :=
  let b := imgBody img
  let k := atN b 100 2
  decide (b.length < 128 ∨ at8 b 0 ≠ n ∨ at8 b 1 > 2 ∨ k > 4096 ∨ b.length ≠ 128 + 32 * k) || !(zeros b 102 26) ||
    (List.range k).any (fun i => !(zeros b (152 + 32 * i) 8)) ||
    decide (shareReaders s n &&& atN b 2 2 ≠ shareReaders s n)

def execLoadManifest (p : Part) (image : Option (List Byte)) (s : State) : Res :=
  .next (mbStep s p 0x01 fun s r =>
    let n := p.val
    let len := atN r.req 8 4
    let refuse (x : Refusal1) : State × Status × List Byte := (reasonOf s n x.cls 0 0x20, x.status, [])
    if (keysOf s n).state = 2 then (s, .stateIllegal, [])
    else if r.req.length ≠ 12 then refuse refFormat
    else match image with
      | none => (s, .tierFault, [])
      | some img =>
        let l := partLayout s n
        match hostImageBad img len 0x20 (256 * 1024) l.ownerHash l.minSvn with
        | some x => refuse x
        | none =>
          if manifestBad s n img then refuse refFormat
          else (sendManifest (setSec s n { secOf s n with manifest := some img }), .ok, []))

/-! ### KEY_RELEASE (R499 to R502) -/

/-- Whether a ticket is good (R501). -/
def ticketGood (s : State) (n : Nat) (t : List Byte) : Bool :=
  let policy := match (secOf s n).manifest with
    | some m => sub (imgBody m) 4 48
    | none => []
  sha384 (sub t 208 97) == policy && ecdsaVerify (sub t 208 97) (sub t 0 320) (sub t 320 96) && at8 t 4 == n &&
    sub t 112 48 == identityDigest && sub t 160 48 == (secOf s n).nonce

/-- A new session (R484, R499): a fresh salt gives SK[n]; the sequence numbers start at 0. -/
def newSession (s : State) (n : Nat) : State :=
  let x := secOf s n
  let k := x.lastSess + 1
  let sk := hkdf384 (freeBytes s 48) (fuseHlk n) (ascii "HLS" ++ [BitVec.ofNat 8 n] ++ natBytes 4 k) 32
  spendBytes (setSec s n { x with session := k, lastSess := k, sk := sk, mbSeq := 0, dmaSeq := [0, 0] }) 48

/-- The response of R502 for a recipient's public point. -/
def releaseResponse (s : State) (n : Nat) (q : Nat × Nat) (request : List Byte) : List Byte :=
  let x := secOf s n
  let d := beNat (freeBytes s 48) % (p384N - 1) + 1
  let eph := ecToBytes (ecMul d ecG)
  let secret := match ecMul d (some q) with
    | some (a, _) => beBytes 48 a
    | none => []
  let wrap := hkdf384 x.nonce secret (ascii "WRAP" ++ [BitVec.ofNat 8 n] ++ natBytes 4 x.session) 32
  let c := gcmSeal wrap (List.replicate 12 0) (natBytes 4 x.session ++ [BitVec.ofNat 8 n]) x.sk
  let head := natBytes 4 x.session ++ eph ++ [0, 0, 0] ++ c.1 ++ c.2
  let k := beNat ((freeBytes s 96).drop 48) % (p384N - 1) + 1
  head ++ ecdsaSign fuseIk k (head ++ request)

def execKeyRelease (p : Part) (s : State) : Res :=
  .next (mbStep s p 0x02 fun s r =>
    let n := p.val
    let conf := confidential s n
    let key := if conf then sub r.req 8 97 else sub r.req 0 97
    if r.req.length ≠ (if conf then 512 else 97) then (s, .range, [])
    else if conf ∧ (atN r.req 0 4 ≠ 0x50 ∨ !(zeros r.req 5 3) ∨ !(zeros r.req 105 7) ∨ !(zeros r.req 305 15) ∨ !(zeros r.req 416 96)) then (s, .range, [])
    else match ecOfBytes key with
      | none => (s, .range, [])
      | some q =>
        if (keysOf s n).state = 2 ∨ (secOf s n).manifest.isNone then (s, .stateIllegal, [])
        else if conf ∧ !(ticketGood s n r.req) then (drawNonce (setFlag s (mbPage n) 1) n, .integrity, [])
        else
          let t := newSession s n
          let rsp := releaseResponse t n q r.req
          (ctrAdd (drawNonce (spendBytes t 96) n) (mbPage n) 4 1, .ok, rsp))

/-! ### ROTATE and ERASE (R493 to R498) -/

def execRotate (p : Part) (s : State) : Res :=
  .next (mbStep s p 0x03 fun s r =>
    let k := keysOf s p
    if r.req ≠ [] then (s, .range, [])
    else if k.state = 0 ∧ (k.gen = 3 ∨ k.dbgGen) then (s, .stateIllegal, [])
    else if k.state ≠ 0 then (s, .busy, [])
    else (atBoundary (setKeys s p { k with state := 1 }) (.rotate p), .ok, []))

/-- The write generation advances at the boundary after a ROTATE. -/
def rotateAt (s : State) (n : Nat) : State :=
  let k := keysOf s n
  if k.state = 1 ∧ k.low = k.gen then setKeys s n { k with gen := k.gen + 1 } else s

/-- The blocks that hold a unit of a partition, each once, with their keepers. -/
def seamBlocks (s : State) (n : Nat) : List (Nat × Nat) :=
  ((smRange s.mem.units (unitKey n 0) (unitKey (n + 1) 0)).flatMap fun x => x.2.map fun b => (x.1 % 2, b)).eraseDups

/-- A partition's Seam contents gone, and the units of its logical pages with them (R496 step 3). -/
def trimSeam (s : State) (n : Nat) : State :=
  let a := seamAddr n 0
  let b := seamAddr (n + 1) 0
  { s with mem := { s.mem with
    cells := smClear s.mem.cells a b, gens := smClear s.mem.gens (a / 512) (b / 512), salts := smClear s.mem.salts (a / 512) (b / 512)
    units := smClear s.mem.units (unitKey n 0) (unitKey (n + 1) 0) } }

/-- The trim of an erase: the blocks that held a unit of the partition are to be erased, and the units of others on them move (R496). -/
def eraseSeam (s : State) (n : Nat) : State :=
  (seamBlocks s n).foldl (fun t x => if erasing t x.1 x.2 then t else emptyBlock t x.1 x.2 true) (trimSeam s n)

/-- A partition's Gallery share zeroed. -/
def zeroGallery (s : State) (n : Nat) : State :=
  match s.dev.layout with
  | none => s
  | some l => (galleryShare l n).foldl (fun t g =>
    { t with mem := { t.mem with
      cells := smClear t.mem.cells (galleryAddr g.1) (galleryAddr (g.1 + g.2))
      galBad := t.mem.galBad.filter fun l => decide (l < 512 * g.1 ∨ 512 * (g.1 + g.2) ≤ l) } }) s

def execErase (p : Part) (s : State) : Res :=
  .next (mbStep s p 0x04 fun s r =>
    let n := p.val
    let k := keysOf s n
    if r.req ≠ [] then (s, .range, [])
    else if k.dbgGen then (s, .stateIllegal, [])
    else if k.state = 2 then (s, .busy, [])
    else
      let t := setKeys s n { k with state := 2 }
      if n = 0 then (setFlash t { t.sec.flash with eraseNext := true }, .ok, [])
      else
        let u := zeroGallery (eraseSeam t n) n
        let v := setSec u n { secOf u n with session := 0, sk := [], manifest := none }
        (if inReset v n ∨ v.atTick.contains (.presetBegin n) then v else atBoundary v (.presetBegin n), .ok, []))

/-- ERASE_COMPLETE (R496): the keeper has erased every block that held a unit; STEADY, and an older generation is retired. -/
def execEraseComplete (p : Part) (s : State) : Res :=
  .next (
    let k := keysOf s p
    if k.state ≠ 2 ∨ inReset s p ∨ (p.val = 0 ∧ s.sec.flash.eraseNext) ∨ !s.mem.eraseDue.isEmpty then s
    else setKeys s p { k with state := 0, low := k.gen })

/-- The partition that a Drift frame's share belongs to. -/
def driftOwner (l : Layout) (f : Nat) : Option Nat :=
  let g := f / 15360
  let i := driftPlace l f
  (List.range 16).find? fun n =>
    let lo := driftStart l n g
    decide (lo ≤ i ∧ i < lo + driftInGroup (l.parts.getD n noPart) g)

/-- The partition that a block of 512 bytes of Drift or Seam belongs to. -/
def blockOwner (s : State) (blk : Nat) : Option Nat :=
  let a := blk * 512
  if a ≥ seamBase then some ((a - seamBase) / pageBytes / 2 ^ 26)
  else if a ≥ driftBase then s.dev.layout.bind fun l => driftOwner l ((a - driftBase) / pageBytes)
  else none

/-- The tags after a sweep: every block of the partition under the old generation goes to the write generation, but for the
pages that could not be read (R494). -/
def sweepTags (s : State) (n : Nat) (lost : List Nat) : SMap Byte :=
  let k := keysOf s n
  s.mem.gens.map fun p =>
    if p.2.toNat = k.low ∧ blockOwner s p.1 = some n ∧ !(lost.contains (p.1 * 512 / pageBytes)) then (p.1, BitVec.ofNat 8 k.gen) else p

/-- The pages among some that stay under the old generation for want of reading them (R494). -/
def sweepLost (s : State) (n : Nat) (lost : List Nat) : List Nat :=
  lost.eraseDups.filter fun g => s.mem.gens.any fun p =>
    decide (p.2.toNat = (keysOf s n).low) && blockOwner s p.1 == some n && p.1 * 512 / pageBytes == g

/-- GENERATION_RETIRE (R494, R495): the sweep has covered every block; `lost` are the physical pages it could not read. -/
def execGenerationRetire (p : Part) (pages : Nat) (lost : List Nat) (s : State) : Res :=
  .next (
    let k := keysOf s p
    if k.state ≠ 1 ∨ k.low ≥ k.gen ∨ s.mem.tags.any (fun t => t.2.part == p.val && decide (t.2.issue < now s)) then s
    else
      let t := { s with mem := { s.mem with gens := sweepTags s p lost } }
      let l := sweepLost s p lost
      let u := ctrAdd (setKeys t p { k with lost := min (k.lost + l.length) 0xFFFFFFFF }) (mbPage p) 6 pages
      atBoundary (if l.isEmpty then u else setFlag u (mbPage p) 2) (.retire p))

/-- The retirement at the boundary (R495). -/
def retireAt (s : State) (n : Nat) : State :=
  let k := keysOf s n
  if k.state = 1 then setKeys s n { k with state := 0, low := k.gen } else s

/-! ### HOST_DMA (R503, R504) -/

def dmaRecords (len : Nat) : Nat := (len + 4095) / 4096

/-- Nonce and additional data of a record. -/
def dmaNonce (i seq dir : Nat) : List Byte := natBytes 4 i ++ natBytes 4 seq ++ natBytes 4 dir
def dmaAad (n dir seq len : Nat) : List Byte :=
  [BitVec.ofNat 8 n, BitVec.ofNat 8 dir, 0, 0] ++ natBytes 4 seq ++ natBytes 4 len ++ natBytes 4 0

/-- A transfer's progress. -/
structure Dma where
  st   : State
  done : Nat
  stat : Status

/-- One record from the host (R504). -/
def dmaIn (n seq len dev : Nat) (conf : Bool) (key data : List Byte) (x : Dma) (i : Nat) : Dma :=
  if x.stat ≠ .ok then x
  else
    let c := sub data (4096 * i) (min 4096 (len - 4096 * i))
    let plain := if conf then
        gcmOpen key (dmaNonce i seq 0) (dmaAad n 0 seq len) c (sub data (dmaRecords len * 4096 + 16 * i) 16)
      else some c
    match plain with
    | none => { x with stat := .integrity }
    | some m =>
      let w := writeRange x.st n (dev + 4096 * i) m.length false false
      if w ≠ .ok then { x with stat := w } else ⟨writeBytes x.st n (dev + 4096 * i) m, x.done + 1, .ok⟩

/-- One record to the host: its bytes, and its tag for a CONFIDENTIAL partition. -/
def dmaOut (n seq len dev host : Nat) (conf : Bool) (key : List Byte) (x : Dma) (i : Nat) : Dma :=
  if x.stat ≠ .ok then x
  else
    let k := min 4096 (len - 4096 * i)
    let r := readRange x.st n (dev + 4096 * i) k
    if r ≠ .ok then { x with stat := r }
    else
      let m := readBytes x.st n (dev + 4096 * i) k
      let c := gcmSeal key (dmaNonce i seq 1) (dmaAad n 1 seq len) m
      let out := if conf then [(n, host + 4096 * i, c.1), (n, host + dmaRecords len * 4096 + 16 * i, c.2)] else [(n, host + 4096 * i, m)]
      ⟨{ x.st with sec := { x.st.sec with hostWr := x.st.sec.hostWr ++ out } }, x.done + 1, .ok⟩

/-- Whether a range meets a page whose home is Seam. -/
def meetsSeam (s : State) (n a len : Nat) : Bool :=
  (List.range ((a % pageBytes + len + pageBytes - 1) / pageBytes)).any fun i => (pteOf s n (vpnOf (a + pageBytes * i))).home == .seam

def execHostDma (p : Part) (data : Option (List Byte)) (s : State) : Res :=
  .next (mbStep s p 0x06 fun s r =>
    let n := p.val
    let q := r.req
    let dir := at8 q 0
    let seq := atN q 4 4
    let host := atN q 8 8
    let dev := atN q 16 8
    let len := atN q 24 4
    let tal := atN q 28 2
    let inc := atN q 30 2
    let conf := confidential s n
    let x := secOf s n
    if q.length ≠ 32 then (s, .range, [])
    else if inc ≠ 0 ∧ !(ownsTally s n (tal % 16384)) then (s, .ownerDenied, [])
    else if !(zeros q 1 3) ∨ tal ≥ 16384 then (s, .reservedSet, [])
    else if dir > 1 ∨ host % 4096 ≠ 0 ∨ dev ≥ 2 ^ 44 ∨ len = 0 ∨ len > 268435456 ∨ dev + len > 2 ^ 44 ∨
        (dir = 0 ∧ meetsSeam s n dev len ∧ (dev % pageBytes ≠ 0 ∨ len % pageBytes ≠ 0)) then (s, .range, [])
    else if seq ≠ x.dmaSeq.getD dir 0 then (s, .integrity, [])
    else
      let t := setSec s n { x with dmaSeq := x.dmaSeq.set dir ((seq + 1) % 2 ^ 32) }
      let recs := List.range (dmaRecords len)
      let y : Dma := if dir = 0 then
          match data with
          | none => ⟨t, 0, .tierFault⟩
          | some d => recs.foldl (dmaIn n seq len dev conf (sessionKey s n "H2D") d) ⟨t, 0, .ok⟩
        else recs.foldl (dmaOut n seq len dev host conf (sessionKey s n "D2H")) ⟨t, 0, .ok⟩
      let u := ctrAdd y.st (mbPage n) 5 y.done
      (if y.stat = .ok ∧ inc ≠ 0 then tallyAdd u (tal % 16384) inc else u, y.stat, natBytes 4 y.done))

/-! ### Firmware update and the layout image (R478, R481, R482) -/

/-- The four directory entries of a bundle (R471): offset and length. -/
def bundleDir (b : List Byte) : List (Nat × Nat) := (List.range 4).map fun i => (atN b (8 * i) 4, atN b (8 * i + 4) 4)

/-- Why a bundle is refused. -/
def bundleBad (s : State) (b : List Byte) (len : Nat) : Option Refusal1 :=
  let dir := bundleDir b
  let stop := dir.foldl (fun m e => if e.2 = 0 then m else max m (e.1 + e.2)) 64
  if len = 0 ∨ len ≠ stop ∨ dir.any (fun e => decide (e.2 ≠ 0 ∧ (e.1 < 64 ∨ e.1 + e.2 > len))) then some refFormat
  else (List.range 4).findSome? fun i =>
    let e := dir.getD i (0, 0)
    if e.2 = 0 then none else hostImageBad (sub b e.1 e.2) e.2 (i + 1) (compLimit i) fuseVfw (fuseCounter s i)

def otherSlot (s : State) : Nat := 1 - s.sec.boot.slot

def execUpdateStage (bundle : Option (List Byte)) (s : State) : Res :=
  .next (mbStep s 0 0x10 fun s r =>
    let refuse (x : Refusal1) : State × Status × List Byte := (setFlag (setReason s x.cls 0 1) (mbPage 0) 3, x.status, [])
    if s.sec.update ≥ 2 then (s, .stateIllegal, [])
    else if r.req.length ≠ 12 then refuse refFormat
    else match bundle with
      | none => (s, .tierFault, [])
      | some b => match bundleBad s b (atN r.req 8 4) with
        | some x => refuse x
        | none =>
          let comps := (List.range 4).map fun i =>
            let e := (bundleDir b).getD i (0, 0)
            if e.2 = 0 then s.sec.boot.comps.getD i [] else sub b e.1 e.2
          let f := s.sec.flash
          let t := setFlash s { f with slots := f.slots.set (otherSlot s) (some comps) }
          ({ t with sec := { t.sec with update := 1 } }, .ok, []))

def execUpdateActivate (s : State) : Res :=
  .next (mbStep s 0 0x11 fun s r =>
    if r.req ≠ [] then (s, .range, [])
    else if s.sec.update ≠ 1 then (s, .stateIllegal, [])
    else
      let t := setFlash s { s.sec.flash with trial := some (otherSlot s), tried := false }
      ({ t with sec := { t.sec with update := 2 } }, .ok, []))

/-- The fused counters burnt up to the SVNs of the components that run (R482). -/
def burnCounters (s : State) : List Nat :=
  (List.range 5).map fun i => if i < 4 then max (fuseCounter s i) (imgSvn (s.sec.boot.comps.getD i [])) else fuseCounter s i

def execUpdateCommit (s : State) : Res :=
  .next (mbStep s 0 0x12 fun s r =>
    if r.req ≠ [] then (s, .range, [])
    else if s.sec.update ≠ 3 then (s, .stateIllegal, [])
    else
      let t := setFlash s { s.sec.flash with active := s.sec.boot.slot, trial := none, tried := false, commit := false, counters := burnCounters s }
      ({ t with sec := { t.sec with update := 0 } }, .ok, []))

/-- Why a layout image is refused (R478 from step 2): the status, MB_REASON's class and detail. -/
def layoutImageBad (s : State) (img : List Byte) : Option (Status × Nat × Nat) :=
  match imageBad img 0x10 (1024 * 1024) fuseIrk (fuseCounter s 4) with
  | some x => some (x.status, x.cls, 0)
  | none => (layoutBad (imgBody img)).map fun x => (.range, x.1, x.2)

def execLayoutWrite (image : Option (List Byte)) (s : State) : Res :=
  .next (mbStep s 0 0x13 fun s r =>
    let refuse (st : Status) (c d : Nat) : State × Status × List Byte := (setReason s c d 0x10, st, [])
    if r.req.length ≠ 12 then refuse .range 1 0
    else match image with
      | none => (s, .tierFault, [])
      | some img =>
        let len := atN r.req 8 4
        if len = 0 ∨ headerBad img 0x10 (1024 * 1024) ∨ len ≠ 384 + imgBodyLen img then refuse .range 1 0
        else match layoutImageBad s img with
          | some (st, c, d) => refuse st c d
          | none => (setFlash s { s.sec.flash with layout := some img }, .ok, []))

/-! ### LIFECYCLE (R469) -/

/-- Whether a signer may sign a change from one state to another. -/
def lifeSigner (a b : Nat) (h : List Byte) : Bool :=
  if a = lcSealed ∧ b = lcScrapped then h == fuseVsv || h == fuseIrk else h == fuseVsv

def lifeStep (a b : Nat) : Bool :=
  (a == lcBlank && b == lcSealed) || (a == lcSealed && b == lcService) || (a == lcService && b == lcSealed) ||
    ((a == lcSealed || a == lcService) && b == lcScrapped)

def execLifecycle (s : State) : Res :=
  .next (mbStep s 0 0x20 fun s r =>
    let t := r.req
    let a := lifecycle s
    let b := at8 t 5
    if t.length ≠ 320 ∨ atN t 0 4 ≠ 0x61 ∨ at8 t 4 ≠ 0xFF ∨ b > 3 ∨ !(zeros t 6 10) ∨ !(zeros t 209 15) ∨
        (b = lcService ∧ s.sec.flash.epoch = 3) then (s, .range, [])
    else if !(lifeStep a b) then (s, .stateIllegal, [])
    else if sub t 16 48 ≠ identityDigest ∨ sub t 64 48 ≠ (secOf s 0).nonce ∨ !(lifeSigner a b (sha384 (sub t 112 97))) ∨
        !(ecdsaVerify (sub t 112 97) (sub t 0 224) (sub t 224 96)) then (drawNonce (setFlag s (mbPage 0) 1) 0, .integrity, [])
    else (drawNonce (setFlash s { s.sec.flash with lifeNext := some b }) 0, .ok, []))

/-! ### The page -/

/-- MB_KEYSTAT (R508). The progress of a sweep is left open. -/
def keyStat (s : State) (n : Nat) : Word :=
  let k := keysOf s n
  let pct := if k.state = 1 then (freeAt s 0).toNat % 101 else 0
  BitVec.ofNat 32 (pct * 2 ^ 24 + k.state % 16 * 4096 + (decide (k.gen = 3)).toNat * 512 + k.dbgGen.toNat * 256 +
    (secOf s n).manifest.isSome.toNat * 128 + (confidential s n).toNat * 64 + (if k.state = 1 then k.low % 4 * 4 else 0) + k.gen % 4)

/-- MB_BOOT (R508). -/
def bootWord (s : State) : Word :=
  BitVec.ofNat 32 (s.sec.update % 16 * 256 + s.sec.boot.fallback.toNat * 128 + s.sec.flash.commit.toNat * 64 + s.sec.boot.slot % 2)

def mailboxView (s : State) (p : Page) (off : Nat) : Option Word :=
  if p.cls ≠ .mailbox then none
  else
    let x := secOf s p.inst
    if off = 0x110 then some (BitVec.ofNat 32 x.mbSeq)
    else if off = 0x114 then some (BitVec.ofNat 32 x.session)
    else if off = 0x118 then some (keyStat s p.inst)
    else if off = 0x11C then some (BitVec.ofNat 32 (keysOf s p.inst).lost)
    else if off = 0x120 ∧ p.inst = 0 then some (bootWord s)
    else if 0x130 ≤ off ∧ off < 0x160 then some (bytesWord x.nonce ((off - 0x130) / 4))
    else none

/-- What a write of the mailbox page checks beside the common order (R507, R509, R511). -/
def mailboxCheck (s : State) (p : Page) (off : Nat) (v : Word) : Option Status :=
  if p.cls ≠ .mailbox ∨ off < 0x100 then none
  else
    let n := p.inst
    let cmd := regVal s p 0x100
    if off = 0x108 ∧ bit v 0 then
      if confidential s n ∧ sealedOps.contains (field cmd 7 0) ∧ !(bit cmd 8) then some .ownerDenied
      else if mbBusy s n then some .busy else none
    else if off = 0x104 ∧ field v 10 0 > 1024 then some .range
    else if (off = 0x100 ∨ off = 0x104 ∨ (0x800 ≤ off ∧ off < 0xC00)) ∧ mbBusy s n then some .busy
    else none

def mailboxAct (s : State) (p : Page) (off : Nat) (v : Word) : State :=
  if p.cls = .mailbox ∧ off = 0x108 ∧ bit v 0 then mbGo s p.inst else s

end Sys2Proof.Machine
end

