-- ==== Sys2Proof/Machine/Debug.lean ====
section
/-! DEFINITION. Debug levels (R528 to R535) and attestation reports (R514 to R527). -/

namespace Sys2Proof.Machine

def dbgD0 : Nat := 0
def dbgD1 : Nat := 1
def dbgD2 : Nat := 2
def dbgD3 : Nat := 3
def dbgEnter : Nat := 4
def dbgLeave : Nat := 5

def dbgOf (s : State) (n : Nat) : Nat := (secOf s n).dbg

/-- DEBUG_MAX of the loaded manifest (R475). -/
def debugMax (s : State) (n : Nat) : Nat := match (secOf s n).manifest with
  | some m => at8 (imgBody m) 1
  | none => 0

/-- Every held offer released (R534): a breakpoint is disarmed. -/
def releaseHolds (s : State) (n : Nat) : State := clearReg s (partPage n) 0x74C 0x80000000#32

/-- The start of a partial reset at the next boundary. -/
def beginReset (s : State) (n : Nat) : State :=
  if inReset s n ∨ s.atTick.contains (.presetBegin n) then s else atBoundary s (.presetBegin n)

/-- A partition at a level, with the expiry of a DURATION (R531). -/
def setLevel (s : State) (n level duration : Nat) : State :=
  setSec s n { secOf s n with dbg := level, duration := duration, expiry := if duration = 0 then none else some (now s + duration * 1000000) }

/-- The return to D0 of one partition (R532, R534), by RELOCK or expiry. -/
def leaveDebug (s : State) (n : Nat) : State :=
  let x := secOf s n
  let t := releaseHolds s n
  if x.dbg = dbgD2 then
    if n = 0 then setFlash (setSec t 0 { x with retArmed := true, expiry := none }) { t.sec.flash with d2Back := true }
    else beginReset (setSec t n { x with dbg := dbgLeave, expiry := none }) n
  else if x.dbg = dbgD1 ∨ x.dbg = dbgD3 then setSec t n { x with dbg := dbgD0, expiry := none }
  else t

/-- D3 over the whole device ends. -/
def leaveD3 (s : State) : State := (List.range 16).foldl leaveDebug s

/-- The response of DEBUG_UNLOCK (R531). -/
def debugRsp (s : State) (n : Nat) : List Byte :=
  let x := secOf s n
  natBytes 4 x.dbg ++ natBytes 8 (x.expiry.getD 0)

/-- The first failing reason of a DEBUG token (R531, R534). -/
def tokenBad (s : State) (n : Nat) (t : List Byte) : Option Status :=
  let level := at8 t 5
  let dur := atN t 8 4
  let x := secOf s n
  let key := match x.manifest with
    | some m => sub (imgBody m) 52 48
    | none => []
  let dist : Bool := level == 3
  if t.length ≠ 320 ∨ atN t 0 4 ≠ 0x60 ∨ level = 0 ∨ level > 3 ∨ dur > 86400 ∨ !(zeros t 6 2) ∨ !(zeros t 12 4) ∨ !(zeros t 209 15) then some .range
  else if (if dist then n != 0 else at8 t 4 != n || (x.manifest.isSome && (decide (level > debugMax s n) || key.all (· == 0)))) then some .ownerDenied
  else if (if dist then lifecycle s != lcService else x.manifest.isNone || lifecycle s != lcSealed) then some .stateIllegal
  else if x.dbg = dbgEnter ∨ x.dbg = dbgLeave then some .busyReset
  else if (level = 1 ∧ x.dbg ≥ 2) ∨ (level = 2 ∧ x.dbg = 3) ∨ (level = 3 ∧ (x.dbg = 1 ∨ x.dbg = 2)) then some .stateIllegal
  else if sub t 16 48 ≠ identityDigest ∨ sub t 64 48 ≠ x.nonce ∨ sha384 (sub t 112 97) ≠ (if dist then fuseVsv else key) ∨
      !(ecdsaVerify (sub t 112 97) (sub t 0 224) (sub t 224 96)) then some .integrity
  else if level = 2 ∧ (keysOf s n).state ≠ 0 then some .busy
  else none

/-- An accepted token (R532, R534). -/
def unlock (s : State) (n level dur : Nat) : State :=
  let x := secOf s n
  if level = 3 then (List.range 16).foldl (fun t i => setLevel t i dbgD3 (if i = 0 then dur else 0)) s
  else if level = 1 then setLevel s n dbgD1 dur
  else if x.dbg = dbgD2 then setLevel s n dbgD2 dur
  else if n = 0 then
    setFlash (setSec s 0 { x with armed := true, armedAt := now s, duration := dur }) { s.sec.flash with d2Armed := some dur }
  else beginReset (setLevel s n dbgEnter dur) n

/-- DEBUG_UNLOCK (R531) with a DEBUG token. -/
def execDebugUnlock (p : Part) (s : State) : Res :=
  .next (mbStep s p 0x21 fun s r =>
    let n := p.val
    match tokenBad s n r.req with
    | some .integrity => (drawNonce (setFlag s (mbPage n) 1) n, .integrity, [])
    | some .busy => (drawNonce s n, .busy, [])
    | some e => (s, e, [])
    | none =>
      let t := drawNonce (unlock s n (at8 r.req 5) (atN r.req 8 4)) n
      (t, .ok, debugRsp t n))

/-- RELOCK (R531, R534): a DEBUG_UNLOCK request of four bytes. -/
def execRelock (p : Part) (s : State) : Res :=
  .next (
    match (secOf s p).mb with
    | some r =>
      if r.req ≠ natBytes 4 0x62 then s
      else mbStep s p 0x21 fun s _ =>
        let n := p.val
        let d := dbgOf s n
        if d = dbgEnter ∨ d = dbgLeave then (s, .busyReset, [])
        else
          let t := if d = dbgD3 ∧ n = 0 then leaveD3 s else leaveDebug s n
          (t, .ok, debugRsp t n)
    | none => s)

/-- DEBUG_EXPIRY (R531): at or after the expiry tick, as if by RELOCK. -/
def execDebugExpiry (p : Part) (s : State) : Res :=
  .next (
    match (secOf s p).expiry with
    | none => s
    | some t => if now s < t then s else if dbgOf s p = dbgD3 then leaveD3 s else leaveDebug s p)

/-- D2_ARMED_LAPSE (R532). -/
def execD2ArmedLapse (s : State) : Res :=
  .next (
    let x := secOf s 0
    if !x.armed ∨ x.duration = 0 ∨ now s < x.armedAt + x.duration * 1000000 then s
    else setFlash (setSec s 0 { x with armed := false }) { s.sec.flash with d2Armed := none })

/-- The switch of the write generation to a debug generation, whose key is drawn (R484, R497, R532). -/
def enterD2 (s : State) (n : Nat) : State :=
  let k := keysOf s n
  setKeys (zeroGallery s n) n { k with dbgGen := true, draws := k.draws + 1 }
def exitD2 (s : State) (n : Nat) : State := setKeys (zeroGallery s n) n { keysOf s n with dbgGen := false }

/-- What the completion of a partial reset does to a debug state. -/
def debugResetDone (s : State) (n : Nat) : State :=
  let x := secOf s n
  if x.dbg = dbgEnter then enterD2 (setSec s n { x with dbg := dbgD2 }) n
  else if x.dbg = dbgLeave then exitD2 (setSec s n { x with dbg := dbgD0 }) n
  else s

/-- A record of the command trace (R535). -/
def traceEvent (s : State) (n core stage command opcode : Nat) (st : Status) (ended : Bool) (slot : Nat) (jobId : Word) : State :=
  let w := regVal s (partPage n) 0x748
  let d := dbgOf s n
  if !(bit w 31) ∨ d = dbgD0 ∨ d ≥ dbgEnter then s
  else
    let pos := (regVal s (partPage n) 0x750).toNat
    let entry : List Byte := [BitVec.ofNat 8 core, BitVec.ofNat 8 stage] ++ natBytes 2 command ++
      [BitVec.ofNat 8 opcode, BitVec.ofNat 8 (statusCode st), BitVec.ofNat 8 ended.toNat, BitVec.ofNat 8 slot] ++
      wordBytes (nowW s) ++ wordBytes jobId
    let a := field w 27 0 * pageBytes + pos % 4096 * 16
    let t := if writeRange s n a 16 false false = .ok then writeBytes s n a entry else s
    setReg t (partPage n) 0x750 (BitVec.ofNat 32 (pos + 1))

/-- Whether a breakpoint holds the offer of a command (R533). -/
def breakHolds (s : State) (n slot stage command : Nat) : Bool :=
  let w := regVal s (partPage n) 0x74C
  let d := dbgOf s n
  bit w 31 && (d == dbgD2 || d == dbgD3) && field w 30 27 == slot && field w 26 20 == stage && field w 15 0 == command

def debugView (s : State) (p : Page) (off : Nat) : Option Word :=
  if p.cls ≠ .part then none
  else
    let n := p.inst
    let x := secOf s n
    match off with
    | 0x740 => some (BitVec.ofNat 32 (debugMax s n * 256 + (keysOf s n).dbgGen.toNat * 16 + x.armed.toNat * 8 + x.dbg % 8))
    | 0x744 => some (BitVec.ofNat 32 (x.expiry.getD 0))
    | 0x754 => some (BitVec.ofNat 32 (x.expiry.getD 0 / 2 ^ 32))
    | _ => none

/-- What a write of a debug register checks; `jtag` is the requester of R678 (R534, R535). -/
def debugCheck (s : State) (p : Page) (off : Nat) (v : Word) (jtag : Bool) : Option Status :=
  if p.cls ≠ .part then none
  else
    let d := dbgOf s p.inst
    match off with
    | 0x748 => if d = dbgEnter ∨ d = dbgLeave then some .busyReset else if d = dbgD0 then some .stateIllegal else none
    | 0x74C =>
      if !jtag then some .ownerDenied
      else if d = dbgEnter ∨ d = dbgLeave then some .busyReset
      else if field v 26 20 > 65 then some .range
      else if d = dbgD2 ∨ d = dbgD3 then none else some .stateIllegal
    | _ => none

def debugAct (s : State) (p : Page) (off : Nat) (v old : Word) : State :=
  if p.cls = .part ∧ off = 0x748 ∧ bit v 31 ∧ !(bit old 31) then setReg s p 0x750 0 else s

/-! ### Attestation -/

def atPage (n : Nat) : Page := ⟨.attest, n⟩

def manifestDigest (s : State) (n : Nat) : List Byte := match (secOf s n).manifest with
  | some m => imgDigest m
  | none => List.replicate 48 0

/-- A partition summary (R516). -/
def atSummary (s : State) (n : Nat) : Nat :=
  let k := keysOf s n
  let x := secOf s n
  x.armed.toNat * 4096 + x.manifest.isSome.toNat * 2048 + (confidential s n).toNat * 1024 + (inReset s n).toNat * 256 +
    k.state % 4 * 64 + k.gen % 4 * 16 + k.dbgGen.toNat * 8 + x.dbg % 8

/-- The cores that a layout gives a partition, and those of groups that may hold it (R517). -/
def coreBits (s : State) (f : CoreAssign → Bool) : Nat :=
  ((List.range 60).map fun i => match s.dev.layout with
    | some l => if f (l.cores.getD i .unassigned) then 2 ^ i else 0
    | none => 0).sum

def groupNames (s : State) (n : Nat) (a : CoreAssign) : Bool := match a, s.dev.layout with
  | .group g, some l => (l.groups.getD g 0).getLsbD n
  | _, _ => false

/-- The PARTITION body (R517). -/
def partBody (s : State) (n : Nat) : List Byte :=
  let l := partLayout s n
  let x := secOf s n
  let mb := match x.manifest with
    | some m => (atN (imgBody m) 2 2, imgSvn m)
    | none => (0, 0)
  let gal := match s.dev.layout with
    | some y => segFrames (galleryShare y n)
    | none => 0
  manifestDigest s n ++ l.ownerHash ++ natBytes 4 x.resetGen ++ natBytes 4 x.session ++
    natBytes 8 (coreBits s fun a => match a with
      | .part m _ => m == n
      | _ => false) ++
    natBytes 8 (coreBits s (groupNames s n)) ++ natBytes 4 gal ++ natBytes 4 l.driftFrames ++ natBytes 4 l.seamPages ++
    [BitVec.ofNat 8 l.tallyFirst, BitVec.ofNat 8 l.tallyPages] ++ natBytes 2 (shareReaders s n) ++ natBytes 2 mb.1 ++
    [BitVec.ofNat 8 mb.2, BitVec.ofNat 8 l.minSvn] ++ natBytes 4 (keysOf s n).lost ++ natBytes 8 (x.expiry.getD 0) ++ List.replicate 200 0

/-- The DEVICE body (R518). -/
def devBody (s : State) : List Byte :=
  ((List.range 16).flatMap fun n => natBytes 4 (secOf s n).resetGen ++ (manifestDigest s n).take 8 ++ natBytes 2 (shareReaders s n) ++ [0, 0]) ++
    sha384 ((List.range 16).flatMap (manifestDigest s)) ++ List.replicate 48 0

/-- OTHER_SLOT_DIGEST (R520). -/
def otherDigest (s : State) : List Byte :=
  if s.sec.update = 0 then List.replicate 48 0
  else match s.sec.flash.slots.getD (otherSlot s) none with
    | some cs => sha384 (cs.flatMap imgDigest)
    | none => sha384 (fusedBytes 8 192)

/-- DEV_STATE (R110). -/
def devStateWord (s : State) : Nat :=
  lifecycle s + s.dev.power.toNat * 16 + (s.dev.inCharge).toNat * 256 + (leading s).toNat * 512

/-- Bytes 927:0 of a report (R515). -/
def reportBytes (s : State) (kind subject : Nat) (nonce : List Byte) : List Byte :=
  let pad (n : Nat) (b : List Byte) : List Byte := b.take n ++ List.replicate (n - b.length) 0
  let scrap := lifecycle s == lcScrapped
  let blank (n : Nat) (b : List Byte) : List Byte := if scrap then List.replicate n 0 else pad n b
  let comp (i : Nat) : List Byte := blank 48 (imgDigest (s.sec.boot.comps.getD i []))
  natBytes 4 0x544B5652 ++ [BitVec.ofNat 8 kind, 1, BitVec.ofNat 8 (if kind = 2 then 0xFF else subject), 0] ++ pad 48 nonce ++
    natBytes 8 (now s) ++ natBytes 8 (boundaryNs s (now s)).toNat ++ wordBytes 0 ++ wordBytes (timeStat s) ++ identityDigest ++ certDigest ++
    [BitVec.ofNat 8 (lifecycle s), BitVec.ofNat 8 s.sec.flash.epoch, BitVec.ofNat 8 (s.dev.order.toNat + s.dev.pairPos.toNat * 4 + s.dev.stepping.toNat * 16),
      BitVec.ofNat 8 ((decide (lifecycle s ≠ lcBlank)).toNat + (decide (s.dev.order = 2)).toNat * 2 + s.sec.flash.kill.toNat * 4)] ++
    (List.range 5).map (fun i => BitVec.ofNat 8 (fuseCounter s i)) ++
    [BitVec.ofNat 8 s.dev.power.toNat, BitVec.ofNat 8 (devState s + s.dev.inCharge.toNat * 16)] ++ List.replicate 5 0 ++
    romDigest ++ comp 0 ++ comp 1 ++ comp 2 ++ comp 3 ++ blank 48 (otherDigest s) ++
    natBytes 4 (s.sec.update % 16 + (decide (s.sec.update ≠ 0)).toNat * 16 + s.sec.boot.fallback.toNat * 32 + s.sec.flash.commit.toNat * 64 +
      s.sec.boot.slot % 2 * 128) ++
    natBytes 4 (s.dev.pairPos.toNat + (leading s && decide (s.dev.order = 2)).toNat * 2 + linkState s % 16 * 16) ++ wordBytes (leadEpoch s) ++ natBytes 4 0 ++
    blank 48 s.sec.boot.layoutDigest ++ blank 32 ((List.range 16).flatMap fun n => natBytes 2 (atSummary s n)) ++
    blank 352 (if kind = 1 then partBody s subject else devBody s)

/-- The requesters of reports: the partitions, the mate (R611) and the TAP (R679), in the places of `SecSt.parts`. -/
def atMate : Nat := 16
def atTap : Nat := 17

/-- Whether a request comes before one that is made now by requester n (R521): by the ticks of their AT_GO, then in ascending partition. -/
def atBefore (s : State) (n m : Nat) : Bool :=
  match (secOf s m).at' with
  | some r => r.begun.isSome || decide (r.go < now s) || decide (m ≤ n)
  | none => false

/-- A request taken into Lamphouse's order (R521); the next one is begun at the boundary. -/
def atEnqueue (s : State) (n : Nat) (run : AtRun) : State :=
  let t := setSec s n { secOf s n with at' := some run }
  let u := { t with sec := { t.sec with atOrder := s.sec.atOrder.filter (atBefore s n) ++ [n] ++ s.sec.atOrder.filter fun m => !(atBefore s n m) } }
  if s.sec.atOrder.isEmpty then atBoundary u .atBegin else u

/-- Lamphouse begins the next request: its snapshot is that of the tick which now begins (R519, R521). -/
def atBegin (s : State) : State :=
  match s.sec.atOrder with
  | [] => s
  | n :: _ => match (secOf s n).at' with
    | some r => if r.begun.isSome then s else setSec s n { secOf s n with at' := some { r with begun := some (now s) } }
    | none => s

/-- AT_GO accepted (R521). -/
def atGo (s : State) (n : Nat) : State :=
  let pg := atPage n
  let c := regVal s pg 0x100
  atEnqueue (setReg s pg 0x108 0x100) n ⟨field c 1 0, field c 11 8, pageBytesAt s pg 0x130 12, now s, none, none⟩

/-- The snapshot of the request that Lamphouse has begun (R521, R522): none of a partition in reset. -/
def atSnapshot (s : State) (n : Nat) : State :=
  match (secOf s n).at' with
  | none => s
  | some r =>
    let b := if r.kind = 1 ∧ inReset s r.subject then [] else reportBytes s r.kind r.subject r.nonce
    setSec s n { secOf s n with at' := some { r with snap := some (now s, b) } }

/-- The snapshot of the request begun for this tick, after all events of the tick (R519). -/
def atTickEnd (s : State) : State :=
  match s.sec.atOrder with
  | [] => s
  | n :: _ => match (secOf s n).at' with
    | some r => if r.begun = some (now s) ∧ r.snap.isNone then atSnapshot s n else s
    | none => s

/-- A partial reset of a subject before its report is signed (R522): the report is dropped. -/
def atSpoil (s : State) (subject : Nat) : State :=
  (List.range 18).foldl (fun t n => match (secOf t n).at' with
    | some r => match r.snap with
      | some (tick, _) => if r.kind = 1 ∧ r.subject = subject then setSec t n { secOf t n with at' := some { r with snap := some (tick, []) } } else t
      | none => t
    | none => t) s

/-- BULK fragments of a transfer (R611), of at most 984 data bytes each. -/
def bulkFragments (s : State) (sub part : Nat) (data : List Byte) : State :=
  let num := s.vl.txBulk
  let frags := (List.range ((data.length + 983) / 984)).map fun i =>
    natBytes 4 num ++ natBytes 4 (984 * i) ++ natBytes 4 data.length ++ (data.drop (984 * i)).take 984
  frags.foldl (fun t f => queueMsg t ⟨6, sub, part, f⟩) { s with vl := { s.vl with txBulk := (num + 1) % 2 ^ 32 } }

/-- What a partition sees of its finished request (R521, R524). -/
def atDeliver (s : State) (n : Nat) (st : Status) (report : List Byte) (snapTick : Nat) : State :=
  let pg := atPage n
  let u := (List.range 256).foldl (fun u i => setReg u pg (0x800 + 4 * i) (bytesWord report i)) s
  let v := setReg (setReg u pg 0x108 (BitVec.ofNat 32 (report.length * 65536 + statusCode st))) pg 0x10C (BitVec.ofNat 32 snapTick)
  irq (ctrAdd v pg (match st with
    | .ok => 1
    | .busyReset => 2
    | _ => 3) 1) n 3 (.service pg)

/-- What the mate is sent (R611): the report, or the status alone. -/
def atDeliverMate (s : State) (st : Status) (report : List Byte) : State :=
  if linkState s < 3 then s
  else if st = .ok then bulkFragments (ctrAdd s vlPage 17 1) 4 0xFF report
  else queueMsg s ⟨6, 4, 0xFF, [BitVec.ofNat 8 (statusCode st)]⟩

/-- A request finished: its report goes to who asked, and the next request has its turn. -/
def atFinish (s : State) (n : Nat) (st : Status) (report : List Byte) (snapTick : Nat) : State :=
  let t := setSec s n { secOf s n with at' := none }
  let w :=
    if n = atMate then atDeliverMate t st report
    else if n = atTap then { t with tap := { t.tap with report := some (if st = .ok then some report else none) } }
    else atDeliver t n st report snapTick
  let ord := w.sec.atOrder.filter (· ≠ n)
  let y := { w with sec := { w.sec with atOrder := ord } }
  match ord with
  | [] => y
  | m :: _ => if (secOf y m).at'.any (fun r => r.begun.isNone) ∧ !(y.atTick.contains .atBegin) then atBoundary y .atBegin else y

/-- ATTEST_COMPLETE (R521, R522, R527), for a partition, for the mate (16) or for the TAP (17). -/
def execAttestComplete (p : Fin 18) (signOk : Bool) (s : State) : Res :=
  .next (
    match (secOf s p).at' with
    | none => s
    | some r => match r.snap with
      | none => s
      | some (tick, b) =>
        if b.isEmpty then atFinish s p .busyReset [] tick
        else if !signOk then
          let pg := atPage (if p.val < 16 then p.val else 0)
          atFinish (deviceFatal (setFlag s pg 0) pg 0) p .integrity [] tick
        else
          let k := beNat (freeBytes s 48) % (p384N - 1) + 1
          atFinish (spendBytes s 48) p .ok (b ++ ecdsaSign fuseIk k b) tick)

def attestCheck (s : State) (p : Page) (off : Nat) (v : Word) : Option Status :=
  if p.cls ≠ .attest ∨ off < 0x100 then none
  else
    let n := p.inst
    let c := regVal s p 0x100
    let kind := field c 1 0
    let busy := (secOf s n).at'.isSome
    if off = 0x104 ∧ bit v 0 then
      if kind = 1 ∧ n ≠ 0 ∧ field c 11 8 ≠ n then some .ownerDenied
      else if field c 31 28 > regField s devPage 0x108 15 8 then some .levelUnsupported
      else if kind = 0 ∨ kind = 3 ∨ field c 31 28 = 0 then some .range
      else if busy then some .busy else none
    else if (off = 0x100 ∨ (0x130 ≤ off ∧ off < 0x160)) ∧ busy then some .busy
    else none

def attestAct (s : State) (p : Page) (off : Nat) (v : Word) : State :=
  if p.cls = .attest ∧ off = 0x104 ∧ bit v 0 then atGo s p.inst else s

end Sys2Proof.Machine
end

