-- ==== Sys2Proof/Machine/CoreCmd.lean ====
section
/-! DEFINITION. Commands on the cores from issue to RUN (R148, R181, R355), the release of their waits (R164), and the push
machinery (R180 to R184). -/

namespace Sys2Proof.Machine

/-! ### Into RUN -/

/-- A command that cannot go on: its failure, and what its end will record of it. -/
def stopRun (s : State) (k : CoreId) (stream : Nat) (r : CmdRun) (st : Status) (o : CmdOut) : State :=
  setCur s k stream { r with fail := some st, out := some o }

/-- The operands read and the output computed, where no window feeds the command; a command with a window keeps the memory operands
that it read, and computes as its rows land. A failed read decides the status. -/
def computeRun (s : State) (k : CoreId) (stream : Nat) (r : CmdRun) : State :=
  let st := readsStatus s k r
  let t := spendFree s (2 ^ 40)
  let whole := (cmdWindows k r.offer.desc).isEmpty
  let r' := { r with
    free0 := s.free
    seen := if whole then [] else (cmdReads s k r).map fun x => (x.1, readBytes s r.offer.part x.1 x.2) }
  if st ≠ .ok then stopRun t k stream r' st (computeOut s k stream r')
  else if whole then setCur t k stream { r' with out := some (computeOut s k stream r') } else setCur t k stream r'

/-- The pin pass of ATTN (R275), with the prefetch of the pages it pinned (R289). -/
def pinRun (s : State) (k : CoreId) (r : CmdRun) (a : ADesc) (es : List LenEntry) : State :=
  let p := r.offer.part
  let x := pinPages p a s (pinList a es) []
  let t := ctrAdd x.1 (corePage k) 6 x.2.1.length
  let r' := { r with pins := x.2.1 }
  match x.2.2 with
  | some stop =>
    let u := match stop.flag with
      | some f => setFlag t (corePage k) f
      | none => t
    stopRun u k 0 r' stop.status { noOut with flags := if stop.posGap then 16 else 0 }
  | none =>
    let u := kvPrefetch t k p a x.2.1
    let st := pinnedStatus u p a x.2.1
    if st ≠ .ok then stopRun u k 0 r' st noOut else computeRun u k 0 r'

/-- Whether row j of an operand is present (R181). -/
def rowPresent (s : State) (r : CmdRun) (op j : Nat) : Bool :=
  r.win.all fun w => w.2.1 != op || (match chanOf s r.offer.job w.1 with
    | some c => !(decide (c.dstRow ≤ j ∧ j < c.dstRow + c.rows)) || decide ((tallyVal s c.rowT - w.2.2).toInt ≥ ((j - c.dstRow + 1 : Nat) : Int))
    | none => true)

/-- The K and V bytes of an appended row. -/
def appendRowBytes (s : State) (k : CoreId) (r : CmdRun) (i : Nat) : List Byte :=
  let a := aDesc r.offer.desc
  let p := aPoolOf (poolCfg s r.offer.part a.pool)
  let n := 2 * p.d * poolElem p
  (List.range n).map fun b => opByte s k 1 r 0 a.qAddr a.faceQ (i * n + b)

/-- What an append has done so far (R159, R297, R304): its rows, its copies, and POS_GAP. -/
def appendOut (s : State) (r : CmdRun) (rows : List KvRow) (stop : Option KvStop) : CmdOut :=
  let a := aDesc r.offer.desc
  let c := poolCfg s r.offer.part a.pool
  let cow := (rows.filter fun x => x.source.isSome).length
  { noOut with
    append := rows, clocks := aClocks a (aPoolOf c) (runTable s r) (copiedBytes c rows), spent := stop.isSome
    words := [(7, rows.length), (8, cow)]
    flags := 8 * (decide (cow > 0)).toNat + (match stop with
      | some x => 16 * x.posGap.toNat
      | none => 0) }

/-- The rows of an append written as far as they can be (R279): each once its own row has landed, and those to a page under move after its
switch (R288). A failure stops the append (R281). -/
def appendStep (s : State) (k : CoreId) : State :=
  match curOf s k 1 with
  | none => s
  | some r =>
    let a := aDesc r.offer.desc
    match r.out with
    | none => s
    | some o =>
      if k.cls ≠ .a ∨ a.opcode ≠ 2 ∨ r.fail.isSome ∨ streamState s k 1 ≠ cRun then s
      else
        let ready (i : Nat) : Bool := (List.range (i + 1)).all fun j => rowPresent s r 0 j && !(r.badRows.contains (0, j))
        let x := ((appendRows (runTable s r)).drop o.append.length).foldl
          (appendOne r.offer.part a (a.head % 8) ready (appendRowBytes s k r)) ⟨s, o.append, none, false⟩
        let r' := { r with out := some (appendOut s r x.rows x.stop) }
        match x.stop with
        | none => setCur x.st k 1 r'
        | some stop =>
          setCur (match stop.flag with
            | some f => setFlag x.st (corePage k) f
            | none => x.st) k 1 { r' with fail := some stop.status }

/-- KV_APPEND enters RUN: its memory operand is read at once, and its rows are written as they come. -/
def appendRun (s : State) (k : CoreId) (r : CmdRun) : State :=
  let st := readsStatus s k r
  let t := spendFree s (2 ^ 40)
  let r' := { r with free0 := s.free, seen := (cmdReads s k r).map fun x => (x.1, readBytes s r.offer.part x.1 x.2) }
  if st ≠ .ok then stopRun t k 1 r' st (appendOut s r' [] none)
  else appendStep (setCur t k 1 { r' with out := some (appendOut s r' [] none) }) k

/-- The appends that waited for the switch of a page (R288). -/
def resumeAppends (s : State) : State := (List.range 8).foldl (fun t i => appendStep t ⟨.a, i⟩) s

/-- An A-core command reads its length table in its pin pass (R270); an invalid entry ends it with RANGE. -/
def beginA (s : State) (k : CoreId) (stream : Nat) (r : CmdRun) : State :=
  let a := aDesc r.offer.desc
  let p := r.offer.part
  if a.opcode = 0 then computeRun s k stream r
  else
    let st := lenTableStatus s p a
    if st ≠ .ok then stopRun s k stream r st noOut
    else
      let words := readWords s p (a.lenAddr + 8 * a.entryFirst) (2 * a.entries)
      let r' := { r with lens := (List.range a.entries).map fun i => (words.getD (2 * i) 0, words.getD (2 * i + 1) 0) }
      let es := runTable s r'
      if es.any fun e => !e.good then stopRun s k stream r' .range noOut
      else if a.opcode = 1 then pinRun s k r' a es
      else if a.opcode = 2 then appendRun s k r'
      else computeRun s k stream r'

/-- A command enters RUN. A planning command of another cycle, or after its D, is LATE and does nothing (R355). -/
def beginRun (s : State) (k : CoreId) (stream : Nat) : State :=
  match curOf s k stream with
  | none => s
  | some r =>
    let t := setStreamState s k stream cRun
    match k.cls with
    | .a => beginA t k stream r
    | .l => if opOf r.offer.desc ≠ 0 ∧ planLate t (lDesc r.offer.desc).cycle then stopRun t k stream r .late noOut else computeRun t k stream r
    | _ => computeRun t k stream r

/-! ### Issue -/

/-- The core that channels and windows name for a command: the primary, where a shadow runs it. -/
def namedCore (s : State) (k : CoreId) (o : Offer) : CoreId := if o.role = 2 then (primaryOf s k).getD k else k

/-- The member channels of a command's windows (R177), as (channel, operand, ROW_TALLY at the opening). A shadow shares its
primary's windows. -/
def windowMembers (s : State) (k : CoreId) (o : Offer) : List (Nat × Nat × Word) :=
  let pk := namedCore s k o
  let mine := match jobOf s o.job with
    | none => []
    | some j => (cmdWindows k o.desc).flatMap fun w =>
        (j.chans.filter fun x => x.2.dst == coreCode pk && x.2.window == w.2).map fun x => (x.1, w.1, tallyVal s x.2.rowT)
  if o.role = 2 then
    match curOf s pk 0 with
    | some r => if r.offer.job = o.job ∧ r.offer.index = o.index then r.win else mine
    | none => mine
  else mine

/-- The credits that the opening of a window gives (R181). -/
def openWindows (s : State) (o : Offer) (ms : List (Nat × Nat × Word)) : State :=
  if o.role = 2 then s
  else ms.foldl (fun t w => match chanOf s o.job w.1 with
    | some c => tallyAdd t c.creditT c.rows
    | none => t) s

/-- A channel and the channels linked to it (R178). -/
def pushChain (j : Job) : Nat → Option Nat → List PushSt
  | 0, _ => []
  | _ + 1, none => []
  | n + 1, some c => match smFind j.chans c with
    | some x => ⟨c, x.first, 0⟩ :: pushChain j n x.link
    | none => []

/-- The channels that a command pushes on: none for a shadow, and none where the channel is not one of its core. -/
def pushesOf (s : State) (k : CoreId) (o : Offer) : List PushSt :=
  match cmdPush k o.desc, jobOf s o.job with
  | some c, some j =>
    match smFind j.chans c with
    | some x => if o.role ≠ 2 ∧ x.src = coreCode k then pushChain j 3 (some c) else []
    | none => []
  | _, _ => []

/-- The first issue of a job: START_TICK (R433), and the submission-to-start time (R457, R462). -/
def markIssued (s : State) (o : Offer) : State :=
  match jobOf s o.job with
  | none => s
  | some j =>
    let t := setJob s o.job (mapStage j o.stage fun x => { x with busy := true })
    if j.issued then t
    else
      let u := setJob t o.job { mapStage j o.stage (fun x => { x with busy := true }) with issued := true, startTick := now s }
      if o.job = canaryKey then u
      else
        let p := sbPage o.part
        rcEvent u p 0x118 fun w => BitVec.ofNat 32 (max w.toNat (min 65535 (now s - j.prodTick)))

/-- MODE or SUBOP as PG_STAT shows it. -/
def subOf (k : CoreId) (d : List Word) : Nat :=
  match k.cls with
  | .m => (mDesc d).mode
  | .v => (vDesc d).subop
  | _ => 0

def jobIdOf (s : State) (key : Nat) : Word := match jobOf s key with
  | some j => j.jobId
  | none => 0
def slotOf (s : State) (key : Nat) : Nat := match jobOf s key with
  | some j => j.slot
  | none => 0

/-- The record of an issue, or of an end, in the command trace (R535). -/
def traceCmd (s : State) (k : CoreId) (o : Offer) (st : Status) (ended : Bool) : State :=
  traceEvent s o.part (coreCode k) o.stage o.index (opOf o.desc) st ended (slotOf s o.job) (jobIdOf s o.job)

/-- A descriptor accepted at issue. -/
def acceptCmd (s : State) (k : CoreId) (stream : Nat) (o : Offer) : State :=
  let ms := windowMembers s k o
  let r : CmdRun := ⟨o, now s, none, none, ms, pushesOf s k o, [], [], none, none, [], [], 0⟩
  let t := markIssued (setCore (openWindows s o ms) k stream ⟨none, some r⟩) o
  let u := traceCmd (setStreamOp t k stream (opOf o.desc) (subOf k o.desc)) k o .ok false
  let v := match k.cls with
    | .l => if opOf o.desc ≥ 2 then setSeq u { u.seq with lib := some ((lDesc o.desc).libAddr, (lDesc o.desc).libCount) } else u
    | _ => u
  if waitEn k o.desc ∧ !(reached (tallyVal v (waitTally o.desc)) (waitThresh o.desc)) then
    ctrAdd (setStreamState v k stream cWait) (tallyPage (waitTally o.desc)) 2 1
  else beginRun v k stream

/-- A descriptor rejected at issue: recorded on the core's page (R105), and its job fails (R438). -/
def rejectCmd (s : State) (k : CoreId) (stream : Nat) (o : Offer) (st : Status) : State :=
  failJob (recordReject (setCore s k stream { coreSt s k stream with offered := none }) (corePage k) st 0x1000) o.job o.stage st

/-- The issue of an offered descriptor: held while the core is busy (R148). -/
def issueOffer (s : State) (k : CoreId) (stream : Nat) (o : Offer) : State :=
  if streamBusy (streamState s k stream) then s
  else match issueStatus s k stream o with
    | .ok => acceptCmd s k stream o
    | st => rejectCmd s k stream o st

/-- The row that issues a descriptor: that of its OPCODE; one whose OPCODE is undefined is taken, and rejected, by its class's NOP
row (R685). -/
def rowOf (k : CoreId) (d : List Word) : Nat := if opOf d < opCount k.cls then opOf d else 0

/-- The issue of the offered command of one row, on whichever of a core's streams it is offered. -/
def issueRow (k : CoreId) (streams : List Nat) (op : Nat) (s : State) : Res :=
  .next (streams.foldl (fun t i => match (coreSt t k i).offered with
    | some o => if devRunning t ∧ rowOf k o.desc = op then issueOffer t k i o else t
    | none => t) s)

/-- M_NOP (R136). -/
def execMNop (core : Fin 8) (s : State) : Res := issueRow ⟨.m, core⟩ [0] 0 s
/-- GEMM (R128). -/
def execGemm (core : Fin 8) (s : State) : Res := issueRow ⟨.m, core⟩ [0] 1 s
/-- CONV (R138). -/
def execConv (core : Fin 8) (s : State) : Res := issueRow ⟨.m, core⟩ [0] 2 s
/-- WINO3 (R142). -/
def execWino3 (core : Fin 8) (s : State) : Res := issueRow ⟨.m, core⟩ [0] 3 s
/-- V_NOP (R200). -/
def execVNop (core : Fin 32) (s : State) : Res := issueRow ⟨.v, core⟩ [0] 0 s
/-- MAP (R200). -/
def execMap (core : Fin 32) (s : State) : Res := issueRow ⟨.v, core⟩ [0] 1 s
/-- BINARY (R200). -/
def execBinary (core : Fin 32) (s : State) : Res := issueRow ⟨.v, core⟩ [0] 2 s
/-- REDUCE (R199, R200). -/
def execReduce (core : Fin 32) (s : State) : Res := issueRow ⟨.v, core⟩ [0] 3 s
/-- NORM (R200). -/
def execNorm (core : Fin 32) (s : State) : Res := issueRow ⟨.v, core⟩ [0] 4 s
/-- SOFTMAX (R200). -/
def execSoftmax (core : Fin 32) (s : State) : Res := issueRow ⟨.v, core⟩ [0] 5 s
/-- CONVERT (R200). -/
def execConvert (core : Fin 32) (s : State) : Res := issueRow ⟨.v, core⟩ [0] 6 s
/-- DEBAYER (R200). -/
def execDebayer (core : Fin 32) (s : State) : Res := issueRow ⟨.v, core⟩ [0] 7 s
/-- RESAMPLE (R200). -/
def execResample (core : Fin 32) (s : State) : Res := issueRow ⟨.v, core⟩ [0] 8 s
/-- GATHER (R200). -/
def execGather (core : Fin 32) (s : State) : Res := issueRow ⟨.v, core⟩ [0] 9 s
/-- A_NOP (R295), on either stream. -/
def execANop (core : Fin 8) (stream : Fin 2) (s : State) : Res := issueRow ⟨.a, core⟩ [stream.toNat] 0 s
/-- ATTN (R273). -/
def execAttn (core : Fin 8) (s : State) : Res := issueRow ⟨.a, core⟩ [0, 1] 1 s
/-- KV_APPEND (R279). -/
def execKvAppend (core : Fin 8) (s : State) : Res := issueRow ⟨.a, core⟩ [0, 1] 2 s
/-- ATTN_MERGE (R290). -/
def execAttnMerge (core : Fin 8) (s : State) : Res := issueRow ⟨.a, core⟩ [0, 1] 3 s
/-- ATTN_BWD (R291, R292). -/
def execAttnBwd (core : Fin 8) (s : State) : Res := issueRow ⟨.a, core⟩ [0, 1] 4 s
/-- F_NOP (R332). -/
def execFNop (core : Fin 4) (s : State) : Res := issueRow ⟨.f, core⟩ [0] 0 s
/-- LIFT (R329). -/
def execLift (core : Fin 4) (s : State) : Res := issueRow ⟨.f, core⟩ [0] 1 s
/-- VOXEL (R330). -/
def execVoxel (core : Fin 4) (s : State) : Res := issueRow ⟨.f, core⟩ [0] 2 s
/-- CHAN (R331). -/
def execChan (core : Fin 4) (s : State) : Res := issueRow ⟨.f, core⟩ [0] 3 s
/-- T_NOP (R340). -/
def execTNop (core : Fin 2) (s : State) : Res := issueRow ⟨.t, core⟩ [0] 0 s
/-- PREDICT (R335). -/
def execPredict (core : Fin 2) (s : State) : Res := issueRow ⟨.t, core⟩ [0] 1 s
/-- UPDATE (R337). -/
def execUpdate (core : Fin 2) (s : State) : Res := issueRow ⟨.t, core⟩ [0] 2 s
/-- BIRTH (R338). -/
def execBirth (core : Fin 2) (s : State) : Res := issueRow ⟨.t, core⟩ [0] 3 s
/-- TRK_READ (R338). -/
def execTrkRead (core : Fin 2) (s : State) : Res := issueRow ⟨.t, core⟩ [0] 4 s
/-- TRK_WRITE (R338). -/
def execTrkWrite (core : Fin 2) (s : State) : Res := issueRow ⟨.t, core⟩ [0] 5 s
/-- ASSIGN (R339). -/
def execAssign (core : Fin 2) (s : State) : Res := issueRow ⟨.t, core⟩ [0] 6 s
/-- L_NOP (R382). -/
def execLNop (core : Fin 4) (s : State) : Res := issueRow ⟨.l, core⟩ [0] 0 s
/-- WAVE (R370). -/
def execWave (core : Fin 4) (s : State) : Res := issueRow ⟨.l, core⟩ [0] 1 s
/-- CHECK (R367). -/
def execCheck (core : Fin 4) (s : State) : Res := issueRow ⟨.l, core⟩ [0] 2 s
/-- STOP (R374). -/
def execStop (core : Fin 4) (s : State) : Res := issueRow ⟨.l, core⟩ [0] 3 s
/-- SELECT (R371). -/
def execSelect (core : Fin 4) (s : State) : Res := issueRow ⟨.l, core⟩ [0] 4 s

/-- TALLY_WAIT_RELEASE (R164, R165): a command in WAIT whose Tally has reached its threshold enters RUN. -/
def execTallyWaitRelease (k : CoreId) (stream : Fin 2) (s : State) : Res :=
  .next (match curOf s k stream with
    | some r =>
      let i := waitTally r.offer.desc
      if streamState s k stream = cWait ∧ reached (tallyVal s i) (waitThresh r.offer.desc) then
        beginRun (ctrAdd s (tallyPage i) 3 1) k stream
      else s
    | none => s)

/-! ### Pushes -/

/-- Whether every row of every window has landed. -/
def allPresent (s : State) (r : CmdRun) : Bool :=
  r.win.all fun w => match chanOf s r.offer.job w.1 with
    | some c => decide ((tallyVal s c.rowT - w.2.2).toInt ≥ (c.rows : Int))
    | none => true

/-- The last row of operand 0 that output row i needs (R138, R141, R200). -/
def needRow (k : CoreId) (d : List Word) (i : Nat) : Nat :=
  match k.cls with
  | .m =>
    let m := mDesc d
    if m.opcode = 2 then min (aRows m - 1) (i * m.strH + (m.kh - 1) * m.dilH - m.padT)
    else if m.opcode = 3 then min (aRows m - 1) (4 * (i / 4) + 5 - m.padT)
    else i
  | .v => if opOf d = 7 then i + 2 else i
  | _ => i

/-- Whether output row i can be formed from the rows that have landed. -/
def rowReady (s : State) (k : CoreId) (r : CmdRun) (i : Nat) : Bool :=
  (List.range (needRow k r.offer.desc i + 1)).all (fun j => rowPresent s r 0 j && !(r.badRows.contains (0, j))) &&
    !(r.badRows.any fun x => x.1 == 1) &&
    r.win.all fun w => w.2.1 != 1 || (match chanOf s r.offer.job w.1 with
      | some c => decide ((tallyVal s c.rowT - w.2.2).toInt ≥ (c.rows : Int))
      | none => true)

/-- A row of wrong length that the command has reached (R183): every row before it of its operand is present. -/
def badReached (s : State) (r : CmdRun) : Bool :=
  r.badRows.any fun x => (List.range (x.2 + 1)).all (rowPresent s r x.1)

/-- The first output row that a channel does not carry. -/
def pushEnd (c : Channel) (rows : Nat) : Nat := min (c.first + c.rows) rows

/-- The credit of a channel that its rows in flight leave (R180). -/
def creditOf (s : State) (c : Channel) (p : PushSt) : Int := (tallyVal s c.creditT - (tallyVal s c.rowT + BitVec.ofNat 32 p.flying)).toInt

/-- A command in RUN that only push credits, or rows it has pushed, still hold (R114, R180, R188): its windows are full, its requests
are back, its nominal time has passed, and each channel with rows left waits for a credit or for rows in flight. -/
def heldForPush (s : State) (k : CoreId) (stream : Nat) (r : CmdRun) : Bool :=
  let o := runOut s k stream r
  let stuck (p : PushSt) : Bool := match chanOf s r.offer.job p.chan with
    | some c => p.flying != 0 || (decide (p.next < pushEnd c o.rows.length) && decide (creditOf s c p < 1))
    | none => false
  let gone (p : PushSt) : Bool := p.flying == 0 && (match chanOf s r.offer.job p.chan with
    | some c => decide (p.next ≥ pushEnd c o.rows.length)
    | none => true)
  streamState s k stream == cRun && r.fail.isNone && r.badRows.isEmpty && !(liveTags s k stream) && allPresent s r &&
    decide (now s ≥ r.issue + ceilDiv o.clocks (clkPerTick k.cls)) && r.push.any stuck && r.push.all fun p => stuck p || gone p

def setPush (r : CmdRun) (p : PushSt) : CmdRun := { r with push := r.push.map fun x => if x.chan = p.chan then p else x }

/-- ROW_PUSH (R180): the next row of a channel leaves once a credit is there. -/
def execRowPush (k : CoreId) (stream : Fin 2) (chan : Fin 256) (s : State) : Res :=
  .next (match curOf s k stream with
    | none => s
    | some r =>
      match r.push.find? (fun x => x.chan == chan.toNat), chanOf s r.offer.job chan with
      | some p, some c =>
        if streamState s k stream = cRun ∧ r.fail.isNone ∧ p.next < pushEnd c (runOut s k stream r).rows.length ∧
            rowReady s k r p.next ∧ creditOf s c p ≥ 1 then
          let t := setCur s k stream (setPush r { p with next := p.next + 1, flying := p.flying + 1 })
          if k.cls = .v then ctrAdd t (corePage k) 10 1 else t
        else s
      | _, _ => s)

/-- The Face offset of a windowed operand (R182). -/
def faceBase (k : CoreId) (d : List Word) (op : Nat) : Nat :=
  match k.cls with
  | .m => if op = 1 then (mDesc d).faceB else (mDesc d).faceA
  | .v => (vDesc d).faceX
  | .a => (aDesc d).faceQ
  | _ => 0

def putFace (s : State) (key : Nat) : List Byte → State
  | [] => s
  | b :: bs => putFace { s with face := smSet 0 s.face key b } (key + 1) bs

/-- A row that lands at a core: in the Face of the command whose window the channel feeds, or discarded where that has ended; so is one
of wrong length, which ends the command with INTEGRITY when it reaches that row (R182 to R184). -/
def landRow (s : State) (job chan : Nat) (c : Channel) (rowT : Word) (row : List Byte) (k : CoreId) : State :=
  (streamsOf k).foldl (fun t stream =>
    match curOf t k stream with
    | none => t
    | some r =>
      match (if r.offer.job = job then r.win.find? fun w => w.1 == chan else none) with
      | none => t
      | some w =>
        let j := c.dstRow + (rowT - w.2.2).toNat
        if row.length ≠ chanPitch c then setCur t k stream { r with badRows := r.badRows ++ [(w.2.1, j)] }
        else
          let u := putFace t (faceKey k stream (faceBase k r.offer.desc w.2.1 + j * chanPitch c)) row
          if k.cls = .v then ctrAdd u (corePage k) 11 1 else u) s

/-- ROW_LANDED (R182 to R184): ROW_TALLY advances whatever becomes of the row. A row whose bytes are no multiple of 64 is padded with
zeros to the next 64 before its length is judged (DESIGN CHOICE, log 66). -/
def execRowLanded (k : CoreId) (stream : Fin 2) (chan : Fin 256) (s : State) : Res :=
  .next (match curOf s k stream with
    | none => s
    | some r =>
      match r.push.find? (fun x => x.chan == chan.toNat), chanOf s r.offer.job chan with
      | some p, some c =>
        if p.flying = 0 then s
        else
          let row := (runOut s k stream r).rows.getD (p.next - p.flying) []
          let full := row ++ List.replicate (roundUp row.length 64 - row.length) 0
          let t := setCur s k stream (setPush r { p with flying := p.flying - 1 })
          let dst := (match coreOfCode c.dst with
            | some q => q :: (shadowOf s q).toList
            | none => [])
          let u := tallyAdd (dst.foldl (fun u q => landRow u r.offer.job chan c (tallyVal s c.rowT) full q) t) c.rowT 1
          dst.foldl (fun v q => appendStep v q) u
      | _, _ => s)

end Sys2Proof.Machine
end

