-- ==== Sys2Proof/Machine/CmdEnd.lean ====
section
/-! DEFINITION. The end of a command (R123, R149, R152): the hardware errors found during it (R151, R205, R300, R346, R388), its
writes, its Tally signal, the kick of its stage's watchdog (R560), the compare of a duplex stage (R574, R575), the records sent
to the pair mate (R293, R609), and what its job does next (R436 to R438). -/

namespace Sys2Proof.Machine

/-! ### Hardware errors -/

def diagReg (s : State) (k : CoreId) (kind slice : Nat) : State :=
  rcPut s (corePage k) 0x110 (BitVec.ofNat 32 (256 + 16 * kind + slice))

/-- The counter slots of corrected and uncorrectable Face errors. -/
def faceCeSlot : CoreCls → Option Nat
  | .m => some 10 | .v => some 6 | .a => some 12 | .f => some 7 | .l => some 8 | _ => none
def faceUeSlot : CoreCls → Option Nat
  | .m => some 11 | .v => some 7 | _ => none
def countSlot (s : State) (k : CoreId) (slot : Option Nat) (n : Nat) : State := match slot with
  | some i => ctrAdd s (corePage k) i n
  | none => s

/-- The flag and the KIND of a parity error. -/
def parityOf (cls : CoreCls) (kind : Nat) : Option (Nat × Nat) :=
  match cls, kind with
  | .m, 0 => some (2, 1) | .m, 1 => some (3, 2) | .m, 2 => some (4, 4)
  | .v, 0 => some (2, 1)
  | .a, 0 => some (2, 1) | .a, 1 => some (3, 2)
  | .f, 0 => some (2, 0)
  | .l, 0 => some (2, 1)
  | _, _ => none

/-- What a core found during a command: the page's flags, its DIAG registers, and the command's failure. An error that the class
does not have is none. -/
def hwError (s : State) (k : CoreId) (stream part : Nat) (e : CoreErr) : State :=
  let p := corePage k
  match e with
  | .none | .odd => s
  | .corrected n => if n = 0 then s else countSlot (setFlag s p 0) k (faceCeSlot k.cls) n
  | .faceUe b =>
    if k.cls = .t ∨ k.cls = .c then s
    else
      let t := failCmd (countSlot (setFlag s p 1) k (faceUeSlot k.cls) 1) k stream .integrity
      if k.cls = .f then t else diagReg (rcPut t p 0x114 (b.setWidth 32)) k 3 0
  | .parity kind slice =>
    match parityOf k.cls kind with
    | none => s
    | some (f, d) =>
      let t := failCmd (setFlag s p f) k stream .integrity
      if k.cls = .f then t else diagReg t k d (if k.cls = .a then 0 else if k.cls = .v then slice % 8 else slice)
  | .recordLost =>
    if k.cls = .a then partitionFatal (failCmd (setFlag s p 6) k stream .integrity) part p
    else if k.cls = .t then
      let t := failCmd (setFlag s p 1) k stream .integrity
      partitionFatal (clearTracks t k.inst) part p
    else s

/-! ### Writes -/

/-- The first failure of a command's stage-out. -/
def writesStatus (s : State) (part : Nat) (o : CmdOut) : Status :=
  firstBad (o.stores.map fun x => writeRange s part x.1 x.2.length true false)

/-- The stage-out of a command, with its length codes (R145, R216). -/
def writeOut (s : State) (part : Nat) (o : CmdOut) : State :=
  let t := o.stores.foldl (fun u x => writeBytes u part x.1 x.2) s
  o.codes.foldl (fun u x => setCode u part x.1 x.2) t

/-- The destination of a failed command is undefined (R152): free values wherever it may be written. -/
def spoilOut (s : State) (part : Nat) (o : CmdOut) : State :=
  o.stores.foldl (fun u x =>
    if writeRange u part x.1 x.2.length true false = .ok then
      spendFree (writeBytes u part x.1 ((List.range x.2.length).map fun i => (freeAt u i).setWidth 8)) x.2.length
    else u) s

def putTrack (s : State) (core : Nat) (x : Nat × List Byte) : State :=
  { s with tracks := { s.tracks with bytes :=
      ((List.range 512).zip x.2).foldl (fun m y => smSet 0 m (trkKey core x.1 + y.1) y.2) s.tracks.bytes } }

/-! ### Records for the mate -/

/-- The pages that an append wrote, each with its last row. -/
def appendPages (rows : List KvRow) : List KvRow :=
  rows.foldl (fun acc r => acc.filter (fun x => !(x.seq == r.seq && x.block == r.block)) ++ [r]) []

def kvDeltaBytes (d : KvDelta) : List Byte :=
  [BitVec.ofNat 8 d.pool, BitVec.ofNat 8 d.layer, BitVec.ofNat 8 d.head, BitVec.ofNat 8 d.fill] ++ natBytes 2 d.seq ++
    natBytes 2 d.block ++ natBytes 4 d.tick ++ natBytes 4 0 ++ natBytes 16 d.digest

/-- What the standby does with a record of the lead that meets its own (R294): a different digest is counted, and the page is
fetched (R611). -/
def kvJudge (s : State) (mine theirs : KvDelta) : State :=
  if mine.digest = theirs.digest then s
  else
    let p := kvHeadPage mine.head
    let body := (kvDeltaBytes theirs).take 8 ++ [BitVec.ofNat 8 theirs.fill]
    let t := queueMsg (ctrAdd (setFlag s p 7) p 10 1) ⟨6, 1, mine.part, body⟩
    { t with vl := { t.vl with kvReqs := t.vl.kvReqs ++ [(mine.part, body)] } }

/-- A record of this module's own: sent, and on the standby compared or kept for its counterpart. -/
def kvOwnDelta (s : State) (d : KvDelta) : State :=
  let t := sendDelta s 5 d.part (kvDeltaBytes d)
  if !(mirrors s && partAgrees s d.part && isStandby s) then t
  else match t.kv.theirs.find? (sameDelta d) with
    | some x => kvJudge { t with kv := { t.kv with theirs := t.kv.theirs.erase x } } d x
    | none => { t with kv := { t.kv with mine := t.kv.mine ++ [d] } }

def kvDeltas (s : State) (r : CmdRun) (rows : List KvRow) : State :=
  let a := aDesc r.offer.desc
  let p := r.offer.part
  (appendPages rows).foldl (fun t x =>
    kvOwnDelta t ⟨p, a.pool, a.layer, a.head, x.row + 1, x.seq, x.block, (nowW t).toNat, kvDigest t p a.pool x.slot (x.row + 1), now t⟩) s

/-- The record of a changed track, and the marker where none changed (R609). -/
def trackDelta (core : Nat) (last : Bool) (idx seq : Nat) (bs : List Byte) : List Byte :=
  [BitVec.ofNat 8 core, BitVec.ofNat 8 last.toNat] ++ natBytes 2 idx ++ natBytes 4 seq ++ bs


/-- One record of the lead taken in (R609): where it differs from the standby's own it replaces it; LAST ends the wait. -/
def takeTrack (s : State) (core : Nat) (b : List Byte) : State :=
  let idx := bytesNat ((b.drop 2).take 2)
  let rec' := (List.range 512).map fun i => b.getD (8 + i) 0
  let t :=
    if idx ≥ 512 ∨ trackRec s core idx = rec' then s
    else setFlag (ctrAdd (putTrack s core (idx, rec')) vlPage 13 1) vlPage 5
  if (b.getD 1 0).getLsbD 0 then setTrk t core { trkOf t core with wait := none } else t

/-- The records of the lead that have come for the standby's own last command. -/
def takeTracks (s : State) (core : Nat) : State :=
  let x := trkOf s core
  let mine := x.got.filter fun g => g.1 == x.seq
  mine.foldl (fun t g => takeTrack t core g.2) (setTrk s core { x with got := x.got.filter fun g => g.1 > x.seq })

/-- CMD_SEQ after a command that changes track records, the records sent, and the standby's wait for the lead's. -/
def trackDeltas (s : State) (core part : Nat) (o : CmdOut) : State :=
  let x := trkOf s core
  let c := x.seq + 1
  let n := o.tracks.length
  let t := setTrk s core { x with seq := c, wait := if mirrors s && partAgrees s part && isStandby s then some (now s) else none }
  let u := if n = 0 then sendDelta t 4 part (trackDelta core true 0xFFFF c [])
    else ((List.range n).zip o.tracks).foldl (fun u y => sendDelta u 4 part (trackDelta core (y.1 + 1 == n) y.2.1 c y.2.2)) t
  if isStandby u then takeTracks u core else u

/-! ### The end -/

/-- The counts of a command that ended with OK. -/
def countOk (s : State) (k : CoreId) (stream : Nat) (o : CmdOut) : State :=
  o.words.foldl (fun t w => ctrAdd t (corePage k) w.1 w.2) (ctrAdd s (corePage k) (if k.cls = .a ∧ stream = 1 then 2 else 1) 1)

/-- The counter slots of a class that count a command's work as it is done, whatever its end (R159, R209, R304). -/
def workSlots : CoreCls → List Nat
  | .m => [3, 5, 7, 8, 9]
  | .v => [3, 8, 9]
  | .a => [4]
  | _ => []

/-- The work of a command that failed: all of it but for its writes, where only its end failed it, else a free part of each count. -/
def countBad (s : State) (k : CoreId) (o : CmdOut) (whole : Bool) : State :=
  (o.words.filter fun w => (workSlots k.cls).contains w.1).foldl (fun t w =>
    if whole && !(w.1 == 8 || w.1 == 9) then ctrAdd t (corePage k) w.1 w.2
    else spendFree (ctrAdd t (corePage k) w.1 ((freeAt t 0).toNat % (w.2 + 1))) 1) s

/-- The clocks that a command stalled, was withheld, or waited for a tag. -/
def countClocks (s : State) (k : CoreId) (stream : Nat) (c : EndClocks) : State :=
  match k.cls with
  | .m => ctrAdd (ctrAdd s (corePage k) 4 c.stall) (corePage k) 6 c.withheld
  | .v => ctrAdd (ctrAdd s (corePage k) 4 c.stall) (corePage k) 5 c.tag
  | .a => if stream = 0 then ctrAdd s (corePage k) 5 c.stall else s
  | .l => ctrAdd s (corePage k) 7 c.stall
  | _ => s

/-- A stage after a command of it that ended with OK (R436). -/
def stageNext (x : StageRt) : StageRt :=
  let n := x.next + 1
  let y := { x with busy := false, retries := 0 }
  if n < x.count then { y with next := n }
  else if x.loop then { y with next := 0, loops := x.loops + 1 }
  else { y with next := n, spent := true }

/-- What the job does after a command ended (R436 to R438). -/
def jobAfter (s : State) (r : CmdRun) (st : Status) : State :=
  let key := r.offer.job
  match jobOf s key with
  | none => s
  | some j =>
    if st = .ok then setJob s key (mapStage j r.offer.stage stageNext)
    else
      match j.stages[r.offer.stage]? with
      | none => s
      | some x =>
        if x.retry ∧ (st = .tierFault ∨ st = .timeout) ∧ x.retries < j.retryMax ∧ !j.decided ∧ r.offer.role = 0 then
          sbCount (setJob s key { mapStage j r.offer.stage (fun y => { y with busy := false, retries := y.retries + 1 }) with retried := true }) key 7
        else failJob (setJob s key (mapStage j r.offer.stage fun y => { y with busy := false })) key r.offer.stage st

/-- The registers of an ended command (R155, R207, R302, R350, R389) and its class's counters. The clocks of a command that failed are
those from its issue; `whole` says that all its passes had run. -/
def recordEnd (s : State) (k : CoreId) (stream : Nat) (r : CmdRun) (o : CmdOut) (c : EndClocks) (st : Status) (whole : Bool) : State :=
  let flags := if st = .ok then o.flags else if k.cls = .a then o.flags / 8 * 8 else 0
  let clocks := if st = .ok then o.clocks + c.extra else spanClocks s k r
  let t := countClocks (recordLast s k stream (opOf r.offer.desc) flags clocks st) k stream c
  let u := if st = .ok then countOk t k stream o else ctrAdd (countBad (spendFree t 1) k o whole) (corePage k) (failSlot k) 1
  if k.cls = .l ∧ st = .late then ctrAdd u (corePage k) 9 1 else u

/-- An EARLY kick is an expiry, applied before the end that brings it (R687). -/
def earlyKick (s : State) (r : CmdRun) (st : Status) : State :=
  if st ≠ .ok ∨ inReset s r.offer.part then s
  else match kickedDog s r.offer.job r.offer.stage r.offer.index with
    | none => s
    | some d => match dogOf s d with
      | none => s
      | some x => if kickOf s d x = .early then expireDog s d true else s

/-- NEXT_ID after n births (R338). -/
def bornBy (s : State) (k : CoreId) (n : Nat) : State :=
  { s with tracks := { s.tracks with nextId := s.tracks.nextId.set k.inst ((s.tracks.nextId.getD k.inst 0 + n) % 2 ^ 31) } }

/-- The effects of a command that ends with OK: what it stored, appended and posted, its signal and its kick. The Tally signal
and the kick are discarded in a partial reset (R149). -/
def completeOk (s : State) (k : CoreId) (r : CmdRun) (o : CmdOut) : State :=
  let part := r.offer.part
  let d := r.offer.desc
  let t := o.tracks.foldl (fun u x => putTrack u k.inst x) (writeOut s part o)
  let u := if o.births = 0 then t else bornBy t k o.births
  let v := match k.cls with
    | .t => if [1, 2, 3, 5].contains (opOf d) then trackDeltas u k.inst part o else u
    | .a => if opOf d = 2 then kvDeltas u r o.append else u
    | .l => match o.plan with
      | some p => postPlan u k.inst p
      | none => u
    | _ => u
  if inReset v part then v
  else
    let w := if signalEn k d ∧ (jobOf v r.offer.job).isSome then tallyAdd v (sigTally d) (sigInc d) else v
    match kickedDog w r.offer.job r.offer.stage r.offer.index with
    | some x => kickDog w x
    | none => w

/-- What a failed command leaves behind: an undefined destination, and some of its tracks (R342). The rows that an append wrote before its
failure stay written (R281). -/
def completeBad (s : State) (k : CoreId) (r : CmdRun) (o : CmdOut) : State :=
  let t := spoilOut s r.offer.part o
  match k.cls with
  | .t =>
    if opOf r.offer.desc = 2 ∨ o.tracks.isEmpty then t
    else
      let n := (freeAt t 0).toNat % (o.tracks.length + 1)
      let u := (o.tracks.take n).foldl (fun u x => putTrack u k.inst x) (spendFree t 1)
      if o.births = 0 then u else bornBy u k n
  | _ => t

/-- A command ends with a status decided before its writes. -/
def finishCmd (s : State) (k : CoreId) (stream : Nat) (r : CmdRun) (c : EndClocks) (st0 : Status) : State :=
  let o := runOut s k stream r
  let st1 := if st0 ≠ .ok then st0
    else if k.cls = .l ∧ o.plan.isSome ∧ planLate s (lDesc r.offer.desc).cycle then .late
    else writesStatus s r.offer.part o
  let t := earlyKick s r st1
  match curOf t k stream with
  | none => t
  | some _ =>
    let u := if st1 = .ok then completeOk t k r o else completeBad t k r o
    let v := traceCmd (recordEnd u k stream r o c st1 (r.fail.isNone && (st0 == .ok || r.ended.isSome))) k r.offer st1 true
    jobAfter (quitStream v k stream r) r st1

/-! ### Duplex (R574, R575) -/

def noFb : CoreFb := ⟨none, false, 0, none, 0, 0, 0, [], none, false, false, none⟩
def fbOf (s : State) (k : CoreId) : CoreFb := smGet noFb s.fb.cores (coreCode k)
def setFb (s : State) (k : CoreId) (x : CoreFb) : State := { s with fb := { s.fb with cores := smSet noFb s.fb.cores (coreCode k) x } }

/-- The digest of a core's stage-out, in output order (R574, R577). -/
def outDigest (o : CmdOut) : List Byte := (sha384 ((o.stores.map Prod.snd).flatMap id ++ o.rows.flatMap id)).take 16

/-- The other core of a duplex stage. -/
def partner (s : State) (k : CoreId) (role : Nat) : Option CoreId := if role = 2 then primaryOf s k else shadowOf s k

def sameCmd (a b : Offer) : Bool := a.job == b.job && a.stage == b.stage && a.index == b.index

/-- The shadow's end: its registers, and its stream free. -/
def endShadow (s : State) (k : CoreId) (r : CmdRun) (c : EndClocks) (st : Status) : State :=
  quitStream (recordEnd s k 0 r (runOut s k 0 r) c st (r.fail.isNone && r.ended.isSome)) k 0 r

/-- The compare of a duplex stage once both cores have ended. -/
def duplexEnd (s : State) (p q : CoreId) (rp rq : CmdRun) (cp cq : EndClocks × CoreErr) : State :=
  let fb := fbPage (stackNo (coreStack p))
  let odd := cp.2 == .odd || cq.2 == .odd ||
    (rp.fail.isNone && rq.fail.isNone && outDigest (runOut s p 0 rp) != outDigest (runOut s q 0 rq))
  let st := if odd then .safetyHold else (rp.fail.orElse fun _ => rq.fail).getD .ok
  let t := ctrAdd s fb 7 1
  let u := if st = .ok then t
    else
      let v := setFlag (if odd then ctrAdd t fb 8 1 else t) fb 3
      setFb (setFb v p { fbOf v p with retest := some 0 }) q { fbOf v q with retest := some 0 }
  endShadow (finishCmd u p 0 { rp with ended := some cp } cp.1 st) q { rq with ended := some cq } cq.1 st

/-- A core of a duplex stage whose partner no longer runs the command. -/
def endAlone (s : State) (k : CoreId) (r : CmdRun) (c : EndClocks) (st : Status) : State :=
  if r.offer.role = 2 then endShadow s k r c st else finishCmd s k 0 r c st

/-- One core of a duplex stage ends; the command ends with the second. A partner that no longer runs the command, because its own
was rejected or ended by a mark, ends it with INTEGRITY. -/
def duplexStep (s : State) (k : CoreId) (r : CmdRun) (c : EndClocks) (e : CoreErr) : State :=
  match partner s k r.offer.role with
  | none => endAlone s k r c (r.fail.getD .ok)
  | some q =>
    match curOf s q 0 with
    | some rq =>
      if !(sameCmd rq.offer r.offer) then endAlone s k r c (r.fail.getD .integrity)
      else match rq.ended with
        | none => setCur s k 0 { r with ended := some (c, e) }
        | some x => if r.offer.role = 2 then duplexEnd s q k rq r x (c, e) else duplexEnd s k q r rq (c, e) x
    | none =>
      match (coreSt s q 0).offered with
      | some o => if sameCmd o r.offer then setCur s k 0 { r with ended := some (c, e) } else endAlone s k r c (r.fail.getD .integrity)
      | none => endAlone s k r c (r.fail.getD .integrity)

/-- Whether every row of a command has left and landed, and every row that it waits for is there. -/
def rowsDone (s : State) (k : CoreId) (stream : Nat) (r : CmdRun) : Bool :=
  let n := (runOut s k stream r).rows.length
  allPresent s r && r.push.all fun p => match chanOf s r.offer.job p.chan with
    | some c => decide (p.next ≥ pushEnd c n)
    | none => true

/-- Whether the partner of a duplex core still runs, or has still to run, its command. -/
def partnerHas (s : State) (k : CoreId) (r : CmdRun) : Bool :=
  match partner s k r.offer.role with
  | none => false
  | some q =>
    (match curOf s q 0 with
      | some x => sameCmd x.offer r.offer
      | none => false) ||
    (match (coreSt s q 0).offered with
      | some o => sameCmd o r.offer
      | none => false)

/-- Whether the rows of an append have all been written, and the records have switched (R279). -/
def appendDone (s : State) (k : CoreId) (r : CmdRun) (o : CmdOut) : Bool :=
  k.cls != .a || opOf r.offer.desc != 2 ||
    (o.append.length == (appendRows (runTable s r)).length && (pendingRows s r.offer.part (aDesc r.offer.desc)).isEmpty)

/-- Whether no page that a command is to write is under move (R247 step 3). -/
def storesFree (s : State) (part : Nat) (o : CmdOut) : Bool :=
  o.stores.all fun x => (List.range ((x.1 % pageBytes + x.2.length - 1) / pageBytes + 1)).all fun i =>
    !(pteOf s part (vpnOf (x.1 + pageBytes * i))).mig

/-- Whether a command in RUN can end: its rows have landed, its requests are back, and its writes can be made (R123), or it has failed, by a row of wrong length
that it has reached among others (R183), and no row of its own is in flight. -/
def mayEnd (s : State) (k : CoreId) (stream : Nat) (r : CmdRun) : Bool :=
  streamState s k stream == cRun && !(r.ended.isSome && partnerHas s k r) && !(r.push.any fun p => p.flying != 0) &&
    (r.fail.isSome || badReached s r ||
      (rowsDone s k stream r && !(liveTags s k stream) && appendDone s k r (runOut s k stream r) && storesFree s r.offer.part (runOut s k stream r)))

/-- COMMAND_END (R123, R147): a command in RUN ends once its rows have landed and its requests are back, or once it has failed. One
that a partial reset finds held for credits or rows ends with BUSY_RESET (R114). An ASSIGN that passes its limit ends by
ASSIGN_TIMEOUT alone. -/
def execCommandEnd (k : CoreId) (stream : Fin 2) (clk : EndClocks) (err : CoreErr) (s : State) : Res :=
  .next (match curOf s k stream with
    | none => s
    | some r =>
      let past := k.cls == .t && opOf r.offer.desc == 6 && (runOut s k stream r).spent
      if inReset s r.offer.part && heldForPush s k stream r then abortCmd s k stream .busyReset true
      else if past || !(mayEnd s k stream r) then s
      else
        let s0 := if badReached s r then failCmd s k stream .integrity else s
        let t := hwError s0 k stream r.offer.part err
        match curOf t k stream with
        | none => t
        | some r' =>
          if r'.offer.role = 0 then finishCmd t k stream r' clk (r'.fail.getD .ok) else duplexStep t k r' clk err)

/-- ASSIGN_TIMEOUT (R339): a solve that passes 120,000 clocks ends with TIMEOUT and writes nothing. -/
def execAssignTimeout (core : Fin 2) (s : State) : Res :=
  .next (
    let k : CoreId := ⟨.t, core⟩
    match curOf s k 0 with
    | none => s
    | some r =>
      if streamState s k 0 ≠ cRun ∨ opOf r.offer.desc ≠ 6 ∨ r.fail.isSome ∨ !(runOut s k 0 r).spent then s
      else if r.offer.role = 0 then finishCmd s k 0 r ⟨0, 0, 0, 0⟩ .timeout
      else duplexStep (setCur s k 0 { r with fail := some .timeout }) k { r with fail := some .timeout } ⟨0, 0, 0, 0⟩ .none)

end Sys2Proof.Machine
end

