-- ==== Sys2Proof/Machine/Counters.lean ====
section
/-! DEFINITION. The event counters as they are read (R654 to R659), snapshot dumps (R660 to R663, R669), the central reader (R664, R665) and
the threshold units (R670, R671). -/

namespace Sys2Proof.Machine

/-! ### Counter numbers and reads -/

/-- The assigned slots in the order of their numbers (R654). -/
def assignedSlots : List (Page × Nat) := allPages.flatMap fun p => (ctrSlots p).map fun i => (p, i)

def counterAt (n : Nat) : Option (Page × Nat) := assignedSlots[n]?

def dumpPage : Page := ⟨.dump, 0⟩

/-- Whether a condition of CR mode holds (R664). -/
def crWanted (s : State) : Bool :=
  !(devRunning s) || pgState s (fbPage 0) == fbChecking || pgState s (fbPage 1) == fbChecking || [2, 3, 4].contains s.tap.ir

/-- CR mode: left at a sweep's end (R665). -/
def crMode (s : State) : Bool := s.cnt.cr || crWanted s

def bankVal (s : State) (p : Page) (slot : Nat) : DWord := smGet 0 s.cnt.bank (ctrKey p slot)

/-- A counter without the count that stood at the last window boundary (R659). -/
def sinceBase (c b : DWord) : DWord :=
  BitVec.ofNat 64 ((c.toNat % 2 ^ 48 + 2 ^ 48 - b.toNat % 2 ^ 48) % 2 ^ 48 + (if c.msb && !b.msb then 2 ^ 63 else 0))

/-- What a page's counter window shows (R657, R659, R665). -/
def windowVal (s : State) (p : Page) (slot : Nat) : DWord :=
  if crMode s then bankVal s p slot
  else match pageCore p with
    | some k => (match coreAssign s k with
      | .group _ => sinceBase (ctrVal s p slot) (smGet 0 s.cnt.base (ctrKey p slot))
      | _ => ctrVal s p slot)
    | none => ctrVal s p slot

/-- What a bank page shows for a counter number (R657, R667). -/
def totalVal (s : State) (n : Nat) : DWord :=
  match counterAt n with
  | some (p, i) => if crMode s then bankVal s p i else ctrVal s p i
  | none => 0

/-- One counter cleared (R656): a wrap of this tick leaves bit 63 set. -/
def clearCounter (s : State) (p : Page) (slot : Nat) : State :=
  let k := ctrKey p slot
  let left : DWord := if s.cnt.wraps.contains k then BitVec.ofNat 64 (2 ^ 63) else 0
  { s with ctrs := smSet 0 s.ctrs k left
           cnt := { s.cnt with bank := smSet 0 s.cnt.bank k left, base := smSet 0 s.cnt.base k 0 } }

/-- The counters of a range, those that are backed. -/
def rangeSlots (first count : Nat) : List (Page × Nat) := (assignedSlots.drop first).take count

def clearRange (s : State) (w : Word) : State :=
  (rangeSlots (field w 11 0) (field w 28 16)).foldl (fun t x => clearCounter t x.1 x.2) s

/-- What refuses a clear: a counter of another partition's page, or a range beyond the numbers. -/
def clearBad (s : State) (part : Nat) (w : Word) : Option Status :=
  if (rangeSlots (field w 11 0) (field w 28 16)).any fun x => pageOwner s x.1 != part then some .ownerDenied
  else if field w 28 16 = 0 ∨ field w 28 16 > 4096 ∨ field w 11 0 + field w 28 16 > 4096 then some .range
  else none

/-! ### Dumps (R660 to R663, R669) -/

def cdOff : Nat := 0
def cdArmed : Nat := 1
def cdRun : Nat := 2

def cdSlots (s : State) : Nat := regField s dumpPage 0x100 11 8 + 1
def cdHost (s : State) : Bool := regBit s dumpPage 0x100 1
def cdPeriod (s : State) : Nat := max 1 (regVal s dumpPage 0x10C).toNat

/-- A trigger that is skipped (R662, R665). -/
def skipDump (s : State) : State :=
  let n := regField s dumpPage 0x124 31 16
  ctrAdd (setFlag (setRegField s dumpPage 0x124 31 16 (min 65535 (n + 1))) dumpPage 0) dumpPage 1 1

/-- A trigger of the present tick: its counts are latched at the boundary that ends the tick. -/
def startDump (s : State) (snap : Bool) : State :=
  if s.cnt.run.isSome ∨ crMode s then skipDump s
  else setBusy { s with cnt := { s.cnt with run := some ⟨now s, snap, none⟩ } } dumpPage true

/-- The signed difference of R52 in ticks, where a threshold has been reached. -/
def ticksSince (s : State) (c : Word) : Nat := (nowW s - c).toNat

/-- DUMP_TRIGGER (R661): compare 3,104, at CD_FIRST and every CD_PERIOD ticks from it. -/
def execDumpTrigger (s : State) : Res :=
  .next (
    let st := pgState s dumpPage
    let first := regVal s dumpPage 0x108
    if st = cdArmed ∧ reached (nowW s) first then
      let n := now s + cdPeriod s - ticksSince s first % cdPeriod s
      startDump { setPgState s dumpPage cdRun with cnt := { s.cnt with next := n } } false
    else if st = cdRun ∧ reachedAt s s.cnt.next then
      startDump { s with cnt := { s.cnt with next := s.cnt.next + cdPeriod s } } false
    else s)

/-- The counts latched at the boundary that ends a snapshot's tick (R660). -/
def latchDump (s : State) : State :=
  match s.cnt.run with
  | some r => if r.counts.isNone then { s with cnt := { s.cnt with run := some { r with counts := some s.ctrs } } } else s
  | none => s

/-- A SNAP whose tick has come (R661). -/
def snapDue (s : State) : State :=
  match s.cnt.snap with
  | some t => if t ≤ now s ∧ !(crMode s) then startDump { s with cnt := { s.cnt with snap := none } } true else s
  | none => s

/-- The 64 KiB of a slot (R663). -/
def dumpBytes (s : State) (r : DumpRun) : List Byte :=
  let seq := natBytes 4 (s.cnt.seq % 2 ^ 32)
  let mask := regVal s dumpPage 0x104
  let m := r.counts.getD []
  let cs := assignedSlots.map fun x => if mask.getLsbD (pageOwner s x.1) then smGet 0 m (ctrKey x.1 x.2) else 0
  seq ++ natBytes 8 r.tick ++ natBytes 2 assignedSlots.length ++ natBytes 2 (field mask 15 0) ++ [BitVec.ofNat 8 r.snap.toNat] ++
    List.replicate 47 0 ++ cs.flatMap (fun c => natBytes 8 c.toNat) ++ List.replicate (8 * (4096 - cs.length)) 0 ++ seq ++ List.replicate 32700 0

/-- OFF after the dump that was being written when EN was cleared (R669). -/
def dumpStopped (s : State) : State :=
  if s.cnt.stop then setPgState { s with cnt := { s.cnt with stop := false } } dumpPage cdOff else s

/-- DUMP_COMPLETE (R661, R662): `st` is how the write itself ended; a slot that could not be written is left undefined. -/
def execDumpComplete (st : Status) (s : State) : Res :=
  .next (
    match s.cnt.run with
    | none => s
    | some r =>
      if r.counts.isNone then s
      else
        let slot := s.cnt.seq % cdSlots s
        let a := (regField s dumpPage 0x110 27 0 + slot) * pageBytes
        let st' := if st ≠ .ok ∨ cdHost s then st else writeRange s 0 a pageBytes false false
        let bs := if st' = .ok then dumpBytes s r else freeBytes s pageBytes
        let t := if st' = .ok then s else spendBytes s pageBytes
        let u := if cdHost s then { t with sec := { t.sec with hostWr := t.sec.hostWr ++
                    [(0, (regVal s dumpPage 0x114).toNat * 2 ^ 32 + (regVal s dumpPage 0x110).toNat + slot * pageBytes, bs)] } }
          else if writeRange s 0 a pageBytes false false = .ok then writeBytes t 0 a bs else t
        let v := setBusy { u with cnt := { u.cnt with run := none, seq := u.cnt.seq + 1 } } dumpPage false
        let w := setRegField v dumpPage 0x124 15 8 (statusCode st')
        dumpStopped (
          if st' = .ok then
            let x := ctrAdd (setReg w dumpPage 0x128 (regVal w dumpPage 0x128 + 1)) dumpPage 3 1
            irq (if regBit s dumpPage 0x100 2 then tallyAdd x (regField s dumpPage 0x118 13 0) 1 else x) 0 2 (.compare 3105)
          else setFlag w dumpPage 1))

/-- CR_SWEEP (R665): every block's counts into the bank store; `silent` are the pages that do not answer. A SNAP that waits writes the bank
store, and CR mode is left where nothing asks for it any more. -/
def execCrSweep (silent : List Page) (s : State) : Res :=
  .next (
    if !(crMode s) ∨ s.sec.boot.held ∨ now s < s.cnt.swept + 1000 ∨ powerUnder s = 3 then s
    else
      let bank := assignedSlots.foldl (fun m x =>
        if silent.contains x.1 then m else smSet 0 m (ctrKey x.1 x.2) (ctrVal s x.1 x.2)) s.cnt.bank
      let t := { s with cnt := { s.cnt with bank := bank, swept := now s, cr := crWanted s } }
      let u := ctrAdd (ctrAdd t dumpPage 2 ((allPages.filter fun p => silent.contains p).length)) dumpPage 4 1
      match u.cnt.snap with
      | some _ =>
        if u.cnt.run.isSome then skipDump { u with cnt := { u.cnt with snap := none } }
        else { u with cnt := { u.cnt with snap := none, run := some ⟨now u, true, some bank⟩ } }
      | none => u)

/-- A write of CD_CTRL's EN (R668, R669). -/
def cdEnable (s : State) (en : Bool) : State :=
  let st := pgState s dumpPage
  if en then
    if st = cdOff then setPgState (setReg { s with cnt := { s.cnt with seq := 0, stop := false } } dumpPage 0x128 0) dumpPage cdArmed
    else { s with cnt := { s.cnt with stop := false } }
  else if st = cdArmed then setPgState s dumpPage cdOff
  else if st = cdRun then
    if s.cnt.run.isSome then { s with cnt := { s.cnt with stop := true } } else setPgState s dumpPage cdOff
  else s

/-! ### Threshold units (R670, R671) -/

def ctKey (p u : Nat) : Nat := p * 4 + u
def ctSel (s : State) (p u : Nat) : Word := regVal s (partPage p) (0x800 + 0x20 * u)
def ctThreshold (s : State) (p u : Nat) : Nat :=
  regField s (partPage p) (0x808 + 0x20 * u) 15 0 * 2 ^ 32 + (regVal s (partPage p) (0x804 + 0x20 * u)).toNat

/-- The commands that have ended on a counter's core. -/
def endedOn (s : State) (p : Page) : Nat :=
  match pageCore p with
  | some k =>
    let slots := if k.cls = .a then [1, 2, 3] else [1, failSlot k]
    (slots.map fun i => (ctrVal s p i).toNat % 2 ^ 48).sum
  | none => 0

/-- The signed 48-bit difference of R671. -/
def countReached (count thr : Nat) : Bool := decide ((count % 2 ^ 48 + 2 ^ 48 - thr % 2 ^ 48) % 2 ^ 48 < 2 ^ 47)

/-- THRESHOLD_HIT (R671). -/
def execThresholdHit (p : Part) (u : Fin 4) (s : State) : Res :=
  .next (
    let sel := ctSel s p u
    let n := field sel 11 0
    match counterAt n with
    | none => s
    | some (pg, slot) =>
      if bit sel 31 ∧ smGet 0 s.cnt.armAt (ctKey p u) < now s ∧ countReached (ctrVal s pg slot).toNat (ctThreshold s p u) then
        let t := clearReg s (partPage p) (0x800 + 0x20 * u.val) 0x80000000#32
        { t with cnt := { t.cnt with hits := smPut t.cnt.hits (ctKey p u) (now s, n, endedOn s pg) } }
      else s)

/-- The command in WAIT or RUN on a page's core. -/
def commandOn (s : State) (p : Page) : Option (CoreId × CmdRun) :=
  (pageCore p).bind fun k => ((streamsOf k).findSome? fun i => curOf s k i).map fun r => (k, r)

/-- THRESHOLD_SAMPLE (R671): at the second boundary after the hit, or at the eighth end of a command on the counter's core. -/
def execThresholdSample (p : Part) (u : Fin 4) (s : State) : Res :=
  .next (
    match smFind s.cnt.hits (ctKey p u) with
    | none => s
    | some (hit, n, ended) =>
      match counterAt n with
      | none => s
      | some (pg, _) =>
        if now s < hit + 2 ∧ endedOn s pg < ended + 8 then s
        else
          let o := 0x800 + 0x20 * u.val
          let w := match commandOn s pg with
            | some (k, r) => (0x80000000 + coreCode k * 65536 + r.offer.stage % 256 * 256 + (match jobOf s r.offer.job with
                | some j => j.slot % 16 * 16
                | none => 0), r.offer.index % 65536 * 65536)
            | none => (0x80FF0000, 0)
          let set (t : State) (off v : Nat) : State := setReg t (partPage p) (o + off) (BitVec.ofNat 32 v)
          let t := set (set (set (set s 0xC w.1) 0x10 w.2) 0x14 (now s % 2 ^ 32)) 0x18 (hit % 2 ^ 32)
          irq { t with cnt := { t.cnt with hits := smDel t.cnt.hits (ctKey p u) } } p 2 (.counter n))

/-! ### Registers -/

/-- Whether an offset is a register of threshold unit u; its place in the unit. -/
def ctReg (off : Nat) : Option (Nat × Nat) :=
  if 0x800 ≤ off ∧ off < 0x880 then some ((off - 0x800) / 0x20, (off - 0x800) % 0x20) else none

/-- The counter that a unit may not name (R659, R670). -/
def ctDenied (s : State) (part n : Nat) : Bool :=
  part != 0 && (match counterAt n with
    | some (p, _) => pageOwner s p != part || (match pageCore p with
        | some k => (match coreAssign s k with
          | .group _ => true
          | _ => false)
        | none => false)
    | none => true)

def countView (s : State) (p : Page) (off : Nat) : Option Word :=
  match p.cls with
  | .bank =>
    if 0x400 ≤ off then
      let v := totalVal s (384 * p.inst + (off - 0x400) / 8)
      some (if off % 8 = 0 then v.setWidth 32 else (v >>> 32).setWidth 32)
    else none
  | .dump =>
    if off = 0x124 then
      some (BitVec.ofNat 32 (regField s p 0x124 31 8 * 256 + (crMode s).toNat * 2 + s.cnt.run.isSome.toNat))
    else if off = 0x130 then
      some (match counterAt (regField s p 0x12C 11 0) with
        | some (q, i) => BitVec.ofNat 32 (2 ^ 31 + clsCode q.cls * 65536 + q.inst % 256 * 256 + i)
        | none => 0)
    else none
  | _ => none

def dumpCheck (s : State) (off : Nat) (v : Word) : Option Status :=
  let st := pgState s dumpPage
  let hostBad := cdHost s && confidential s 0
  if off = 0x100 then
    if bit v 0 ∧ bit v 1 ∧ (confidential s 0 ∨ cdPeriod s < 1000) then some .range else none
  else if off = 0x10C then
    if v.toNat < 100 ∨ v.toNat > 2147483647 ∨ (cdHost s ∧ v.toNat < 1000) then some .range
    else if st ≠ cdOff then some .stateIllegal else none
  else if off = 0x110 ∧ !(cdHost s) ∧ field v 31 28 ≠ 0 then some .reservedSet
  else if off = 0x114 ∧ !(cdHost s) ∧ v ≠ 0 then some .reservedSet
  else if off = 0x110 ∧ cdHost s ∧ field v 11 0 ≠ 0 then some .range
  else if off = 0x118 ∧ !(ownsTally s 0 (field v 13 0)) then some .ownerDenied
  else if (off = 0x108 ∨ off = 0x110 ∨ off = 0x114 ∨ off = 0x118) ∧ st ≠ cdOff then some .stateIllegal
  else if off = 0x120 ∧ (field v 28 16 = 0 ∨ field v 28 16 > 4096) then some .range
  else if off = 0x11C then
    if field v 1 0 = 2 then clearBad s 0 (regVal s dumpPage 0x120)
    else if field v 1 0 ≠ 1 then some .range
    else if st = cdRun ∧ s.cnt.run.isSome then some .busy
    else if hostBad then some .range
    else none
  else none

def countCheck (s : State) (p : Page) (off : Nat) (v : Word) : Option Status :=
  match p.cls with
  | .dump => dumpCheck s off v
  | .part =>
    if off = 0x880 then clearBad s p.inst v
    else match ctReg off with
      | some (u, 0) => if ctDenied s p.inst (field v 11 0) ∧ u < 4 then some .ownerDenied else none
      | some (u, o) => if (o = 4 ∨ o = 8) ∧ bit (ctSel s p.inst u) 31 then some .busy else none
      | none => none
  | _ => none

def countAct (s : State) (p : Page) (off : Nat) (v _old : Word) : State :=
  match p.cls with
  | .dump =>
    if off = 0x100 then cdEnable s (bit v 0)
    else if off = 0x11C then
      if field v 1 0 = 2 then clearRange s (regVal s dumpPage 0x120)
      else { s with cnt := { s.cnt with snap := some (now s + 1) } }
    else s
  | .part =>
    if off = 0x880 then clearRange s v
    else match ctReg off with
      | some (u, 0) => if bit v 31 then { s with cnt := { s.cnt with armAt := smSet 0 s.cnt.armAt (ctKey p.inst u) (now s) } } else s
      | _ => s
  | _ => s

end Sys2Proof.Machine
end

