-- ==== Sys2Proof/Machine/Foxglove.lean ====
section
/-! DEFINITION. Foxglove (chapter 10): the channel tick (R394 to R396), fixed-point arithmetic (R397), the control step (R399
to R403), references and measurements (R404 to R406), frames and the safe state (R407 to R412), mirroring (R413, R414), and
the channels' and C-cores' states (R415 to R419). -/

namespace Sys2Proof.Machine

def fxReg (s : State) (ch off : Nat) : Word := regVal s (fxPage ch) off
def fxInt (s : State) (ch off : Nat) : Int := (fxReg s ch off).toInt

/-! ### Fixed point (R397) -/

/-- A value and whether a saturation changed it. -/
structure Sat where
  v   : Int
  sat : Bool
  deriving DecidableEq, Repr

def satQ (x : Int) : Sat :=
  let c := clampInt (-(2 ^ 31 : Int)) (2 ^ 31 - 1) x
  ⟨c, c != x⟩
def sadd (a b : Int) : Sat := satQ (a + b)
def ssub (a b : Int) : Sat := satQ (a - b)
def rsh16 (x : Int) : Int := (x + 32768) / 65536
def smul (a b : Int) : Sat := satQ (rsh16 (a * b))

/-! ### The control step (R399 to R401) -/

/-- The gain at an error, and LUT_CLAMP (R400). -/
def lutGain (g : Nat → Int) (e e0 scale : Int) : Sat :=
  let p := satQ (rsh16 ((e - e0) * scale))
  let q := clampInt 0 (255 * 65536) p.v
  let i := (q / 65536).toNat
  let f := q % 65536
  let r := if f = 0 then ⟨g i, false⟩ else sadd (g i) (rsh16 ((g (i + 1) - g i) * f))
  ⟨r.v, q != p.v || p.sat || r.sat⟩

/-- A channel's parameters. -/
structure FxCfg where
  ff      : Int
  ki      : Int
  kd      : Int
  iMin    : Int
  iMax    : Int
  outMin  : Int
  outMax  : Int
  aw      : Bool
  rcLen   : Nat
  rcBase  : Nat
  learn   : Bool
  rcQ     : Int
  rcKl    : Int
  rcLim   : Int
  e0      : Int
  scale   : Int
  deriving DecidableEq, Repr

def fxCfg (s : State) (ch : Nat) : FxCfg :=
  let w := fxReg s ch 0x150
  { ff := fxInt s ch 0x134, ki := fxInt s ch 0x138, kd := fxInt s ch 0x13C, iMin := fxInt s ch 0x140, iMax := fxInt s ch 0x144
    outMin := fxInt s ch 0x148, outMax := fxInt s ch 0x14C, aw := bit w 14, rcLen := field w 12 0, rcBase := field w 31 16
    learn := bit w 15, rcQ := fxInt s ch 0x154, rcKl := fxInt s ch 0x158, rcLim := fxInt s ch 0x15C
    e0 := fxInt s ch 0x12C, scale := fxInt s ch 0x130 }

/-- What a step gives: u, I, e, the new M[k], and the flags OUT_SAT, INT_SAT, LUT_CLAMP and RC_SAT. -/
structure StepOut where
  u   : Int
  i   : Int
  e   : Int
  m   : Int
  out : Bool
  int : Bool
  lut : Bool
  rc  : Bool
  deriving DecidableEq, Repr

/-- The control step (R399) from the reference, the measurement and the stored state. -/
def fxStep (c : FxCfg) (g : Nat → Int) (r y i ePrev mk : Int) : StepOut :=
  let e := ssub r y
  let gain := lutGain g e.v c.e0 c.scale
  let up := smul gain.v e.v
  let de := ssub e.v ePrev
  let ud := smul c.kd de.v
  let urc := if c.rcLen > 0 then mk else 0
  let ki := smul c.ki e.v
  let i1 := sadd i ki.v
  let ic := if i1.v < c.iMin ∨ i1.v > c.iMax then clampInt c.iMin c.iMax i1.v else i1.v
  let a := sadd c.ff up.v
  let b := sadd a.v ic
  let d := sadd b.v ud.v
  let u0 := sadd d.v urc
  let u := if u0.v < c.outMin then c.outMin else if u0.v > c.outMax then c.outMax else u0.v
  let hold := c.aw && ((u == c.outMax && decide (u0.v > c.outMax) && decide (e.v > 0)) ||
    (u == c.outMin && decide (u0.v < c.outMin) && decide (e.v < 0)))
  let q := smul c.rcQ mk
  let l := smul c.rcKl e.v
  let n := sadd q.v l.v
  let m := clampInt (-c.rcLim) c.rcLim n.v
  let learns := decide (c.rcLen > 0) && c.learn
  { u := u, i := if hold then i else ic, e := e.v, m := if learns then m else mk
    out := e.sat || up.sat || de.sat || ud.sat || a.sat || b.sat || d.sat || u0.sat || u != u0.v
    int := ki.sat || i1.sat || ic != i1.v, lut := gain.sat, rc := learns && (q.sat || l.sat || n.sat || m != n.v) }

/-! ### Frames (R407 to R411) -/

/-- Right shift by 0 to 31 places, rounding half up. -/
def rshUp (x : Int) (k : Nat) : Int := if k = 0 then x else (x + (2 ^ (k - 1) : Nat)) / ((2 ^ k : Nat) : Int)

/-- The bytes of a field's value and whether it saturated (R407). -/
def fieldBytes (fld : Word) (u : Int) : List Byte × Bool :=
  let n := field fld 12 11 + 1
  let x := rshUp u (field fld 31 24)
  let lo : Int := if bit fld 13 then -((2 ^ (8 * n - 1) : Nat) : Int) else 0
  let hi : Int := if bit fld 13 then ((2 ^ (8 * n - 1) : Nat) : Int) - 1 else ((2 ^ (8 * n) : Nat) : Int) - 1
  let c := clampInt lo hi x
  let bs := natBytes n (c % ((2 ^ (8 * n) : Nat) : Int)).toNat
  (if bit fld 14 then bs.reverse else bs, c != x)

/-- Bytes laid over a payload at an offset; what would fall outside is left out. -/
def layOver (p : List Byte) (o : Nat) (bs : List Byte) : List Byte :=
  (List.range p.length).map fun i => if o ≤ i ∧ i < o + bs.length then bs.getD (i - o) 0 else p.getD i 0

/-- The bytes of an array of registers. -/
def regBytes (s : State) (p : Page) (off words : Nat) : List Byte := (List.range words).flatMap fun i => wordBytes (regVal s p (off + 4 * i))

def safeCopy (s : State) (ch i : Nat) : Word := (fxCh s ch).safe.getD i 0
def copyPeriod (s : State) (ch : Nat) : Nat := 40 * field (safeCopy s ch 0) 15 0
def copyPhase (s : State) (ch : Nat) : Nat := field (safeCopy s ch 0) 31 16
def safeArmed (s : State) (ch : Nat) : Bool := bit (fxReg s ch 0x200) 31

/-- The channels that join a channel's frame, by the stored copies (R408). -/
def joined (s : State) (ch : Nat) : List Nat :=
  (List.range 64).filter fun j => field (safeCopy s j 1) 31 28 == 4 && field (safeCopy s j 1) 21 16 == ch && j != ch

/-- The pair stamp (R409); before DEVICE runs it carries EPOCH 0 (R619, R621). -/
def stampBytes (s : State) (seq : Nat) (safe sat : Bool) : List Byte :=
  wordBytes (if devState s < stRun then 0 else leadEpoch s) ++ natBytes 2 seq ++
    [BitVec.ofNat 8 ((leading s).toNat + 2 * safe.toNat + 4 * sat.toNat + 8 * (decide (s.seq.force.outcome = 2)).toNat), 0]

/-- A joined channel's field in its host's frame: computed where it runs, its safe value where it does not and is armed. -/
def joinField (s : State) (safe : Bool) (p : List Byte) (j : Nat) : List Byte :=
  let fld := safeCopy s j 2
  let at' := field fld 6 0
  match (if safe then none else (fxCh s j).step), fxState s j == fxRun with
  | some st, true => layOver p at' (fieldBytes fld st.u).1
  | _, _ => if safeArmed s j then layOver p at' (fieldBytes fld (fxInt s j 0x204)).1 else p

/-- A channel's frame (R407, R409, R411). -/
def fxFrame (s : State) (ch : Nat) (u : Int) (seq : Nat) (safe sat : Bool) : BusFrame :=
  let dst := safeCopy s ch 1
  let fld := safeCopy s ch 2
  let p0 := (regBytes s (fxPage ch) (if safe then 0x900 else 0x800) 32).take (field dst 7 0)
  let p1 := layOver p0 (field fld 6 0) (fieldBytes fld u).1
  let p2 := (joined s ch).foldl (joinField s safe) p1
  let p3 := if bit fld 15 then layOver p2 (field fld 23 16) (stampBytes s seq safe sat) else p2
  { ch := ch, dst := field dst 31 28, unit := field dst 27 24, id := safeCopy s ch 3, xl := safeCopy s ch 4, af := safeCopy s ch 5
    payload := p3, safe := safe }

/-- The page of the unit that a frame is for; destination 0 is an SPI master. -/
def framePage (f : BusFrame) : Page :=
  match f.dst with
  | 0 => ⟨.spi, f.unit⟩
  | 3 => ⟨.eth, 12 + f.unit⟩
  | _ => ⟨.can, f.unit⟩

/-- A frame given to its unit: it ends a loopback of the unit (R675), and a controller in bus-off discards it (R639). -/
def sendFrame (s : State) (f : BusFrame) : State :=
  let p := framePage f
  let t := if f.dst ≠ 0 ∧ isLooped s p then loopEnd s true else s
  if p.cls = .can ∧ pgState t p = portFault then ctrAdd t p 5 1
  else
    let u := if p.cls = .spi then ctrAdd (ctrAdd t p 1 1) p 2 1 else ctrAdd t p 2 1
    { u with fx := { u.fx with frames := u.fx.frames ++ [f] } }

def hasFrame (s : State) (ch : Nat) : Bool :=
  let d := field (safeCopy s ch 1) 31 28
  d == 1 || d == 2 || d == 3

/-- The safe frame (R411): sent where SAFE_ARM = 1; a joined channel has no frame of its own. -/
def releaseSafe (s : State) (ch seq : Nat) : State :=
  if safeArmed s ch && hasFrame s ch then
    sendFrame (ctrAdd s (fxPage ch) 3 1) (fxFrame s ch (fxInt s ch 0x204) seq true false)
  else s

/-- The computed frame (R395). -/
def releaseComputed (s : State) (ch : Nat) (st : FxStep) : State :=
  if hasFrame s ch then
    sendFrame (ctrAdd s (fxPage ch) 2 1) (fxFrame s ch st.u (st.n % 65536) false (st.flags % 2 = 1))
  else s

/-- Whether a pin is at its safe level (R412); a device in reset has no channel in RUN. -/
def safeOut (s : State) (pin : Nat) : Bool :=
  let named := (List.range 64).filter fun ch => field (fxReg s ch 0x200) 3 0 == pin
  named.isEmpty || named.any fun ch => fxState s ch != fxRun

/-! ### Measurements (R405, R406) -/

/-- The integer of the input field in a payload; none where the payload is too short. -/
def inField (src : Word) (p : List Byte) : Option Int :=
  let n := field src 11 10 + 1
  let o := field src 6 0
  if p.length < o + n then none
  else
    let bs := (p.drop o).take n
    let v := bytesNat (if bit src 9 then bs.reverse else bs)
    some (if bit src 8 then sInt (8 * n) v else v)

/-- The latch of a channel tick: the state with y and the stale run, and whether the stale limit was reached. -/
def fxLatch (s : State) (ch : Nat) : State × Bool :=
  let pg := fxPage ch
  let x := fxCh s ch
  let src := fxReg s ch 0x110
  if field src 31 28 = 0 then (setFx s ch { x with y := 0, fresh := none, spi := false }, false)
  else
    match x.fresh.bind (inField src) with
    | some v =>
      let a := satQ (v * fxInt s ch 0x11C)
      let b := sadd a.v (fxInt s ch 0x120)
      let t := setRegField (setFx s ch { x with y := b.v, fresh := none, spi := false }) pg 0x104 15 8 0
      (if a.sat || b.sat then orReg t pg 0x108 0x20 else t, false)
    | none =>
      let run := min (regField s pg 0x104 15 8 + 1) 255
      let s := if x.spi then ctrAdd s ⟨.spi, field src 27 24⟩ 3 1 else s
      let t := ctrAdd (orReg (setRegField (setFx s ch { x with fresh := none, spi := false }) pg 0x104 15 8 run) pg 0x108 0x10) pg 4 1
      let lim := regField s pg 0x174 7 0
      (t, decide (lim ≠ 0 ∧ run ≥ lim))

/-! ### References (R404) -/

/-- The record that a C-core holds of the trajectory in force, read anew where it is not the one it holds: adopted, or the
status of the read that failed (a record with KNOTS outside 1 to 32 fails with INTEGRITY in CC_DIAG). -/
def adoptRecord (s : State) (core : Nat) : State × Option Traj :=
  let pg : Page := ⟨.c, core⟩
  let have' := (smFind s.fx.recs core).bind fun p => if p.1 = s.seq.force then some p.2 else none
  match have' with
  | some t => (s, some t)
  | none =>
    let a := recAddr s (0x10000 * (1 + regField s lk 0x23C 31 16 % 2))
    let st := readRange s 0 a 448
    let t := trajOf (readBytes s 0 a 448)
    if st = .ok ∧ t.knots.length ≥ 1 ∧ t.knots.length ≤ 32 then
      (ctrAdd { s with fx := { s.fx with recs := smPut s.fx.recs core (s.seq.force, t) } } pg 5 1, some t)
    else
      let u := ctrAdd (setFlag s pg 1) pg 6 1
      (rcPut u pg 0x114 (BitVec.ofNat 32 (statusCode st * 256)), none)

/-- An FP32 value as Q16.16 (R404). -/
def q16Of (w : Word) : Int :=
  match fpMul (f32val w) (valOfInt 65536 0) with
  | .fin n m e => (satQ (roundInt .rne n m e)).v
  | .inf n => if n then -(2 ^ 31) else 2 ^ 31 - 1
  | .nan => (Config.fxNan).toInt

/-- The channels of a C-core that follow the trajectory (R404). -/
def trajChans (s : State) (core : Nat) : List Nat :=
  (coreChans core).filter fun ch => field (fxReg s ch 0x124) 9 8 == 1 || field (fxReg s ch 0x124) 9 8 == 2

/-- The reference of a step whose output is released at tick `next`; none is a trajectory fault. -/
def fxReference (s : State) (ch next : Nat) : State × Option Int :=
  let c := fxReg s ch 0x124
  match field c 9 8 with
  | 0 => (s, some (fxInt s ch 0x128))
  | 3 => (s, some (fxCh s (field c 5 0)).lastU)
  | k =>
    let r := adoptRecord s (ch / 32)
    match r.2 with
    | none => (r.1, none)
    | some t =>
      let v := profileAt t.knots (trajSec t next)
      (r.1, some (if k = 1 then q16Of v.2 else (ssub (q16Of v.1) (fxInt s ch 0x128)).v))

/-! ### Mirroring (R413, R414) -/

def poolKey (ch k : Nat) : Nat := ch / 32 * 65536 + k % 65536
def poolWord (s : State) (ch k : Nat) : Int := (smGet 0 s.fx.pool (poolKey ch k)).toInt
def setPool (s : State) (ch k : Nat) (v : Int) : State :=
  { s with fx := { s.fx with pool := smSet 0 s.fx.pool (poolKey ch k) (BitVec.ofInt 32 v) } }

/-- The record of a step (R413). -/
def mirrorBytes (ch : Nat) (r : FxMirror) : List Byte :=
  [BitVec.ofNat 8 ch, BitVec.ofNat 8 r.flags] ++ natBytes 2 r.seq ++ wordBytes (BitVec.ofInt 32 r.i) ++ wordBytes (BitVec.ofInt 32 r.e) ++
    natBytes 2 r.k ++ [0, 0] ++ wordBytes (BitVec.ofInt 32 r.m) ++ wordBytes (BitVec.ofInt 32 r.y)

/-- The standby's take-in of the lead's record of the last step before it computes the next (R414). -/
def fxTakeMirror (s : State) (ch n : Nat) : State :=
  if !(isStandby s) ∨ n = 0 then s
  else
    let x := fxCh s ch
    let pg := fxPage ch
    let cfg := fxCfg s ch
    match x.mirror with
    | some r =>
      if r.seq ≠ (n - 1) % 65536 then setFx (ctrAdd s pg 10 1) ch { x with mirror := none }
      else
        let own := if r.k = 0xFFFF then 0 else poolWord s ch (cfg.rcBase + r.k)
        let differs := decide (r.i ≠ x.i ∨ r.e ≠ x.e ∨ (r.k ≠ 0xFFFF ∧ r.m ≠ own))
        let t := setFx s ch { x with i := r.i, e := r.e, mirror := none }
        let u := if r.k = 0xFFFF then t else setPool t ch (cfg.rcBase + r.k) r.m
        if differs then setFlag (orReg (ctrAdd u pg 11 1) pg 0x108 0x40) pg 4 else u
    | none => ctrAdd s pg 10 1

/-! ### The channel tick (R395) -/

/-- Step n computed at its C-core, and its frame on the way to the controller. -/
def fxCompute (s : State) (ch n : Nat) : State :=
  let pg := fxPage ch
  let cfg := fxCfg s ch
  let r := fxReference s ch (now s + copyPeriod s ch)
  match r.2 with
  | none => fxAllSafe r.1 8 (trajChans r.1 (ch / 32))
  | some ref =>
    let s := r.1
    let x := fxCh s ch
    let k := if cfg.rcLen = 0 then 0 else n % cfg.rcLen
    let o := fxStep cfg (fun j => fxInt s ch (0x400 + 4 * j)) ref x.y x.i x.e (poolWord s ch (cfg.rcBase + k))
    let fb := (fieldBytes (fxReg s ch 0x164) o.u).2
    let flags := (o.out || fb).toNat + 2 * o.int.toNat + 4 * o.lut.toNat + 8 * o.rc.toNat
    let learns := decide (cfg.rcLen > 0) && cfg.learn
    let t := if learns then setPool s ch (cfg.rcBase + k) o.m else s
    let u := setFx t ch { x with i := o.i, e := o.e, step := some ⟨n, o.u, flags⟩, lastU := o.u }
    let v := [1, 2, 4, 8].zip [6, 7, 8, 9] |>.foldl (fun w p => if flags / p.1 % 2 = 1 then ctrAdd w pg p.2 1 else w)
      (orReg u pg 0x108 (BitVec.ofNat 32 flags))
    let w := ctrAdd (ctrAdd v pg 1 1) (ccPage ch) 1 1
    let z := setReg (setReg (setReg (setReg (setReg w pg 0x180 (BitVec.ofInt 32 x.y)) pg 0x184 (BitVec.ofInt 32 o.e))
      pg 0x188 (BitVec.ofInt 32 o.u)) pg 0x18C (BitVec.ofInt 32 o.i)) pg 0x190 (BitVec.ofNat 32 (n % 65536 * 65536 + flags))
    sendDelta z 1 0 (mirrorBytes ch ⟨n % 65536, flags, o.i, o.e, if learns then k else 0xFFFF, o.m, x.y⟩)

/-- The pool and LUT check of a step (R420), then the step. -/
def fxChecked (s : State) (ch n : Nat) (ecc : EccResult) : State :=
  match ecc with
  | .clean => fxCompute s ch n
  | .corrected => fxCompute (ctrAdd (setFlag s (fxPage ch) 0) (ccPage ch) 4 1) ch n
  | .uncorrectable => fxToSafe (setFlag s (fxPage ch) 1) ch 4

/-- Latch, take-in and step of sample n. -/
def fxSample (s : State) (ch n : Nat) (ecc : EccResult) : State :=
  let l := fxLatch s ch
  if l.2 then fxToSafe (setFlag l.1 (fxPage ch) 3) ch 2
  else fxChecked (fxTakeMirror l.1 ch n) ch n ecc

/-- Whether a channel computes: its C-core and the device run. -/
def fxLive (s : State) (ch : Nat) : Bool := pgState s (ccPage ch) == ccRun && devRunning s

/-- One channel tick: release, latch, forward; `took` is how long the last step's frame took to its controller. -/
def fxTick (s : State) (ch took : Nat) (ecc : EccResult) : State :=
  let x := fxCh s ch
  let n := x.n
  let seq := (n + 65535) % 65536
  let s1 := setFx s ch { x with n := n + 1 }
  if !(fxLive s ch) then releaseSafe s1 ch seq
  else if fxState s ch = fxArmed then
    fxSample (setPgState (releaseSafe s1 ch seq) (fxPage ch) fxRun) ch n ecc
  else if fxState s ch = fxRun then
    match x.step with
    | none => fxSample (releaseSafe s1 ch seq) ch n ecc
    | some st =>
      if took > copyPeriod s ch then
        fxToSafe (ctrAdd (setFlag (releaseSafe s1 ch seq) (fxPage ch) 2) (ccPage ch) 2 1) ch 3
      else
        fxSample (rcEvent (releaseComputed s1 ch st) (ccPage ch) 0x110 fun w => BitVec.ofNat 32 (max w.toNat (min took 65535))) ch n ecc
  else releaseSafe s1 ch seq

/-- Whether a tick is a channel tick of a channel (R394, R411), by the timing that it holds. -/
def onGrid (s : State) (ch t : Nat) : Bool :=
  let p := copyPeriod s ch
  decide (p ≠ 0 ∧ copyPhase s ch ≤ t ∧ (t - copyPhase s ch) % p = 0) &&
    (match (fxCh s ch).start with
      | some a => decide (a < t)
      | none => true)

/-- CHANNEL_TICK (R395). While the device is held in reset or has no power the always-on timer gives the safe sender its
ticks, with the stored period (R642). -/
def execChannelTick (ch : Fin 64) (took : Nat) (ecc : EccResult) (s : State) : Res :=
  .next (
    if s.sec.boot.held then if s.supply.always && decide (copyPeriod s ch ≠ 0) then fxTick s ch took ecc else s
    else if onGrid s ch (now s) then fxTick s ch took ecc else s)

/-! ### Inputs -/

/-- SPI_TRANSACTION_START (R405). -/
def execSpiTransactionStart (ch : Fin 64) (s : State) : Res :=
  .next (
    let src := fxReg s ch 0x110
    let lead := regField s (fxPage ch) 0x174 15 8
    if (fxState s ch = fxArmed ∨ fxState s ch = fxRun) ∧ fxLive s ch ∧ field src 31 28 = 1 ∧ onGrid s ch (now s + lead) then
      sendFrame (setFx s ch { fxCh s ch with spi := true })
        ⟨ch, 0, field src 27 24, 0, 0, 0, (regBytes s (fxPage ch) 0x880 4).take (field src 15 12 + 1), false⟩
    else s)

/-- SPI_RESPONSE_COMPLETE (R405): of the transaction in progress. -/
def execSpiResponseComplete (ch : Fin 64) (data : List Byte) (s : State) : Res :=
  .next (
    let x := fxCh s ch
    if x.spi then setFx s ch { x with spi := false, fresh := some (data.take (field (fxReg s ch 0x110) 19 16 + 1)) } else s)

/-- A frame given to every channel of a list that it matches; one too short for a channel's field is rejected. -/
def fxReceive (s : State) (src unit : Nat) (ok : Bool) (matches' : State → Nat → Bool) (payload : List Byte) : State :=
  (List.range 64).foldl (fun t ch =>
    let w := fxReg t ch 0x110
    if field w 31 28 ≠ src ∨ field w 27 24 ≠ unit then t
    else if !ok then ctrAdd t (fxPage ch) 5 1
    else if !(matches' t ch) then t
    else if (inField w payload).isNone then ctrAdd t (fxPage ch) 5 1
    else setFx t ch { fxCh t ch with fresh := some payload }) s

/-- A frame counted by the unit that receives it (R652). -/
def countFrame (s : State) (p : Page) (ok : Bool) : State := if ok then ctrAdd s p 1 1 else setFlag (ctrAdd s p 3 1) p 2

/-- CAN_FRAME_RECEIVED (R405), by a controller that is UP. -/
def execCanFrameReceived (c : Fin 8) (id : BitVec 29) (payload : List Byte) (crcOk : Bool) (s : State) : Res :=
  .next (
    if pgState s ⟨.can, c⟩ ≠ portUp ∨ isLooped s ⟨.can, c⟩ then s
    else fxReceive (countFrame s ⟨.can, c⟩ crcOk) 2 c crcOk
      (fun t ch => (id.setWidth 32 &&& fxReg t ch 0x118) == (fxReg t ch 0x114 &&& 0x1FFFFFFF#32)) payload)

/-- T1S_FRAME_RECEIVED (R405), by a port that is UP: the payload begins with the tag. -/
def execT1sFrameReceived (port : Fin 4) (etherType : Half) (payload : List Byte) (fcsOk : Bool) (s : State) : Res :=
  .next (
    let p : Page := ⟨.eth, 12 + port⟩
    if pgState s p ≠ portUp ∨ isLooped s p then s
    else fxReceive (countFrame s p fcsOk) 3 port fcsOk
      (fun t ch => fxReg t ch 0x114 == BitVec.ofNat 32 (etherType.toNat * 65536 + bytesNat (payload.take 2)) && decide (payload.length ≥ 2)) payload)

/-! ### C-core faults -/

/-- A C-core enters SUSPECT (R419): its channels enter SAFE with cause 0x5. What follows is device-fatal. -/
def ccSuspectEnter (s : State) (core : Nat) : State := fxAllSafe (setPgState s ⟨.c, core⟩ ccSuspect) 5 (coreChans core)

/-! ### The registers -/

/-- A word of the pool that a channel that is not OFF uses (R419). -/
def poolInUse (s : State) (core w : Nat) : Bool :=
  (coreChans core).any fun ch =>
    let c := fxCfg s ch
    fxState s ch != fxOff && decide (c.rcBase ≤ w ∧ w < c.rcBase + c.rcLen)

/-- Whether a destination or source unit exists and is PT0's (R417). -/
def unitOk (s : State) (cls : Cls) (n first unit : Nat) : Bool := decide (unit < n) && pageOwner s ⟨cls, first + unit⟩ == 0

def canFdLength (n : Nat) : Bool := decide (1 ≤ n ∧ n ≤ 8) || [12, 16, 20, 24, 32, 48, 64].contains n

/-- Whether two runs of bytes overlap. -/
def spans (a la b lb : Nat) : Bool := decide (a < b + lb ∧ b < a + la)

/-- The RANGE conditions of START (R417). -/
def startBad (s : State) (ch : Nat) : Bool :=
  let tm := fxReg s ch 0x10C
  let per := field tm 15 0
  let src := fxReg s ch 0x110
  let dst := fxReg s ch 0x160
  let fld := fxReg s ch 0x164
  let c := fxCfg s ch
  let ref := fxReg s ch 0x124
  let n := field fld 12 11 + 1
  let ofs := field fld 6 0
  let len := field dst 7 0
  let host := field dst 21 16
  let lead := regField s (fxPage ch) 0x174 15 8
  let peer (k : Nat) : Bool := decide (k < ch ∧ k / 32 = ch / 32) && fxReg s k 0x10C == tm
  let inOk := match field src 31 28 with
    | 0 => true
    | 1 => unitOk s .spi 8 0 (field src 27 24) && decide (field src 6 0 + field src 11 10 + 1 ≤ field src 19 16 + 1) && decide (lead < 40 * per)
    | 2 => unitOk s .can 8 0 (field src 27 24)
    | 3 => unitOk s .eth 4 12 (field src 27 24)
    | _ => false
  let outOk := match field dst 31 28 with
    | 1 => unitOk s .can 8 0 (field dst 27 24) && canFdLength len && decide (ofs + n ≤ len)
    | 2 => unitOk s .can 8 0 (field dst 27 24) && decide (1 ≤ len ∧ len ≤ 128 ∧ ofs + n ≤ len)
    | 3 => unitOk s .eth 4 12 (field dst 27 24) && decide (60 ≤ len ∧ len ≤ 128 ∧ ofs + n ≤ len)
    | 4 =>
      let hd := fxReg s host 0x160
      let hf := fxReg s host 0x164
      peer host && field hd 31 28 != 4 && decide (ofs + n ≤ field hd 7 0) && !(bit hf 15 && spans (field hf 23 16) 8 ofs n) &&
        decide (((List.range 64).filter fun j => j != ch && fxState s j != fxOff && field (fxReg s j 0x160) 31 28 == 4 &&
          field (fxReg s j 0x160) 21 16 == host).length < 7)
    | _ => false
  let stampBad := bit fld 15 && field dst 31 28 != 4 &&
    (decide (field fld 23 16 + 8 > len) || spans (field fld 23 16) 8 ofs n ||
      (List.range 64).any fun j => j != ch && field (fxReg s j 0x160) 31 28 == 4 && field (fxReg s j 0x160) 21 16 == ch &&
        fxState s j != fxOff && spans (field fld 23 16) 8 (field (fxReg s j 0x164) 6 0) (field (fxReg s j 0x164) 12 11 + 1))
  let rcBad := decide (c.rcBase + c.rcLen > 65536 ∨ c.rcLen > 4096) ||
    (coreChans (ch / 32)).any fun j => j != ch && fxState s j != fxOff &&
      (let d := fxCfg s j
       decide (c.rcLen ≠ 0 ∧ d.rcLen ≠ 0) && spans c.rcBase c.rcLen d.rcBase d.rcLen)
  decide (per = 0 ∨ per > 1000 ∨ field tm 31 16 ≥ 40 * per) || !inOk || !outOk || stampBad || rcBad ||
    decide (c.iMin > c.iMax ∨ c.outMin > c.outMax ∨ c.rcLim < 0 ∨ c.rcQ < 0 ∨ c.rcQ > 65536 ∨ field fld 31 24 > 31) ||
    (field ref 9 8 == 3 && !(peer (field ref 5 0)))

/-- Whether a command is accepted in the channel's state (R416). -/
def fxCmdCheck (s : State) (ch cmd : Nat) : Option Status :=
  let st := fxState s ch
  match cmd with
  | 1 =>
    if st ≠ fxOff ∨ pgState s (ccPage ch) ≠ ccRun then (if startBad s ch ∧ st = fxOff then some .range else some .stateIllegal)
    else if startBad s ch then some .range else none
  | 2 => none
  | 3 => if st = fxOff then some .stateIllegal else none
  | 4 => if st = fxSafe ∧ pgState s (ccPage ch) ≠ ccSuspect ∧ devState s ≠ stHalt then none else some .stateIllegal
  | 5 => if st = fxOff ∨ st = fxSafe then none else some .stateIllegal
  | _ => some .range

/-- What a write of a Foxglove register checks beside the common order (R416, R419, R422). -/
def fxCheck (s : State) (p : Page) (off : Nat) (v : Word) : Option Status :=
  match p.cls with
  | .fxch =>
    let ch := p.inst
    if off < 0x100 then none
    else if off = 0x100 then fxCmdCheck s ch v.toNat
    else if off = 0x108 ∨ off = 0x128 then none
    else
      let bad := match off with
        | 0x164 => decide (field v 31 24 > 31)
        | 0x174 => decide (field v 15 8 < 1 ∨ field v 15 8 > 39)
        | 0x150 => decide (field v 12 0 > 4096)
        | 0x200 => decide (8 ≤ field v 3 0 ∧ field v 3 0 < 15)
        | _ => false
      if bad then some .range else if fxState s ch ≠ fxOff then some .stateIllegal else none
  | .c =>
    let suspect := pgState s p == ccSuspect
    let used (w : Nat) : Bool := suspect || (pgState s p == ccRun && poolInUse s p.inst w)
    match off with
    | 0x108 => if used (v.toNat % 65536) then some .stateIllegal else none
    | 0x10C => if used (regField s p 0x108 15 0) then some .stateIllegal else none
    | _ => none
  | _ => none

/-- The six words that the safe store copies (R410). -/
def copyOf (s : State) (ch : Nat) : List Word := [0x10C, 0x160, 0x164, 0x168, 0x16C, 0x170].map (fxReg s ch)

/-- CLEAR_STATE (R402). -/
def fxClear (s : State) (ch : Nat) : State :=
  let c := fxCfg s ch
  let t := setFx s ch { fxCh s ch with i := 0, e := 0 }
  { t with fx := { t.fx with pool := smClear t.fx.pool (poolKey ch c.rcBase) (poolKey ch c.rcBase + c.rcLen) } }

/-- The next word of the pool after an access of CC_RC_DATA (R421). -/
def rcAdvance (s : State) (p : Page) : State := setRegField s p 0x108 15 0 ((regField s p 0x108 15 0 + 1) % 65536)

/-- What an accepted write does. -/
def fxAct (s : State) (p : Page) (off : Nat) (v : Word) : State :=
  match p.cls with
  | .fxch =>
    let ch := p.inst
    match off with
    | 0x100 =>
      match v.toNat with
      | 1 =>
        let t := setFx s ch { fxCh s ch with n := 0, start := some (now s), fresh := none, spi := false, step := none, mirror := none, safe := copyOf s ch }
        setPgState (setRegField t p 0x104 15 8 0) p fxArmed
      | 2 => setPgState (setFx s ch { fxCh s ch with step := none, mirror := none }) p fxOff
      | 3 => fxToSafe s ch 1
      | 4 => setPgState (setRegField s p 0x104 15 8 0) p fxArmed
      | 5 => fxClear s ch
      | _ => s
    | 0x200 => if bit v 31 then setFx s ch { fxCh s ch with safe := copyOf s ch } else s
    | _ => s
  | .c =>
    if off = 0x10C then
      let u := { s with fx := { s.fx with pool := smSet 0 s.fx.pool (p.inst * 65536 + regField s p 0x108 15 0) v } }
      rcAdvance u p
    else s
  | _ => s

/-- What a read of a Foxglove register gives in place of the stored word. -/
def fxView (s : State) (p : Page) (off : Nat) : Option Word :=
  let mask (st : Nat) : Word := BitVec.ofNat 32 (((List.range 32).map fun j => if fxState s (32 * p.inst + j) = st then 2 ^ j else 0).sum)
  match p.cls, off with
  | .c, 0x100 => some (mask fxRun)
  | .c, 0x104 => some (mask fxSafe)
  | .c, 0x10C => some (smGet 0 s.fx.pool (p.inst * 65536 + regField s p 0x108 15 0))
  | _, _ => none

/-- What a C-core's soft reset clears beside its registers (R419): the pool. -/
def ccReset (s : State) (core : Nat) : State :=
  { s with fx := { s.fx with pool := smClear s.fx.pool (core * 65536) ((core + 1) * 65536), recs := smDel s.fx.recs core } }

end Sys2Proof.Machine
end

