-- ==== Sys2Proof/Machine/Jobs.lean ====
section
/-! DEFINITION. Submission rings and jobs (chapter 11): scans and admission (R431, R432), start work (R434), start, suspension
and resumption (R435, R441 to R444), offers (R436), ends (R439) and the submission page (R457). -/

namespace Sys2Proof.Machine

/-! ### Admission -/

/-- An admitted entry that is not yet decrypted. -/
def rawJob (seq tick : Nat) : Job :=
  { seq := seq, state := jPending, raw := true, slot := 0, retryMax := 0, irqEn := false, sigEn := false, chanEn := false
    streamEn := false, level := 0, kind := 0, jobId := 0, seed := 0, graph := 0, chanAddr := 0, strAddr := 0, tclrFirst := 0
    tclrCount := 0, streams := 0, batch := 0, doneTally := 0, reserved := false, worked := false, safety := false, stages := []
    chans := [], status := .ok, stage := 0xFFFF, decided := false, started := false, issued := false, cancelled := false
    retried := false, suspended := false, startTick := 0, prodTick := tick, snap := [], suspAt := 0, stall := 0 }

/-- Whether a tick scans (R431): every tenth, and every tick in which a roster entry begins or ends. -/
def scanTick (s : State) : Bool :=
  now s % 10 == 0 || (roState s == roRun &&
    ((roEntries s).any fun e => e.kind != 0 && reachedFirst s (s.roster.frame0 + e.start)) ||
      (s.roster.wins.any fun w => w.2.stop == now s) || s.roster.canaryEnd == now s)

/-- One descriptor admitted: its record is written with FLAGS = 0 (R432). -/
def admitOne (s : State) (part : Nat) : State :=
  let p := sbPage part
  let c := regVal s p 0x104
  let e := c.toNat % 256
  let t := putRing s part (0x9000 + 16 * e) (List.replicate 16 0)
  let u := setJob { t with jobSeq := t.jobSeq + 1 } (jobKey part e) (rawJob t.jobSeq (smGet 0 s.prodAt part))
  ctrAdd (setReg u p 0x104 (c + 1)) p 1 1

def admitSome (part : Nat) : Nat → State → State
  | 0, s => s
  | n + 1, s => admitSome part n (admitOne s part)

/-- RING_SCAN (R431): one scan of a partition's ring in a tick that qualifies. -/
def execRingScan (p : Part) (s : State) : Res :=
  .next (
    let pg := sbPage p
    if !(devRunning s) ∨ !(regBit s pg 0x100 0) ∨ inReset s p ∨ smGet 0 s.scanAt p = now s + 1 ∨ !(scanTick s) then s
    else
      let t := ctrAdd { s with scanAt := smSet 0 s.scanAt p (now s + 1) } pg 9 1
      let prod := ringWord t p 0
      if (prod - regVal t pg 0x108).toInt > 256 then setFlag t pg 0
      else admitSome p (min 16 (prod - regVal t pg 0x104).toInt.toNat) t)

/-! ### Descriptors -/

/-- The number c of the descriptor in an entry (R430): the last one admitted there. -/
def descNumber (s : State) (part entry : Nat) : Word :=
  let last := regVal s (sbPage part) 0x104 - 1
  last - BitVec.ofNat 32 ((last.toNat + 256 - entry % 256) % 256)

/-- The plain words W0 to W23 of a ring entry; none where it fails authentication or carries another SESSION (R500). -/
def openEntry (s : State) (part entry : Nat) : Option (List Word) :=
  let base := 0x1000 + 128 * (entry % 256)
  let bytes (o n : Nat) : List Byte := (List.range n).map fun i => ringByte s part (base + o + i)
  let ses := (secOf s part).session
  let aad := [BitVec.ofNat 8 part, 0, 0, 0] ++ wordBytes (descNumber s part entry) ++ natBytes 4 ses ++ natBytes 4 0
  if ses = 0 ∨ bytesNat (bytes 108 4) ≠ ses then none
  else (gcmOpen (sessionKey s part "RING") (bytes 96 12) aad (bytes 0 96) (bytes 112 16)).map fun m =>
    (List.range 24).map fun i => bytesWord m i

def kindOf (w : List Word) : Nat := df w 0 23 16

/-- Whether a RUN descriptor has a reserved bit set (R429). -/
def runReserved (w : List Word) : Bool :=
  df w 0 27 24 != 0 || df w 0 3 0 != 0 || df w 5 31 12 != 0 || df w 8 31 27 != 0 || df w 8 15 14 != 0 || df w 9 31 23 != 0 ||
    df w 10 31 14 != 0 || (w.drop 11).any (· != 0)

/-- A job as its descriptor gives it (R429). -/
def jobFrom (j : Job) (w : List Word) : Job :=
  { j with
    raw := false, kind := kindOf w, level := df w 0 31 28, slot := df w 0 15 12, retryMax := df w 0 11 8
    irqEn := bit (dw w 0) 7, sigEn := bit (dw w 0) 6, chanEn := bit (dw w 0) 5, streamEn := bit (dw w 0) 4
    jobId := dw w 1, seed := BitVec.ofNat 64 ((dw w 2).toNat + (dw w 3).toNat * 2 ^ 32)
    graph := df w 5 3 0 * 2 ^ 40 + (dw w 4).toNat * 256, chanAddr := df w 5 7 4 * 2 ^ 40 + (dw w 6).toNat * 256
    strAddr := df w 5 11 8 * 2 ^ 40 + (dw w 7).toNat * 256, tclrFirst := df w 8 13 0, tclrCount := df w 8 26 16
    streams := df w 9 22 16, batch := df w 9 15 0, doneTally := df w 10 13 0, reserved := runReserved w }

/-- An entry that completes without having been a job (R432): its record, and no signal. -/
def finishEntry (s : State) (part entry : Nat) (jobId : Word) (st : Status) : State :=
  match jobOf s (jobKey part entry) with
  | none => s
  | some j =>
    let t := setJob s (jobKey part entry) { j with state := jDone, raw := false, decided := true, status := st }
    retireRing (writeRecord t part entry jobId st 1 0xFFFF 0 (nowW t).toNat) part

/-- JOB_RUN (R432): an admitted descriptor is authenticated and becomes a pending job of its slot. The JOB_ID of one that
fails authentication is a free value. -/
def execJobRun (p : Part) (entry : Fin 256) (s : State) : Res :=
  .next (match jobOf s (jobKey p entry) with
    | none => s
    | some j =>
      if !j.raw ∨ !(devRunning s) ∨ inReset s p then s
      else match openEntry s p entry with
        | none => finishEntry (spendFree (ctrAdd (setFlag s (sbPage p) 1) (mbPage p) 3 1) 1) p entry ((freeAt s 0).setWidth 32) .integrity
        | some w => if kindOf w = 2 then s else setJob s (jobKey p entry) (jobFrom j w))

/-! ### CANCEL (R440) -/

/-- Whether an entry was admitted by the time that entry `self` was, and is not yet retired: descriptors are admitted in ring order (R431). -/
def admitted (s : State) (part self entry : Nat) : Bool :=
  let r := regVal s (sbPage part) 0x108
  decide ((BitVec.ofNat 32 entry - r).toNat % 256 ≤ (BitVec.ofNat 32 self - r).toNat % 256)

/-- The job in an entry as its admission made it: an entry that is not yet decrypted holds what its descriptor says (R432). -/
def jobAsAdmitted (s : State) (part entry : Nat) (j : Job) : Job :=
  if j.raw then
    match openEntry s part entry with
    | some w => if kindOf w = 2 then { j with state := jDone } else jobFrom j w
    | none => { j with state := jDone }
  else j

/-- A CANCEL acts on its target. -/
def cancelJob (s : State) (part self target : Nat) : State × Status :=
  let key := jobKey part target
  if !(admitted s part self target) then (s, .range)
  else match (jobOf s key).map (jobAsAdmitted s part target) with
    | none => (s, .range)
    | some j =>
      let c := { j with cancelled := true }
      if target = self ∨ j.state = jEnding ∨ j.state = jDone then (s, .stateIllegal)
      else if j.state = jRunning ∨ j.state = jSuspending then (failJob (setJob s key c) key 0xFFFF .ok, .ok)
      else (endJob (setJob s key { c with raw := false, decided := true, status := .ok, stage := 0xFFFF }) key, .ok)

def cancelReserved (w : List Word) : Bool :=
  df w 0 27 24 != 0 || df w 0 15 0 != 0 || df w 11 31 8 != 0 || (List.range 24).any fun i => i != 0 && i != 1 && i != 11 && dw w i != 0

/-- JOB_CANCEL (R440): an authentic CANCEL descriptor acts, and completes. -/
def execJobCancel (p : Part) (entry : Fin 256) (s : State) : Res :=
  .next (match jobOf s (jobKey p entry) with
    | none => s
    | some j =>
      if !j.raw ∨ !(devRunning s) ∨ inReset s p then s
      else match openEntry s p entry with
        | none => s
        | some w =>
          if kindOf w ≠ 2 then s
          else
            let t := ctrAdd s (sbPage p) 8 1
            let x : State × Status :=
              if cancelReserved w then (t, .reservedSet)
              else if df w 0 31 28 > levelInForce t then (t, .levelUnsupported)
              else if df w 0 31 28 = 0 then (t, .range)
              else cancelJob t p entry (df w 11 7 0)
            finishEntry x.1 p entry (dw w 1) x.2)

/-! ### The start work (R434) -/

/-- Whether a core is a partition's, or of a time-shared group that may hold it (R30, R434). -/
def coreOf (s : State) (part : Nat) (k : CoreId) : Bool :=
  match coreAssign s k, s.dev.layout with
  | .part p _, _ => p == part
  | .group g, some l => (l.groups.getD g 0).getLsbD part
  | _, _ => false

def orderFails (l : List Status) : Status := ([Status.ownerDenied, .reservedSet, .levelUnsupported, .range].find? fun x => l.contains x).getD .ok

def levelFails (s : State) (lv : Nat) : List Status :=
  if lv > levelInForce s then [.levelUnsupported] else if lv = 0 then [.range] else []

def when (b : Bool) (st : Status) : List Status := if b then [st] else []

/-- What a stage entry fails on. -/
def stageFails (s : State) (part : Nat) (safety : Bool) (x : GStage) : List Status :=
  when x.bad .reservedSet ++
    match coreOfCode x.core with
    | none => [.range]
    | some k =>
      let r := isReserved s k
      when (!(coreOf s part k)) .ownerDenied ++ when (r && !safety) .ownerDenied ++ when (safety && !r) .range ++
        when (k.cls == .c || x.count == 0 || (x.stream == 1 && k.cls != .a)) .range

/-- Two stages on one core and stream, or on one watchdog. -/
def stagesClash : List GStage → Bool
  | [] => false
  | x :: xs =>
    let dog (y : GStage) : Option (Nat × Nat) := (coreOfCode y.core).map fun k => (stackNo (coreStack k), y.wd)
    (xs.any fun y => (y.core == x.core && y.stream == x.stream) || (dog y == dog x)) || stagesClash xs

def graphFails (s : State) (part batch : Nat) (g : Graph) : List Status :=
  when g.bad .reservedSet ++ levelFails s g.level ++
    when (g.count == 0 || decide (g.count > 66) || g.batch == 0 || (g.safety && part != 0) || g.batch != batch) .range ++
    (g.stages.flatMap (stageFails s part g.safety)) ++ when (stagesClash g.stages) .range

/-- The descriptor of a command of a stage as it stands. -/
def cmdWords (s : State) (part addr i : Nat) : List Word := readWords s part (addr + 64 * i) 16

/-- A channel table entry (R178): whether it is valid, whether a reserved bit is set, and the channel. -/
def readChannel (s : State) (part addr i : Nat) : Bool × Bool × Channel :=
  let w := readWords s part (addr + 32 * i) 8
  let bad := df w 0 30 24 != 0 || df w 1 31 14 != 0 || df w 3 31 16 != 0 || df w 4 31 14 != 0 || df w 5 31 14 != 0 ||
    df w 6 31 9 != 0 || dw w 7 != 0
  (bit (dw w 0) 31, bad,
    { src := df w 0 23 16, dst := df w 0 15 8, window := df w 0 7 0, units := df w 1 13 0, rows := df w 2 31 16
      first := df w 2 15 0, dstRow := df w 3 15 0, rowT := df w 4 13 0, creditT := df w 5 13 0
      link := if bit (dw w 6) 8 then some (df w 6 7 0) else none })

/-- Whether a core of a channel table is defined there and the partition's (R179). -/
def chanCore (s : State) (part c : Nat) : Bool := match coreOfCode c with
  | some k => k.cls != .t && k.cls != .c && coreOf s part k
  | none => false

/-- Whether the chain from a channel is at most 3 long, of one SRC_CORE, through valid channels, and without a loop. -/
def chainGood (m : SMap Channel) (src : Nat) : Nat → Option Nat → Bool
  | _, none => true
  | 0, some _ => false
  | n + 1, some c => match smFind m c with
    | some x => x.src == src && chainGood m src n x.link
    | none => false

/-- Whether the channels of one window cover consecutive rows, from the lowest on. -/
def rowsCover : Nat → Nat → List Channel → Bool
  | 0, _, _ => true
  | n + 1, next, l => match l.find? fun x => x.dstRow == next with
    | some x => rowsCover n (next + x.rows) (l.erase x)
    | none => false

def windowGood (m : SMap Channel) (x : Channel) : Bool :=
  let l := (m.filter fun y => y.2.dst == x.dst && y.2.window == x.window).map Prod.snd
  rowsCover l.length ((l.map Channel.dstRow).foldl min x.dstRow) l

def channelBad (s : State) (part : Nat) (m : SMap Channel) (c : Nat) (x : Channel) : Bool :=
  !(chanCore s part x.src && chanCore s part x.dst) || x.src == x.dst || x.units == 0 || x.rows == 0 ||
    !(ownsTally s part x.rowT && ownsTally s part x.creditT) || !(chainGood m x.src 3 (some c)) || !(windowGood m x)

/-- The channel table of a job, and whether it breaks a condition of R178. -/
def readChannels (s : State) (part addr : Nat) : Bool × SMap Channel :=
  let all := (List.range 256).map fun i => (i, readChannel s part addr i)
  let m : SMap Channel := (all.filter fun x => x.2.1).map fun x => (x.1, x.2.2.2)
  (all.any (fun x => x.2.2.1) || m.any fun x => channelBad s part m x.1 x.2, m)

/-- The commands of a stage on an A-core. -/
def stageCmds (s : State) (part : Nat) (x : GStage) : List (List Word) := (List.range x.count).map (cmdWords s part x.addr)

/-- Placement of KV heads, and row lengths of the windows of KV_APPEND (R264, R278). -/
def kvPlaceBad (s : State) (part : Nat) (m : SMap Channel) (x : GStage) : Bool :=
  match coreOfCode x.core with
  | some k =>
    k.cls == .a && readRange s part x.addr (64 * x.count) == .ok && (stageCmds s part x).any fun d =>
      let a := aDesc d
      let p := aPoolOf (poolCfg s part a.pool)
      (a.opcode == 1 || a.opcode == 2) && (!(coreOf s part ⟨.a, a.head % 8⟩) ||
        (a.opcode == 2 && (cmdWindows k d).any fun w => m.any fun c =>
          c.2.dst == x.core && c.2.window == w.2 && chanPitch c.2 != 2 * p.d * poolElem p))
  | none => false

/-- A stream table entry (R243), and what it fails on. -/
def readStream (s : State) (part addr i : Nat) : List Word := readWords s part (addr + 32 * i) 8

def streamFails (s : State) (part : Nat) (w : List Word) : List Status :=
  let kind := df w 0 23 16
  let isList := kind == 2
  levelFails s (df w 0 31 28) ++
    when (df w 0 27 24 != 0 || df w 0 12 0 != 0 || df w 1 31 28 != 0 || df w 2 15 13 != 0 || df w 3 31 28 != 0 || df w 4 31 28 != 0 ||
      df w 5 31 14 != 0 || df w 7 31 12 != 0 || (isList && (df w 1 27 0 != 0 || df w 3 27 0 != 0))) .reservedSet ++
    when (kind == 0 || decide (kind > 2) || decide (df w 0 15 14 > 1) || df w 2 31 16 == 0 || df w 2 12 0 == 0 ||
      decide (df w 2 12 0 > 4096) || df w 7 7 0 == 0 || decide (df w 7 7 0 > 64)) .range ++
    when (!(ownsTally s part (df w 4 27 14) && ownsTally s part (df w 4 13 0) && (!isList || ownsTally s part (df w 5 13 0)))) .ownerDenied

/-- The prefetcher of a stream descriptor. -/
def streamPf (s : State) (part key : Nat) (w : List Word) : Prefetcher :=
  let isList := df w 0 23 16 == 2
  { part := part, job := key, kind := df w 0 23 16, dest := if df w 0 15 14 = 0 then .gallery else .drift, releaseEn := bit (dw w 0) 13
    base := df w 1 27 0, units := df w 2 31 16, unitPages := df w 2 12 0, stride := df w 3 27 0, ready := df w 4 27 14, done := df w 4 13 0
    list := df w 5 13 0, listAddr := df w 7 11 8 * 2 ^ 40 + (dw w 6).toNat * 256, lead := df w 7 7 0
    d0 := tallyVal s (df w 4 13 0), l0 := if isList then tallyVal s (df w 5 13 0) else 0, fetched := 0, readied := 0, released := 0
    waitFrame := false, fault := 0, core := none, kvList := [], moved := 0, missed := 0, waits := [] }

/-- A prefetcher taken for each stream of a job; none where the partition has too few free. -/
def takeStreams (s : State) (part key : Nat) (k : Stack) : List (List Word) → Option State
  | [] => some s
  | w :: ws => match freePrefetcher s part k with
    | none => none
    | some i => takeStreams (setPf s i (streamPf s part key w)) part key k ws

/-- The descriptor's own conditions. -/
def descFails (s : State) (part : Nat) (j : Job) : List Status :=
  when j.reserved .reservedSet ++ levelFails s j.level ++
    when (decide (j.tclrCount > 1024) || decide (j.tclrFirst + j.tclrCount > 16384) || (j.streamEn && decide (j.streams > 64)) || j.batch == 0) .range ++
    when ((List.range j.tclrCount).any fun i => decide (j.tclrFirst + i < 16384) && !(ownsTally s part (j.tclrFirst + i))) .ownerDenied ++
    when (j.sigEn && !(ownsTally s part j.doneTally)) .ownerDenied

/-- The stages of a started job. -/
def stageRts (g : Graph) : List StageRt :=
  g.stages.filterMap fun x => (coreOfCode x.core).map fun k =>
    { core := k, stream := x.stream, loop := x.loop, retry := x.retry, wd := x.wd, addr := x.addr, count := x.count, next := 0, loops := 0
      retries := 0, busy := false, spent := false }

/-- The first failure of reading what the start work reads: graph, channel table, stream table. -/
def tablesStatus (s : State) (part : Nat) (j : Job) : Status :=
  firstBad [match readGraph s part j.graph with
      | .error st => st
      | .ok _ => .ok,
    if j.chanEn then readRange s part j.chanAddr 8192 else .ok,
    if j.streamEn ∧ j.streams ≤ 64 then readRange s part j.strAddr (32 * j.streams) else .ok]

/-- The start work of a job: its outcome, and the state with its Tallies cleared and its prefetchers taken. -/
def startWork (s : State) (part key : Nat) (j : Job) : State × Status :=
  if j.kind ≠ 1 then (s, orderFails ((levelFails s j.level) ++ [.range]))
  else
    let rs := tablesStatus s part j
    match rs, readGraph s part j.graph with
    | .ok, .ok g =>
      let ch := if j.chanEn then readChannels s part j.chanAddr else (false, [])
      let ws := if j.streamEn then (List.range j.streams).map (readStream s part j.strAddr) else []
      let st := orderFails (descFails s part j ++ graphFails s part j.batch g ++ when ch.1 .range ++ ws.flatMap (streamFails s part) ++
        when (g.stages.any (kvPlaceBad s part ch.2)) .range)
      if st ≠ .ok then (s, st)
      else
        let stages := stageRts g
        let t := if j.tclrCount = 0 then s else tallyClear s j.tclrFirst j.tclrCount
        let k := (stages.head?.map fun x => coreStack x.core).getD .w
        match takeStreams t part key k ws with
        | none => (s, .range)
        | some u => (setJob u key { j with state := jStarting, worked := true, safety := g.safety, stages := stages, chans := ch.2 }, .ok)
    | .ok, .error st => (s, st)
    | st, _ => (s, st)

/-- A job is behind an earlier one of its slot (R434). -/
def behind (s : State) (part : Nat) (j : Job) : Bool :=
  s.jobs.any fun x => x.1 != canaryKey && jobPart x.1 == part && !x.2.raw && x.2.slot == j.slot && x.2.state != jDone && decide (x.2.seq < j.seq)

/-- A slot of a partition has a started job. -/
def slotStarted (s : State) (part slot : Nat) : Bool :=
  s.jobs.any fun x => x.1 != canaryKey && jobPart x.1 == part && !x.2.raw && x.2.slot == slot &&
    (x.2.state == jRunning || x.2.state == jSuspending || x.2.state == jEnding)

/-- Whether the job machinery works for a partition. -/
def jobsLive (s : State) (part : Nat) : Bool := devRunning s && !(inReset s part)

/-- JOB_START_WORK (R434). -/
def execJobStartWork (p : Part) (entry : Fin 256) (s : State) : Res :=
  .next (match jobOf s (jobKey p entry) with
    | none => s
    | some j =>
      if j.raw ∨ j.state ≠ jPending ∨ !(jobsLive s p) ∨ behind s p j ∨ slotStarted s p j.slot then s
      else
        let key := jobKey p entry
        let x := startWork s p key j
        if x.2 = .ok then x.1 else endJob (setJob x.1 key { j with decided := true, status := x.2 }) key)

/-! ### Suspension, start and resumption -/

/-- A command in WAIT that has opened no window is withdrawn (R441). -/
def withdrawCmds (s : State) (key : Nat) (j : Job) : State :=
  ((List.range j.stages.length).zip j.stages).foldl (fun t x =>
    if runsJob t x.2.core x.2.stream key ∧ streamState t x.2.core x.2.stream = cWait then
      match curOf t x.2.core x.2.stream with
      | some r =>
        if r.win.isEmpty then
          let u := abortCmd t x.2.core x.2.stream .ok false
          match jobOf u key with
          | some i => setJob u key (mapStage i x.1 fun y => { y with busy := false })
          | none => u
        else t
      | none => t
    else t) s

/-- Suspension of a job begins (R441). -/
def suspendJob (s : State) (key : Nat) : State :=
  match jobOf s key with
  | none => s
  | some j => withdrawCmds (holdDogs (sbCount (dropOffers (setJob s key { j with state := jSuspending, suspAt := now s }) key) key 5) key true) key j

/-- The cores of a job that contend: those that are statically owned (R435). -/
def staticCores (s : State) (j : Job) : List CoreId := (jobCores s j).filter fun k => (groupOf s k).isNone

/-- Holders of higher slots suspended (R435, R428). -/
def claimCores (s : State) (j : Job) : State :=
  (staticCores s j).foldl (fun t k =>
    if isReserved t k then t
    else (holders t k).foldl (fun u x => if x.2.slot > j.slot ∧ x.2.state = jRunning then suspendJob u x.1 else u) t) s

def coresFree (s : State) (key : Nat) (j : Job) : Bool := (staticCores s j).all fun k => (holders s k).all fun x => x.1 == key

/-- A job starts (R435): its watchdogs are armed. -/
def startJob (s : State) (key : Nat) (j : Job) : State :=
  let t := sbCount (setJob s key { j with state := jRunning, started := true, startTick := now s }) key 2
  ((List.range j.stages.length).zip j.stages).foldl (fun u x => armDog u key x.1 x.2) t

/-- Whether another job of the partition comes before this one for a core that both want (R434, R461): one of a lower slot, or of the same
slot and admitted earlier, that could start or resume now. -/
def outranked (s : State) (part key : Nat) (j : Job) : Bool :=
  s.jobs.any fun x =>
    x.1 != canaryKey && x.1 != key && jobPart x.1 == part && !x.2.raw &&
      (decide (x.2.slot < j.slot) || (x.2.slot == j.slot && decide (x.2.seq < j.seq))) &&
      ((x.2.state == jStarting && x.2.worked) || x.2.state == jSuspended) && !(behind s part x.2) && !(slotStarted s part x.2.slot) &&
      coresFree s x.1 x.2 && (staticCores s j).any fun k => (staticCores s x.2).contains k

/-- JOB_START (R435): it starts once its cores are free, and suspends the holders of higher slots that hold one. -/
def execJobStart (p : Part) (entry : Fin 256) (s : State) : Res :=
  .next (match jobOf s (jobKey p entry) with
    | none => s
    | some j =>
      if j.state ≠ jStarting ∨ !j.worked ∨ !(jobsLive s p) ∨ behind s p j ∨ slotStarted s p j.slot then s
      else
        let t := claimCores s j
        if coresFree t (jobKey p entry) j && !(outranked t p (jobKey p entry) j) then startJob t (jobKey p entry) j else t)

/-- SUSPENSION_COMPLETE (R441, R443): every core is released; the snapshot of the channels' Tallies is kept. -/
def execSuspensionComplete (p : Part) (entry : Fin 256) (s : State) : Res :=
  .next (
    let key := jobKey p entry
    match jobOf s key with
    | none => s
    | some j =>
      if j.state ≠ jSuspending ∨ !(jobsLive s p) ∨ (jobCores s j).any (fun k => holds s key j k) then s
      else setJob (dropOffers s key) key { j with
        state := jSuspended, suspended := true
        snap := j.chans.flatMap fun c => [(c.2.rowT, tallyVal s c.2.rowT), (c.2.creditT, tallyVal s c.2.creditT)] })

/-- SUSPENSION_TIMEOUT (R442): 210 ticks and the stall ticks, of which TR_TMO_SEAM count at most. -/
def execSuspensionTimeout (p : Part) (entry : Fin 256) (stall : Nat) (s : State) : Res :=
  .next (
    let key := jobKey p entry
    match jobOf s key with
    | none => s
    | some j =>
      if j.state ≠ jSuspending ∨ !(jobsLive s p) ∨ now s < j.suspAt + 210 + min stall (tierDeadline s .seam) then s
      else failJob (setJob s key { j with stall := stall }) key 0xFFFF .timeout)

/-- JOB_RESUME (R444): as a start; a Tally of the snapshot that has moved ends the job with INTEGRITY. -/
def execJobResume (p : Part) (entry : Fin 256) (s : State) : Res :=
  .next (
    let key := jobKey p entry
    match jobOf s key with
    | none => s
    | some j =>
      if j.state ≠ jSuspended ∨ !(jobsLive s p) ∨ behind s p j ∨ slotStarted s p j.slot then s
      else
        let t := claimCores s j
        if !(coresFree t key j) || outranked t p key j then t
        else if j.snap.any fun x => tallyVal t x.1 != x.2 then
          endJob (setJob t key { j with decided := true, status := .integrity, stage := 0xFFFF }) key
        else sbCount (holdDogs (setJob t key { j with state := jRunning }) key false) key 6)

/-! ### Offers (R436) -/

/-- The stage of a job on a core's stream. -/
def stageOn (j : Job) (k : CoreId) (stream : Nat) : Option (Nat × StageRt) :=
  ((List.range j.stages.length).zip j.stages).find? fun x => x.2.core == k && x.2.stream == stream

/-- The job whose command a stream is offered: the canary's, where it has a stage there; on a group core that of the window in
force; else the holder's. -/
def offerJob (s : State) (k : CoreId) (stream : Nat) : Option (Nat × Job × Nat × StageRt) :=
  let has (x : Nat × Job) : Option (Nat × Job × Nat × StageRt) := (stageOn x.2 k stream).map fun y => (x.1, x.2, y.1, y.2)
  let canary := (jobOf s canaryKey).bind fun j => if j.state = jRunning then (has (canaryKey, j)).filter (fun x => !x.2.2.2.spent) else none
  match canary with
  | some x => some x
  | none => match groupOf s k with
    | some g => match windowOf s g with
      | some w => ((s.jobs.filter fun x => x.1 != canaryKey && jobPart x.1 == w.part && !x.2.raw && x.2.slot == w.slot && x.2.state == jRunning).filterMap has).head?
      | none => none
    | none => ((s.jobs.filter fun x => x.1 != canaryKey && (x.2.state == jRunning || x.2.state == jSuspending)).filterMap has).head?

/-- A drain issue of a suspending job (R441): the command opens a window that a command of the job in RUN feeds, or feeds an
open window of the job. -/
def drains (s : State) (key : Nat) (j : Job) (k : CoreId) (d : List Word) : Bool :=
  let runs := s.cores.filterMap fun x => x.2.cur.bind fun r => if r.offer.job = key then some r else none
  let opens := (cmdWindows k d).flatMap fun w => (j.chans.filter fun c => c.2.dst == coreCode k && c.2.window == w.2).map Prod.fst
  let feeds := (pushChain j 3 (cmdPush k d)).map PushSt.chan
  (opens.any fun c => runs.any fun r => r.push.any fun p => p.chan == c) || (feeds.any fun c => runs.any fun r => r.win.any fun w => w.1 == c)

/-- A stream to which a command may be offered: not busy, and nothing offered to it, on a core whose checks of this start or wake have been
judged (R556, R558). A core that is OFF or SUSPECT rejects the offer at issue (R148). -/
def offerable (s : State) (k : CoreId) (stream : Nat) : Bool :=
  coresOn s && ((fbOf s k).checked.isSome || pgState s (corePage k) == cSuspect) && coreSt s k stream == noCore && !(streamBusy (streamState s k stream))

/-- The ticks by which a command may issue later in Idle, where the islands of unused cores are gated: they are added to the nominal time
that is tested against a window's end (R538). -/
def gateTicks (s : State) : Nat := if s.dev.power = 1 then 2 else 0

/-- Whether a command of so many ticks may be offered now: within its window (R450), outside canary entries (R451). -/
def timeAllows (s : State) (key : Nat) (k : CoreId) (ticks : Nat) : Bool :=
  (match groupOf s k with
    | some g => (match windowOf s g with
      | some w => decide (now s + ticks + gateTicks s ≤ w.stop)
      | none => false)
    | none => true) &&
  (key == canaryKey || roState s != roRun || !(isReserved s k || (canaryCores s).contains k) || !(inCanary s)) &&
  (key == canaryKey || roState s != roRun || !(canaryCores s).contains k ||
    (match nextCanary s with
      | some c => decide (now s + ticks ≤ c)
      | none => true))

/-- A command that a quiet interval holds is counted once (R571). -/
def countQuiet (s : State) (k : CoreId) (stream : Nat) : State :=
  if s.fb.waitQ.contains (streamKey k stream) then s
  else ctrAdd { s with fb := { s.fb with waitQ := nlAdd s.fb.waitQ (streamKey k stream) } } (fbPage (stackNo (coreStack k))) 9 1

/-- The offer itself: to the shadow too, on a duplex stage (R574). -/
def putOffer (s : State) (k : CoreId) (stream : Nat) (o : Offer) : State :=
  let t := { s with fb := { s.fb with waitQ := nlDel s.fb.waitQ (streamKey k stream) } }
  match shadowOf t k with
  | some q => setCore (setCore t k stream ⟨some { o with role := 1 }, none⟩) q stream ⟨some { o with role := 2 }, none⟩
  | none => setCore t k stream ⟨some o, none⟩

/-- The next command of a stage offered, unless something holds it. -/
def offerCmd (s : State) (k : CoreId) (stream key : Nat) (j : Job) (i : Nat) (x : StageRt) : State :=
  let part := jobPart key
  let addr := x.addr + 64 * x.next
  let rs := readRange s part addr 64
  if rs ≠ .ok then failJob s key i rs
  else
    let d := readWords s part addr 16
    let ticks := nominalTicks s k part d
    let shadowFree := match shadowOf s k with
      | some q => offerable s q stream
      | none => true
    if !(timeAllows s key k ticks) ∨ !shadowFree ∨ (j.state = jSuspending ∧ !(drains s key j k d)) then s
    else if (quietEnd s k).isSome then countQuiet s k stream
    else
      let dog := stageDog s key i
      if key ≠ canaryKey ∧ breakHolds s part j.slot i x.next then
        (match dog with
          | some n => holdDog s n true
          | none => s)
      else
        let t := match dog with
          | some n => if j.state = jRunning then holdDog s n false else s
          | none => s
        putOffer t k stream ⟨d, part, key, i, x.next, j.seed, decide (x.retries > 0), 0⟩

/-- COMMAND_OFFER (R436). -/
def execCommandOffer (k : CoreId) (stream : Fin 2) (s : State) : Res :=
  .next (match offerJob s k stream with
    | none => s
    | some (key, j, i, x) =>
      if !(jobsLive s (jobPart key)) ∨ x.busy ∨ x.spent ∨ j.decided ∨ !(offerable s k stream) ∨
          (k.cls = .t ∧ (trkOf s k.inst).wait.isSome) then s
      else offerCmd s k stream key j i x)

/-! ### The end of a job (R439) -/

/-- The waits that the end of a job ends (R169): once no command of a job in ENDING runs, those in WAIT leave it with no effect, as a
withdrawn one does (DESIGN CHOICE, log 67). -/
def endJobWaits (s : State) (key : Nat) (j : Job) : State :=
  let mine := s.cores.filterMap fun x => (streamOfKey x.1).filter fun k => runsJob s k.1 k.2 key
  if j.state ≠ jEnding ∨ mine.any (fun k => streamState s k.1 k.2 != cWait) then s
  else mine.foldl (fun t k => abortCmd t k.1 k.2 .ok false) s

/-- Whether a job has come to its end. -/
def jobOver (s : State) (key : Nat) (j : Job) : Bool :=
  !(jobBusy s key) && (j.state == jEnding || ((j.state == jRunning || j.state == jSuspending) && j.stages.all fun x => x.spent))

/-- A job of a partition in reset ends without a record (R460). -/
def endSilently (s : State) (key : Nat) : State :=
  let t := endStreams (disarmDogs (dropOffers s key) key) key
  { t with jobs := smDel t.jobs key }

/-- JOB_END (R439, R433). -/
def execJobEnd (p : Part) (entry : Fin 256) (s : State) : Res :=
  .next (
    let key := jobKey p entry
    match jobOf s key with
    | none => s
    | some j =>
      if !(devRunning s) then s
      else
        let t := endJobWaits s key j
        if !(jobOver t key j) then s
        else if inReset s p then endSilently t key else endJob t key)

/-! ### Partial reset (R460) -/

/-- The jobs of a partition when its partial reset begins: one with no command in WAIT or RUN is gone; the others end at their
command boundaries. -/
def jobsResetBegin (s : State) (n : Nat) : State :=
  (s.jobs.filter fun x => x.1 != canaryKey && jobPart x.1 == n).foldl (fun t x =>
    if jobBusy t x.1 then setJob (dropOffers t x.1) x.1 { x.2 with state := jEnding, decided := true } else endSilently t x.1) s

/-- The ring of a partition when its partial reset completes. -/
def jobsResetEnd (s : State) (n : Nat) : State :=
  let t := (s.jobs.filter fun x => x.1 != canaryKey && jobPart x.1 == n).foldl (fun t x => endSilently t x.1) s
  let p := sbPage n
  setReg (setReg { t with ring := smClear t.ring (ringKey n 0) (ringKey (n + 1) 0), prodAt := smDel t.prodAt n } p 0x104 0) p 0x108 0

/-! ### The submission page (R457) -/

def sbSlots (s : State) (part : Nat) : Word :=
  BitVec.ofNat 32 (((List.range 16).map fun i =>
    (if slotStarted s part i then 2 ^ i else 0) +
      (if s.jobs.any fun x => x.1 != canaryKey && jobPart x.1 == part && !x.2.raw && x.2.slot == i && x.2.state == jSuspended then 2 ^ (16 + i) else 0)).sum)

def sbQstat (s : State) (part : Nat) : Word :=
  match jobOf s (jobKey part (regField s (sbPage part) 0x110 7 0)) with
  | some j => BitVec.ofNat 32 (j.state + statusCode j.status * 256)
  | none => 15

def sbView (s : State) (p : Page) (off : Nat) : Option Word :=
  if p.cls = .ring ∧ p.inst ≠ 0 then
    if off = 0x10C then some (sbSlots s (p.inst - 1)) else if off = 0x114 then some (sbQstat s (p.inst - 1)) else none
  else none

end Sys2Proof.Machine
end

