-- ==== Sys2Proof/Machine/Roster.lean ====
section
/-! DEFINITION. The roster (R445 to R456): loading a table, its state machine, and the boundaries of frames, windows and canary
entries. -/

namespace Sys2Proof.Machine

/-! ### Loading a table (R446) -/

def roWord (s : State) (i j : Nat) : Word := readWord s 0 (regField s roPage 0x104 27 0 * pageBytes + 16 * i + 4 * j)

def roEntryOf (w0 w1 w2 : Word) : RoEntry := ⟨field w0 16 0, field w1 16 0, field w2 31 28, field w2 23 20, field w2 19 16, field w2 15 12⟩

/-- An entry's own conditions: defined encodings, reserved bits, its times, its group and its minor frame. -/
def roSelfBad (s : State) (w0 w1 w2 w3 : Word) : Bool :=
  let e := roEntryOf w0 w1 w2
  let l := s.dev.layout
  decide (e.kind > 2) || field w0 31 17 != 0 || field w1 31 17 != 0 || field w2 27 24 != 0 || field w2 11 0 != 0 || w3 != 0 ||
    (e.kind != 1 && field w2 23 12 != 0) ||
    (e.kind != 0 && (decide (e.start > 99999) || e.dur == 0 || decide (e.start + e.dur > frameTicks))) ||
    (e.kind == 1 && !(match l with
      | some x => (x.groups.getD e.group 0).getLsbD e.part
      | none => false)) ||
    (e.kind == 2 && (e.dur != 200 || decide (e.start % 10000 + 200 > 10000)))

/-- What a pair of entries breaks together, seen from the later one. -/
def roPairBad (x y : RoEntry) : Bool :=
  (x.kind == 0 && y.kind != 0) ||
    (x.kind != 0 && y.kind != 0 &&
      (decide (y.start < x.start) ||
        (x.kind == 1 && y.kind == 1 && x.group == y.group && decide (y.start < x.start + x.dur ∧ x.start < y.start + y.dur)) ||
        (x.kind == 2 && y.kind == 2 && x.start / 10000 == y.start / 10000) ||
        (x.kind == 2 && (y.start == x.start || y.start + y.dur == x.start)) ||
        (y.kind == 2 && (x.start == y.start || x.start + x.dur == y.start))))

/-- The first entry of a table that fails, from index i on, with the entries before it. -/
def roFirstBad (s : State) : Nat → List RoEntry → List (Word × Word × Word × Word) → Option Nat
  | _, _, [] => none
  | i, before, (w0, w1, w2, w3) :: rest =>
    let e := roEntryOf w0 w1 w2
    if roSelfBad s w0 w1 w2 w3 ∨ before.any (fun x => roPairBad x e) then some i else roFirstBad s (i + 1) (e :: before) rest

/-- The entries of the table in memory, and the first that fails: a minor frame without a CANARY fails at the first EMPTY entry,
or at the last. -/
def roCheckTable (s : State) : List RoEntry × Option Nat :=
  let base := regField s roPage 0x104 27 0 * pageBytes
  match (List.range 1024).find? fun i => readRange s 0 (base + 16 * i) 16 != .ok with
  | some i => ([], some i)
  | none =>
    let ws := (List.range 1024).map fun i => (roWord s i 0, roWord s i 1, roWord s i 2, roWord s i 3)
    let es := ws.map fun w => roEntryOf w.1 w.2.1 w.2.2.1
    match roFirstBad s 0 [] ws with
    | some i => (es, some i)
    | none =>
      if (List.range 10).all fun m => es.any fun e => e.kind == 2 && e.start / 10000 == m then (es.filter fun e => e.kind != 0, none)
      else (es, some (es.findIdx (fun e => e.kind == 0) |> min 1023))

/-- RO_CMD LOAD (R446): a passing table is pending; with no roster in RUN it is in force at once. -/
def roLoad (s : State) : State :=
  let x := roCheckTable s
  match x.2 with
  | some i => ctrAdd (setFlag (setReg (setRegField s roPage 0x114 23 16 (statusCode .range)) roPage 0x11C (BitVec.ofNat 32 i)) roPage 0) roPage 7 1
  | none =>
    let t := ctrAdd (setRegField s roPage 0x114 23 16 0) roPage 6 1
    if roState t = roRun then { t with roster := { t.roster with pend := some x.1 } } else { t with roster := { t.roster with table := some x.1 } }

/-! ### The state machine (R455) -/

def setRoState (s : State) (n : Nat) : State := setBusy (setPgState s roPage n) roPage (n != roOff)

/-- RO_CTRL EN written. -/
def roEnable (s : State) (en : Bool) : State :=
  let t := { s with roster := { s.roster with stop := !en } }
  if en then (if roState s = roOff then setReg (setRoState t roArmed) roPage 0x118 0 else t)
  else if roState s = roArmed then setRoState t roOff else t

/-- A quiet table that awaits this frame comes into force (R571). -/
def quietSwitch (s : State) (h : Nat) : State :=
  match smFind s.fb.quietTo h with
  | none => s
  | some q => setRegField { s with fb := { s.fb with quiet := smPut s.fb.quiet h q, quietTo := smDel s.fb.quietTo h } } (fbPage h) 0x104 0 0 1

/-- A major frame begins. -/
def beginFrame (s : State) (start : Nat) : State :=
  let r := s.roster
  let t := { s with roster := { r with frame0 := start, table := r.pend.orElse (fun _ => r.table), pend := none } }
  let u := ctrAdd (setReg t roPage 0x118 (regVal t roPage 0x118 + 1)) roPage 1 1
  quietSwitch (quietSwitch u 0) 1

/-- ROSTER_ORIGIN_REACHED (R52, R455): frames count from RO_ORIGIN, also where it lies in the past. The origin is reached by the low 32 bits,
and the frames lie on the series RO_ORIGIN + 100,000 × k of the whole register. -/
def execRosterOriginReached (s : State) : Res :=
  .next (
    let o := roOrigin s
    if roState s ≠ roArmed ∨ !(devRunning s) ∨ !(reachedAt s o) then s
    else
      let t := setRoState s roRun
      let f := now s - (((now s : Int) - o) % frameTicks).toNat
      if f = now s then beginFrame t f else { t with roster := { t.roster with frame0 := f, late := some (now s) } })

/-- MAJOR_FRAME_BOUNDARY (R445, R446, R455): a pending EN = 0 takes the roster to OFF. -/
def execMajorFrameBoundary (s : State) : Res :=
  .next (
    let f := s.roster.frame0 + frameTicks
    if roState s ≠ roRun ∨ !(devRunning s) ∨ !(reachedAt s f) then s
    else if s.roster.stop then
      let t := setRoState s roOff
      { t with roster := { t.roster with table := t.roster.pend.orElse (fun _ => t.roster.table), pend := none } }
    else beginFrame s f)

/-! ### Windows and canary entries (R448 to R451) -/

/-- The members of a time-shared group. -/
def groupCores (s : State) (g : Nat) : List CoreId := allCores.filter fun k => groupOf s k == some g

/-- The window of a group core's counters restarts (R659). -/
def rebase (s : State) (p : Page) : State :=
  { s with cnt := { s.cnt with base := (List.range 24).foldl (fun m i => smSet 0 m (ctrKey p i) (ctrVal s p i)) s.cnt.base } }

/-- The owner of a group core (R98, R99): a window starts with PG_OWNER[8] clear; outside every window it is set. -/
def giveCore (s : State) (k : CoreId) (part : Nat) (locked : Bool) : State :=
  let p := corePage k
  rebase (setRegField (setRegField s p 0x020 3 0 part) p 0x020 8 8 locked.toNat) p

/-- The commands that are in WAIT or RUN on some cores, by stream and tick of issue. -/
def runningOn (s : State) (ks : List CoreId) : List (Nat × Nat) :=
  ks.flatMap fun k => (streamsOf k).filterMap fun i => (curOf s k i).map fun r => (streamKey k i, r.issue)

/-- A window ends. A command that still runs on its cores and does not end in this tick overruns it (R450, R461): the tick's boundary
tells. -/
def endWindow (s : State) (g : Nat) : State :=
  let ks := groupCores s g
  let past := runningOn s ks
  let t := { s with roster := { s.roster with wins := smDel s.roster.wins g } }
  let u := ks.foldl (fun x k => giveCore x k 0 true) t
  if past.isEmpty then u else atBoundary u (.windowPast past)

/-- The commands of a window that has ended, at the boundary after it: one that still runs has overrun it (R450). -/
def windowPast (s : State) (cmds : List (Nat × Nat)) : State :=
  if cmds.any fun c => (runningOn s allCores).contains c then ctrAdd (setFlag s roPage 1) roPage 3 1 else s

/-- A window begins. -/
def beginWindow (s : State) (e : RoEntry) (stop : Nat) : State :=
  let t := { s with roster := { s.roster with wins := smPut s.roster.wins e.group ⟨e.part, e.slot, stop⟩ } }
  ctrAdd ((groupCores t e.group).foldl (fun x k => giveCore x k e.part false) t) roPage 2 1

/-- An entry begins, once. -/
def beginEntry (s : State) (i : Nat) (e : RoEntry) : State :=
  let stop := s.roster.frame0 + e.start + e.dur
  let t := setRegField s roPage 0x114 9 0 i
  if e.kind = 1 then
    if windowOf s e.group = some ⟨e.part, e.slot, stop⟩ then s else beginWindow t e stop
  else if s.roster.canaryEnd = stop then s
  else
    let u := ctrAdd { t with roster := { t.roster with canaryEnd := stop } } roPage 4 1
    { u with fb := { u.fb with canDue := u.fb.canDue ++ [now u] } }

/-- ROSTER_BOUNDARY (R52, R448): the entries that end in this tick, then those that begin, in ascending index. In the tick in which a roster
goes late to RUN none begins (R455). -/
def execRosterBoundary (s : State) : Res :=
  .next (
    if !(devRunning s) then s
    else
      let t := (s.roster.wins.filter fun w => reachedAt s w.2.stop).foldl (fun u w => endWindow u w.1) s
      if roState t ≠ roRun ∨ t.roster.late = some (now t) then t
      else
        let es := roEntries t
        (((List.range es.length).zip es).filter fun x => reachedFirst t (t.roster.frame0 + x.2.start)).foldl (fun u x => beginEntry u x.1 x.2) t)

/-! ### The roster page (R453 to R455) -/

def roLoaded (s : State) : Bool := s.roster.table.isSome || s.roster.pend.isSome

def roGroupWord (s : State) (g : Nat) : Word :=
  let ks := groupCores s g
  match s.dev.layout, ks.head? with
  | some l, some k => BitVec.ofNat 32 ((l.groups.getD g 0).toNat * 65536 + clsCode (corePage k).cls * 256 + ks.length)
  | _, _ => 0

def roView (s : State) (p : Page) (off : Nat) : Option Word :=
  if p ≠ roPage then none
  else if off = 0x114 then
    some (setBit (setBit (regVal s p 0x114) 31 s.roster.pend.isSome) 30 (roLoaded s))
  else if 0x200 ≤ off ∧ off < 0x240 then some (roGroupWord s ((off - 0x200) / 4))
  else none

def roCheck (s : State) (p : Page) (off : Nat) (v : Word) : Option Status :=
  if p ≠ roPage then none
  else if off = 0x110 then (if field v 1 0 ≠ 1 then some .range else if s.roster.pend.isSome then some .busy else none)
  else if off = 0x100 then (if bit v 0 ∧ roState s = roOff ∧ !(roLoaded s) then some .stateIllegal else none)
  else if (off = 0x108 ∨ off = 0x10C) ∧ roState s ≠ roOff then some .stateIllegal
  else none

def roAct (s : State) (p : Page) (off : Nat) (v : Word) : State :=
  if p ≠ roPage then s
  else if off = 0x100 then roEnable s (bit v 0)
  else if off = 0x110 then roLoad s
  else s

end Sys2Proof.Machine
end

