-- ==== Sys2Proof/Machine/Fireboss.lean ====
section
/-! DEFINITION. Fireboss (chapter 14): suspect cores (R553, R554), start-up checks (R555, R556), watchdog expiries (R561), the canary
frame (R564 to R568), periodic self-test (R569 to R572), weight digests (R576 to R578), charge between the stacks (R580 to
R582), and the Fireboss and watchdog pages. -/

namespace Sys2Proof.Machine

def fbOfCore (k : CoreId) : Page := fbPage (stackNo (coreStack k))
def isSuspect (s : State) (k : CoreId) : Bool := pgState s (corePage k) == cSuspect

/-! ### Suspect marks (R553, R554) -/

/-- FB_DIAG records what was found on a core: kind 1 a slice failure, 2 a start check, 3 a digest. -/
def diagCore (s : State) (k : CoreId) (kind slice : Nat) : State :=
  rcPut s (fbOfCore k) 0x110 (BitVec.ofNat 32 (2 ^ 31 + coreCode k * 2 ^ 16 + kind * 2 ^ 12 + slice))

/-- The command of a stream ends with INTEGRITY at a mark (R148): its registers, and its job. -/
def endMarked (s : State) (k : CoreId) (stream : Nat) : State :=
  match curOf s k stream with
  | none => s
  | some r =>
    if r.offer.role = 2 then endShadow s k r ⟨0, 0, 0, 0⟩ .integrity
    else if streamState s k stream = cWait then jobAfter (traceCmd (abortCmd s k stream .integrity true) k r.offer .integrity true) r .integrity
    else finishCmd s k stream r ⟨0, 0, 0, 0⟩ .integrity

/-- A mark is device-fatal on a reserved core of PT0 and on a C-core (R553). -/
def markFatal (s : State) (k : CoreId) : Bool := k.cls == .c || isReserved s k

/-- The trip of a mark (R552), and the retest of a core that is marked for the first time (R554). -/
def judgeMark (s : State) (k : CoreId) : State :=
  let h := stackNo (coreStack k)
  if markFatal s k then fatalTrip s h 2 (corePage k)
  else
    let x := fbOf s k
    trip (setFb s k { x with bootBad := false, retest := if x.marks ≤ 1 then some 0 else none }) h 2 0 (corePage k)

/-- A core is marked suspect. During boot the mark is judged when DEVICE enters RUN (R556). -/
def markNow (s : State) (k : CoreId) : State :=
  let x := fbOf s k
  let t := setFb s k { x with marks := x.marks + 1, pendMark := false, retest := none }
  let u := if k.cls = .c then ccSuspectEnter t k.inst
    else (streamsOf k).foldl (fun y i => setStreamState (endMarked y k i) k i cSuspect) t
  if devState u = stBoot then setFb u k { fbOf u k with bootBad := true } else judgeMark u k

/-- MARK of a core (R148, R553): in SELFTEST it takes effect at the slice's end; a SUSPECT core stays as it is. -/
def markCore (s : State) (k : CoreId) : State :=
  if isSuspect s k then s
  else if k.cls ≠ .c ∧ pgState s (corePage k) = cSelftest then setFb s k { fbOf s k with pendMark := true }
  else markNow s k

/-- The marks and failures of boot, judged in the tick in which DEVICE enters RUN (R556). -/
def bootJudge (s : State) : State :=
  let t := (allCores.filter fun k => (fbOf s k).bootBad).foldl (fun u k => judgeMark u k) s
  match t.fb.bootFail with
  | none => t
  | some (c, i) =>
    let p : Page := ⟨(allCls.find? fun k => clsCode k == c % 256).getD .fireboss, i⟩
    fatalTrip { t with fb := { t.fb with bootFail := none } } (actingStack t p) (c / 256) p

/-- A lockstep mismatch of a C-core (R419, R420, R553): a running core flags it, and Fireboss marks the core. -/
def lockstepMiss (s : State) (core : Nat) : State :=
  let p : Page := ⟨.c, core⟩
  if pgState s p ≠ ccRun ∨ !(coresOn s) then s else markCore (ctrAdd (setFlag s p 0) p 3 1) ⟨.c, core⟩

/-! ### Start-up checks (R555, R556, R558) -/

/-- STARTUP_CHECKS (R555): at a start or a wake, while a Fireboss is CHECKING, its cores have their checks before them. An
injected flag is cleared and not counted. -/
def execStartupChecks (h : Stack) (s : State) : Res :=
  .next (
    if pgState s (fbPage (stackNo h)) ≠ fbChecking then s
    else (allCores.filter fun k => coreStack k == h).foldl (fun t k => setFb t k { fbOf t k with checked := none }) s)

/-- A Fireboss whose cores have all been checked is READY. -/
def checksDone (s : State) (h : Stack) : State :=
  if pgState s (fbPage (stackNo h)) = fbChecking ∧
      (allCores.filter fun k => coreStack k == h).all fun k => (fbOf s k).checked.isSome || isSuspect s k
  then setPgState s (fbPage (stackNo h)) fbReady else s

/-- STARTUP_CHECK_RESULT (R555, R556): what a checker that does not flag costs. -/
def execStartupCheckResult (c : Checker) (pass : Bool) (s : State) : Res :=
  .next (
    if devState s = stHalt then s
    else match c with
      | .core k =>
        if pgState s (fbOfCore k) ≠ fbChecking then s
        else if pass then checksDone (setFb s k { fbOf s k with checked := some (now s), points := 0, due := 0 }) (coreStack k)
        else checksDone (markCore (diagCore s k 2 0) k) (coreStack k)
      | _ =>
        if pass then s
        else match c with
          | .core _ => s
          | .drift n => setPgState s ⟨.drift, n⟩ 3
          | .seam n => setPgState s ⟨.seam, n⟩ 3
          | .keeper h => setPgState s ⟨.keeper, stackNo h⟩ 3
          | .gallery h => fatalTrip s (stackNo h) 7 ⟨.gallery, stackNo h⟩
          | .tables h => fatalTrip s (stackNo h) 7 ⟨.hoist, stackNo h⟩
          | .duplex h => fatalTrip s (stackNo h) 7 (fbPage (stackNo h))
          | .lockstep h => fatalTrip s (stackNo h) 7 (fbPage (stackNo h))
          | .watchdogs h => fatalTrip s (stackNo h) 7 (wdPage (stackNo h))
          | .tick => fatalTrip s (chargeOf s) 7 tickPage
          | .keySlots => fatalTrip s (chargeOf s) 7 (mbPage 0))

/-! ### Watchdogs (R561) -/

/-- The watchdog that the end of a command kicks outside its windows: the end of a stage's command with OK whose kick is EARLY (R561). -/
def earlyOf (s : State) (c : Instr) : Option Nat :=
  match c with
  | .commandEnd k stream _ err => match curOf s k stream with
    | none => none
    | some r =>
      let fine : Bool := match err with
        | .none | .corrected _ => true
        | _ => false
      if fine ∧ r.fail.isNone ∧ mayEnd s k stream r ∧ !(badReached s r) ∧ !(inReset s r.offer.part) ∧
          writesStatus s r.offer.part (runOut s k stream r) = .ok then
        (kickedDog s r.offer.job r.offer.stage r.offer.index).filter fun d => (dogOf s d).any fun x => kickOf s d x == .early
      else none
  | _ => none

/-- The commands that wait in the tick in progress. -/
def restOfTick (s : State) : List Instr := s.pending.takeWhile fun c => match c with
  | .tickBoundary .. => false
  | _ => true

/-- WATCHDOG_EXPIRY (R561, R687): the close of a window without a kick has passed, or the end of a command that waits in this tick brings a
kick outside a window. -/
def execWatchdogExpiry (h : Stack) (n : Fin 256) (s : State) : Res :=
  .next (
    let d := dogKey (stackNo h) n
    match dogOf s d with
    | none => s
    | some x =>
      if !(devRunning s) ∨ x.out ∨ x.held then s
      else if reachedAt s (dogClose s d x + 1) then expireDog s d false
      else if (restOfTick s).any (fun c => earlyOf s c == some d) then expireDog s d true
      else s)

/-! ### The canary (R564 to R568) -/

def canaryOut (s : State) (outcome : Nat) (st : Status) : State :=
  setReg s (fbPage 0) 0x140 (BitVec.ofNat 32 (s.fb.canFrame % 65536 * 65536 + outcome * 256 + statusCode st))

/-- A canary that failed (R567): counted; the obligation goes on. -/
def canaryFailed (s : State) (st : Status) : State := ctrAdd (setFlag (canaryOut s 3 st) (fbPage 0) 2) (fbPage 0) 6 1

/-- What a canary graph fails on (R425, R434, R564). -/
def canaryStatus (s : State) : Status :=
  match readGraph s 0 (canaryGraph s) with
  | .error st => st
  | .ok g => orderFails (graphFails s 0 g.batch g ++ when (!g.safety) .range)

/-- CANARY_START (R565, R566): the oldest entry that awaits its canary, once every canary core is IDLE. -/
def execCanaryStart (s : State) : Res :=
  .next (match s.fb.canDue with
    | [] => s
    | t0 :: rest =>
      if !(devRunning s) ∨ (jobOf s canaryKey).isSome then s
      else
        let t := { s with fb := { s.fb with canFrame := (t0 - roOrigin s) / 10000 } }
        let st := canaryStatus t
        if st ≠ .ok then canaryFailed { t with fb := { t.fb with canDue := rest } } st
        else if !((canaryCores t).all fun k => (streamsOf k).all fun i => streamState t k i == cIdle) then s
        else match readGraph t 0 (canaryGraph t) with
          | .error _ => s
          | .ok g =>
            let j := { rawJob t.jobSeq 0 with raw := false, state := jRunning, worked := true, safety := true, started := true, issued := true, stages := stageRts g }
            let u := setJob { t with fb := { t.fb with canDue := rest } } canaryKey j
            if now u > t0 then ctrAdd (setFlag u roPage 2) roPage 5 1 else u)

/-- The digest of the output region (R577), or the status of reading it. -/
def canaryDigest (s : State) : Except Status (List Byte) :=
  let a := regField s (fbPage 0) 0x128 27 0 * pageBytes
  let n := regField s (fbPage 0) 0x12C 12 0 * pageBytes
  let st := readRange s 0 a n
  if st = .ok then .ok ((sha384 (readBytes s 0 a n)).take 16) else .error st

def canaryRef (s : State) : List Byte := (List.range 4).flatMap fun i => wordBytes (regVal s (fbPage 0) (0x130 + 4 * i))

/-- CANARY_COMPARE (R565, R567): the canary has ended, and its digest is judged. An output region that cannot be read counts as FAILED with
the status of the read (DESIGN CHOICE, log 43). -/
def execCanaryCompare (s : State) : Res :=
  .next (
    let past := match jobOf s canaryKey with
      | some j => jobOver s canaryKey j
      | none => false
    if !past ∨ !(devRunning s) then s
    else
      let t := endJob s canaryKey
      let st := t.fb.canEnd.getD .ok
      let u := { t with fb := { t.fb with canEnd := none } }
      if st ≠ .ok then canaryFailed u st
      else match canaryDigest u with
        | .error e => canaryFailed u e
        | .ok d =>
          if d = canaryRef u then
            let v := ctrAdd (canaryOut u 1 .ok) (fbPage 0) 5 1
            { v with fb := { v.fb with lastPass := now v } }
          else fatalTrip (ctrAdd (setFlag (canaryOut u 2 .ok) (fbPage 0) 2) (fbPage 0) 6 1) 0 3 (fbPage 0))

/-- CANARY_MISSING (R568). -/
def execCanaryMissing (s : State) : Res :=
  .next (if devRunning s ∧ regBit s (fbPage 0) 0x100 0 ∧ now s ≥ s.fb.lastPass + 20000 then fatalTrip s 0 4 (fbPage 0) else s)

/-! ### Periodic self-test (R569 to R572) -/

/-- The number of slices of a class in the self-test pack (R569). -/
def sliceCount (s : State) (cls : CoreCls) : Nat :=
  let i := match cls with
    | .m => 0 | .v => 1 | .a => 2 | .l => 3 | .f => 4 | .t => 5 | .c => 6
  max 1 (min 1024 (atN (imgBody (s.sec.boot.comps.getD 3 [])) (2 * i) 2))

def duePeriod (s : State) (k : CoreId) : Nat := 60000000 / sliceCount s k.cls

/-- The tick of a core's latest due point. -/
def dueTick (s : State) (k : CoreId) : Nat := ((fbOf s k).checked.getD 0) + (fbOf s k).points * duePeriod s k

/-- SLICE_DUE_POINT (R572): the next slice in order falls due. -/
def execSliceDuePoint (k : CoreId) (s : State) : Res :=
  .next (
    let x := fbOf s k
    if devRunning s ∧ x.checked.isSome ∧ dueTick s k + duePeriod s k ≤ now s then setFb s k { x with points := x.points + 1, due := x.due + 1 } else s)

/-- A due point passes at the end of its tick (R572): a slice that has not started is counted DEFERRED. -/
def passDuePoints (s : State) : State :=
  (allCores.filter fun k => (fbOf s k).points != 0 && (fbOf s k).due != 0 && dueTick s k == now s).foldl (fun t k => ctrAdd t (fbOfCore k) 4 1) s

/-- The next boundary of a group's windows (R570); none while the roster is not in RUN. -/
def groupBoundary (s : State) (g : Nat) : Option Nat :=
  if roState s ≠ roRun then none
  else match windowOf s g with
    | some w => some w.stop
    | none =>
      let mine (l : List RoEntry) : List Nat := (l.filter fun e => e.kind == 1 && e.group == g).map RoEntry.start
      match (mine (roEntries s)).find? fun o => decide (now s < s.roster.frame0 + o) with
      | some o => some (s.roster.frame0 + o)
      | none => (mine (nextEntries s)).head?.map fun o => s.roster.frame0 + frameTicks + o

/-- Whether a slice fits now (R570). -/
def sliceFits (s : State) (k : CoreId) : Bool :=
  if !(coresOn s) then false
  else if k.cls = .c then !(isSuspect s k)
  else if isSuspect s k then true
  else (streamsOf k).all (fun i => streamState s k i == cIdle) &&
    (match coreAssign s k with
      | .part p _ => p != 0 || (match quietEnd s k with
        | some e => decide (now s + 50 ≤ e)
        | none => false)
      | .group g => (match groupBoundary s g with
        | some b => decide (now s + 50 ≤ b)
        | none => true)
      | .unassigned => false) &&
    !(inCanary s && (canaryCores s).contains k)

/-- The index that stands for a digest slice (R576). -/
def digSlice : Nat := 1024

/-- The slice that would start on a core now: a retest's, else the next one that is due, else a digest slice (DESIGN CHOICE, log 43: the
order among them). -/
def sliceNext (s : State) (k : CoreId) : Option Nat :=
  let x := fbOf s k
  if x.slice.isSome ∨ x.checked.isNone then none
  else match x.retest with
    | some i => some i
    | none => if isSuspect s k then none else if x.due ≠ 0 then some x.next else x.dig.map fun _ => digSlice

/-- SELFTEST_SLICE_START (R570, R554). -/
def execSelftestSliceStart (k : CoreId) (s : State) : Res :=
  .next (match sliceNext s k with
    | none => s
    | some i =>
      if !(devRunning s) ∨ !(sliceFits s k) then s
      else
        let x := fbOf s k
        let y := { x with slice := some (i, now s, isSuspect s k) }
        let z := if x.retest.isSome ∨ i = digSlice then y else { y with due := x.due - 1, next := (x.next + 1) % sliceCount s k.cls }
        let t := setFb s k z
        if k.cls = .c then t else (streamsOf k).foldl (fun u j => setStreamState u k j cSelftest) t)

/-- A replica found odd: DIG_ODD, and its count (R586, R589). -/
def digOdd (s : State) : State := ctrAdd (setFlag s (fbPage 0) 4) (fbPage 0) 12 1

/-- The age of a core in ticks (R572). -/
def coreAge (s : State) (k : CoreId) : Nat :=
  let x := fbOf s k
  match x.checked with
  | none => 0
  | some t0 => now s - ((List.range (sliceCount s k.cls)).map fun i => smGet t0 x.last i).foldl min (now s)

def debtAge : Nat := 120000000

/-- The state that a core returns to after a slice. -/
def leaveSlice (s : State) (k : CoreId) (st : Nat) : State :=
  if k.cls = .c then s else (streamsOf k).foldl (fun u j => setStreamState u k j st) s

/-- A slice passed: its pass is recorded; the last of a retest clears the mark (R554). -/
def slicePassed (s : State) (k : CoreId) (i : Nat) (sus : Bool) : State :=
  let x := fbOf s k
  let more := match x.retest with
    | some r => if r + 1 < sliceCount s k.cls then some (r + 1) else none
    | none => none
  let t := ctrAdd (setFb s k { x with slice := none, last := smPut x.last i (now s), retest := more }) (fbOfCore k) 2 1
  let u := leaveSlice t k (if sus && more.isSome then cSuspect else cIdle)
  let v := if (fbOf u k).debt ∧ coreAge u k ≤ debtAge then setFb u k { fbOf u k with debt := false } else u
  if (fbOf v k).pendMark then markNow (leaveSlice v k cIdle) k else v

/-- One entry judged for a core once its digest slices have been read: a core that reads it otherwise than the manifest is marked (R578). -/
def digestSliceEnd (s : State) (k : CoreId) : State :=
  let x := fbOf s k
  let left := match x.dig with
    | some (n + 2, odd) => some (n + 1, odd)
    | _ => none
  let t := leaveSlice (setFb s k { x with slice := none, dig := left }) k cIdle
  let odd := left.isNone && x.dig.any Prod.snd
  let u := if odd then markCore (diagCore (digOdd t) k 3 0) k else t
  if x.pendMark ∧ !odd then markNow u k else u

/-- SELFTEST_SLICE_END (R572): after its 50 ticks a slice passes, or its failure marks the core. -/
def execSelftestSliceEnd (k : CoreId) (pass : Bool) (s : State) : Res :=
  .next (match (fbOf s k).slice with
    | none => s
    | some (i, t0, sus) =>
      if !(devRunning s) ∨ now s < t0 + 50 then s
      else if i = digSlice then digestSliceEnd s k
      else if pass then slicePassed s k i sus
      else
        let t := setFb s k { fbOf s k with slice := none }
        markNow (leaveSlice (ctrAdd (diagCore t k 1 i) (fbOfCore k) 3 1) k cIdle) k)

/-- COVERAGE_DEBT (R572). -/
def execCoverageDebt (k : CoreId) (s : State) : Res :=
  .next (if devRunning s ∧ !(fbOf s k).debt ∧ coreAge s k > debtAge then setFlag (setFb s k { fbOf s k with debt := true }) (fbOfCore k) 1 else s)

/-! ### Quiet tables (R571) -/

/-- An interval of the table in memory; none where it breaks a condition. -/
def quietAt (s : State) (h base i : Nat) : Option Quiet :=
  let w0 := readWord s 0 (base + 8 * i)
  let w1 := readWord s 0 (base + 8 * i + 4)
  let d := field w0 31 16
  let st := field w1 16 0
  match coreOfCode (field w0 7 0) with
  | some k =>
    let mine := match coreAssign s k with
      | .part p _ => p == 0
      | _ => false
    if k.cls = .c ∨ !mine ∨ stackNo (coreStack k) ≠ h ∨ field w0 15 8 ≠ 0 ∨ field w1 31 17 ≠ 0 ∨ d < 50 ∨ d > 10000 ∨ st > 99999 ∨ st + d > frameTicks
    then none else some ⟨coreCode k, st, d⟩
  | none => none

def quietClash (a b : Quiet) : Bool := a.core == b.core && decide (a.start < b.start + b.dur ∧ b.start < a.start + a.dur)

/-- The table up to its end mark; none where it is refused. -/
def quietTable (s : State) (h base : Nat) : Nat → Nat → List Quiet → Option (List Quiet)
  | 0, _, acc => some acc
  | n + 1, i, acc =>
    if field (readWord s 0 (base + 8 * i)) 7 0 = 0xFF then some acc
    else match quietAt s h base i with
      | none => none
      | some q => if acc.any (quietClash q) then none else quietTable s h base n (i + 1) (acc ++ [q])

def quietStatus (s : State) (h : Nat) (st : Status) : State := setRegField s (fbPage h) 0x104 23 16 (statusCode st)

/-- FB_CMD LOAD_QUIET (R571). -/
def loadQuiet (s : State) (h : Nat) : State :=
  let base := regField s (fbPage h) 0x11C 27 0 * pageBytes
  let st := readRange s 0 base 2048
  if st ≠ .ok then quietStatus s h st
  else match quietTable s h base 256 0 [] with
    | none => quietStatus s h .range
    | some q => quietStatus { s with fb := { s.fb with quietTo := smPut s.fb.quietTo h q } } h .ok

/-! ### Weight digests (R576 to R578) -/

/-- A manifest entry: first page, pages, digest. -/
structure DigEntry where
  first  : Nat
  pages  : Nat
  digest : List Byte
  deriving DecidableEq, Repr

def manBody (s : State) (n : Nat) : List Byte := match (secOf s n).manifest with
  | some m => imgBody m
  | none => []

def digEntry (body : List Byte) (i : Nat) : DigEntry := ⟨atN body (128 + 32 * i) 4, atN body (132 + 32 * i) 4, sub body (136 + 32 * i) 16⟩

def digPages (e : DigEntry) : List Nat := (List.range e.pages).map fun i => (e.first + i) % 2 ^ 28

def digResident (s : State) (n : Nat) (e : DigEntry) : Bool := (digPages e).all fun v => (pteOf s n v).v && (pteOf s n v).home != .seam

/-- The next entry of a partition that can be digested, from an index on, and how many were skipped. -/
def digNext (s : State) (n : Nat) (body : List Byte) (total : Nat) : Nat → Nat → Nat → Option Nat × Nat
  | 0, _, k => (none, k)
  | m + 1, i, k => if digResident s n (digEntry body (i % total)) then (some (i % total), k) else digNext s n body total m (i + 1) (k + 1)

/-- The module's own digest of an entry; none where a page cannot be read. -/
def digOwn (s : State) (n : Nat) (e : DigEntry) : Option (List Byte) :=
  if firstBad ((digPages e).map fun v => pageReadable s n v) ≠ .ok then none
  else some ((sha384 ((digPages e).flatMap fun v => readBytes s n (v * pageBytes) pageBytes)).take 16)

/-- The module's copy differs: pages with a valid Seam copy are moved back from Seam, from the next boundary on (R214); another page is
partition-fatal. -/
def digReload (s : State) (n : Nat) (e : DigEntry) : State :=
  (digPages e).foldl (fun t v =>
    let x := pteOf t n v
    if x.home = .seam ∨ x.mig then t
    else if x.sv then atBoundary t (.digMove n v)
    else partitionFatal t n (fbPage 0)) s

/-- A page of a digest dropped to its Seam copy and moved back (R578). -/
def digMove (s : State) (n v : Nat) : State :=
  let x := pteOf s n v
  if x.home = .seam ∨ x.mig ∨ !x.sv then s
  else
    let t := dropTo s n v .seam
    match beginMove t n v x.home .digest none with
    | some (_, u) => u
    | none => t

/-- The cores that the duplex entries give an entry of PT0 to digest. -/
def digCores (s : State) (i : Nat) : List CoreId :=
  (List.range 32).flatMap fun j =>
    let w := duplexWord s j
    if bit w 31 ∧ field w 28 16 = i then (coreOfCode (field w 7 0)).toList ++ (coreOfCode (field w 15 8)).toList else []

/-- The digest slices of an entry on a core: up to 48 pages each (R576). -/
def digBegin (s : State) (k : CoreId) (pages : Nat) (odd : Bool) : State :=
  if isSuspect s k then s else setFb s k { fbOf s k with dig := some ((pages + 47) / 48, odd) }

/-- One entry judged; `odd` are the cores whose own stage-in reads it otherwise, which is judged at the end of their digest slices. The
result goes to the mate (R612). -/
def digJudge (s : State) (n i : Nat) (e : DigEntry) (odd : List CoreId) : State :=
  let own := digOwn s n e
  let sent := if mirrors s && partAgrees s n then
      queueMsg s ⟨6, 5, n, natBytes 2 i ++ e.digest ++ own.getD (List.replicate 16 0) ++ wordBytes (nowW s)⟩ else s
  if own ≠ some e.digest then digReload (digOdd sent) n e
  else if n ≠ 0 then sent
  else (digCores sent i).foldl (fun t k => digBegin t k e.pages (odd.contains k)) sent

/-- The round of one partition. -/
def digPart (odd : List CoreId) (s : State) (n : Nat) : State :=
  let body := manBody s n
  let total := atN body 100 2
  if body.isEmpty ∨ total = 0 then s
  else
    let x := digNext s n body total total (smGet 0 s.fb.nextDig n) 0
    let t := ctrAdd s (fbPage 0) 11 x.2
    match x.1 with
    | none => t
    | some i => digJudge { t with fb := { t.fb with nextDig := smSet 0 t.fb.nextDig n ((i + 1) % total) } } n i (digEntry body i) odd

/-- DIGEST_ROUND (R578): in every minor frame whose number is a multiple of DIG_PERIOD. -/
def execDigestRound (odd : List CoreId) (s : State) : Res :=
  .next (
    let p := regField s (fbPage 0) 0x100 15 8
    let f := (now s - roOrigin s) / 10000
    if !(devRunning s) ∨ !(regBit s (fbPage 0) 0x100 16) ∨ roState s ≠ roRun ∨ p = 0 ∨ f % p ≠ 0 ∨ f < s.fb.digFrame then s
    else
      let t := ctrAdd { s with fb := { s.fb with digFrame := f + 1 } } (fbPage 0) 10 1
      (List.range 16).foldl (digPart odd) t)

/-! ### Charge (R580 to R582), and Fireboss's own lockstep -/

/-- Neither heartbeat is seen: Lamphouse halts the device itself (R581). -/
def bothSilent (s : State) : State := fatalTrip s 0 8 (fbPage 0)

/-- STACK_HEARTBEAT_LOSS (R581, R582): the stack not in charge has missed 3 heartbeats and claims charge; what Lamphouse sees of
both decides. -/
def execStackHeartbeatLoss (claimant holder : Bool) (s : State) : Res :=
  .next (
    if !(devRunning s) then s
    else
      let c := chargeOf s
      let k := 1 - c
      let t := ctrAdd (setFlag s (fbPage k) 5) (fbPage k) 13 3
      if !claimant ∧ !holder then bothSilent t
      else
        let winner := if claimant ∧ holder then 0 else if claimant then k else c
        let u := { t with dev := { t.dev with inCharge := winner == 1 }, fb := { t.fb with stopped := some (1 - winner) } }
        fatalTrip u winner (if winner = c then 6 else 5) (fbPage k))

/-- BOTH_STACKS_SILENT (R581). -/
def execBothStacksSilent (s : State) : Res := .next (if devState s = stHalt then s else bothSilent s)

/-- FIREBOSS_LOCKSTEP_MISMATCH (R586). -/
def execFirebossLockstepMismatch (h : Stack) (s : State) : Res :=
  .next (fatalTrip (setFlag s (fbPage (stackNo h)) 6) (stackNo h) 1 (fbPage (stackNo h)))

/-! ### The Fireboss and watchdog pages (R584 to R588) -/

/-- A core as FB_COVSTAT shows it; what an identifier of no core shows is open. -/
def covStat (s : State) (code : Nat) : Word :=
  match coreOfCode code with
  | none => (Config.freeWord (2 ^ 80 + code)).setWidth 32
  | some k =>
    let x := fbOf s k
    let st := if x.debt then Status.coverageDebt else if x.due ≠ 0 then .deferred else .ok
    BitVec.ofNat 32 (statusCode st * 2 ^ 24 + x.next * 2 ^ 14 + min 0x3FFF (coreAge s k / 1000000))

def fbView (s : State) (p : Page) (off : Nat) : Option Word :=
  if p.cls ≠ .fireboss ∨ p.inst ≥ 2 then none
  else if off = 0x104 then
    let mine := allCores.filter fun k => stackNo (coreStack k) == p.inst
    some (setField (setField (regVal s p 0x104) 31 24 (mine.filter fun k => (fbOf s k).debt).length) 15 8 (mine.filter (isSuspect s)).length)
  else if off = 0x118 then some (covStat s (regField s p 0x114 7 0))
  else none

/-- The conditions that bind WD_CFG and WD_WIN together (R560). -/
def dogBad (cfg win : Word) : Bool :=
  let m := field cfg 31 30
  m != 0 && (decide (field win 15 0 ≥ field win 31 16) || (m == 1 && (field cfg 23 16 == 0 || decide (field win 31 16 > field cfg 23 16 * 1000))))

/-- Whether a duplex entry breaks a condition of R573, against the other entries. -/
def duplexBad (s : State) (i : Nat) (v : Word) : Bool :=
  match coreOfCode (field v 7 0), coreOfCode (field v 15 8) with
  | some a, some b =>
    a == b || a.cls != b.cls || !(isReserved s a && isReserved s b) || (List.range 32).any fun j =>
      let w := duplexWord s j
      j != i && bit w 31 && (List.any [field w 7 0, field w 15 8] fun x => x == coreCode a || x == coreCode b)
  | _, _ => true

/-- Whether a job holds a core that a duplex entry names. -/
def duplexHeld (s : State) (w : Word) : Bool :=
  [field w 7 0, field w 15 8].any fun c => match coreOfCode c with
    | some k => s.jobs.any fun x => holds s x.1 x.2 k
    | none => false

def fbCheck (s : State) (p : Page) (off : Nat) (v : Word) : Option Status :=
  if p.cls ≠ .fireboss then none
  else if p.inst ≥ 2 then
    let d := dogKey (p.inst - 2) (off % 0x400 / 4)
    if 0x400 ≤ off ∧ off < 0x800 then
      (if field v 31 30 = 3 ∨ field v 29 28 = 3 ∨ dogBad v (wdWin s d) then some .range else if (dogOf s d).isSome then some .stateIllegal else none)
    else if 0x800 ≤ off ∧ off < 0xC00 then
      (if dogBad (wdCfg s d) v then some .range else if (dogOf s d).isSome then some .stateIllegal else none)
    else none
  else if off = 0x100 then (if field v 15 8 = 0 then some .range else none)
  else if off = 0x114 then (if (coreOfCode (field v 7 0)).isNone then some .range else none)
  else if off = 0x120 then
    (if field v 1 0 ≠ 1 then some .range else if pgState s p ≠ fbReady then some .stateIllegal else none)
  else if p.inst = 0 ∧ 0x124 ≤ off ∧ off < 0x140 then
    (if off = 0x12C ∧ (field v 12 0 = 0 ∨ field v 12 0 > 4096) then some .range else if roState s ≠ roOff then some .stateIllegal else none)
  else if p.inst = 0 ∧ 0x200 ≤ off ∧ off < 0x280 then
    let i := (off - 0x200) / 4
    if (0x1000 ≤ field v 28 16 ∧ field v 28 16 < 0x1FFF) ∨ (bit v 31 ∧ duplexBad s i v) then some .range
    else if duplexHeld s (duplexWord s i) ∨ duplexHeld s v then some .busy else none
  else none

def fbAct (s : State) (p : Page) (off : Nat) (v old : Word) : State :=
  if p.cls ≠ .fireboss ∨ p.inst ≥ 2 then s
  else if off = 0x120 then loadQuiet s p.inst
  else if off = 0x100 ∧ p.inst = 0 ∧ bit v 0 ∧ !(bit old 0) then { s with fb := { s.fb with lastPass := now s } }
  else s

end Sys2Proof.Machine
end

