-- ==== Sys2Proof/Machine/Tally.lean ====
section
/-! DEFINITION. The Tally pages (R170 to R176): watches, and what the registers of a page show, check and do. -/

namespace Sys2Proof.Machine

def tlOff : Nat := 0
def tlReady : Nat := 1
def tlInReset : Nat := 2

def watchCtrl (s : State) (k n : Nat) : Word := regVal s ⟨.tally, k⟩ (0x110 + 4 * n)
def watchThr (s : State) (k n : Nat) : Word := regVal s ⟨.tally, k⟩ (0x120 + 4 * n)
def watchIndex (s : State) (k n : Nat) : Nat := 512 * k + field (watchCtrl s k n) 8 0
def watchArmed (s : State) (k n : Nat) : Bool := bit (watchCtrl s k n) 31

/-- The watches that a tick boundary finds reached (R173). -/
def evalWatches (s : State) : State :=
  { s with watchDue := (List.range 128).filter fun i =>
      watchArmed s (i / 4) (i % 4) && reached (tallyVal s (watchIndex s (i / 4) (i % 4))) (watchThr s (i / 4) (i % 4)) }

/-- TALLY_WATCH_HIT (R173). -/
def execTallyWatchHit (page : Fin 32) (n : Fin 4) (s : State) : Res :=
  .next (
    let p : Page := ⟨.tally, page⟩
    if !(s.watchDue.contains (4 * page.toNat + n)) ∨ !(watchArmed s page n) then s
    else
      let t := ctrAdd (orReg (setRegField { s with watchDue := nlDel s.watchDue (4 * page.toNat + n) } p (0x110 + 4 * n) 31 31 0) p 0x10C (bitMask n)) p 5 1
      irq t (pageOwner t p) 2 (.watch page n))

/-- Tallies with a wait (R174): a command in WAIT. -/
def waitsOn (s : State) : List Nat :=
  s.cores.filterMap fun x => match streamOfKey x.1, x.2.cur with
    | some (k, i), some r => if streamState s k i = cWait then some (waitTally r.offer.desc) else none
    | _, _ => none

/-- The Tallies of a page with at least one armed wait (R170, R174). -/
def armedTallies (s : State) (k : Nat) : List Nat := ((waitsOn s).filter fun i => i / 512 == k).eraseDups

/-- The Tallies of a page with an armed wait or an armed watch (R175). -/
def heldTallies (s : State) (k : Nat) : List Nat := armedTallies s k ++ ((List.range 4).filter (watchArmed s k)).map (watchIndex s k)

/-- A Tally that fails its parity check (R176). -/
def tallyParity (s : State) (k : Nat) : State :=
  let p : Page := ⟨.tally, k⟩
  partitionFatal (ctrAdd (setFlag s p 0) p 6 1) (pageOwner s p) p

def tlView (s : State) (p : Page) (off : Nat) : Option Word :=
  if p.cls ≠ .tally then none
  else if off = 0x00C then some (setBit (regVal s p off) 0 !(armedTallies s p.inst).isEmpty)
  else if off = 0x108 then some (BitVec.ofNat 32 (armedTallies s p.inst).length)
  else if 0x800 ≤ off then some (tallyVal s (512 * p.inst + (off - 0x800) / 4))
  else none

def tlCheck (s : State) (p : Page) (off : Nat) (v : Word) : Option Status :=
  if p.cls ≠ .tally ∨ off < 0x100 then none
  else
    let bad := (off == 0x100 && field v 15 0 == 0) || (off == 0x104 && (field v 9 0 == 0 || decide (field v 24 16 + field v 9 0 > 512)))
    let shut := pgState s p == tlOff && (off == 0x100 || off == 0x104 || decide (0x110 ≤ off))
    let hold := (off == 0x104 && (heldTallies s p.inst).any fun i => decide (field v 24 16 ≤ i % 512 ∧ i % 512 < field v 24 16 + field v 9 0)) ||
      (decide (0x120 ≤ off ∧ off < 0x130) && watchArmed s p.inst ((off - 0x120) / 4))
    if bad then some .range else if shut then some .stateIllegal else if hold then some .busy else none

def tlAct (s : State) (p : Page) (off : Nat) (v : Word) : State :=
  if p.cls ≠ .tally then s
  else if off = 0x100 then tallyAdd s (512 * p.inst + field v 24 16) (field v 15 0)
  else if off = 0x104 then tallyClear s (512 * p.inst + field v 24 16) (field v 9 0)
  else s

/-- A Tally page reset (R174, R175): every value cleared, every watch disarmed. -/
def tlReset (s : State) (k : Nat) : State :=
  let t := tallyClear s (512 * k) 512
  (List.range 4).foldl (fun u n => setRegField u ⟨.tally, k⟩ (0x110 + 4 * n) 31 31 0) t

end Sys2Proof.Machine
end

