-- ==== Sys2Proof/Machine/Vuvon.lean ====
section
/-! DEFINITION. The Vuvon link and the pair (chapter 15): flits, the link's state machine, alignment of the ticks, the messages
delivered, leadership and the Vuvon link page. -/

namespace Sys2Proof.Machine

def setVl (s : State) (x : VlSt) : State := { s with vl := x }

/-! ### The link's states (R598) -/

def vlAligned (st : Nat) : Bool := st == vlAlign || st == vlResync || st == vlPaired

/-- Position B ceases to follow (R601): FREQ_ADJ is held, and Sync counts from here. -/
def ceaseFollow (s : State) : State := { s with time := { s.time with locked := false, run := [], lastSync := now s } }

def linkTo (s : State) (st : Nat) : State :=
  let t := setPgState s vlPage st
  if pairFollows s && !(vlAligned st) then ceaseFollow t else t

/-- The link left: keys, replay buffer and messages not yet delivered are lost (R595, R624). -/
def linkDrop (s : State) (st : Nat) : State :=
  let x := s.vl
  linkTo (setVl s { x with
    keys := [], ownHello := [], hello := [], sentConf := false, txSeq := 0, rxSeq := 0, sent := [], redo := [], txCount := none, rxCount := 0, wire := [], naks := [], tagRun := 0,
    thrice := false, nak := false, inbox := [], out := [], near := 0, far := 0, offs := [], bulk := [], kvReqs := [], alignAt := none }) st

/-- AUTH fails (R599). -/
def linkAuthFail (s : State) : State := linkDrop (setFlag s vlPage 1) vlTrain

/-- APART for want of alignment (R603). -/
def unalignable (s : State) : State := linkTo (setFlag s vlPage 2) vlApart

/-! ### Leadership (R613 to R618) -/

/-- The snapshot of the lead (R610): the trajectories, the tracks, the pools, the KV pages, and the end record. -/
def snapTracks (s : State) (core : Nat) : State :=
  let part := pageOwner s ⟨.t, core⟩
  let used := (List.range 512).filter fun i => (trackRec s core i).getD 368 0 ≠ 0
  let n := used.length
  let seq := (trkOf s core).seq
  ((List.range n).zip used).foldl (fun t x => sendDelta t 4 part (trackDelta core (x.1 + 1 == n) x.2 seq (trackRec s core x.2))) s

def snapPool (s : State) (core : Nat) : State :=
  (List.range 274).foldl (fun t i =>
    let n := min 240 (65536 - 240 * i)
    sendDelta t 6 0 (natBytes 2 (240 * i) ++ [BitVec.ofNat 8 n, BitVec.ofNat 8 core] ++
      (List.range n).flatMap fun j => wordBytes (smGet 0 s.fx.pool (core * 65536 + 240 * i + j)))) s

/-- The delta record of an entry of the sequence tables whose page is LIVE. -/
def kvEntryDelta (s : State) (x : Nat × Nat) : Option KvDelta :=
  let pn := x.1 / 2048 / 256 / 256 / 512
  let part := pn / 4
  let pool := pn % 4
  let k := entKpn x.2
  let r := kvRec s part pool k
  if entIsEmpty x.2 ∨ r.st ≠ 1 ∨ r.gen ≠ entGen x.2 then none
  else some ⟨part, pool, x.1 / 2048 / 256 % 256, x.1 / 2048 % 256, r.fill, x.1 / 2048 / 256 / 256 % 512, x.1 % 2048, (nowW s).toNat,
    kvDigest s part pool k r.fill, now s⟩

def snapshot (s : State) : State :=
  let q := s.seq
  let t := sendDelta (sendDelta s 2 0 (trajBytes q.force)) 3 0 (trajBytes { q.held with heldAge := min q.age 255 })
  let u := snapPool (snapPool (snapTracks (snapTracks t 0) 1) 0) 1
  let v := (s.kv.seqt.filterMap (kvEntryDelta s)).foldl (fun w d => sendDelta w 5 d.part (kvDeltaBytes d)) u
  queueMsg v ⟨5, 7, 0xFF, wordBytes (nowW s)⟩

/-- RESYNC entered: the lead sends its snapshot (R610). -/
def enterResync (s : State) : State :=
  let t := linkTo s vlResync
  if t.vl.lead then snapshot t else t

/-- The lead taken (R613, R616): the epoch is one above the larger of both. -/
def takeover (s : State) (cause : Nat) : State :=
  let e := max s.vl.epoch.toNat s.vl.mateEpoch.toNat
  if !(isPair s) ∨ !(ableLead s) ∨ s.vl.lead ∨ e ≥ 0xFFFFFFFF then s
  else
    let t := roleChange (setEpoch s (BitVec.ofNat 32 (e + 1))) true cause false
    let u := setVl t { t.vl with mateLed := false }
    let v := if cause = 3 ∨ cause = 4 then ctrAdd (setFlag u vlPage 10) vlPage 8 1 else u
    if linkState v = vlResync then snapshot v else v

/-- A LIFE_IN loss (R614): no edge was applied in the 300 ticks before this one. -/
def lifeLoss (s : State) : Bool :=
  let inWindow (e : Option Nat) : Bool := e.any fun t => decide (t < now s ∧ now s ≤ t + 300)
  !(inWindow s.vl.lastLife || inWindow s.vl.prevLife)

/-- HEARTBEAT_LOSS (R616). -/
def execHeartbeatLoss (s : State) : Res :=
  .next (if s.vl.mateLed && s.vl.lastBeat.any (fun b => decide (now s ≥ b + 3)) then takeover s 3 else s)

/-- LIFE_IN_EDGE (R614): the pin is ignored in reset, in BOOT and REFUSED, and in HALT (R629). -/
def execLifeInEdge (s : State) : Res :=
  .next (
    if !(isPair s) ∨ !(devRunning s) then s
    else
      let x := s.vl
      let prev := if x.lastLife.any fun t => decide (t < now s) then x.lastLife else x.prevLife
      setVl s { x with lastLife := some (now s), prevLife := prev })

/-- LIFE_IN_LOSS (R616). -/
def execLifeInLoss (s : State) : Res :=
  .next (if s.vl.mateLed && lifeLoss s then takeover s 4 else s)

/-- Position A becomes the time source without network time, at the next boundary and with no step (R604). -/
def pairSource (s : State) : State :=
  if s.time.stepDone || s.time.setPend || s.time.lockPend || s.atTick.contains (.timeStep 0 false) then s else atBoundary s (.timeStep 0 false)

/-- JOIN_TIMEOUT (R604, R616). -/
def execJoinTimeout (s : State) : Res :=
  .next (
    if !(isPair s) then s
    else
      let due (o : Option Nat) : Bool := o.any fun t => decide (now s ≥ t + joinTmo s)
      let t := if due s.vl.runAt && !s.vl.passed && (lifeLoss s || !s.dev.pairPos) then takeover s 2 else s
      if !s.dev.pairPos && due s.vl.alignAt && ptpEnabled s then pairSource t else t)

/-- LIFE_OUT_TOGGLE (R618). -/
def execLifeOutToggle (s : State) : Res :=
  .next (
    let ready (h : Nat) : Bool := pgState s (fbPage h) == fbReady
    if devRunning s && powered s && ready 0 && ready 1 && decide (now s % 100 = 0) && s.vl.lifeAt != some (now s) then
      setVl s { s.vl with lifeOut := !s.vl.lifeOut, lifeAt := some (now s) }
    else s)

/-! ### Flits (R592 to R597) -/

/-- The nonce of a slot (R593). -/
def flitNonce (count : Nat) : List Byte := natBytes 8 count ++ List.replicate 4 0

/-- A message as it stands in a message area (R596). -/
def msgWire (m : Msg) : List Byte := [BitVec.ofNat 8 (16 * m.cls + m.sub), BitVec.ofNat 8 m.part] ++ natBytes 2 m.body.length ++ m.body

/-- Bytes 7:0 of a flit (R592): TS shows that its message area begins with a TICK_ALIGN. -/
def flitHead (f : Flit) : List Byte :=
  let ts := (f.area.getD 0 0).toNat / 16 == 1
  natBytes 2 f.seq ++ natBytes 2 f.ack ++ [BitVec.ofNat 8 (f.nak.toNat + 2 * f.replay.toNat + 4 * ts.toNat), 0] ++ natBytes 2 f.area.length

/-- The 1,024 bytes of a flit (R592, R593): in clear with TAG 0 before CONFIRM, and sealed under the key of its direction from then on. -/
def flitBytes (key : List Byte) (f : Flit) : List Byte :=
  let area := (f.area ++ List.replicate 1000 0).take 1000
  let head := flitHead f
  match f.count with
  | none => head ++ area ++ List.replicate 16 0
  | some c => let x := gcmSeal key (flitNonce c) head area; head ++ x.1 ++ x.2

/-- The messages of a flit's message area (R596); none where one does not lie wholly in it or has a class that does not occur. -/
def flitMsgs : Nat → List Byte → Option (List Msg)
  | 0, _ => some []
  | n + 1, bs =>
    if bs.isEmpty then some []
    else
      let len := bytesNat ((bs.drop 2).take 2)
      let head := (bs.getD 0 0).toNat
      let cls := head / 16
      if bs.length < 4 + len ∨ cls = 0 ∨ cls > 6 then none
      else (flitMsgs n (bs.drop (4 + len))).map fun ms =>
        ⟨cls, head % 16, (bs.getD 1 0).toNat, (bs.drop 4).take len⟩ :: ms

/-- NAKs of the last 1,000 ticks, and one more. -/
def countNak (s : State) : State := setVl s { s.vl with naks := s.vl.naks.filter (fun t => decide (now s < t + 1000)) ++ [now s] }

/-- A flit discarded for its FEC or its tag: the next flit carries NAK (R594). -/
def refuseFlit (s : State) (tag : Bool) : State :=
  let t := ctrAdd (countNak s) vlPage 3 1
  setVl t { t.vl with nak := true, tagRun := if tag then t.vl.tagRun + 1 else t.vl.tagRun }

/-- ACK and NAK of the mate: acknowledged flits leave the replay buffer, and at a NAK the others are to be replayed in order (R594). -/
def takeAck (s : State) (ack : Nat) (nak : Bool) : State :=
  let kept := match s.vl.sent.findIdx? fun x => x.1 == ack with
    | some i => s.vl.sent.drop (i + 1)
    | none => s.vl.sent
  let t := setVl s { s.vl with sent := kept, redo := s.vl.redo.filter fun n => kept.any fun x => x.1 == n }
  if !nak then t else let u := countNak t; setVl u { u.vl with redo := kept.map Prod.fst }

/-- Whether a message may be delivered (R598, R599): before CONFIRM only the bring-up messages are, and a subtype that does not occur
is none. -/
def msgOccurs (secured : Bool) (m : Msg) : Bool :=
  if m.cls = 2 then if secured then m.sub == 0 else m.sub == 1 || m.sub == 2
  else secured && (match m.cls with
    | 5 => decide (1 ≤ m.sub ∧ m.sub ≤ 7)
    | 6 => decide (1 ≤ m.sub ∧ m.sub ≤ 6)
    | _ => m.sub == 0)

/-- A flit whose FEC and tag are good. -/
def takeFlit (s : State) (secured : Bool) (head area : List Byte) : State :=
  let used := bytesNat ((head.drop 6).take 2)
  match flitMsgs 251 (area.take used), decide (used > 1000) with
  | some ms, false =>
    let t := takeAck (setVl s { s.vl with tagRun := 0 }) (bytesNat ((head.drop 2).take 2)) ((head.getD 4 0).getLsbD 0)
    let seq := bytesNat (head.take 2)
    if used = 0 ∨ seq ≠ (t.vl.rxSeq + 1) % 65536 then t
    else
      let u := ctrAdd t vlPage 2 1
      setVl u { u.vl with rxSeq := seq, inbox := u.vl.inbox ++ ms.filter (msgOccurs secured) }
  | _, _ => refuseFlit s true

/-- FLIT_RECEIVED (R592 to R594, R597), in the slot of the mate that `count` counts from the one after CONFIRM. A nonce is never used twice: a
count that lies behind an earlier one fails the tag. -/
def execFlitReceived (count : Nat) (fecOk : Bool) (bytes : List Byte) (s : State) : Res :=
  .next (
    let st := linkState s
    let x := s.vl
    let confirmed := decide (st ≥ vlAlign) || x.inbox.any fun m => m.cls == 2 && m.sub == 2
    if !(isPair s) ∨ st < vlAuth then s
    else if !fecOk then refuseFlit s false
    else
      let t := setVl s { x with lastFec := now s }
      let head := bytes.take 8
      let body := (bytes.drop 8).take 1000
      if !confirmed then takeFlit t false head body
      else
        -- the mate sends under K_AB from position A and under K_BA from position B
        let key := sub x.keys (if s.dev.pairPos then 0 else 32) 32
        let u := setVl t { t.vl with rxCount := max t.vl.rxCount (count + 1) }
        match gcmOpen key (flitNonce count) head body ((bytes.drop 1008).take 16), decide (count < x.rxCount) with
        | some area, false => takeFlit u true head area
        | _, _ => refuseFlit u true)

/-- LINK_DOWN (R595). -/
def execLinkDown (s : State) : Res :=
  .next (
    let x := s.vl
    let recent := (x.naks.filter fun t => decide (now s < t + 1000)).length
    if linkState s ≥ vlAuth ∧ (recent ≥ 16 ∨ x.thrice ∨ now s ≥ x.lastFec + 2 ∨ x.tagRun ≥ 3) then
      linkDrop (ctrAdd (setFlag s vlPage 0) vlPage 5 1) vlTrain
    else s)

/-- One flit filled in strict priority; a TICK_ALIGN is the first of its flit (R597). -/
def fillFlit : Nat → Bool → List Msg → List Msg × List Msg
  | _, _, [] => ([], [])
  | room, first, m :: ms =>
    if msgBytes m ≤ room ∧ (first ∨ m.cls ≠ 1) then
      let r := fillFlit (room - msgBytes m) false ms
      (m :: r.1, r.2)
    else ([], m :: ms)

/-- Up to n flits: what each carries, and what is left. -/
def fillFlits : Nat → List Msg → List (List Msg) × List Msg
  | 0, ms => ([], ms)
  | _, [] => ([], [])
  | n + 1, ms =>
    let f := fillFlit 1000 true ms
    let r := fillFlits n f.2
    (f.1 :: r.1, r.2)

/-- The flit slots of a tick (R590), counted from tick 0. -/
def slotsOf (tick : Nat) : Nat := 48828125 * (tick + 1) / 1000000 - 48828125 * tick / 1000000

/-- Slots counted as flits leave in them: TXCOUNT begins in the slot after the flit that carries CONFIRM (R593). -/
def countSlots : Option Nat → List Flit → Option Nat × List Flit
  | c, [] => (c, [])
  | c, f :: fs =>
    let confirms := (flitMsgs 251 f.area).any fun ms => ms.any fun m => m.cls == 2 && m.sub == 2
    let r := countSlots (match c with
      | some n => some (n + 1)
      | none => if confirms then some 0 else none) fs
    (r.1, { f with count := c } :: r.2)

/-- The flits that leave in a tick: those to be replayed first, in order, then new data flits, then idle ones (R592, R594). The first carries
NAK where one is owed. -/
def drainLink (s : State) : State :=
  if linkState s < vlAuth then s
  else
    let x := s.vl
    let slots := slotsOf (now s)
    let again := (x.redo.take slots).filterMap fun n => x.sent.find? fun y => y.1 == n
    let order := (List.range 5).flatMap fun p => x.out.filter fun m => msgPrio m == p
    let r := fillFlits (slots - again.length) order
    let new := (List.range r.1.length).zipWith (fun i ms => ((x.txSeq + 1 + i) % 65536, ms.flatMap msgWire)) r.1
    let last := (x.txSeq + r.1.length) % 65536
    let flits := again.map (fun y => (⟨y.1, x.rxSeq, false, true, y.2.2, none⟩ : Flit)) ++
      new.map (fun y => (⟨y.1, x.rxSeq, false, false, y.2, none⟩ : Flit))
    let idle : Flit := ⟨last, x.rxSeq, false, false, [], none⟩
    let shown := match (if flits.isEmpty then [idle] else flits) with
      | f :: fs => { f with nak := x.nak } :: fs
      | [] => []
    let c := countSlots x.txCount shown
    let kept := x.sent.map (fun y => if again.any fun z => z.1 == y.1 then (y.1, y.2.1 + 1, y.2.2) else y) ++ new.map fun y => (y.1, 0, y.2)
    let t := ctrAdd (ctrAdd (setVl s { x with
      out := r.2, txSeq := last, sent := kept.drop (kept.length - 512), redo := x.redo.drop slots, nak := false, wire := c.2
      txCount := c.1.map fun n => n + (slots - shown.length), thrice := x.thrice || again.any fun y => decide (y.2.1 ≥ 2) }) vlPage 1 new.length)
      vlPage 4 again.length
    let done := r.1.any fun ms => ms.any fun m => m.cls == 5 && m.sub == 7
    if t.vl.lead ∧ linkState t = vlResync ∧ done then linkTo t vlPaired else t

/-! ### Bring-up (R598 to R600) -/

/-- The HELLO body (R599). -/
def helloBytes (s : State) (rand : List Byte) : List Byte :=
  rand ++ [BitVec.ofNat 8 s.dev.pairPos.toNat, BitVec.ofNat 8 (lifecycle s), 1, 0] ++
    (s.sec.boot.layoutDigest ++ List.replicate 48 0).take 48 ++ sha384 ((List.range 16).flatMap (manifestDigest s))

/-- LINK_TRAINED (R598, R599): RAND is drawn and HELLO goes out. -/
def execLinkTrained (s : State) : Res :=
  .next (
    if linkState s ≠ vlTrain ∨ isLooped s vlPage then s
    else
      let h := helloBytes s (freeBytes s 48)
      let t := linkTo (spendBytes s 48) vlAuth
      queueMsg (setVl t { t.vl with ownHello := h, lastFec := now s }) ⟨2, 1, 0xFF, h⟩)

/-- The message of a class that is the next to be delivered, where it has the subtype. Messages of one class are delivered in their order;
each class has its own place among the events of a tick (R47), and tokens and heartbeats come before records (R620). -/
def headMsg (s : State) (cls sub : Nat) : Option Msg :=
  match s.vl.inbox.find? fun m => if cls ≤ 3 then m.cls == cls else decide (m.cls > 3) with
  | some m => if m.cls = cls ∧ m.sub = sub then some m else none
  | none => none
def dropMsg (s : State) (m : Msg) : State := setVl s { s.vl with inbox := s.vl.inbox.erase m }

/-- What a message does; nothing where it is not the next to be delivered. -/
def onMsg (s : State) (cls sub : Nat) (f : State → Msg → State) : State := match headMsg s cls sub with
  | some m => f (dropMsg s m) m
  | none => s

/-- A heartbeat of the mate delivered in this tick, of whatever subtype (R614). -/
def beatNow (s : State) : State := setVl s { s.vl with lastBeat := some (now s) }

/-- The HELLOs of A and of B. -/
def bothHellos (s : State) : List Byte := if s.dev.pairPos then s.vl.hello ++ s.vl.ownHello else s.vl.ownHello ++ s.vl.hello

/-- The keys of R599, from PLK and both RANDs. -/
def linkKeys (s : State) : List Byte :=
  let b := bothHellos s
  hkdf384 (b.take 48 ++ sub b 148 48) fusePlk (ascii "VUVON") 112

/-- The body of a CONFIRM by its sender's position. -/
def confirmBytes (s : State) (pos : Bool) : List Byte := hmac384 (sub s.vl.keys 64 48) (bothHellos s ++ [BitVec.ofNat 8 pos.toNat])

/-- HELLO (R599). -/
def execHello (s : State) : Res :=
  .next (onMsg s 2 1 fun s m =>
    let t := beatNow s
    if linkState t ≠ vlAuth ∨ !t.vl.hello.isEmpty then t
    else if m.body.length ≠ 148 ∨ at8 m.body 48 = s.dev.pairPos.toNat ∨ at8 m.body 49 ≠ lcSealed then linkAuthFail t
    else
      let u := setVl t { t.vl with hello := m.body }
      let v := setVl u { u.vl with keys := linkKeys u, sentConf := true }
      queueMsg v ⟨2, 2, 0xFF, confirmBytes v v.dev.pairPos⟩)

/-- ALIGN entered (R601, R604): B follows from now on; on the first time since reset position A may take the lead (R616). -/
def enterAlign (s : State) (fresh : Bool) : State :=
  let b := s.dev.pairPos
  let first := !s.vl.reached
  let t := linkTo s vlAlign
  let u := setVl t { t.vl with near := 0, far := 0, offs := [], reached := true, alignAt := if fresh then some (now s) else t.vl.alignAt }
  let v := if !b && fresh && !(ptpEnabled u) then pairSource u else u
  if first && !b && !v.vl.mateLed then takeover v 1 else v

/-- CONFIRM (R599, R600). -/
def execConfirm (s : State) : Res :=
  .next (onMsg s 2 2 fun s m =>
    let t := beatNow s
    if linkState t ≠ vlAuth ∨ t.vl.hello.isEmpty then t
    else if m.body ≠ confirmBytes t (!t.dev.pairPos) then linkAuthFail t
    else
      let u := setVl t { t.vl with passed := true }
      if sub u.vl.hello 52 48 = sub u.vl.ownHello 52 48 then sendManifest (enterAlign u true)
      else sendManifest (linkTo (setFlag u vlPage 11) vlApart))

/-! ### Alignment (R601 to R603) -/

/-- What an offset does to the time base of B: it counts as a Sync measurement (R601), and the one step is the difference of the
origins (R603). -/
def alignTime (s : State) (off : Int) (mateStep : Bool) (origin : DWord) (run : List Int) : State :=
  let t := { s with time := { s.time with offset := off, syncs := s.time.syncs + 1, lastSync := now s } }
  if tbState t = tbFree then setPgState t tickPage tbAcquire
  else if tbState t = tbAcquire then
    if run.length ≥ 4 ∧ mateStep ∧ off.natAbs ≤ 1000000 ∧ !t.time.lockPend then
      atBoundary { t with time := { t.time with lockPend := true } } (.timeStep (Int.ofNat origin.toNat - Int.ofNat t.time.origin.toNat) true)
    else t
  else if tbState t = tbLocked then lockedMeasure t off
  else if tbState t = tbGm then lockedMeasure (setPgState t tickPage tbLocked) off
  else t

/-- What an offset does to the link (R603), the same on both modules, which hold the same four stamps. -/
def alignLink (s : State) (off : Int) (aStep bStep : Bool) (run : List Int) : State :=
  let st := linkState s
  let far := off.natAbs > 1000000
  if st = vlAlign then
    if far ∧ (bStep ∨ (aStep ∧ run.length ≥ 4)) then unalignable s
    else
      let near := if bStep ∧ off.natAbs ≤ 50 then s.vl.near + 1 else 0
      let t := setVl s { s.vl with near := near }
      if near ≥ 100 then enterResync (setVl t { t.vl with near := 0, far := 0 }) else t
  else if far then unalignable s
  else
    let n := if off.natAbs > 500 then s.vl.far + 1 else 0
    let t := setVl s { s.vl with far := n }
    if n ≥ 3 then enterAlign (setFlag t vlPage 3) false else t

/-- TICK_ALIGN (R601 to R603). -/
def execTickAlign (offset : Int) (s : State) : Res :=
  .next (onMsg s 1 0 fun s m =>
    if !(vlAligned (linkState s)) then s
    else
      let b := s.dev.pairPos
      let mateStep := (m.body.getD 48 0).getLsbD 3
      let ownStep := s.time.stepDone
      let run := if b ∧ tbState s = tbFree then [] else nextRun { s with time := { s.time with run := s.vl.offs } } offset true false
      let t := setVl s { s.vl with rxAlign := bytesNat (m.body.take 4), offs := run.drop (run.length - 4) }
      let u :=
        if b then
          let shown : Int := max (-2147483647) (min 2147483647 offset)
          alignTime (setReg t vlPage 0x114 (BitVec.ofInt 32 shown)) offset mateStep (BitVec.ofNat 64 (bytesNat (sub m.body 40 8))) run
        else t
      alignLink u offset (if b then mateStep else ownStep) (if b then ownStep else mateStep) run)

/-! ### The mate's heartbeats and tokens -/

/-- BEAT (R614). -/
def execBeat (s : State) : Res :=
  .next (onMsg s 2 0 fun s m => let t := beatNow s; setVl t { t.vl with beatFor := at8 m.body 4 })

/-- The lead's epoch adopted (R613): a change of epoch is told by a token (R597). -/
def adoptEpoch (s : State) (e : Word) : State := if s.vl.epoch = e then s else sendToken (setEpoch s e) false

/-- LEAD_TOKEN (R613 to R617). -/
def execLeadToken (s : State) : Res :=
  .next (onMsg s 3 0 fun s m =>
    let e := BitVec.ofNat 32 (bytesNat (m.body.take 4))
    let f := m.body.getD 4 0
    let leads := f.getLsbD 0
    let yields := f.getLsbD 1
    let mateA := at8 m.body 5 == 0
    let was := s.vl.mateLed
    let role := if f.getLsbD 2 then 3 else if leads then 2 else 1
    let t := setRegField s vlPage 0x104 7 6 role
    let u := setVl t { t.vl with mateEpoch := e, mateLed := leads }
    if leads then
      if !u.vl.lead then adoptEpoch u e
      else
        let v := setFlag u vlPage 9
        if e.toNat > v.vl.epoch.toNat ∨ (e = v.vl.epoch ∧ mateA) then
          let w := adoptEpoch (yieldLead v 6) e
          if linkState w = vlPaired then linkTo w vlResync else w
        else sendToken v false
    else if yields ∧ !u.vl.lead then takeover u 5
    else if u.vl.lead ∧ was ∧ linkState u ≥ vlResync ∧ linkState u ≤ vlPaired then enterResync u
    else u)

/-! ### Input digests (R607) -/

/-- INPUT_DIGEST. -/
def execInputDigest (s : State) : Res :=
  .next (onMsg s 4 0 fun s m =>
    if !(mirrors s && partAgrees s m.part) then s
    else match s.vl.mine.find? fun x => digestKey x.1 == digestKey m.body with
      | some x => compareDigest (setVl s { s.vl with mine := s.vl.mine.erase x }) x.1 m.body
      | none => setVl s { s.vl with theirs := s.vl.theirs ++ [(m.body, now s)] })

/-- INPUT_DIGEST_LATE: the oldest digest of either side without a counterpart for 2,000 ticks. -/
def execInputDigestLate (s : State) : Res :=
  .next (match (s.vl.theirs ++ s.vl.mine).find? fun x => decide (now s ≥ x.2 + 2000) with
    | some x => ctrAdd (setVl s { s.vl with theirs := s.vl.theirs.erase x, mine := s.vl.mine.erase x }) vlPage 12 1
    | none => s)

/-! ### State deltas (R608 to R610) -/

/-- Whether a record of a partition is taken in: only by the standby, and only where the partition agrees. -/
def takesIn (s : State) (part : Nat) : Bool := mirrors s && isStandby s && partAgrees s part

/-- A record taken in by the standby; a lead discards it. -/
def onDelta (s : State) (sub : Nat) (f : State → Msg → State) : State :=
  onMsg s 5 sub fun t m => if takesIn t m.part then f t m else t

/-- FOXGLOVE_DELTA (R413, R414): kept for the next channel tick. -/
def execFoxgloveDelta (s : State) : Res :=
  .next (onDelta s 1 fun s m =>
    let w (o : Nat) : Int := (BitVec.ofNat 32 (bytesNat (sub m.body o 4))).toInt
    let ch := at8 m.body 0
    if ch ≥ 64 then s
    else setFx s ch { fxCh s ch with mirror := some ⟨bytesNat (sub m.body 2 2), at8 m.body 1, w 4, w 8, bytesNat (sub m.body 12 2), w 16, w 20⟩ })

/-- TRAJECTORY_DELTA (R380). -/
def execTrajectoryDelta (s : State) : Res :=
  .next (onDelta s 2 fun s m => setSeq s { s.seq with mateForce := some (trajOf m.body) })

/-- HELD_STOP_DELTA (R380). -/
def execHeldStopDelta (s : State) : Res :=
  .next (onDelta s 3 fun s m => setSeq s { s.seq with mateHeld := some (trajOf m.body) })

/-- TRACK_DELTA (R609): a record of a later command waits for this module's own; one that the standby went on without is late. -/
def execTrackDelta (s : State) : Res :=
  .next (onDelta s 4 fun s m =>
    let core := at8 m.body 0
    let seq := bytesNat (sub m.body 4 4)
    let x := trkOf s core
    if core ≥ 2 then s
    else if seq > x.seq then setTrk s core { x with got := x.got ++ [(seq, m.body)] }
    else if seq < x.seq ∨ (seq = x.late ∧ seq ≠ 0) then ctrAdd s vlPage 14 1
    else takeTrack s core m.body)

/-- TRACK_DELTA_TIMEOUT (R609). -/
def execTrackDeltaTimeout (core : Fin 2) (s : State) : Res :=
  .next (
    let x := trkOf s core
    if x.wait.any fun t => decide (now s ≥ t + 200) then setTrk s core { x with wait := none, late := x.seq } else s)

/-- The KV page that a record names, as this module holds it. -/
def ownKvDelta (s : State) (d : KvDelta) : Option KvDelta :=
  let key := seqKey d.part d.pool d.seq d.layer d.head d.block
  (kvEntryDelta s (key, seqEntry s d.part d.pool d.seq d.layer d.head d.block)).filter fun x => x.fill == d.fill

/-- KV_DELTA (R294): in RESYNC the standby's own record of a page is that of the page as it stands. -/
def execKvDelta (s : State) : Res :=
  .next (onDelta s 5 fun s m =>
    let d : KvDelta := ⟨m.part, at8 m.body 0 % 4, at8 m.body 1, at8 m.body 2, at8 m.body 3, bytesNat (sub m.body 4 2), bytesNat (sub m.body 6 2),
      bytesNat (sub m.body 8 4), bytesNat (sub m.body 16 16), now s⟩
    match s.kv.mine.find? (sameDelta d) with
    | some x => kvJudge { s with kv := { s.kv with mine := s.kv.mine.erase x } } x d
    | none =>
      let wait := { s with kv := { s.kv with theirs := s.kv.theirs ++ [d] } }
      if linkState s = vlResync then match ownKvDelta s d with
        | some x => kvJudge s x d
        | none => wait
      else wait)

/-- RC_MEMORY_DELTA (R610). -/
def execRcMemoryDelta (s : State) : Res :=
  .next (onDelta s 6 fun s m =>
    let first := bytesNat (m.body.take 2)
    let n := min (at8 m.body 2) 240
    let core := at8 m.body 3 % 2
    let pool := (List.range n).foldl (fun p i => smSet 0 p (core * 65536 + (first + i) % 65536) (BitVec.ofNat 32 (bytesNat (sub m.body (4 + 4 * i) 4)))) s.fx.pool
    { s with fx := { s.fx with pool := pool } })

/-- RESYNC_END (R610). -/
def execResyncEnd (s : State) : Res :=
  .next (onMsg s 5 7 fun s _ => if isStandby s ∧ linkState s = vlResync then linkTo s vlPaired else s)

/-! ### BULK (R611, R612) -/

/-- A fragment joined to its transfer: the data once the transfer is whole. -/
def takeFragment (s : State) (m : Msg) : State × Option (List Byte) :=
  let num := bytesNat (m.body.take 4)
  let total := bytesNat (sub m.body 8 4)
  let same (b : BulkRx) : Bool := b.num == num && b.sub == m.sub && b.part == m.part
  let old := match s.vl.bulk.find? same with
    | some b => b.data
    | none => []
  let rest := s.vl.bulk.filter fun b => !(same b)
  let data := if old.length = bytesNat (sub m.body 4 4) then old ++ m.body.drop 12 else old
  if data.length ≥ total then (setVl s { s.vl with bulk := rest }, some (data.take total))
  else (setVl s { s.vl with bulk := rest ++ [⟨num, m.sub, m.part, total, data⟩] }, none)

/-- The page that a KV_REQ body names: pool, slot and FILL; none unless it is LIVE. -/
def reqPage (s : State) (part : Nat) (b : List Byte) : Option (Nat × Nat × Nat) :=
  let pool := at8 b 0 % 4
  let e := seqEntry s part pool (bytesNat (sub b 4 2)) (at8 b 1) (at8 b 2) (bytesNat (sub b 6 2))
  if entIsEmpty e ∨ (kvRec s part pool (entKpn e)).st ≠ 1 then none else some (pool, entKpn e, min (at8 b 8) 64)

/-- The bytes of one operand of a page below FILL. -/
def fillBytes (c : PoolCfg) (fill : Nat) : Nat := fill * (c.d * if c.bf16 then 2 else 1)

/-- KV_REQ: the K and the V rows below FILL go back as KV_DATA. -/
def execKvReq (s : State) : Res :=
  .next (onMsg s 6 1 fun s m =>
    if !(mirrors s && partAgrees s m.part) then s
    else match reqPage s m.part m.body with
      | some (pool, k, fill) =>
        let c := poolCfg s m.part pool
        let n := fillBytes c fill
        bulkFragments s 2 m.part (readBytes s m.part (kvRowAddr c k 0 false) n ++ readBytes s m.part (kvRowAddr c k 0 true) n)
      | none => s)

/-- Fetched rows replace this module's own (R294). -/
def putKvRows (s : State) (part : Nat) (req data : List Byte) : State := match reqPage s part req with
  | some (pool, k, fill) =>
    let c := poolCfg s part pool
    let n := fillBytes c fill
    let put (t : State) (v : Bool) (bs : List Byte) : State :=
      if writeRange t part (kvRowAddr c k 0 v) n false true = .ok then writeBytes t part (kvRowAddr c k 0 v) bs else t
    ctrAdd (put (put s false (data.take n)) true (sub data n n)) vlPage 15 1
  | none => s

/-- KV_DATA: the answer of the oldest request of its size in the same partition. -/
def execKvData (s : State) : Res :=
  .next (onMsg s 6 2 fun s m =>
    if !(mirrors s && partAgrees s m.part) then s
    else match takeFragment s m with
      | (t, none) => t
      | (t, some data) =>
        let fits (q : Nat × List Byte) : Bool :=
          q.1 == m.part && data.length == 2 * fillBytes (poolCfg t m.part (at8 q.2 0 % 4)) (min (at8 q.2 8) 64)
        match t.vl.kvReqs.find? fits with
        | some q => putKvRows (setVl t { t.vl with kvReqs := t.vl.kvReqs.erase q }) m.part q.2 data
        | none => t)

/-- ATT_REQ: a request of PT0 in Lamphouse's order (R521). -/
def execAttReq (s : State) : Res :=
  .next (onMsg s 6 3 fun s m =>
    let cmd := bytesNat (m.body.take 2)
    let kind := cmd % 4
    if linkState s < vlAlign then s
    else if kind = 0 ∨ kind = 3 then atDeliverMate s .range []
    else if (secOf s atMate).at'.isSome then atDeliverMate s .busy []
    else atEnqueue s atMate ⟨kind, cmd / 256 % 16, (sub m.body 2 48), now s, none, none⟩)

/-- ATT_RPT: the report is kept, or the status that came alone. -/
def execAttRpt (s : State) : Res :=
  .next (onMsg s 6 4 fun s m =>
    if m.body.length ≤ 1 then setVl s { s.vl with report := m.body }
    else match takeFragment s m with
      | (t, some data) => setVl t { t.vl with report := data }
      | (t, none) => t)

/-- DIGEST (R612): MATE_ODD where the mate's own digest is not the manifest's, an odd replica that is counted (R578, R589); where the manifests
differ the partition ceases to agree. -/
def execDigest (s : State) : Res :=
  .next (onMsg s 6 5 fun s m =>
    if !(mirrors s && partAgrees s m.part) then s
    else
      let theirs := sub m.body 2 16
      let t := if sub m.body 18 16 = theirs then s else digOdd (setFlag s vlPage 6)
      let body := manBody s m.part
      let i := bytesNat (m.body.take 2)
      if i < atN body 100 2 ∧ (digEntry body i).digest = theirs then t
      else
        let u := setFlag t vlPage 7
        setVl u { u.vl with mateMan := (List.range 16).flatMap fun n => if n = m.part then List.replicate 16 0 else sub (u.vl.mateMan ++ List.replicate 256 0) (16 * n) 16 })

/-- MANIFEST (R600). -/
def execManifest (s : State) : Res :=
  .next (onMsg s 6 6 fun s m => if linkState s < vlAlign then s else setVl s { s.vl with mateMan := m.body.take 256 })

/-! ### What the link does in every tick (R597, R613) -/

/-- A BEAT of this module (R614). -/
def beatBytes (s : State) : List Byte :=
  let ready := pgState s (fbPage 0) == fbReady && pgState s (fbPage 1) == fbReady
  wordBytes (nowW s) ++ [BitVec.ofNat 8 (devState s + 16 * s.dev.power.toNat),
    BitVec.ofNat 8 ((dbgOf s 0 == dbgD2).toNat + 2 * (tbState s == tbHold).toNat + 4 * ready.toNat), 0, 0]

/-- A TICK_ALIGN of this module (R602); the stamps are the PCS's. -/
def alignBytes (s : State) : List Byte :=
  natBytes 4 s.vl.txAlign ++ freeBytes s 12 ++ natBytes 4 s.vl.rxAlign ++ (freeBytes s 24).drop 12 ++ natBytes 8 (now s) ++
    natBytes 8 s.time.origin.toNat ++ [BitVec.ofNat 8 (tbState s + 8 * s.time.stepDone.toNat), 0, 0, 0]

/-- The messages that go out by the tick. -/
def tickMsgs (s : State) : State :=
  if linkState s < vlAlign then s
  else
    let t := if now s % 10 = 0 then
        let u := queueMsg s ⟨1, 0, 0xFF, alignBytes s⟩
        setVl (spendBytes u 24) { u.vl with txAlign := (u.vl.txAlign + 1) % 2 ^ 32 }
      else s
    let u := queueMsg t ⟨2, 0, 0xFF, beatBytes t⟩
    if now u % 1000 = 0 then sendToken u false else u

/-- A heartbeat missed in the tick that ends (R614), counted once the link has passed AUTH. -/
def missBeat (s : State) : State :=
  if s.vl.passed && linkState s != vlOff && s.vl.lastBeat != some (now s) then ctrAdd s vlPage 6 1 else s

/-- EPOCH_REC written by the tick that it is due (R613). -/
def writeEpoch (s : State) : State :=
  if s.vl.epochDue.any fun t => decide (now s ≥ t) then
    setFlash (setVl s { s.vl with epochDue := none }) { s.sec.flash with pairEpoch := s.vl.epoch }
  else s

/-- The end of a tick for the link, before the tick advances: `vlTick` begins the new one. -/
def vlTickEnd (s : State) : State := if isPair s then missBeat (drainLink s) else s
def vlTick (s : State) : State := if isPair s then tickMsgs (writeEpoch s) else s

/-! ### The Vuvon link page (R622 to R624) -/

def vlStat (s : State) : Word :=
  let x := s.vl
  let recent (o : Option Nat) (n : Nat) : Bool := o.any fun t => decide (now s ≤ t + n)
  BitVec.ofNat 32 ((recent x.lastLife 300).toNat * 512 + (recent x.lastBeat 3).toNat * 256 + regField s vlPage 0x104 7 6 * 64 +
    (x.lead).toNat * 32 + (pairFollows s).toNat * 16 + x.beatFor % 16)

def vlView (s : State) (p : Page) (off : Nat) : Option Word :=
  if p.cls ≠ .vuvon then none
  else match off with
    | 0x104 => some (if isPair s then vlStat s else BitVec.ofNat 32 ((leading s).toNat * 32))
    | 0x108 => some s.vl.epoch
    | 0x10C => some s.vl.mateEpoch
    | 0x110 => some s.sec.flash.pairEpoch
    | 0x124 => some (BitVec.ofNat 32 ((List.range 16).map fun n => if isPair s && partAgrees s n then 2 ^ n else 0).sum)
    | _ => none

def vlCheck (s : State) (p : Page) (off : Nat) (v : Word) : Option Status :=
  if p.cls ≠ .vuvon then none
  else match off with
    | 0x100 =>
      if field v 31 16 = 0 then some .range
      else if field v 31 16 ≠ regField s vlPage 0x100 31 16 ∧ linkState s ≠ vlOff then some .stateIllegal
      else if bit v 0 ∧ (!(isPair s) ∨ lifecycle s ≠ lcSealed) then some .stateIllegal
      else none
    | 0x120 =>
      if field v 1 0 = 3 then some .range
      else if field v 1 0 = 1 ∧ !(isPair s && s.vl.lead) then some .stateIllegal
      else if field v 1 0 = 2 ∧ linkState s = vlOff then some .stateIllegal
      else none
    | _ => none

def vlAct (s : State) (p : Page) (off : Nat) (v _old : Word) : State :=
  if p.cls ≠ .vuvon then s
  else match off with
    | 0x100 =>
      if bit v 0 then if linkState s = vlOff then linkDrop s vlTrain else s
      else if linkState s = vlOff then s else linkDrop s vlOff
    | 0x120 => if field v 1 0 = 1 then yieldLead s 7 else if field v 1 0 = 2 then linkDrop s vlTrain else s
    | _ => s

end Sys2Proof.Machine
end

