-- ==== Sys2Proof/Machine/Reset.lean ====
section
/-! DEFINITION. Soft reset of a page (R89), partial reset of a partition (R114, R688), device reset (R43, R644) and the boot chain
(R478 to R480). -/

namespace Sys2Proof.Machine

/-! ### A page -/

/-- The registers of a page from 0x100 on at their reset values, but for the offsets that are kept (R89). -/
def resetBlock (s : State) (p : Page) (keep : Nat → Bool) : State :=
  let b := pageBase p
  { s with regs := s.regs.filter fun x => decide (x.1 < b + 0x100 ∨ b + 0x1000 ≤ x.1) || keep (x.1 - b) }

/-- PG_CTRL and PG_STAT at reset with ENABLE as given, and PG_TSTAMP (R89). -/
def resetHeader (s : State) (p : Page) (enable : Bool) : State :=
  setReg (setReg (setReg s p 0x008 (BitVec.ofNat 32 enable.toNat)) p 0x00C (regReset p 0x00C)) p 0x028 (nowW s)

/-- The safe store of a channel page, which a reset leaves (R410, R416). -/
def isSafeStore (off : Nat) : Bool := off == 0x200 || off == 0x204 || decide (0x900 ≤ off ∧ off < 0x980)

/-- A core's page (R147, R298): a suspect mark and a self-test slice go on. -/
def resetCorePage (s : State) (k : CoreId) (enable : Bool) : State :=
  let p := corePage k
  let st := pgState s p
  let st' := if st = cSuspect ∨ st = cSelftest then st else if enable ∧ coreAssign s k ≠ .unassigned then cIdle else cOff
  let t := (streamsOf k).foldl (fun u i => clearFace u k i) (resetHeader (resetBlock s p fun _ => false) p enable)
  let u := (streamsOf k).foldl (fun u i => setStreamState u k i st') t
  match k.cls with
  | .l => if k.inst = 0 then plannerReset u else u
  | .t => clearTracks { u with tracks := { u.tracks with nextId := u.tracks.nextId.set k.inst 0 } } k.inst
  | _ => u

/-- A page returned to reset as by a soft reset; `enable` is PG_CTRL[0] afterwards. -/
def resetPage (s : State) (p : Page) (enable : Bool) : State :=
  match pageCore p with
  | some k =>
    if k.cls = .c then
      let st := pgState s p
      ccReset (setPgState (resetHeader (resetBlock s p fun _ => false) p enable) p (if st = ccSuspect then st else if enable then ccRun else cOff)) k.inst
    else resetCorePage s k enable
  | none =>
    let t := resetHeader (resetBlock s p fun off => p.cls == .fxch && isSafeStore off) p enable
    match p.cls with
    | .fxch =>
      let x := fxCh s p.inst
      setFx t p.inst { noFx with i := x.i, e := x.e, safe := x.safe }
    | .tally => setPgState (tlReset t p.inst) p (pgState s p)
    | .aphy => setPgState (setPort (loopUnitReset t p) p.inst noPort) p (if enable then apDown else apOff)
    | .eth => setPgState (if p.inst < 8 then setLidar (loopUnitReset t p) p.inst noLidar else loopUnitReset t p) p (if enable then portDown else portOff)
    | .can => setPgState (loopUnitReset t p) p (if enable then portDown else portOff)
    | .plca => setPgState t p (if enable then portDown else portOff)
    | .spi => setPgState (loopUnitReset t p) p (if enable then portUp else portOff)
    | _ => t

/-! ### Partial reset (R114, R149, R688) -/

/-- A command of the partition when its reset begins: a waiting one, and one that only its pushes hold, end at once. -/
def endForReset (s : State) (n : Nat) (x : Nat × CoreSt) : State :=
  match streamOfKey x.1, x.2.cur with
  | some (k, i), some r =>
    if r.offer.part ≠ n then s
    else if streamState s k i = cWait ∨ heldForPush s k i r then abortCmd s k i .busyReset true else s
  | _, _ => s

/-- A tier-map or KV request stops at its next page or entry (R223, R307); a mailbox command that has no result yet ends with
BUSY_RESET. -/
def stopRequests (s : State) (n : Nat) : State :=
  let p := partPage n
  let t := setRegField (setRegField s p 0x414 8 8 0) p 0x510 8 8 0
  let u := { t with mem := { t.mem with tm := smDel t.mem.tm n, tw := smClear t.mem.tw (pteKey n 0) (pteKey (n + 1) 0), watch := t.mem.watch.filter fun w => w.2.part != n
                                        pf := t.mem.pf.filter fun x => !(x.2.kind == 3 && x.2.part == n) }
                    kv := { t.kv with runs := smDel t.kv.runs n } }
  match (secOf u n).mb with
  | some r => if r.result.isNone then setSec u n { secOf u n with mb := some { r with result := some (.busyReset, []) } } else u
  | none => u

/-- The tick in which the partition's bit of DEV_PRESET_STAT is set. -/
def presetBegin (s : State) (n : Nat) : State :=
  if inReset s n ∨ n = 0 ∨ !(devRunning s) then s
  else
    let t := { s with dev := { s.dev with inReset := nlAdd s.dev.inReset n } }
    let u := atSpoil (setSec t n { secOf t n with resetGen := (secOf t n).resetGen + 1 }) n
    let v := u.cores.foldl (fun w x => endForReset w n x) u
    let w := stopRequests (jobsResetBegin v n) n
    (allPages.filter fun p => p.cls == .tally && pageOwner w p == n).foldl (fun y p => setPgState y p tlInReset) w

/-- Whether everything that R688 lists has come to its end. -/
def presetDone (s : State) (n : Nat) : Bool :=
  !(s.cores.any fun x => x.2.cur.any fun r => r.offer.part == n) && !(s.mem.tags.any fun x => x.2.part == n) &&
    !(s.mem.pf.any fun x => x.2.part == n) && (secOf s n).mb.isNone && (secOf s n).at'.isNone

/-- PARTIAL_RESET_COMPLETE (R688): the reset ends at the next boundary. -/
def execPartialResetComplete (p : Part) (s : State) : Res :=
  .next (
    if inReset s p && presetDone s p && !(s.atTick.contains (.presetEnd p)) && !(s.atTick.contains (.presetBegin p)) then
      atBoundary s (.presetEnd p)
    else s)

/-- Every page of the partition unmapped, but for those its layout fixes (R223), and its moves given up. -/
def unmapAll (s : State) (n : Nat) : State :=
  let t := (s.mem.moves.filter fun m => m.part == n).foldl cancelMove s
  (partPtes t n).foldl (fun u x => if ownShare x.2 then u else unmapPage u n x.1) t

/-- The boundary at which a partial reset completes. -/
def presetEnd (s : State) (n : Nat) : State :=
  if !(inReset s n) then s
  else
    let t := jobsResetEnd (kvReset (unmapAll s n) n) n
    let u := setInst (setRegField t (partPage n) 0x600 0 0 0) n noInst
    let v := (allPages.filter fun p => ownerByLayout p && pageOwner u p == n).foldl (fun w p =>
      let y := resetPage (setRegField w p 0x020 8 8 0) p (enabled w p)
      if p.cls = .tally then setPgState y p tlReady else y) u
    let w := debugResetDone v n
    { w with dev := { w.dev with inReset := nlDel w.dev.inReset n } }

/-! ### Device reset (R43, R410, R644) -/

/-- What the always-on domain keeps: the safe stores with the copies of their timing. -/
def keptRegs (s : State) : SMap Word :=
  s.regs.filter fun x => match pageAt x.1 with
    | some p => p.cls == .fxch && isSafeStore (pageOff x.1)
    | none => false

def keptChans (s : State) : SMap FxCh :=
  s.fx.chans.filterMap fun x => if x.2.safe = noFx.safe then none else some (x.1, { noFx with safe := x.2.safe })

/-- The memory over a device reset: Drift and Seam keep their contents, every page is unmapped, and nothing is in flight. -/
def keptMem (s : State) (drift : Bool) : MemSt :=
  let lo := if drift then driftBase else seamBase
  { MemSt.reset with
    cells := s.mem.cells.filter fun x => decide (lo ≤ x.1)
    gens := s.mem.gens.filter fun x => decide (lo ≤ x.1 * 512), salts := s.mem.salts.filter fun x => decide (lo ≤ x.1 * 512)
    wear := s.mem.wear, units := s.mem.units, openBlk := s.mem.openBlk, keeperFree := s.mem.keeperFree, keeperSpare := s.mem.keeperSpare, keeperGc := s.mem.keeperGc }

/-- The key generations over a device reset: a sweep or an erase goes on, a debug generation ends (R494, R498, R529). -/
def keptKeys (s : State) : SMap KeySt :=
  s.keys.filterMap fun x =>
    let k := { x.2 with dbgGen := false }
    if k = noKeys then none else some (x.1, k)

/-- Every Drift frame and every Seam block erased (R469). -/
def eraseTiers (s : State) : State :=
  let t := { s with mem := { s.mem with cells := [], gens := [], salts := [], units := [], openBlk := [], eraseDue := [] } }
  (List.range 2).foldl (fun u k =>
    (smRange u.mem.wear (wearKey k 0) (wearKey (k + 1) 0)).foldl (fun v x =>
      if x.2.used = 0 ∨ x.2.bad then v else eraseBlock v k (x.1 - wearKey k 0) true) u) t

/-- What a lifecycle change does at the device reset at which it takes effect (R469): the entry to SERVICE advances SERVICE_EPOCH and
discards the layout, both ways between SEALED and SERVICE erase, and SCRAPPED burns KILL. -/
def lifeChange (s : State) : State :=
  let f := s.sec.flash
  match f.lifeNext with
  | none => s
  | some b =>
    if b = lcService then eraseTiers (setFlash s { f with epoch := min (f.epoch + 1) 3, layout := none })
    else if b = lcSealed ∧ lifecycle s = lcService then eraseTiers s
    else if b = lcScrapped then setFlash s { f with kill := true }
    else s

/-- The device in reset (R644), until RESET_RELEASE. -/
def deviceReset (s0 : State) : State :=
  let s := lifeChange s0
  let f := s.sec.flash
  { State.reset with
    pending := s.pending, reply := s.reply, regs := keptRegs s
    dev := { s.dev with lifecycle := BitVec.ofNat 4 (f.lifeNext.getD s.dev.lifecycle.toNat), power := 0, inReset := [], inCharge := false, layout := none }
    gov := { GovSt.reset with tj := s.gov.tj }, mem := keptMem s true, keys := keptKeys s
    fx := { State.reset.fx with chans := keptChans s }
    sec := { SecSt.reset with
      flash := { f with lifeNext := none, d2Back := false }
      update := if f.trial.isSome && !f.tried then 2 else 0 }
    vl := { VlSt.reset with epoch := f.pairEpoch }
    supply := { s.supply with sources := [], brownAt := none, drawAt := none }
    tap := { s.tap with report := none }, free := s.free }

/-- The main domains Off (R537, R643): Drift loses its contents, and nothing but the always-on domain runs. -/
def powerOff (s : State) : State :=
  let t := deviceReset s
  { t with mem := keptMem t false, supply := { t.supply with main := false } }

/-! ### The boot chain (R479, R480) -/

/-- RESET_RELEASE (R43, R480): RESET_N is high, tick 0 begins, and the ROM chooses the slot. -/
def execResetRelease (s : State) : Res :=
  .next (
    if !s.sec.boot.held || !s.supply.main then s
    else
      let f := s.sec.flash
      let go (slot : Nat) (trial : Bool) (f : FlashSt) : State :=
        { s with sec := { s.sec with boot := { BootSt.reset with held := false, slot := slot, trialRun := trial }, flash := f }
                 supply := { s.supply with resetN := false }
                 vl := { s.vl with epoch := f.pairEpoch } }
      match f.trial with
      | some t => if f.tried then go f.active false f else go t true { f with tried := true }
      | none => go f.active false f)

/-- A component that fails: the ROM tries the other slot and sets FALLBACK; with no slot left DEVICE stays in BOOT. A trial that falls back
sets UPDATE_FAIL (R512). -/
def slotFails (s0 : State) : State :=
  let b := s0.sec.boot
  let s := if b.trialRun then setFlag s0 (mbPage 0) 3 else s0
  if b.failed ≥ 1 then { s with sec := { s.sec with boot := { b with failed := 2, comps := [] } } }
  else { s with sec := { s.sec with boot := { b with slot := 1 - b.slot, failed := 1, next := 0, comps := [], fallback := true, trialRun := false }
                                    update := 0 } }

/-- BOOT_SLOT_CHECK (R474, R480): the next component of the slot; `image` is what was read of a slot that this model has not seen
written, and none a read that failed. -/
def execBootSlotCheck (image : Option (List Byte)) (s : State) : Res :=
  .next (
    let b := s.sec.boot
    if b.held ∨ devState s ≠ stBoot ∨ b.failed ≥ 2 ∨ b.next ≥ 4 ∨ lifecycle s = lcScrapped then s
    else
      let img := image.map fun x => match s.sec.flash.slots.getD b.slot none with
        | some cs => cs.getD b.next []
        | none => x
      match img with
      | none => slotFails s
      | some x =>
        if (imageBad x (b.next + 1) (compLimit b.next) fuseVfw (fuseCounter s b.next)).isSome then slotFails s
        else { s with sec := { s.sec with boot := { b with comps := b.comps ++ [x], next := b.next + 1 } } })

/-- The owner's mapping of every share window (R220, R227). -/
def mapShares (s : State) (l : Layout) : State :=
  ((List.range 32).zip l.shares).foldl (fun t x =>
    if !x.2.valid then t
    else (List.range x.2.frames).foldl (fun u i => match shareFrame u x.1 i with
      | some (w, f) =>
        let v := setPte u w.owner (w.vpn + i) { noPte with v := true, w := true, home := .gallery, gFrame := f, shared := true }
        { v with mem := { v.mem with galUsed := nlAdd v.mem.galUsed f } }
      | none => u) t) s

/-- The partitions that are erased before they receive keys (R480, R496): one whose OWNER_HASH has changed, and PT0 by its own
ERASE. -/
def bootErase (s : State) (l : Layout) : State :=
  let f := s.sec.flash
  let hash (n : Nat) : List Byte := (l.parts.getD n noPart).ownerHash
  let t := (List.range 16).foldl (fun t n =>
    let changed := f.owners.length == 16 && f.owners.getD n [] != hash n
    if changed || (n == 0 && f.eraseNext) then setKeys (eraseSeam t n) n { keysOf t n with state := 2 } else t) s
  setFlash t { t.sec.flash with owners := (List.range 16).map hash, eraseNext := false }

/-- The switch of PT0's key generation by an armed D2 (R532), with its expiry after tick 0. -/
def bootD2 (s : State) : State :=
  match s.sec.flash.d2Armed with
  | none => s
  | some dur =>
    let t := setSec s 0 { secOf s 0 with dbg := dbgD2, duration := dur, expiry := if dur = 0 then none else some (dur * 1000000) }
    setFlash (enterD2 t 0) { t.sec.flash with d2Armed := none }

/-- DEVICE enters RUN under a layout. -/
def enterRun (s : State) (l : Layout) (digest : List Byte) : State :=
  let f := s.sec.flash
  let t := setFlash (applyLayout s l) { f with counters := f.counters.set 4 (max (f.counters.getD 4 0) l.svn) }
  let u := bootD2 (bootErase (mapShares t l) l)
  let v := (List.range 32).foldl (fun w i =>
    let p : Page := ⟨.tally, i⟩
    if pageLocked w p then w else setPgState w p tlReady) u
  let hoist := (List.range 2).foldl (fun t h => if pgState t ⟨.hoist, h⟩ = 0 then setPgState t ⟨.hoist, h⟩ 1 else t) v
  let w := { hoist with
    sec := { v.sec with boot := { v.sec.boot with layoutDigest := digest }, update := if v.sec.boot.trialRun then 3 else v.sec.update }
    vl := { v.vl with runAt := some (now v) } }
  bootJudge (setPgState w devPage stRun)

/-- BOOT_LAYOUT_LOAD (R478, R480): the layout image of the boot flash is checked; a device that leaves the factory has none. -/
def execBootLayoutLoad (s : State) : Res :=
  .next (
    let b := s.sec.boot
    if b.held ∨ devState s ≠ stBoot ∨ b.next < 4 ∨ lifecycle s = lcScrapped then s
    else
      let img := s.sec.flash.layout.getD []
      match layoutImageBad s img with
      | some (_, c, d) => setPgState (setFlag (setReason s c d 0x10) devPage 1) devPage stRefused
      | none => enterRun s (parseLayout (imgBody img) (imgSvn img)) (imgDigest img))

end Sys2Proof.Machine
end

