-- ==== Sys2Proof/Machine/Power.lean ====
section
/-! DEFINITION. The power states and their transitions (R536 to R547), Brown-out (R542, R641 to R644), tamper events (R506) and the
module's sensor registers (R649). -/

namespace Sys2Proof.Machine

def pwActive : Nat := 0
def pwIdle : Nat := 1
def pwRetain : Nat := 2
def pwStandby : Nat := 3
def pwBrown : Nat := 4
def pwDepot : Nat := 5

def setPower (s : State) (x : PowerSt) : State := { s with sec := { s.sec with power := x } }

/-- PW_STAT[23:16]. -/
def pwStatus (s : State) (st : Status) : State := setRegField s (partPage 0) 0x704 23 16 (statusCode st)

/-! ### Transitions -/

/-- Quiescence (R537). -/
def quiescent (s : State) : Bool :=
  (s.jobs.all fun x => x.2.state == jDone) && roState s == roOff && lkState s == lkOff &&
    ((List.range 64).all fun ch => fxState s ch == fxOff || fxState s ch == fxSafe) &&
    ((List.range 16).all fun p => pgState s (aphyPage p) != apStream && pgState s (aphyPage p) != apStalled) &&
    ((List.range 8).all fun i => !(regBit s (ethPage i) 0x600 0)) &&
    ((List.range 16).all fun n => !(regBit s (partPage n) 0x414 8) && !(regBit s (partPage n) 0x510 8) && !(mbBusy s n)) &&
    s.sec.atOrder.isEmpty && s.mem.moves.isEmpty && s.dev.inReset.isEmpty &&
    !(s.atTick.any fun a => match a with
      | .presetBegin _ => true
      | _ => false)

/-- A wake begins (R539, R540, R558): both Fireboss are in CHECKING, and every core has its checks before it. -/
def wakeBegin (s : State) (src : Nat) : State :=
  let t := setPower s { s.sec.power with transit := some pwActive, src := src }
  let u := [0, 1].foldl (fun u h => if pgState u (fbPage h) = fbReady then setPgState u (fbPage h) fbChecking else u) t
  allCores.foldl (fun v k => setFb v k { fbOf v k with checked := none }) u

/-- Whether the input lets a wake from Standby begin (R641). -/
def vinWakes (s : State) : Bool := powerUnder s != pwStandby || decide (3600 ≤ s.supply.vin)

/-- A state that the power state changes to at a boundary: the interrupted state, during Brown-out (R542). -/
def powerTo (s : State) (p : Nat) : State :=
  if s.dev.power = 4 then setPower s { s.sec.power with under := p }
  else yieldUnable { s with dev := { s.dev with power := BitVec.ofNat 4 p } }

/-- What a core page is after a wake (R539): as after a soft reset, with ENABLE as it was. A core whose checks of the wake failed stays
SUSPECT (R558). -/
def returnCores (s : State) : State :=
  (allCores.filter fun k => !(isSuspect s k)).foldl (fun t k => resetPage t (corePage k) (enabled t (corePage k))) s

/-- The A-PHY ports without power (R536): a link that was up is lost. -/
def aphyDown (s : State) : State :=
  (List.range 16).foldl (fun t p => if pgState t (aphyPage p) = apUp then setPgState t (aphyPage p) apDown else t) s

/-- Every interface unit without power: its link is lost (R651). -/
def unitsDown (s : State) : State :=
  (allPages.filter fun p => [Cls.eth, .plca, .can, .spi].contains p.cls).foldl
    (fun t p => if pgState t p = portUp ∨ pgState t p = portFault then setPgState t p portDown else t) s

/-- SPI masters are UP again at once (R651). -/
def spisUp (s : State) : State :=
  (List.range 8).foldl (fun t i => if enabled t ⟨.spi, i⟩ then setPgState t ⟨.spi, i⟩ portUp else t) s

/-- Retain entered: the cores and the A-PHY ports lose their power. -/
def enterRetain (s : State) : State := powerTo (aphyDown s) pwRetain

/-- Standby entered: nothing but Lamphouse and the TICK block runs. PTP stops (R69), and the link carries no flits (R621). -/
def enterStandby (s : State) : State :=
  let t := if linkState s = vlOff then s else linkDrop s vlTrain
  powerTo { unitsDown (aphyDown t) with time := { t.time with locked := false } } pwStandby

/-- The frames that the layout assigns; the others read as zero after Standby (R540). -/
def assignedFrame (l : Layout) (f : Nat) : Bool :=
  ((List.range 16).any fun n => (galleryShare l n).any fun g => decide (g.1 ≤ f ∧ f < g.1 + g.2)) ||
    l.shares.any fun w => w.valid && decide (w.first ≤ f ∧ f < w.first + w.frames)

def clearUnassigned (s : State) : State :=
  match s.dev.layout with
  | none => s
  | some l => { s with mem := { s.mem with cells := s.mem.cells.filter fun c => decide (driftBase ≤ c.1) || assignedFrame l (c.1 / pageBytes) } }

/-- The partition that owns a Gallery frame. -/
def galleryOwner (s : State) (f : Nat) : Option Nat :=
  s.dev.layout.bind fun l => (List.range 16).find? fun n => (galleryShare l n).any fun g => decide (g.1 ≤ f ∧ f < g.1 + g.2)

/-- A frame that could not be restored (R540): it reads as zero, and its owner is in a partition-fatal error. -/
def lostFrame (s : State) (f : Nat) : State :=
  let t := { s with mem := { s.mem with cells := smClear s.mem.cells (galleryAddr f) (galleryAddr (f + 1)) } }
  match galleryOwner s f with
  | some n => partitionFatal t n (galleryPageOf f)
  | none => t

/-- The end of a wake (R540): the digests of the reread components, the frames that could not be restored, and the reserved
frames. -/
def wakeEnd (s : State) (digestsOk : Bool) (badFrames : List Nat) (reservedOk : Bool) : State :=
  let x := s.sec.power
  let fromStandby := powerUnder s == pwStandby
  let t := returnCores s
  let u := if fromStandby then badFrames.foldl lostFrame (spisUp (clearUnassigned t)) else t
  let v := rcPut u (partPage 0) 0x710 (BitVec.ofNat 32 x.src)
  let w := if x.src = 1 ∧ fromStandby then irq v 0 2 .power else v
  let y := atBoundary (pwStatus w .ok) (.power pwActive)
  if fromStandby && !(digestsOk && reservedOk) then deviceFatal y (mbPage 0) 1 else y

/-- POWER_TRANSITION_COMPLETE (R537): a transition that takes time reaches its target; `saveOk` is whether every save write of the entry
into Standby succeeded (R540). -/
def execPowerTransitionComplete (saveOk digestsOk : Bool) (badFrames : List Nat) (reservedOk : Bool) (s : State) : Res :=
  .next (
    let x := s.sec.power
    match x.transit with
    | none => s
    | some tgt =>
      if s.atTick.contains (.power tgt) then s
      else if tgt = pwActive then wakeEnd s digestsOk badFrames reservedOk
      else if tgt = pwStandby ∧ !saveOk then pwStatus (setPower s { x with transit := none }) .tierFault
      else atBoundary (pwStatus s .ok) (.power tgt))

/-- The power state of a boundary action takes effect. -/
def powerStep (s : State) (p : Nat) : State :=
  let t := if s.sec.power.transit = some p then setPower s { s.sec.power with transit := none, src := 0 } else s
  if p = pwRetain then enterRetain t else if p = pwStandby then enterStandby t else powerTo t p

/-! ### PW_CMD (R543, R544) -/

/-- Whether every Drift controller is READY. -/
def driftReady (s : State) : Bool := (allPages.filter fun p => p.cls == .drift).all fun p => pgState s p == 1

def pwCheck (s : State) (p : Page) (off : Nat) (v : Word) : Option Status :=
  if p != partPage 0 ∨ off ≠ 0x700 then none
  else
    let t := field v 2 0
    let pw := s.dev.power.toNat
    let lc := lifecycle s
    if t = 4 ∨ t = 6 ∨ t = 7 then some .range
    else if pw = pwBrown then some .stateIllegal
    else if (t = pwRetain ∨ t = pwStandby) ∧ lc = lcBlank then some .stateIllegal
    else if t = pwDepot ∧ lc ≠ lcSealed then some .stateIllegal
    else if t = pwIdle ∧ (pw = pwRetain ∨ pw = pwDepot) then some .stateIllegal
    else if t = pwRetain ∧ pw = pwDepot then some .stateIllegal
    else if t = pwStandby ∧ (pw = pwRetain ∨ pw = pwDepot) then some .stateIllegal
    else if t = pwDepot ∧ (pw = pwIdle ∨ pw = pwRetain) then some .stateIllegal
    else if t = pwStandby ∧ (!(s.dev.layout.any fun l => l.stbyEn) ∨ !(driftReady s)) then some .stateIllegal
    else if s.sec.power.transit.isSome then some .busy
    else if (t = pwStandby ∨ (t = pwRetain ∧ pw ≠ pwRetain)) ∧ !(quiescent s) then some .busy
    else none

/-- An accepted PW_CMD. -/
def pwCmd (s : State) (t : Nat) : State :=
  let pw := s.dev.power.toNat
  let u := pwStatus s .ok
  if t = pw then u
  else if t = pwActive ∧ pw = pwRetain then wakeBegin u 3
  else if t = pwRetain ∨ t = pwStandby then setPower u { u.sec.power with transit := some t, src := 0 }
  else atBoundary (setPower u { u.sec.power with transit := some t, src := 0 }) (.power t)

def pwAct (s : State) (p : Page) (off : Nat) (v _old : Word) : State :=
  if p = partPage 0 ∧ off = 0x700 then pwCmd s (field v 2 0) else s

/-- The mean of the J3 samples in tenths of a watt (R36, MD_PIN). -/
def meanPower (s : State) : Nat := s.gov.window.sum / max 1 s.gov.window.length

/-- PW_STAT (R543) and the module's sensors (R649). -/
def pwView (s : State) (p : Page) (off : Nat) : Option Word :=
  if p != partPage 0 then none
  else match off with
    | 0x704 => some (BitVec.ofNat 32 (regField s p 0x704 23 16 * 65536 + s.sec.power.transit.getD 0 * 256 + s.dev.power.toNat * 16 +
        s.sec.power.transit.isSome.toNat))
    | 0x7C0 => some (BitVec.ofNat 32 (s.supply.vin % 65536))
    | 0x7C4 => some (BitVec.ofNat 32 (meanPower s % 65536))
    | 0x7C8 => some (BitVec.ofNat 32 (s.supply.die % 256 * 2 ^ 24 + (BitVec.ofInt 16 s.gov.tj).toNat))
    | 0x7CC => some (BitVec.ofNat 32 (s.gov.ceiling / 8 % 1024))
    | _ => none

/-! ### Wakes (R537, R543, R547) -/

/-- A wake compare in a state that wakes: the wake begins; during Brown-out it is kept (R547). -/
def wakeBy (s : State) (src : Nat) : State :=
  if s.sec.power.transit.isSome then s
  else if s.dev.power = 4 then setPower s { s.sec.power with kept := src }
  else wakeBegin s src

/-- WAKE_COMPARE (R543): armed and reached; outside Retain and Standby it only clears ARM. -/
def execWakeCompare (s : State) : Res :=
  .next (
    let p := partPage 0
    if !(regBit s p 0x70C 0) ∨ !(reached (nowW s) (regVal s p 0x708)) ∨ s.sec.boot.held ∨ !(vinWakes s) then s
    else
      let t := clearReg s p 0x70C 1
      if powered t then t
      else if powerUnder t = pwRetain then irq (wakeBy t 1) 0 2 .power else wakeBy t 1)

/-- HOST_LINK_WAKE (R537): from Standby, where HOST_WAKE_EN is set. -/
def execHostLinkWake (s : State) : Res :=
  .next (
    if s.dev.power = 3 ∧ regBit s (partPage 0) 0x70C 1 ∧ vinWakes s ∧ s.sec.power.transit.isNone then wakeBegin s 2 else s)

/-! ### Brown-out (R542, R641 to R644) -/

/-- A power-fail source of class 1 asserted: Brown-out begins in the same tick. -/
def brownOut (s : State) (source : Nat) : State :=
  let t := { s with supply := { s.supply with sources := nlAdd s.supply.sources source } }
  if !s.supply.main ∨ s.sec.boot.held then s
  else if s.dev.power = 4 then t
  else
    let u := setPower t { t.sec.power with under := s.dev.power.toNat }
    atBoundary { u with dev := { u.dev with power := 4 }, supply := { u.supply with brownAt := some (now s) }, gov := { u.gov with held := true } } (.duty 8)

/-- PWR_FAIL_N_ASSERT (R643, R644): source 0. -/
def execPwrFailNAssert (s : State) : Res := .next (brownOut s 0)

/-- UNDERVOLTAGE (R641): source 2, shown in MD_FLAGS. -/
def execUndervoltage (s : State) : Res :=
  .next (if s.supply.main ∧ !s.sec.boot.held then orReg (brownOut s 2) (partPage 0) 0x7D0 2 else s)

/-- The writes that the keeper held proceed (R542). -/
def releaseHeld (s : State) : State :=
  s.mem.heldWrites.foldl (fun t x =>
    let part := x.1 / 2 ^ 28
    let a := x.1 % 2 ^ 28 * pageBytes
    if writeRange t part a pageBytes false false = .ok then writeBytes t part a x.2 else t)
    { s with mem := { s.mem with heldWrites := [] } }

/-- BROWN_OUT_EXIT (R537, R641): a source has been released for 100 ticks; with the last one the interrupted state returns, the governor
resumes (R36) and a wake that was kept is acted on. -/
def execBrownOutExit (undervoltage : Bool) (s : State) : Res :=
  .next (
    match s.supply.brownAt with
    | none => s
    | some b =>
      if s.dev.power ≠ 4 ∨ now s < b + 100 then s
      else
        let left := nlDel s.supply.sources (if undervoltage then 2 else 0)
        let t := { s with supply := { s.supply with sources := left } }
        if !left.isEmpty then t
        else
          let x := t.sec.power
          let u := releaseHeld { t with supply := { t.supply with brownAt := none, drawAt := none }, gov := { t.gov with held := false } }
          let v := setPower (powerTo { u with dev := { u.dev with power := 0 } } x.under) { x with under := 0, kept := 0 }
          if x.kept ≠ 0 ∧ x.transit.isNone ∧ !(powered v) then wakeBegin v x.kept else v)

/-- BROWN_OUT_RESET (R537, R644): 10,000 ticks after entry with a source still asserted. -/
def execBrownOutReset (s : State) : Res :=
  .next (
    match s.supply.brownAt with
    | some b => if s.dev.power = 4 ∧ b + 10000 ≤ now s ∧ !s.supply.sources.isEmpty then deviceReset s else s
    | none => s)

/-! ### Tamper (R506) -/

/-- A tamper event counted; nothing is counted while the device is in Standby (R666). -/
def tamperCount (s : State) : State := if powerUnder s = pwStandby then s else ctrAdd s (mbPage 0) 8 1

/-- What Lamphouse does in the tick of a tamper event: unlocks end and holds are released (R529), session keys are erased, tier requests
stop, Gallery and Face are zeroed, the source is recorded, and the device halts. -/
def tamperEvent (s : State) (source : Nat) : State :=
  let t := (List.range 16).foldl (fun u n =>
    let x := secOf u n
    setFlag (setSec (releaseHolds u n) n { x with session := 0, sk := [], dbg := dbgD0, expiry := none, armed := false, retArmed := false }) (mbPage n) 4) s
  let u := tamperCount t
  let f := u.sec.flash
  let v := setFlash u { f with tampers := f.tampers ++ [(source, now s, lifecycle s)], d2Armed := none, d2Back := false }
  let w := { v with mem := { v.mem with tags := [], galBad := [], cells := v.mem.cells.filter fun c => decide (driftBase ≤ c.1) }, face := [] }
  deviceFatal (settleTags w) (mbPage 0) 1

/-- TAMPER (R506): TAMPER_N, source 0, acts where the layout sets TAMPER_PIN_EN, and before a layout is loaded it is only counted. -/
def execTamper (source : Fin 8) (s : State) : Res :=
  .next (
    if !s.supply.main ∨ s.sec.boot.held then s
    else if source = 0 then
      match s.dev.layout with
      | none => tamperCount s
      | some l => if l.tamperPin then tamperEvent s 0 else s
    else tamperEvent s source)

end Sys2Proof.Machine
end

