-- ==== Sys2Proof/Machine/Ports.lean ====
section
/-! DEFINITION. What crosses the module's connectors: reset, the supply and the always-on domain (R641 to R646), PCIe and BAR2 (R632 to
R635), and the interface units (R650 to R652). -/

namespace Sys2Proof.Machine

/-! ### Reset and supply (R641 to R646) -/

/-- RESET_N_ASSERT (R644): source 1; the device is held in reset while it is low. -/
def execResetNAssert (s : State) : Res :=
  .next (
    let t := if s.supply.main then deviceReset s else s
    { t with supply := { t.supply with resetN := true } })

/-- POWER_GOOD_LOST (R644): source 4. -/
def execPowerGoodLost (s : State) : Res := .next (if s.supply.main then deviceReset s else s)

/-- HOLDUP_STORE_DRAW (R641, R643): the input falls below 24 V; MD_FLAGS shows HOLDUP_USED. -/
def execHoldupStoreDraw (s : State) : Res :=
  .next (
    if s.supply.main && s.supply.drawAt.isNone then
      orReg { s with supply := { s.supply with drawAt := some (now s) } } (partPage 0) 0x7D0 8
    else s)

/-- HOLDUP_EXHAUSTED (R643): at least 3,000 ticks after the store began to feed, the main domains go Off. -/
def execHoldupExhausted (s : State) : Res :=
  .next (
    match s.supply.drawAt with
    | some d => if s.supply.main ∧ d + 3000 ≤ now s then powerOff s else s
    | none => s)

/-- POWER_LOSS (R537): the 48 V input is lost; the always-on domain runs on (R642). -/
def execPowerLoss (s : State) : Res :=
  .next (
    let t := if s.supply.main then powerOff s else s
    { t with supply := { t.supply with lostAt := some (s.supply.lostAt.getD (now s)) } })

/-- ALWAYS_ON_HOLD_EXPIRY (R642): 100 ms after the input is lost the always-on domain stops, and the safe stores lose their contents. -/
def execAlwaysOnHoldExpiry (s : State) : Res :=
  .next (
    if s.supply.lostAt.isSome ∧ !s.supply.main then
      { s with supply := { s.supply with always := false }, fx := { s.fx with chans := [] }
               regs := s.regs.filter fun x => match pageAt x.1 with
                 | some p => p.cls != .fxch
                 | none => true }
    else s)

/-- POWER_UP (R646): the domains come up in their order, and reset is held until RESET_RELEASE. -/
def execPowerUp (s : State) : Res :=
  .next (
    if s.supply.main then s
    else { deviceReset s with supply := { SupplySt.reset with resetN := s.supply.resetN, vin := s.supply.vin, die := s.supply.die }, tap := TapSt.reset })

/-! ### Pins of J2 (R412, R618, R629, R630) -/

/-- SAFE_OUTn conducts only while a running device has every channel that names it in RUN; its driver is in the always-on domain. -/
def safeOutConducts (s : State) (pin : Nat) : Bool := s.supply.always && s.supply.main && !s.sec.boot.held && !(safeOut s pin)

/-- PAIR_LEAD conducts while DEV_STATE[9] = 1. -/
def pairLeadConducts (s : State) : Bool := s.supply.always && s.supply.main && !s.sec.boot.held && leading s

/-- PAIR_POS conducts for position A and on a TKV16-A, as long as its driver has power. -/
def pairPosConducts (s : State) : Bool := s.supply.always && !(isPair s && s.dev.pairPos)

/-- LIFE_OUT: low in reset and without power. -/
def lifeOutHigh (s : State) : Bool := s.supply.main && s.vl.lifeOut

/-- VIO_REF is on while the main domains have power. -/
def vioRefOn (s : State) : Bool := s.supply.main

/-! ### PCIe (R632, R635, R644, R650) -/

def pciePage : Page := ⟨.pcie, 0⟩

/-- The HOST_DMA of a function in progress ends with TIMEOUT (R635). -/
def endHostDma (s : State) (n : Nat) : State :=
  match (secOf s n).mb with
  | some r => if r.op = 0x06 ∧ r.result.isNone then setSec s n { secOf s n with mb := some { r with result := some (.timeout, natBytes 4 0) } } else s
  | none => s

/-- PERST_N_ASSERT (R644): the endpoint and its link alone are reset. -/
def execPerstNAssert (s : State) : Res :=
  .next (
    if !s.supply.main ∨ s.sec.boot.held then s
    else (List.range 16).foldl endHostDma (setReg (setReg (setFlag s pciePage 3) pciePage 0x100 0) pciePage 0x104 0))

/-- FUNCTION_LEVEL_RESET (R635). -/
def execFunctionLevelReset (p : Part) (s : State) : Res :=
  .next (if !s.supply.main ∨ s.sec.boot.held then s else endHostDma (setFlag s pciePage 2) p)

/-- PCIE_LINK_CHANGE (R650): PC_LINK shows the width 2^w and the speed, and PC_VFS what the host has enabled. -/
def execPcieLinkChange (up : Bool) (w : Fin 3) (speed : Fin 5) (vfs : Half) (s : State) : Res :=
  .next (
    if !s.supply.main ∨ s.sec.boot.held ∨ powerUnder s = pwStandby then s
    else
      let link := if up then 0x100 + 2 ^ w.val * 16 + speed.val + 1 else 0
      setReg (setReg s pciePage 0x100 (BitVec.ofNat 32 link)) pciePage 0x104 (BitVec.ofNat 32 (vfs.toNat / 2 * 2)))

/-- PCIE_LTSSM_LOOPBACK (R673): the endpoint follows the host's request, and the link is not up for transfers. -/
def execPcieLtssmLoopback (s : State) : Res :=
  .next (if !s.supply.main ∨ s.sec.boot.held then s else clearReg s pciePage 0x100 0x100#32)

/-! ### The tier window (R634) -/

/-- The device-virtual address of an offset in the tier window. -/
def twAddr (s : State) (n off : Nat) : Nat := regField s (partPage n) 0x780 27 13 * 8192 * pageBytes + off

/-- A tier-window access that ended with another status than OK. -/
def twFail (s : State) (n off : Nat) (st : Status) : State :=
  ctrAdd (rcPut s (partPage n) 0x784 (BitVec.ofNat 32 (statusCode st * 65536 + off / pageBytes % 65536))) pciePage 4 1

/-- What decides a tier-window access before its pages do: HALT issues no tier request (R550), and Gallery serves none in Retain (R536). -/
def twStop (s : State) (n a : Nat) : Option Status :=
  if devState s = stHalt then some .safetyHold
  else if powerUnder s = pwRetain ∧ (pteOf s n (vpnOf a)).v ∧ (pteOf s n (vpnOf a)).home = .gallery then some .timeout
  else none

/-- Whether BAR2 can be reached: the device has power and is out of reset and of Standby. -/
def barOpen (s : State) : Bool := s.supply.main && !s.sec.boot.held && powerUnder s != pwStandby

/-- Bytes with what a write puts over them; both begin at their addresses. -/
def overlay (a : Nat) (bs : List Byte) (b : Nat) (w : List Byte) : List Byte :=
  ((List.range bs.length).zip bs).map fun x => if b ≤ a + x.1 ∧ a + x.1 < b + w.length then w.getD (a + x.1 - b) x.2 else x.2

/-- What a window read returns: the bytes as the earlier writes of the function leave them, those that still wait for a move's switch or
for the end of Brown-out among them, since the read is served after them (R634). -/
def windowBytes (s : State) (n a k : Nat) : List Byte :=
  let base := readBytes s n a k
  let moved := (s.mem.migWrites.filter fun x => x.1 == n).foldl (fun bs x => overlay a bs x.2.1 x.2.2) base
  (s.mem.heldWrites.filter fun x => x.1 / 2 ^ 28 == n).foldl (fun bs x => overlay a bs (x.1 % 2 ^ 28 * pageBytes) x.2) moved

/-- TIER_WINDOW_READ (R634): one access of up to 8 bytes. -/
def execTierWindowRead (p : Part) (off : BitVec 29) (size : AccSize) (s : State) : Res :=
  .next (
    let n := p.val
    let a := twAddr s n off.toNat
    let k := match size with
      | .b1 => 1
      | .b2 => 2
      | .b4 => 4
      | .b8 => 8
    if !(barOpen s) then s
    else if confidential s n then answer s .ok 0
    else
      let st := match twStop s n a with
        | some x => x
        | none => readRange s n a k
      let e := pteOf s n (vpnOf a)
      if st = .ok then answer (countAccess s e.home n (homeFrame e) a k false 0) .ok (BitVec.ofNat 64 (bytesNat (windowBytes s n a k)))
      else answer (twFail s n off.toNat st) st 0)

/-- The bytes gathered for a Seam page are given up. -/
def twDrop (s : State) (n a : Nat) : State := { s with mem := { s.mem with tw := smDel s.mem.tw (pteKey n (vpnOf a)) } }

/-- A write to a page whose home is Seam: gathered from offset 0 in ascending order, and programmed when its last byte has come; in
Brown-out the keeper holds it (R542). -/
def twSeam (s : State) (n a off : Nat) (bytes : List Byte) : State :=
  let key := pteKey n (vpnOf a)
  let got := smGet [] s.mem.tw key
  if a % pageBytes ≠ got.length then twFail (twDrop s n a) n off .range
  else
    let all := got ++ bytes
    if all.length < pageBytes then { s with mem := { s.mem with tw := smSet [] s.mem.tw key all } }
    else if s.dev.power = 4 then
      let t := twDrop s n a
      { t with mem := { t.mem with heldWrites := t.mem.heldWrites ++ [(n * 2 ^ 28 + vpnOf a, all)] } }
    else writeBytes (twDrop s n a) n (a - a % pageBytes) all

/-- TIER_WINDOW_WRITE (R634): one write of the link, of at most 512 bytes inside one 4 KiB block. -/
def execTierWindowWrite (p : Part) (off : BitVec 29) (bytes : List Byte) (s : State) : Res :=
  if bytes.isEmpty ∨ bytes.length > 512 ∨ off.toNat % 4096 + bytes.length > 4096 then .fault .malformedCommand
  else .next (
    let n := p.val
    let o := off.toNat
    let a := twAddr s n o
    if !(barOpen s) then s
    else if confidential s n then ctrAdd (ctrAdd s pciePage 3 1) (mbPage n) 7 1
    else
      let st := match twStop s n a with
        | some x => x
        | none => writeRange s n a bytes.length false false
      let e := pteOf s n (vpnOf a)
      if st ≠ .ok then
        let t := twFail (twDrop s n a) n o st
        if e.v ∧ e.home = .seam ∧ pgState s (keeperPageOf e.sLpn) = 2 then setFlag t (keeperPageOf e.sLpn) 2 else t
      else if e.home = .seam then twSeam s n a o bytes
      else writeBytes (countAccess s e.home n (homeFrame e) a bytes.length true 0) n a bytes)

/-- A byte of the ring area that the host may write (R430, R633). -/
def ringWritable (o : Nat) : Bool := decide (o < 4 ∨ (0x1000 ≤ o ∧ o < 0x9000))

/-- BAR2_RING_WRITE (R430, R633): PROD and the ring entries; writes of the completion records are discarded and counted, those of
reserved offsets discarded. -/
def execBar2RingWrite (p : Part) (off : BitVec 29) (bytes : List Byte) (s : State) : Res :=
  if bytes.isEmpty ∨ bytes.length > 512 ∨ off.toNat % 4096 + bytes.length > 4096 then .fault .malformedCommand
  else .next (
    let n := p.val
    let o := off.toNat
    if !(barOpen s) ∨ powerUnder s = pwRetain ∨ s.dev.layout.isNone then s
    else
      let t := ((List.range bytes.length).zip bytes).foldl (fun t x => if ringWritable (o + x.1) then putRing t n (o + x.1) [x.2] else t) s
      let u := if o < 4 then { t with prodAt := smPut t.prodAt n (now s) } else t
      if 0x9000 ≤ o ∧ o < 0xA000 then ctrAdd u pciePage 3 1 else u)

/-! ### The interface units (R650 to R652) -/

/-- Whether a channel that is not OFF names a unit, as its input, its output or, for a safe sender that is armed, its stored output. -/
def channelNames (s : State) (armedToo : Bool) (p : Page) : Bool :=
  let unit := if p.cls = .eth ∨ p.cls = .plca then p.inst % 4 else p.inst
  let inCode := match p.cls with
    | .spi => 1
    | .can => 2
    | _ => 3
  let outHit (dst : Word) : Bool := match p.cls with
    | .can => (field dst 31 28 == 1 || field dst 31 28 == 2) && field dst 27 24 == unit
    | .spi => false
    | _ => field dst 31 28 == 3 && field dst 27 24 == unit
  (p.cls == .can || p.cls == .spi || p.cls == .plca || (p.cls == .eth && decide (12 ≤ p.inst))) &&
    (List.range 64).any fun ch =>
      (fxState s ch != fxOff &&
        ((field (fxReg s ch 0x110) 31 28 == inCode && field (fxReg s ch 0x110) 27 24 == unit) || outHit (fxReg s ch 0x160))) ||
      (armedToo && safeArmed s ch && outHit (safeCopy s ch 1))

/-- Whether a page follows the state machine of R651. -/
def isUnit (p : Page) : Bool := [Cls.eth, .plca, .can, .spi].contains p.cls

/-- A lidar source whose port is lost: its sample in progress ends TRUNCATED, and a disable that awaited it takes effect (R343). -/
def cutLidar (s : State) (p : Page) : State :=
  if p.cls = .eth ∧ p.inst < 8 ∧ (lidarSt s p.inst).tick.isSome then lidarComplete s p.inst 32 else s

/-- What PORT_LINK_CHANGE brings: the state, the flag and the counters of the unit. -/
def portChange (s : State) (p : Page) (c : LinkChange) : State :=
  let st := pgState s p
  match c with
  | .trained => if st = portDown then setPgState s p portUp else s
  | .lost =>
    if st = portUp then
      let t := cutLidar (setFlag (setPgState s p portDown) p 0) p
      if p.cls = .eth then ctrAdd t p 5 1 else t
    else s
  | .fault =>
    if st = portUp then
      let t := cutLidar (setFlag (setPgState s p portFault) p 1) p
      if p.cls = .can then ctrAdd t p 4 1 else t
    else s
  | .recovered => if st = portFault ∧ p.cls ≠ .can then setPgState s p portDown else s

/-- PORT_LINK_CHANGE (R651, R652): a unit's link or bus trains, is lost, faults, or recovers. `detail` is SQI for an Ethernet port, and
REC · 256 + TEC for a CAN controller. -/
def execPortLinkChange (unit : Page) (change : LinkChange) (detail : Half) (s : State) : Res :=
  .next (
    if !(isUnit unit) ∨ !(allPages.contains unit) ∨ !(barOpen s) ∨ isLooped s unit then s
    else
      let t := match unit.cls with
        | .eth => setRegField s unit 0x104 11 8 (detail.toNat % 16)
        | .can => setRegField s unit 0x10C 15 0 detail.toNat
        | _ => s
      portChange t unit change)

/-- CAN_BUS_OFF_RECOVERY (R639): after 128 × 11 recessive bits. -/
def execCanBusOffRecovery (c : Fin 8) (s : State) : Res :=
  .next (
    let p : Page := ⟨.can, c⟩
    if pgState s p = portFault then setPgState (setReg s p 0x10C 0) p portDown else s)

/-- EP_STAT and CN_STAT (R650). -/
def portView (s : State) (p : Page) (off : Nat) : Option Word :=
  let st := pgState s p
  match p.cls, off with
  | .eth, 0x104 => some (BitVec.ofNat 32 (regField s p 0x104 11 8 * 256 + (if st = portUp then 1 else 0) + (if st = portFault then 2 else 0)))
  | .can, 0x10C =>
    let w := regField s p 0x10C 15 0
    some (BitVec.ofNat 32 (w + 65536 * (if st = portFault then 2 else if w % 256 ≥ 128 ∨ w / 256 ≥ 128 then 1 else 0)))
  | _, _ => none

/-- A write of a configuration register (R650, R651). -/
def portCheck (s : State) (p : Page) (off : Nat) (v : Word) : Option Status :=
  if !(isUnit p) ∨ off < 0x100 ∨ 0x110 ≤ off then none
  else if p.cls = .can ∧ off = 0x100 ∧ field v 1 0 = 3 then some .range
  else if p.cls = .spi ∧ off = 0x100 ∧ (field v 15 8 < 2 ∨ field v 15 8 > 100) then some .range
  else if pgState s p ≠ portOff then some .stateIllegal
  else none

/-- ENABLE of a unit written (R651). -/
def portEnable (s : State) (p : Page) (en : Bool) : State :=
  if !en then setPgState (loopUnitReset s p) p portOff
  else if pgState s p = portOff then setPgState s p (if p.cls = .spi then portUp else portDown)
  else s

end Sys2Proof.Machine
end

