-- ==== Sys2Proof/Machine/Test.lean ====
section
/-! DEFINITION. Loopbacks as they are entered (R672, R673, R676) and the instructions of the TAP (R677, R679). -/

namespace Sys2Proof.Machine

/-! ### Loopbacks -/

def lbClsOf (code : Nat) : Option Cls := [Cls.vuvon, .pcie, .eth, .aphy, .can, .spi].find? fun x => clsCode x == code

/-- The unit that LB_SEL names. -/
def lbUnit (v : Word) : Option Page :=
  (lbClsOf (field v 31 24)).bind fun k => if field v 23 16 < clsCount k then some ⟨k, field v 23 16⟩ else none

/-- The depths of an interface through the page (R672): 0 to 3 L0 to L3, 4 FE, 5 FC. -/
def lbDepths (p : Page) : List Nat :=
  match p.cls with
  | .pcie => [0, 1, 2, 3]
  | .vuvon => [0, 1, 2, 4, 5]
  | .eth => if p.inst < 12 then [0, 1, 2, 3, 4, 5] else [1, 2, 3]
  | .aphy => [0, 2]
  | .can => [0, 1, 2]
  | .spi => [0, 1]
  | _ => []

/-- Whether LB_SEL names a unit and a depth of it. -/
def lbSelOk (v : Word) : Bool := (lbUnit v).any fun p => (lbDepths p).contains (field v 2 0)

/-- Whether a unit is idle (R673). -/
def lbIdleUnit (s : State) (p : Page) : Bool :=
  let st := pgState s p
  match p.cls with
  | .eth | .can | .spi => st == portOff || st == portDown
  | .aphy => st == apOff || st == apDown || st == apUp
  | .vuvon => linkState s == vlOff
  | _ => true

/-- The debugger of the whole device: BLANK or D3 (R677). -/
def wholeDevice (s : State) : Bool := lifecycle s == lcBlank || dbgOf s 0 == dbgD3

/-- Who may loop a unit (R673): PT0 its own, D3 any; a PCIe loopback only the JTAG port in BLANK or at D3. -/
def lbDenied (s : State) (jtag : Bool) (v : Word) : Bool :=
  match lbUnit (regVal s testPage 0x100) with
  | none => false
  | some p => bit v 0 && (if p.cls = .pcie then !(jtag && wholeDevice s) else pageOwner s p != 0 && !(jtag && dbgOf s 0 == dbgD3))

def lbCheck (s : State) (p : Page) (off : Nat) (v : Word) : Option Status :=
  if p != testPage then none
  else
    let active := s.loop.isSome
    if off = 0x100 then if !(lbSelOk v) then some .range else if active then some .stateIllegal else none
    else if off = 0x108 then if v.toNat = 0 ∨ v.toNat > 9216 then some .range else if active then some .stateIllegal else none
    else if off = 0x104 then
      let sel := regVal s testPage 0x100
      if field v 31 16 = 0 then some .range
      else if !(bit v 0) then none
      else if active then some .busy
      else if !(lbSelOk sel) then some .range
      else match lbUnit sel with
        | some u => if !(lbIdleUnit s u) then some .stateIllegal else if channelNames s true u then some .busy else none
        | none => some .range
    else none

/-- GO = 1 accepted (R673): the unit reports DOWN and carries no traffic; a looped endpoint has no link. -/
def lbStart (s : State) (v : Word) : State :=
  match lbUnit (regVal s testPage 0x100) with
  | none => s
  | some u =>
    let t := match u.cls with
      | .eth | .can | .spi | .aphy => setPgState s u portDown
      | .pcie => clearReg s u 0x100 0x100#32
      | _ => s
    let w := { t with loop := some ⟨u, regField s testPage 0x100 2 0, now s + field v 31 16 * 1000, none⟩ }
    ctrAdd (setReg (setBusy (setPgState w testPage lbActive) testPage true) testPage 0x110 0) testPage 4 1

def lbAct (s : State) (p : Page) (off : Nat) (v _old : Word) : State :=
  if p != testPage ∨ off ≠ 0x104 then s
  else if bit v 0 then lbStart s v
  else loopEnd s false

/-- LB_STAT (R676). -/
def lbView (s : State) (p : Page) (off : Nat) : Option Word :=
  if p = testPage ∧ off = 0x10C then some (BitVec.ofNat 32 (regField s p 0x10C 7 0 + s.loop.isSome.toNat * 256)) else none

/-- What the generator and the checker have counted by the end of a loopback. -/
def withLoopCount (s : State) (c : Option LoopCount) : State :=
  match s.loop with
  | some l => { s with loop := some { l with count := c } }
  | none => s

/-- LOOPBACK_LIMIT (R673): LIMIT × 1,000 ticks have passed since entry. -/
def execLoopbackLimit (count : LoopCount) (s : State) : Res :=
  .next (
    match s.loop with
    | some l => if l.limit ≤ now s then loopEnd (withLoopCount s (some count)) false else s
    | none => s)

/-! ### The TAP (R677, R679) -/

def setTap (s : State) (x : TapSt) : State := { s with tap := x }

/-- Bits of a scan chain, packed eight to a byte. -/
def packBits (n : Nat) (bs : List Bool) : List Byte :=
  (List.range n).map fun i => BitVec.ofNat 8 ((List.range 8).foldl (fun k j => k + (bs.getD (8 * i + j) false).toNat * 2 ^ j) 0)

/-- TAP_RESET (R677): BYPASS is selected, and any SELECT ends. -/
def execTapReset (s : State) : Res := .next (setTap s { s.tap with ir := 0xFF, select := none })

/-- SAMPLE_PRELOAD (R677): the pins' levels are captured, and the bits shifted in stand in the boundary register. -/
def execSamplePreload (levels shifted : List Bool) (s : State) : Res :=
  .next (setTap s { s.tap with ir := 0x01, capture := packBits ((levels.length + 7) / 8) levels, boundary := shifted })

/-- An instruction of boundary-scan compliance (R677): outside BLANK and D3 it acts as BYPASS and is counted. -/
def scanInstr (s : State) (ir : Nat) (f : TapSt → TapSt) : State :=
  if wholeDevice s then setTap s { f s.tap with ir := ir }
  else ctrAdd (setTap s { s.tap with ir := 0xFF }) testPage 6 1

/-- EXTEST (R677). -/
def execExtest (levels shifted : List Bool) (s : State) : Res :=
  .next (scanInstr s 0x02 fun x => { x with capture := packBits ((levels.length + 7) / 8) levels, boundary := shifted })

/-- CLAMP (R677). -/
def execClamp (s : State) : Res := .next (scanInstr s 0x03 id)

/-- HIGHZ (R677): the safety pins keep their drive. -/
def execHighz (s : State) : Res := .next (scanInstr s 0x04 id)

/-- JTAG_SELECT (R677): [3:0] partition, [7] valid. -/
def execJtagSelect (v : Byte) (s : State) : Res :=
  .next (setTap s { s.tap with ir := 0x11, select := if v.msb then some (v.toNat % 16) else none })

/-- ATTEST (R679): a DEVICE report as a request of the JTAG port; one that is awaited goes on. -/
def execAttest (nonce : BitVec 384) (s : State) : Res :=
  .next (
    let t := setTap s { s.tap with ir := 0x13 }
    if !s.supply.main ∨ s.sec.boot.held ∨ (secOf s atTap).at'.isSome then t
    else atEnqueue (setTap t { t.tap with report := none, status := .busy }) atTap ⟨2, 0, natBytes 48 nonce.toNat, now s, none, none⟩)

end Sys2Proof.Machine
end

