-- ==== Sys2Proof/Machine/Rights.lean ====
section
/-! DEFINITION. Who may read and write what on a register page: the owner, PT0, the other partitions, the debugger and the internal
requesters (R96, R97, R465, R466, R488, R528, R545, R678). -/

namespace Sys2Proof.Machine

/-- What a requester may do at an offset: nothing, read without side effects, or read and write. -/
inductive Right | none | read | full
  deriving DecidableEq, Repr

/-- The header fields that every requester reads (R96): PG_ID, PG_CAP and PG_LEVEL. -/
def openHeader (off : Nat) : Bool := decide (off < 8) || (decide (0x24 ≤ off) && decide (off < 0x28))

/-- The pages whose blocks a CONFIDENTIAL owner's function still reaches (R488). -/
def exemptCls (k : Cls) : Bool :=
  match k with
  | .mailbox | .attest => true
  | _ => false
def confExempt (p : Page) : Bool := exemptCls p.cls || (p.cls == .ring && p.inst != 0)

/-- What R96 and R488 give to a partition that is not the owner. -/
def strangerRight (s : State) (q : Nat) (p : Page) (off : Nat) : Right :=
  if openHeader off then .read
  else if off < 0x100 then if q = 0 then .read else .none
  else if pageShared s p then .read else .none

/-- The right of a partition's function (R96, R488). -/
def hostRight (s : State) (q : Nat) (p : Page) (off : Nat) : Right :=
  if pageOwner s p ≠ q then strangerRight s q p off
  else if confidential s q && decide (0x100 ≤ off) && !(confExempt p) then .none
  else .full

/-- The right of the debugger with a partition selected (R528, R545, R678): none is served in Retain and Standby. -/
def jtagRight (s : State) (q : Nat) (p : Page) (off : Nat) : Right :=
  let base : Right := if openHeader off then .read else .none
  if !(powered s) then .none
  else if wholeDevice s then .full
  else if s.tap.select ≠ some q ∨ pageOwner s p ≠ q then base
  else
    let d := dbgOf s q
    if d = dbgD2 ∨ d = dbgEnter ∨ d = dbgLeave then if 0x100 ≤ off ∨ off = 0x018 then .full else .read
    else if d = dbgD1 then .read
    else base

/-- The tier pages, which the stack managers reach (R466). -/
def tierCls (k : Cls) : Bool :=
  match k with
  | .gallery | .drift | .seam | .keeper | .hoist => true
  | _ => false

/-- The right of a requester at an offset of a page. -/
def rightOf (s : State) (r : Req) (p : Page) (off : Nat) : Right :=
  match r with
  | .host q => hostRight s q.val p off
  | .sealedOwner q => if pageOwner s p = q.val then .full else strangerRight s q.val p off
  | .jtag q => jtagRight s q.val p off
  | .lamphouse => .full
  | .stackMgr _ => if tierCls p.cls then .full else if openHeader off then .read else .none
  | .fireboss _ => if off = 0x018 then .full else if off < 0x40 then .read else .none

/-- Whether a read has its side effects: the owner's has (R97). -/
def isOwner (s : State) (r : Req) (p : Page) (off : Nat) : Bool :=
  match r with
  | .host q | .sealedOwner q => pageOwner s p == q.val && rightOf s r p off == .full
  | _ => false

/-- The partition that a record of an access names (R107); an internal requester has none and shows 0. -/
def reqPart (r : Req) : Nat :=
  match r with
  | .host q | .sealedOwner q | .jtag q => q.val
  | _ => 0

/-- The number under which a requester's latches are kept. -/
def reqNo (r : Req) : Nat :=
  match r with
  | .host q => q.val
  | .sealedOwner q => 16 + q.val
  | .jtag _ => 32
  | .lamphouse => 48
  | .stackMgr .w => 49
  | .stackMgr .e => 50
  | .fireboss .w => 51
  | .fireboss .e => 52

/-- Whether injection into a page is open (R91, R468, R545): the cell of the owner's debug state, and always for an internal requester. -/
def injectOk (s : State) (r : Req) (p : Page) : Bool :=
  match r with
  | .host _ | .sealedOwner _ | .jtag _ =>
    let d := dbgOf s (pageOwner s p)
    powered s && (wholeDevice s || d == dbgD2 || d == dbgEnter || d == dbgLeave)
  | _ => true

/-- Whether a requester's accesses reach the pages at all: BAR0 serves none in reset, without power and in Standby (R536, R644), and a
looped endpoint has no link (R673). -/
def reaches (s : State) (r : Req) : Bool :=
  barOpen s && (match r with
    | .host _ => !(isLooped s pciePage)
    | _ => true)

/-- Whether a block is without power (R536, R539): the cores and the A-PHY ports in Retain. -/
def unpowered (s : State) (p : Page) : Bool := powerUnder s == 2 && ((pageCore p).isSome || p.cls == .aphy)

end Sys2Proof.Machine
end

