-- ==== Sys2Proof/Machine/Bus.lean ====
section
/-! DEFINITION. Register accesses: what a read returns and does (R9, R12, R56, R79, R95, R97, R100), how a write is judged (R104, R113)
and what it does (R9, R11, R89, R91, R98). Every command that is a register access goes through `busRead` or `busWrite`. -/

namespace Sys2Proof.Machine

/-! ### What a register shows -/

/-- PG_CAP (R87, R153, R301, R421). -/
def pgCap (k : Cls) : Word :=
  match k with
  | .m => 0x7F
  | .v => 0x3F
  | .a => 0x1F
  | .c => 0x60
  | _ => 0

/-- DEV_ERRSUM (R107): the partitions that own a page with an unmasked flag set. -/
def errSum (s : State) : Word :=
  let hot (p : Page) : Bool := (regVal s p 0x010 &&& ~~~(regVal s p 0x014)) != 0
  BitVec.ofNat 32 (((List.range 16).map fun n => if allPages.any fun p => pageOwner s p == n && hot p then 2 ^ n else 0).sum)

/-- DEV_PRESET_STAT (R107). -/
def presetStat (s : State) : Word :=
  BitVec.ofNat 32 (((List.range 16).map fun n => if inReset s n then 2 ^ n else 0).sum)

/-- How many tracks of a T-core are not FREE (R350 TC_LIVE). -/
def liveTracks (s : State) (core : Nat) : Nat :=
  ((List.range 512).filter fun i => (trackOf (trackRec s core i)).status != 0).length

def deviceView (s : State) (off : Nat) : Option Word :=
  match off with
  | 0x104 => some (BitVec.ofNat 32 (s.dev.order.toNat + s.dev.pairPos.toNat * 4 + s.dev.stepping.toNat * 16))
  | 0x10C => some (BitVec.ofNat 32 (devStateWord s))
  | 0x118 => some (errSum s)
  | 0x120 => some (presetStat s)
  | _ => none

/-- Whether the governor throttles an M-core (R37, R39): it belongs to a partition other than PT0, or to a time-shared group, whichever
partition owns its window. DESIGN CHOICE (log 15): a core that the layout assigns to none, which PT0 holds (R31), is not. -/
def throttleable (s : State) (p : Page) : Bool :=
  match coreAssign s ⟨.m, p.inst⟩ with
  | .part n _ => n != 0
  | .group _ => true
  | .unassigned => false

/-- MC_DUTY (R37, R158): a core that is not throttled shows full duty. -/
def dutyWord (s : State) (p : Page) : Word := if throttleable s p then BitVec.ofNat 32 (256 + s.gov.duty % 32) else 16

/-- The registers that are not a stored word, class by class. -/
def blockView (s : State) (p : Page) (off : Nat) : Option Word :=
  match p.cls with
  | .device => deviceView s off
  | .m => if off = 0x10C then some (dutyWord s p) else none
  | .tick | .ptp => timeView s p off
  | .tally => tlView s p off
  | .gallery | .keeper | .seam | .hoist => tierView s p off
  | .part => kvView s p off <|> debugView s p off <|> pwView s p off
  | .t => if off = 0x10C then some (BitVec.ofNat 32 (s.tracks.nextId.getD p.inst 0)) else if off = 0x110 then some (BitVec.ofNat 32 (liveTracks s p.inst)) else none
  | .c => fxView s p off
  | .mailbox => mailboxView s p off
  | .fireboss => fbView s p off
  | .ring => if p.inst = 0 then roView s p off else sbView s p off
  | .vuvon => vlView s p off
  | .eth | .can => portView s p off
  | .bank | .dump => countView s p off
  | .test => lbView s p off
  | _ => none

/-- Whether a page whose BUSY is no stored bit holds work in progress (R90): a tier-map or a KV request, a mailbox command, an attestation. -/
def holdsWork (s : State) (p : Page) : Bool :=
  match p.cls with
  | .part => (tmOf s p.inst).isSome || (kvRunOf s p.inst).isSome
  | .mailbox => mbBusy s p.inst
  | .attest => (secOf s p.inst).at'.isSome
  | _ => false

/-- PG_ID, PG_CAP, PG_STAT's BUSY and PG_LEVEL (R86, R87, R90, R94). -/
def headerView (s : State) (p : Page) (off : Nat) : Option Word :=
  match off with
  | 0x000 => some (BitVec.ofNat 32 (clsCode p.cls * 2 ^ 24 + p.inst * 2 ^ 16 + 0x0100))
  | 0x004 => some (pgCap p.cls)
  | 0x00C => if [Cls.part, .mailbox, .attest].contains p.cls then some (setBit (regVal s p off) 0 (holdsWork s p)) else blockView s p off
  | 0x024 => some (BitVec.ofNat 32 (regField s devPage 0x108 15 8))
  | _ => blockView s p off

/-- Whether an offset lies in the counter window (R85). -/
def inWindow (off : Nat) : Bool := decide (0x40 ≤ off ∧ off < 0x100)

/-- A counter slot that the page assigns; the others are reserved (R95). -/
def winSlot (p : Page) (off : Nat) : Option Nat :=
  let i := (off - 0x40) / 8
  if (ctrSlots p).contains i then some i else none

/-- What an owner's read of the word at an offset returns, but for the latched words. -/
def showWord (s : State) (p : Page) (off : Nat) : Word :=
  if inWindow off then
    match winSlot p off with
    | some i => let v := windowVal s p i; if off % 8 = 0 then v.setWidth 32 else (v >>> 32).setWidth 32
    | none => 0
  else
    match regRow p off with
    | none => 0
    | some r => (headerView s p off).getD (smGet (regVal s p off, 0) s.rcTick (regKey p off)).1 &&& rowBits r &&& ~~~r.wo

/-- What a read returns while the owner is in partial reset (R100), and of an unpowered block (R539). -/
def readValue (s : State) (p : Page) (off : Nat) : Word :=
  let kept := openHeader off || off == 0x010 || off == 0x01C || inWindow off
  if inReset s (pageOwner s p) && !kept then
    if off = 0x020 then (regReset p off &&& ~~~0x100#32) ||| (regVal s p off &&& 0x100#32)
    else if p.cls = .m ∧ off = 0x10C then (if throttleable s p then 0x110#32 else 0x010#32)
    else
      match regRow p off with
      | some r => r.reset &&& ~~~r.wo
      | none => 0
  else if unpowered s p && decide (0x100 ≤ off) then 0
  else showWord s p off

/-! ### Reads -/

/-- What a read of an address is given to latch for its requester (R56, R95): addresses and words. -/
def latches (s : State) (p : Page) (off : Nat) : List (Nat × Word) :=
  let a := regKey p off
  if p.cls = .tick ∧ off = 0x100 then [(a + 4, (s.time.tickNow >>> 32).setWidth 32)]
  else if p.cls = .tick ∧ off = 0x108 then
    [(a + 4, BitVec.ofNat 32 (instantNow s / 2 ^ 64)), (a + 8, BitVec.ofNat 32 (instantNow s))]
  else if (inWindow off || (p.cls == .bank && decide (0x400 ≤ off))) && off % 8 == 0 then [(a + 4, readValue s p (off + 4))]
  else []

/-- The words that only a latch holds. -/
def isLatched (p : Page) (off : Nat) : Bool :=
  (p.cls == .tick && (off == 0x104 || off == 0x10C || off == 0x110)) || ((inWindow off || (p.cls == .bank && decide (0x400 ≤ off))) && off % 8 == 4)

def latchKey (r : Req) (a : Nat) : Nat := reqNo r * 2 ^ 26 + a

def latchAll (s : State) (r : Req) (p : Page) (off : Nat) : State :=
  let t := { s with latch := (latches s p off).foldl (fun m x => smSet 0 m (latchKey r x.1) x.2) s.latch }
  if p.cls = .tick ∧ off = 0x108 then advanceInst t else t

/-- The side effects of an owner's read: an RC register is cleared, but for what this tick's events leave (R9, R12); the timestamp queue
pops (R75); CC_RC_ADDR advances (R421). DESIGN CHOICE (log 17): while the owner is in partial reset a read has none of them, and PG_REJECT
too keeps its value (R100). -/
def readEffect (s : State) (p : Page) (off : Nat) : State :=
  if inReset s (pageOwner s p) then s
  else
    match regRow p off with
    | none => s
    | some r =>
      if p.cls = .ptp ∧ off = 0x120 then tsqPopHead s
      else if p.cls = .c ∧ off = 0x10C ∧ !(unpowered s p) then rcAdvance s p
      else if r.rc = 0 ∨ inWindow off ∨ (unpowered s p && decide (0x100 ≤ off)) then s
      else
        let k := regKey p off
        match smFind s.rcTick k with
        | some x => { setReg s p off x.2 with rcTick := smPut s.rcTick k (0, x.2) }
        | none => setReg s p off 0

/-- A denied read (R97): recorded in DEV_DENY_RD with its byte address, and counted. -/
def denyRead (s : State) (r : Req) (a : Nat) : State :=
  ctrAdd (rcPut s devPage 0x114 (BitVec.ofNat 32 (a % 2 ^ 26 + reqPart r * 2 ^ 26))) devPage 2 1

/-- A stream's status read by a partition that does not own the stream (R260). -/
def foreignStream (s : State) (r : Req) (p : Page) (off : Nat) : Bool :=
  p.cls == .hoist && decide (0x400 ≤ off ∧ off < 0x600) && (match r with
    | .host q | .sealedOwner q | .jtag q => (pfOf s (128 * p.inst + (off - 0x400) / 4)).any fun x => x.part != q.val
    | _ => false)

/-- One 32-bit read of the word at `a`, for an access whose byte address is `ba` (R107): the state after it, its status and the word. -/
def read32 (s : State) (r : Req) (a ba : Nat) : State × Status × Word :=
  match pageAt a with
  | none => (s, .ok, 0)
  | some p =>
    let off := pageOff a
    if rightOf s r p off = .none then (denyRead s r ba, .ownerDenied, 0)
    else
      let v := if isLatched p off then smGet 0 s.latch (latchKey r a) else if foreignStream s r p off then 0 else readValue s p off
      let t := latchAll s r p off
      (if isOwner s r p off then readEffect t p off else t, .ok, v)

/-- The bytes of an access. -/
def sizeBytes (z : AccSize) : Nat :=
  match z with
  | .b1 => 1
  | .b2 => 2
  | .b4 => 4
  | .b8 => 8

/-- A read (R79): 64 bits are two 32-bit reads, low address first; 8 and 16 bits are the addressed bytes of one 32-bit read. BAR0 takes
only naturally aligned accesses. -/
def busRead (s : State) (r : Req) (a : Nat) (z : AccSize) : State :=
  if !(reaches s r) then answer s .ok 0
  else if a % sizeBytes z ≠ 0 then answer s .range 0
  else
    match z with
    | .b8 =>
      let x := read32 s r a a
      let y := read32 x.1 r (a + 4) (a + 4)
      answer y.1 (if x.2.1 = .ok then y.2.1 else x.2.1) (x.2.2.setWidth 64 ||| (y.2.2.setWidth 64 <<< 32))
    | _ =>
      let x := read32 s r (a - a % 4) a
      answer x.1 x.2.1 (BitVec.ofNat 64 (x.2.2.toNat >>> (8 * (a % 4)) % 2 ^ (8 * sizeBytes z)))

/-! ### How a write is judged -/

/-- The order of R104. -/
def reasonRank (st : Status) : Nat :=
  match st with
  | .ownerDenied => 1
  | .busyReset => 2
  | .debugLocked => 3
  | .reservedSet => 4
  | .levelUnsupported => 5
  | .range => 6
  | .stateIllegal => 7
  | _ => 8

/-- The reason that comes first in the order of R104. -/
def firstReason (xs : List (Option Status)) : Option Status :=
  xs.foldl (fun best x => match best, x with
    | none, y => y
    | some a, some b => if reasonRank b < reasonRank a then some b else some a
    | some a, none => some a) none

/-- The bits that a write may set (R13, R84); bits 62:48 of a counter are reserved (R95). -/
def writableBits (p : Page) (off : Nat) : Word :=
  if inWindow off then
    match winSlot p off with
    | some _ => if off % 8 = 0 then allOnes else 0x8000FFFF#32
    | none => 0
  else
    match regRow p off with
    | some r => if p.cls = .bank ∧ 0x400 ≤ off ∧ off % 8 = 4 then 0x8000FFFF#32 else rowBits r
    | none => 0

/-- A Tally that a sensor register names outside the owner's range (R163, R347 to R349). -/
def sensorDenied (s : State) (p : Page) (off : Nat) (v : Word) : Bool :=
  let own (i : Nat) : Bool := ownsTally s (pageOwner s p) i
  match p.cls with
  | .aphy => (off == 0x120 || off == 0x124) && !(own (field v 13 0))
  | .eth => decide (p.inst < 8) && off == 0x61C && !(own (field v 13 0) && own (field v 29 16))
  | .part => off == 0x614 && !(own (field v 13 0))
  | _ => false

/-- OWNER_DENIED of a write (R10, R96, R97, R98, R673). -/
def writeDenied (s : State) (r : Req) (p : Page) (off : Nat) (v : Word) : Bool :=
  let locked := match regRow p off with
    | some row => row.rwl != 0 && pageLocked s p
    | none => false
  let owner := regVal s p 0x020
  let jtag := match r with
    | .jtag _ => true
    | _ => false
  rightOf s r p off != .full || locked ||
    (off == 0x020 && (field v 3 0 != field owner 3 0 || bit v 9 != bit owner 9 || (bit owner 8 && !(bit v 8)))) ||
    sensorDenied s p off v || (p == testPage && off == 0x104 && lbDenied s jtag v)

/-- The commands of the DEVICE page (R107, R113, R114). -/
def deviceCheck (s : State) (off : Nat) (v : Word) : Option Status :=
  let st := devState s
  match off with
  | 0x108 => if field v 7 0 = 0 then some .range else if st = stHalt then some .stateIllegal else none
  | 0x11C =>
    let n := field v 3 0
    if inReset s n then some .busyReset
    else if n = 0 then some .range
    else if st ≠ stRun then some .stateIllegal
    else none
  | 0x124 => if st = stHalt then some .stateIllegal else none
  | _ => none

/-- What PG_CTRL allows (R61, R89, R106, R113, R148, R175, R256, R298, R343, R416, R419, R459, R507, R524, R587, R588, R622, R651, R667,
R676). -/
def ctrlCheck (s : State) (p : Page) (v : Word) : Option Status :=
  let off := bit v 1 || !(bit v 0)
  let st := pgState s p
  let only (bad : Bool) (e : Status) : Option Status := if off && bad then some e else none
  match p.cls with
  | .m | .v | .a | .l | .f | .t =>
    let k : CoreId := (pageCore p).getD ⟨.m, 0⟩
    let busy := (streamsOf k).any fun i => streamBusy (streamState s k i)
    if st = cOff ∧ bit v 0 ∧ coreAssign s k = .unassigned then some .stateIllegal
    else if off && st == cSuspect then some .stateIllegal
    else only busy .busy
  | .c =>
    if off && st == ccSuspect then some .stateIllegal
    else only ((List.range 32).any fun j => fxState s (32 * p.inst + j) != fxOff) .busy
  | .fxch => only (fxState s p.inst != fxOff) .busy
  | .tally =>
    if st = tlOff ∧ off then some .stateIllegal
    else if !(bit v 0) then some .stateIllegal
    else only (!(armedTallies s p.inst).isEmpty) .busy
  | .device | .tick | .gallery | .drift | .seam | .keeper | .hoist | .ring | .fireboss | .vuvon | .dump | .bank | .test => only true .stateIllegal
  | .mailbox => if !(bit v 0) then some .stateIllegal else only (holdsWork s p) .busy
  | .attest => if !(bit v 0) then some .stateIllegal else only (holdsWork s p) .busy
  | .aphy => only (st == apStream || st == apStalled) .busy
  | .eth | .can | .plca | .spi => only (channelNames s false p) .busy
  | .part => only (holdsWork s p) .busy
  | .ptp | .pcie | .tsn => only (regBit s p 0x00C 0) .busy

/-- What a block's own chapter checks. -/
def blockCheck (s : State) (r : Req) (p : Page) (off : Nat) (v : Word) : List (Option Status) :=
  match p.cls with
  | .device => [deviceCheck s off v]
  | .tick | .ptp => [timeCheck s p off v]
  | .tally => [tlCheck s p off v]
  | .gallery | .drift | .seam | .keeper | .hoist => [tierCheck s p off v]
  | .part =>
    let jtag := match r with
      | .jtag _ => true
      | _ => false
    [tierCheck s p off v, kvCheck s p off v, sensorCheck s p off v, debugCheck s p off v jtag, pwCheck s p off v, countCheck s p off v]
  | .a => [kvCheck s p off v]
  | .aphy => [sensorCheck s p off v]
  | .eth => [sensorCheck s p off v, portCheck s p off v]
  | .can | .plca | .spi => [portCheck s p off v]
  | .l => [plannerCheck s p off v]
  | .c | .fxch => [fxCheck s p off v]
  | .mailbox => [mailboxCheck s p off v]
  | .attest => [attestCheck s p off v]
  | .fireboss => [fbCheck s p off v]
  | .ring => [roCheck s p off v]
  | .vuvon => [vlCheck s p off v]
  | .dump => [countCheck s p off v]
  | .test => [lbCheck s p off v]
  | _ => []

/-- Outside RUN only the DEVICE page takes writes, and in REFUSED also the mailbox writes that start LAYOUT_WRITE (R113). -/
def gateOpen (s : State) (p : Page) (off : Nat) : Bool :=
  devRunning s || p == devPage ||
    (devState s == stRefused && p == mbPage 0 && (off == 0x100 || off == 0x104 || off == 0x108 || decide (0x800 ≤ off ∧ off < 0xC00)))

/-- Why a write is rejected, if it is (R104); a write of 8 or 16 bits ends at the first three checks or with RANGE (R79). -/
def judge (s : State) (r : Req) (p : Page) (off : Nat) (v : Word) (narrow : Bool) : Option Status :=
  if writeDenied s r p off v then some .ownerDenied
  else
    let own := if off = 0x008 then [ctrlCheck s p v] else if off < 0x100 then [] else blockCheck s r p off v
    let early := [if inReset s (pageOwner s p) then some .busyReset else none,
      if off = 0x018 ∧ v ≠ 0 ∧ !(injectOk s r p) then some .debugLocked else none]
    if narrow then firstReason (early ++ own.map (fun x => x.bind fun st => if reasonRank st ≤ 3 then some st else none) ++ [some .range])
    else firstReason (early ++ [if v &&& ~~~(writableBits p off) ≠ 0 then some .reservedSet else none] ++ own ++
      [if gateOpen s p off then none else some .stateIllegal, if unpowered s p ∧ 0x100 ≤ off then some .stateIllegal else none])

/-! ### What an accepted write does -/

/-- PG_CTRL[0] written (R88): a block moves between OFF and its enabled state. -/
def enableAct (s : State) (p : Page) (en : Bool) : State :=
  match p.cls with
  | .m | .v | .a | .l | .f | .t =>
    let k : CoreId := (pageCore p).getD ⟨.m, 0⟩
    if en then if pgState s p = cOff then (streamsOf k).foldl (fun t i => setStreamState t k i cIdle) s else s
    else (streamsOf k).foldl (fun t i => setStreamState t k i cOff) s
  | .c => if en then if pgState s p = cOff then setPgState s p ccRun else s else setPgState s p cOff
  | .aphy =>
    if en then if pgState s p = apOff then setPgState s p apDown else s
    else setPgState (setPort (loopUnitReset s p) p.inst noPort) p apOff
  | .eth | .can | .plca | .spi => portEnable s p en
  | _ => s

/-- An accepted write of PG_CTRL (R88, R89). -/
def ctrlAct (s : State) (p : Page) (v : Word) : State :=
  if bit v 1 then atBoundary s (.softReset p (bit v 0)) else enableAct (setReg s p 0x008 (v &&& 1)) p (bit v 0)

/-- An accepted write of the DEVICE page (R101, R114). -/
def deviceAct (s : State) (off : Nat) (v : Word) : State :=
  match off with
  | 0x108 => atBoundary s (.level (BitVec.ofNat 8 (field v 7 0)))
  | 0x11C => atBoundary s (.presetBegin (field v 3 0))
  | _ => s

/-- What a block's own chapter does on an accepted write. -/
def blockAct (s : State) (p : Page) (off : Nat) (v old : Word) : State :=
  match p.cls with
  | .device => deviceAct s off v
  | .tick | .ptp => timeAct s p off v old
  | .tally => tlAct s p off v
  | .gallery | .drift | .seam | .keeper | .hoist => tierAct s p off v
  | .part => countAct (pwAct (debugAct (sensorAct (kvAct (tierAct s p off v) p off v old) p off v old) p off v old) p off v old) p off v old
  | .aphy | .eth => sensorAct s p off v old
  | .l => plannerAct s p off v
  | .c | .fxch => fxAct s p off v
  | .mailbox => mailboxAct s p off v
  | .attest => attestAct s p off v
  | .fireboss => fbAct s p off v old
  | .ring => roAct s p off v
  | .vuvon => vlAct s p off v old
  | .dump => countAct s p off v old
  | .test => lbAct s p off v old
  | _ => s

/-- The bits that an accepted write leaves in a register (R9, R11). -/
def storedBits (s : State) (p : Page) (off : Nat) (row : RegRow) (v : Word) : Word :=
  let old := regVal s p off
  let m := row.rw ||| row.rwl
  let kept := smGet 0 s.hwSet (regKey p off)
  ((old &&& ~~~m) ||| (v &&& m)) &&& ~~~(v &&& row.w1c &&& ~~~kept)

/-- An accepted write (R9): PG_CTRL and PG_ERRINJ act, every other register stores what it stores, and the block does its part. -/
def accept (s : State) (p : Page) (off : Nat) (v : Word) : State :=
  if off = 0x008 then ctrlAct s p v
  else if off = 0x018 then (List.range 32).foldl (fun t n => if bit v n then atBoundary t (.errFlag p n) else t) s
  else if inWindow off then s
  else
    match regRow p off with
    | none => s
    | some row =>
      let old := regVal s p off
      let t := if p.cls = .c ∧ off = 0x10C then s else setReg s p off (storedBits s p off row v)
      if off < 0x100 then t else blockAct t p off v old

/-- A write that no page takes (R83). -/
def unmappedWrite (s : State) (r : Req) (a : Nat) : State :=
  ctrAdd (setFlag (rcPut s devPage 0x110 (BitVec.ofNat 32 (a % 2 ^ 26 + reqPart r * 2 ^ 26))) devPage 0) devPage 1 1

/-- A rejected write (R105); PW_STAT shows the status of a PW_CMD (R543). -/
def rejectWrite (s : State) (p : Page) (off : Nat) (st : Status) : State :=
  let t := recordReject s p st off
  if p = partPage 0 ∧ off = 0x700 ∧ st ≠ .ownerDenied then pwStatus t st else t

/-- One 32-bit write, or one of 8 or 16 bits within it, of an access whose byte address is `ba` (R107): the state after it and its
status. -/
def write32 (s : State) (r : Req) (a ba : Nat) (v : Word) (narrow : Bool) : State × Status :=
  match pageAt a with
  | none => (unmappedWrite s r ba, .ok)
  | some p =>
    let off := pageOff a
    match judge s r p off v narrow with
    | some st => (rejectWrite s p off st, st)
    | none => (accept s p off v, .ok)

/-- The word that a write of 8 or 16 bits would leave: its bytes in place of those of the register (R79 judges it by that word). -/
def mergeBytes (s : State) (a : Nat) (z : AccSize) (v : DWord) : Word :=
  match pageAt a with
  | none => v.setWidth 32
  | some p =>
    let n := 8 * min 4 (sizeBytes z)
    setField (regVal s p (pageOff (a - a % 4))) (8 * (a % 4) + n - 1) (8 * (a % 4)) v.toNat

/-- A write (R79): 64 bits are two 32-bit writes, low address first; one that is not naturally aligned is taken as one of a width that
BAR0 does not accept. -/
def busWrite (s : State) (r : Req) (a : Nat) (z : AccSize) (v : DWord) : State :=
  if !(reaches s r) then answer s .ok 0
  else if z = .b8 ∧ a % 8 = 0 then
    let x := write32 s r a a (v.setWidth 32) false
    let y := write32 x.1 r (a + 4) (a + 4) ((v >>> 32).setWidth 32) false
    answer y.1 (if x.2 = .ok then y.2 else x.2) 0
  else if z = .b4 ∧ a % 4 = 0 then
    let x := write32 s r a a (v.setWidth 32) false
    answer x.1 x.2 0
  else
    let x := write32 s r (a - a % 4) a (mergeBytes s a z v) true
    answer x.1 x.2 0

/-- A 32-bit write of one register of a page. -/
def regWrite (s : State) (r : Req) (p : Page) (off : Nat) (v : Word) : State := busWrite s r (regKey p off) .b4 (v.setWidth 64)

end Sys2Proof.Machine
end

