-- ==== Sys2Proof/Machine/Access.lean ====
section
/-! DEFINITION. The commands that are register accesses: each is the access that its row names, judged and carried out by Bus.lean; and
the failing lockstep of a C-core (R419). -/

namespace Sys2Proof.Machine

/-! ### Device time and the timestamp queue -/

/-- TIME_SET (R64): TIME_CMD with CMD 0b01. -/
def execTimeSet (r : Req) (s : State) : Res := .next (regWrite s r tickPage 0x130 1)
/-- PTP_ENABLE (R72): PTP_CTRL with ENABLE = 1. -/
def execPtpEnable (r : Req) (v : Word) (s : State) : Res := .next (regWrite s r ptpPage 0x100 (setBit v 0 true))
/-- PTP_DISABLE (R72): a write that clears only ENABLE. -/
def execPtpDisable (r : Req) (s : State) : Res := .next (regWrite s r ptpPage 0x100 (setBit (regVal s ptpPage 0x100) 0 false))
/-- TSQ_POP (R75): a read of TSQ_ENTRY3. -/
def execTsqPop (r : Req) (s : State) : Res := .next (busRead s r (regKey ptpPage 0x120) .b4)
/-- TICK_NOW_LO_READ (R56). -/
def execTickNowLoRead (r : Req) (s : State) : Res := .next (busRead s r (regKey tickPage 0x100) .b4)
/-- TIME_NS_LO_READ (R56). -/
def execTimeNsLoRead (r : Req) (s : State) : Res := .next (busRead s r (regKey tickPage 0x108) .b4)

/-! ### The common header -/

/-- COUNTER_LOW_WORD_READ (R95). -/
def execCounterLowWordRead (r : Req) (p : Page) (slot : Fin 24) (s : State) : Res := .next (busRead s r (regKey p (0x40 + 8 * slot.val)) .b4)
/-- CLEARING_READ (R9): a read of a register. -/
def execClearingRead (r : Req) (addr : BitVec 26) (size : AccSize) (s : State) : Res := .next (busRead s r addr.toNat size)
/-- DENIED_READ (R97): a read that the requester has no right to. -/
def execDeniedRead (r : Req) (addr : BitVec 26) (size : AccSize) (s : State) : Res := .next (busRead s r addr.toNat size)
/-- REGISTER_WRITE (R104). -/
def execRegisterWrite (r : Req) (addr : BitVec 26) (size : AccSize) (v : DWord) (s : State) : Res := .next (busWrite s r addr.toNat size v)
/-- UNMAPPED_WRITE (R83). -/
def execUnmappedWrite (r : Req) (addr : BitVec 26) (v : Word) (s : State) : Res := .next (busWrite s r addr.toNat .b4 (v.setWidth 64))
/-- SOFT_RESET (R89): PG_CTRL with SOFT_RESET, and ENABLE as given. -/
def execSoftReset (r : Req) (p : Page) (enable : Bool) (s : State) : Res := .next (regWrite s r p 0x008 (if enable then 3 else 2))
/-- PG_CTRL_ENABLE (R88). -/
def execPgCtrlEnable (r : Req) (p : Page) (enable : Bool) (s : State) : Res := .next (regWrite s r p 0x008 (if enable then 1 else 0))
/-- ERROR_INJECT (R91). -/
def execErrorInject (r : Req) (p : Page) (bits : Word) (s : State) : Res := .next (regWrite s r p 0x018 bits)
/-- PAGE_LOCK (R98): PG_OWNER with LOCKED, its other fields as they stand. -/
def execPageLock (r : Req) (p : Page) (s : State) : Res := .next (regWrite s r p 0x020 (regVal s p 0x020 ||| 0x100#32))

/-! ### DEVICE -/

/-- DEV_LEVEL_WRITE (R101). -/
def execDevLevelWrite (r : Req) (level : Byte) (s : State) : Res := .next (regWrite s r devPage 0x108 (level.setWidth 32))
/-- DEV_PRESET (R114). -/
def execDevPreset (r : Req) (part : Part) (s : State) : Res := .next (regWrite s r devPage 0x11C (BitVec.ofNat 32 part.val))

/-! ### Tallies, tiers and KV -/

/-- TL_ADD (R171); a value that fails its parity check is partition-fatal (R176). -/
def execTlAdd (r : Req) (page : Fin 32) (index : Fin 512) (inc : Half) (parity : Bool) (s : State) : Res :=
  .next (
    let t := regWrite s r ⟨.tally, page.val⟩ 0x100 (BitVec.ofNat 32 (index.val * 65536 + inc.toNat))
    if parity ∧ t.reply.status = .ok ∧ reaches s r then tallyParity t page.val else t)
/-- TL_CLEAR (R171). -/
def execTlClear (r : Req) (page : Fin 32) (first : Fin 512) (count : BitVec 10) (s : State) : Res :=
  .next (regWrite s r ⟨.tally, page.val⟩ 0x104 (BitVec.ofNat 32 (first.val * 65536 + count.toNat)))
/-- DR_RETRAIN (R256). -/
def execDrRetrain (r : Req) (k : Fin 48) (ch : BitVec 2) (s : State) : Res := .next (regWrite s r ⟨.drift, k.val⟩ 0x108 (ch.setWidth 32))
/-- SC_RETRAIN (R256). -/
def execScRetrain (r : Req) (c : Fin 16) (s : State) : Res := .next (regWrite s r ⟨.seam, c.val⟩ 0x108 1)
/-- KV_POOL_VALID_WRITE (R306): KV_PCFG of a pool. -/
def execKvPoolValidWrite (r : Req) (p : Part) (pool : Fin 4) (v : Word) (s : State) : Res :=
  .next (regWrite s r (partPage p.val) (0x480 + 0x20 * pool.val) v)

/-! ### Sensors, the planner and Foxglove -/

/-- STREAM_START (R343). -/
def execStreamStart (r : Req) (port : Fin 16) (s : State) : Res := .next (regWrite s r (aphyPage port.val) 0x12C 1)
/-- STREAM_STOP (R343). -/
def execStreamStop (r : Req) (port : Fin 16) (s : State) : Res := .next (regWrite s r (aphyPage port.val) 0x12C 2)
/-- LI_CTRL_ENABLE (R343). -/
def execLiCtrlEnable (r : Req) (src : Fin 8) (enable : Bool) (s : State) : Res := .next (regWrite s r ⟨.eth, src.val⟩ 0x600 (if enable then 1 else 0))
/-- IR_CTRL_WRITE (R344). -/
def execIrCtrlWrite (r : Req) (p : Part) (enable : Bool) (s : State) : Res := .next (regWrite s r (partPage p.val) 0x600 (if enable then 1 else 0))
/-- LK_CTRL_ENABLE (R386). -/
def execLkCtrlEnable (r : Req) (enable : Bool) (s : State) : Res := .next (regWrite s r ⟨.l, 0⟩ 0x200 (if enable then 1 else 0))
/-- START (R417). -/
def execStart (r : Req) (ch : Fin 64) (s : State) : Res := .next (regWrite s r (fxPage ch.val) 0x100 1)
/-- FX_STOP (R416). -/
def execFxStop (r : Req) (ch : Fin 64) (s : State) : Res := .next (regWrite s r (fxPage ch.val) 0x100 2)
/-- FORCE_SAFE (R416). -/
def execForceSafe (r : Req) (ch : Fin 64) (s : State) : Res := .next (regWrite s r (fxPage ch.val) 0x100 3)
/-- RESUME (R416). -/
def execResume (r : Req) (ch : Fin 64) (s : State) : Res := .next (regWrite s r (fxPage ch.val) 0x100 4)
/-- CLEAR_STATE (R402). -/
def execClearState (r : Req) (ch : Fin 64) (s : State) : Res := .next (regWrite s r (fxPage ch.val) 0x100 5)
/-- CC_RC_DATA_ACCESS (R421): a write of the word given, or a read. -/
def execCcRcDataAccess (r : Req) (core : Fin 2) (write : Option Word) (s : State) : Res :=
  .next (match write with
    | some v => regWrite s r ⟨.c, core.val⟩ 0x10C v
    | none => busRead s r (regKey ⟨.c, core.val⟩ 0x10C) .b4)
/-- C_CORE_LOCKSTEP_MISMATCH (R419, R420, R553). -/
def execCCoreLockstepMismatch (core : Fin 2) (s : State) : Res := .next (lockstepMiss s core.val)

/-! ### The roster, the rings, Lamphouse and debug -/

/-- ROSTER_LOAD (R446): RO_CMD LOAD. -/
def execRosterLoad (r : Req) (s : State) : Res := .next (regWrite s r roPage 0x110 1)
/-- ROSTER_ENABLE (R455): RO_CTRL EN. -/
def execRosterEnable (r : Req) (en : Bool) (s : State) : Res := .next (regWrite s r roPage 0x100 (if en then 1 else 0))
/-- SB_QUERY (R457): SB_QSTAT then shows the entry. -/
def execSbQuery (r : Req) (p : Part) (w : Word) (s : State) : Res := .next (regWrite s r (sbPage p.val) 0x110 w)

/-- An operation of SEALED_ACCESS (R509): its answer of 8 bytes. A register access of 32 bits is made by the owner's right. -/
def sealedOp (s : State) (n : Part) (op : List Byte) : State × List Byte :=
  let a := nAt op 0 4
  let t :=
    if 0x4000000 ≤ a ∨ a % 4 ≠ 0 then answer s .range 0
    else if nAt op 8 1 % 2 = 1 then busWrite s (.sealedOwner n) a .b4 (BitVec.ofNat 64 (nAt op 4 4))
    else busRead s (.sealedOwner n) a .b4
  (t, natBytes 4 (statusCode t.reply.status) ++ natBytes 4 t.reply.data.toNat)

/-- The operations of SEALED_ACCESS in order (R509): one that fails does not stop those after it. -/
def sealedOpsRun (s : State) (n : Part) : Nat → List Byte → State × List Byte
  | 0, _ => (s, [])
  | k + 1, bs =>
    let x := sealedOp s n (bs.take 12)
    let y := sealedOpsRun x.1 n k (bs.drop 12)
    (y.1, x.2 ++ y.2)

/-- SEALED_ACCESS (R509): up to 64 operations of 12 bytes, in the tick of completion. -/
def execSealedAccess (p : Part) (s : State) : Res :=
  .next (mbStep s p.val 0x05 fun t run =>
    let n := run.req.length
    if n % 12 ≠ 0 ∨ n > 768 then (t, .range, [])
    else
      let x := sealedOpsRun t p (n / 12) run.req
      (x.1, .ok, x.2))

/-- ATTEST_PARTITION (R521): AT_GO where AT_CMD holds KIND PARTITION. -/
def execAttestPartition (r : Req) (p : Part) (s : State) : Res :=
  .next (if regField s (atPage p.val) 0x100 1 0 = 1 then regWrite s r (atPage p.val) 0x104 1 else s)
/-- ATTEST_DEVICE (R521): AT_GO where AT_CMD holds KIND DEVICE. -/
def execAttestDevice (r : Req) (p : Part) (s : State) : Res :=
  .next (if regField s (atPage p.val) 0x100 1 0 = 2 then regWrite s r (atPage p.val) 0x104 1 else s)
/-- DBG_BREAK_WRITE (R533, R534): by the JTAG requester. -/
def execDbgBreakWrite (p : Part) (v : Word) (s : State) : Res := .next (regWrite s (.jtag p) (partPage p.val) 0x74C v)

/-! ### Power, Fireboss and the pair -/

/-- PW_CMD_ACTIVE (R537). -/
def execPwCmdActive (r : Req) (s : State) : Res := .next (regWrite s r (partPage 0) 0x700 0)
/-- PW_CMD_IDLE (R537). -/
def execPwCmdIdle (r : Req) (s : State) : Res := .next (regWrite s r (partPage 0) 0x700 1)
/-- PW_CMD_RETAIN (R537). -/
def execPwCmdRetain (r : Req) (s : State) : Res := .next (regWrite s r (partPage 0) 0x700 2)
/-- PW_CMD_STANDBY (R540). -/
def execPwCmdStandby (r : Req) (s : State) : Res := .next (regWrite s r (partPage 0) 0x700 3)
/-- PW_CMD_DEPOT (R541). -/
def execPwCmdDepot (r : Req) (s : State) : Res := .next (regWrite s r (partPage 0) 0x700 5)
/-- LOAD_QUIET (R571): FB_CMD of a stack's Fireboss. -/
def execLoadQuiet (r : Req) (h : Stack) (s : State) : Res := .next (regWrite s r (fbPage (stackNo h)) 0x120 1)
/-- VL_CTRL_EN (R624): VL_CTRL. -/
def execVlCtrlEn (r : Req) (w : Word) (s : State) : Res := .next (regWrite s r vlPage 0x100 w)
/-- YIELD (R624). -/
def execYield (r : Req) (s : State) : Res := .next (regWrite s r vlPage 0x120 1)
/-- RETRAIN (R624). -/
def execRetrain (r : Req) (s : State) : Res := .next (regWrite s r vlPage 0x120 2)

/-! ### Counters, loopbacks and the TAP -/

/-- SNAP (R661): CD_CMD SNAP. -/
def execSnap (r : Req) (s : State) : Res := .next (regWrite s r dumpPage 0x11C 1)
/-- CLEAR (R667): CD_CMD CLEAR. -/
def execClear (r : Req) (s : State) : Res := .next (regWrite s r dumpPage 0x11C 2)
/-- CT_CLEAR (R670). -/
def execCtClear (r : Req) (p : Part) (w : Word) (s : State) : Res := .next (regWrite s r (partPage p.val) 0x880 w)
/-- LOOPBACK_START (R673): LB_CTRL with GO = 1. -/
def execLoopbackStart (r : Req) (limit : Half) (s : State) : Res := .next (regWrite s r testPage 0x104 (BitVec.ofNat 32 (limit.toNat * 65536 + 1)))
/-- LOOPBACK_STOP (R673): LB_CTRL with GO = 0; the counts are what the checker has found. -/
def execLoopbackStop (r : Req) (limit : Half) (count : LoopCount) (s : State) : Res :=
  .next (
    let t := regWrite (withLoopCount s (some count)) r testPage 0x104 (BitVec.ofNat 32 (limit.toNat * 65536))
    if t.loop.isSome then { t with loop := s.loop } else t)
/-- DEVID (R677): DEV_IDENT, then DEV_VARIANT. -/
def execDevid (s : State) : Res :=
  .next (setTap s { s.tap with ir := 0x10, capture := natBytes 4 (showWord s devPage 0x100).toNat ++ natBytes 4 (showWord s devPage 0x104).toNat })
/-- ACCESS (R678): one 32-bit access as the JTAG requester; its status and data are what the next Capture-DR holds. -/
def execAccess (word : DWord) (s : State) : Res :=
  .next (
    let r : Req := .jtag (Fin.ofNat 16 (s.tap.select.getD 0))
    let a := word.toNat % 2 ^ 26
    let t :=
      if word.toNat / 2 ^ 27 % 32 ≠ 0 then answer s .reservedSet 0
      else if a % 4 ≠ 0 then answer s .range 0
      else if word.getLsbD 26 then busWrite s r a .b4 (word >>> 32)
      else busRead s r a .b4
    setTap t { t.tap with ir := 0x12, status := t.reply.status, data := t.reply.data.setWidth 32 })

end Sys2Proof.Machine
end

