-- ==== Sys2Proof/Machine/Inject.lean ====
section
/-! DEFINITION. Error injection through PG_ERRINJ (R91): what each block does with an error flag that a checker was driven to raise, by the
error classes of the blocks' chapters (R152, R205, R253, R346, R420, R512, R527, R548, R586). -/

namespace Sys2Proof.Machine

/-- The stream whose command meets an error of its core: the first that runs one. -/
def hitStream (s : State) (k : CoreId) : Nat := ((streamsOf k).find? fun i => streamState s k i == cRun).getD 0

/-- The kind of parity error that sets a flag of a core class (R152). -/
def parityKind (k : CoreCls) (n : Nat) : Option (Fin 4) := (List.finRange 4).find? fun i => (parityOf k i.val).any fun x => x.1 == n

/-- A flag of an M-, V-, A-, L-, F- or T-core raised by injection. The block address and the slice index that the diagnosis shows are not
the spec's to say: free values. -/
def injectCore (s : State) (k : CoreId) (n : Nat) : State :=
  let p := corePage k
  let i := hitStream s k
  let v := freeAt s 0
  let t := spendFree s 1
  if n = 0 then hwError s k i (pageOwner s p) (.corrected 1)
  else if k.cls = .t ∨ (k.cls = .a ∧ n = 6) then hwError s k i (pageOwner s p) .recordLost
  else if n = 1 then hwError t k i (pageOwner s p) (.faceUe (v.setWidth 16))
  else match parityKind k.cls n with
    | some d => hwError t k i (pageOwner s p) (.parity d (Fin.ofNat 16 v.toNat))
    | none =>
      if k.cls = .a ∧ n = 4 then failCmd (setFlag s p n) k i .integrity
      else if k.cls = .a ∧ n = 5 then failCmd (setFlag s p n) k i .range
      else setFlag s p n

/-- A flag of a Foxglove channel raised by injection (R420). -/
def injectChannel (s : State) (ch n : Nat) : State :=
  let t := setFlag s (fxPage ch) n
  match n with
  | 0 => ctrAdd t (ccPage ch) 4 1
  | 1 => fxToSafe t ch 4
  | 2 => fxToSafe (ctrAdd t (ccPage ch) 2 1) ch 3
  | 3 => fxToSafe t ch 2
  | _ => ctrAdd (orReg t (fxPage ch) 0x108 0x40) (fxPage ch) 11 1

/-- A flag of a tier block raised by injection (R253): an error that would end a request ends none, since no request met it; one that is
partition-fatal to a requester is so to the owner of the page. -/
def injectTier (s : State) (p : Page) (n : Nat) : State :=
  let t := setFlag s p n
  match p.cls, n with
  | .gallery, 0 | .drift, 0 => ctrAdd t p 3 1
  | .gallery, 1 | .drift, 1 => ctrAdd t p 4 1
  | .gallery, 2 => partitionFatal (ctrAdd t p 5 1) (pageOwner s p) p
  | .gallery, 3 => partitionFatal t (pageOwner s p) p
  | .drift, 2 => ctrAdd t p 5 1
  | .seam, 0 => ctrAdd t p 5 1
  | .keeper, 0 => ctrAdd t p 7 1
  | .keeper, 3 => deviceFatal t p 1
  | .hoist, 0 => ctrAdd t p 4 1
  | _, _ => t

/-- A counter that fails its parity check is cleared, and its bit 63 is set (R669). Which counter of the bank fails is not the spec's to say. -/
def bankParity (s : State) (n : Nat) : State := match counterAt n with
  | some (p, i) => { s with ctrs := smSet 0 s.ctrs (ctrKey p i) (BitVec.ofNat 64 (2 ^ 63)) }
  | none => s

/-- The checker behind a flag acts as if it had detected the error (R91). -/
def injectError (s : State) (p : Page) (n : Nat) : State :=
  match p.cls with
  | .m | .v | .a | .l | .f | .t => match pageCore p with
    | some k => injectCore s k n
    | none => s
  | .c => if n = 0 then lockstepMiss s p.inst
    else fxAllSafe (ctrAdd (setFlag s p n) p 6 1) 1 ((coreChans p.inst).filter fun ch => let f := field (fxReg s ch 0x124) 9 8; f == 1 || f == 2)
  | .fxch => injectChannel s p.inst n
  | .tally => tallyParity s p.inst
  | .gallery | .drift | .seam | .keeper | .hoist => injectTier s p n
  | .mailbox =>
    if n = 4 then tamperEvent (spendFree s 1) ((freeAt s 0).toNat % 8)
    else if n = 0 then deviceFatal (setFlag s p n) p 7 else setFlag s p n
  | .attest => deviceFatal (setFlag s p n) p 1
  | .fireboss => if n = 6 then fatalTrip (setFlag s p n) p.inst 1 p else setFlag s p n
  | .bank => if n = 0 then bankParity (spendFree (setFlag s p 0) 1) (384 * p.inst + (freeAt s 0).toNat % 384) else setFlag s p n
  | .tick => if n = 0 then enterHold s else if n = 2 then deviceFatal (setFlag s p n) p 1 else setFlag s p n
  | .aphy => if n = 2 then setPort s p.inst { portSt s p.inst with inject := true } else setFlag s p n
  | _ => setFlag s p n

end Sys2Proof.Machine
end

