-- ==== Sys2Proof/Machine/Order.lean ====
section
/-! DEFINITION. The order of the events of one tick (R47 to R51): every command's class and index; Arrive.lean keeps the queue in that order.
What the spec's other rules say of one tick stands with it: register accesses come after the events (R80), waits are judged after every ADD
of the tick (R165), and host operations on KV records after those of the cores (R268). -/

namespace Sys2Proof.Machine

def accessRank : Nat := rankOf 10 0 0
def waitRank (k : CoreId) (stream : Nat) : Nat := rankOf 11 0 (2 * coreCode k + stream)
def hostKvRank (p : Nat) : Nat := rankOf 12 0 p
def boundaryRank : Nat := rankOf 14 0 0

/-- An admission of a partition's ring, an event of class 8 (R431): the scan, then the descriptors in ring order. -/
def admitRank (s : State) (p e : Nat) : Nat := rankOf 8 p (1 + match jobOf s (jobKey p e) with
  | some j => j.seq
  | none => 0)

/-- A decision of the job machinery (R434, R461): in ascending slot, and within a slot in admission order. -/
def decisionRank (s : State) (p e : Nat) : Nat := match jobOf s (jobKey p e) with
  | some j => rankOf 13 j.slot (j.seq % 2 ^ 40)
  | none => rankOf 13 0 0

/-- The index of a sensor port (R48). -/
def aphyIndex (port : Nat) : Nat := port
def ethIndex (port : Nat) : Nat := 16 + port
def canIndex (c : Nat) : Nat := 32 + c
def spiIndex (m : Nat) : Nat := 40 + m
def arrivalRank (idx : Nat) : Nat := rankOf 7 0 idx

/-- Where an event of a core arises: a self-test slice starts before a descriptor of the same tick is issued (R150). -/
def coreRank (k : CoreId) (sub : Nat) : Nat := changeRank (corePage k) sub
def sliceRank (k : CoreId) : Nat := coreRank k 0
def issueRank (k : CoreId) : Nat := coreRank k 1

/-- A safety trip, by the Fireboss that makes it (R550, R551). -/
def tripRank (h : Nat) : Nat := rankOf 3 0 h

/-- Whether a completion of a tier request is one of class 6: it fails (R47, R253). -/
def tierFails (s : State) (tag port : Nat) (o : TierOutcome) : Bool :=
  match smFind s.mem.tags tag with
  | none => false
  | some r => r.st != .ok || pastDeadline s r || (tierOutcome s r port o).1 != .ok

/-- A tag grant (R193): PT0's requests first, then the others by core identifier. -/
def grantRank (s : State) (k : CoreId) (stream : Nat) : Nat :=
  let pt0 := (coreSt s k stream).cur.any fun r => r.offer.part == 0
  changeRank hoistW 0 + (if pt0 then 0 else 128) + coreCode k % 128

/-- The order of Hoist's moves in a tick (R251). -/
def fetchRank (s : State) (pf : Nat) : Nat :=
  let part := ((pfOf s pf).map fun x => x.part).getD 16
  rankOf 9 2 ((clsCode .hoist * 256 + 2) * 256) + moveRank part (.stream pf 0)

/-- The rank of a command among those of its tick, by its own class and index. -/
def eventRank (s : State) (c : Instr) : Nat :=
  match c with
  | .tickBoundary .. => boundaryRank
  -- class 1 (R644)
  | .pwrFailNAssert => rankOf 1 0 0
  | .resetNAssert => rankOf 1 0 1
  | .undervoltage => rankOf 1 0 2
  | .brownOutReset => rankOf 1 0 3
  | .powerGoodLost => rankOf 1 0 4
  | .powerLoss => rankOf 1 0 5
  | .holdupStoreDraw => rankOf 1 0 6
  | .holdupExhausted => rankOf 1 0 7
  | .alwaysOnHoldExpiry => rankOf 1 0 8
  | .powerUp => rankOf 1 0 9
  | .resetRelease => rankOf 1 0 10
  | .brownOutExit .. => rankOf 1 0 11
  -- class 2 (R506)
  | .tamper source => rankOf 2 0 source
  -- class 3 (R552, R553); another command that reveals a trip is placed there on arrival (R687)
  | .cCoreLockstepMismatch core => tripRank core
  | .firebossLockstepMismatch h => tripRank (stackNo h)
  | .stackHeartbeatLoss .. | .bothStacksSilent | .thermalTrip | .canaryMissing => tripRank 0
  | .selftestSliceEnd k pass => if pass then coreRank k 1 else tripRank (stackNo (coreStack k))
  | .startupCheckResult _ pass => if pass then changeRank ⟨.fireboss, 0⟩ 0 else tripRank 0
  -- class 4 (R616, R620): the mate's heartbeats of the tick, a loss, and then its tokens
  | .flitReceived .. => rankOf 4 0 0
  | .hello | .confirm | .beat => rankOf 4 0 1
  | .heartbeatLoss => rankOf 4 0 2
  | .lifeInLoss => rankOf 4 0 3
  | .joinTimeout => rankOf 4 0 4
  | .leadToken => rankOf 4 0 5
  -- class 5
  | .watchdogExpiry h n => rankOf 5 0 (stackNo h * 256 + n)
  -- class 6
  | .tierRequestTimeout tag => rankOf 6 0 tag
  | .tierRequestComplete tag port o => if tierFails s tag port o then rankOf 6 0 tag else changeRank hoistW 1
  -- class 7 (R48)
  | .frameStart port .. | .lineReceived port .. | .frameEnd port .. => arrivalRank (aphyIndex port)
  | .lidarPacket src .. => arrivalRank (ethIndex src)
  | .t1sFrameReceived port .. => arrivalRank (ethIndex (12 + port))
  | .canFrameReceived c .. => arrivalRank (canIndex c)
  | .spiResponseComplete ch _ => arrivalRank (spiIndex (field (fxReg s ch 0x110) 27 24 % 8))
  -- class 8
  | .ringScan p => rankOf 8 p 0
  | .jobRun p e | .jobCancel p e => admitRank s p e
  -- class 9, compares (R50)
  | .tickCmpMatch n => compareRank n
  | .tallyWatchHit page n => compareRank (256 + 4 * page + n)
  | .instantClose p => compareRank (1024 + p)
  | .rosterOriginReached => compareRank 1040
  | .majorFrameBoundary => compareRank 1040 + 1
  | .rosterBoundary => compareRank 1040 + 2
  | .wakeCompare => compareRank 1041
  | .gridPublication => compareRank 1055
  | .cycleStart => compareRank 1056
  | .checkWindowOpen => compareRank 1057
  | .commit => compareRank 1058
  | .channelTick ch .. => compareRank (2048 + ch)
  | .debugExpiry p => compareRank (3072 + p)
  | .coverageDebt k => compareRank (3088 + stackNo (coreStack k))
  | .dumpTrigger => compareRank 3104
  | .dumpComplete _ => compareRank 3105
  -- class 9, completions and changes: DEVICE, TICK and PTP
  | .thermalCeilingUpdate | .bootSlotCheck _ | .bootLayoutLoad => changeRank devPage 0
  | .governorLowerDuty | .governorRaiseDuty | .updateActivate | .updateCommit | .lifecycle | .d2ArmedLapse => changeRank devPage 1
  | .syncReceived .. | .pdelayFail _ | .grandmasterRoleChange _ | .tsqPush .. | .syncReceiptTimeout => changeRank ptpPage 0
  -- cores
  | .commandEnd k stream .. => coreRank k (2 + stream)
  | .rowPush k stream _ => coreRank k (4 + stream)
  | .rowLanded k stream _ => coreRank k (6 + stream)
  | .commandOffer k stream => coreRank k (8 + stream)
  | .sliceDuePoint k => coreRank k 10
  | .selftestSliceStart k => sliceRank k
  | .assignTimeout core => coreRank ⟨.t, core⟩ 2
  | .mNop core | .gemm core | .conv core | .wino3 core => issueRank ⟨.m, core⟩
  | .vNop core | .map core | .binary core | .reduce core | .norm core | .softmax core | .convert core | .debayer core | .resample core
  | .gather core => issueRank ⟨.v, core⟩
  | .aNop core _ | .attn core | .kvAppend core | .attnMerge core | .attnBwd core => issueRank ⟨.a, core⟩
  | .fNop core | .lift core | .voxel core | .chan core => issueRank ⟨.f, core⟩
  | .tNop core | .predict core | .update core | .birth core | .trkRead core | .trkWrite core | .assign core => issueRank ⟨.t, core⟩
  | .lNop core | .wave core | .check core | .stop core | .select core => issueRank ⟨.l, core⟩
  | .tallyWaitRelease k stream => waitRank k stream
  | .spiTransactionStart ch => changeRank ⟨.fxch, ch⟩ 0
  -- tiers
  | .galleryScrub half .. => changeRank ⟨.gallery, stackNo half⟩ 0
  | .trainingComplete p .. | .tierChannelLost p _ => changeRank p 0
  | .garbageCollection k _ => changeRank (keeperPage (stackNo k)) 0
  | .readDisturbRelocate k _ | .relocationComplete k _ _ => changeRank (keeperPage (stackNo k)) 1
  | .tierTagGrant k stream .. => grantRank s k stream
  | .hoistFetch pf => fetchRank s pf
  | .hoistRelease pf => changeRank (pfPage pf) 2
  | .hoistMoveComplete p .. => changeRank (hoistPage p) 3
  | .strideDetect _ => changeRank hoistW 4
  -- partition pages
  | .partialResetComplete p => changeRank (partPage p) 0
  | .mapNew p _ | .mapSeam p _ | .unmap p _ | .migrate p _ | .protect p _ | .writeback p _ | .query p | .mapShare p =>
    changeRank (partPage p) 1
  | .tierMapComplete p => changeRank (partPage p) 2
  | .kvQuery p => hostKvRank p
  | .fork p _ | .free p _ => hostKvRank p
  | .kvOpComplete p => hostKvRank p
  | .kvReclaim p .. => hostKvRank p
  | .kvDeltaLate => changeRank (partPage 0) 3
  | .instantTableWrite p => changeRank (partPage p) 4
  | .thresholdSample p _ => changeRank (partPage p) 5
  | .powerTransitionComplete .. => changeRank (partPage 0) 6
  | .hostLinkWake => changeRank (partPage 0) 7
  -- rings and jobs
  | .jobStartWork p e | .jobStart p e | .suspensionComplete p e | .suspensionTimeout p e _ | .jobResume p e | .jobEnd p e => decisionRank s p e
  -- Lamphouse
  | .loadManifest p _ | .keyRelease p | .rotate p | .erase p | .sealedAccess p | .hostDma p _ | .debugUnlock p | .relock p =>
    changeRank ⟨.mailbox, p⟩ 0
  | .updateStage _ | .layoutWrite _ => changeRank ⟨.mailbox, 0⟩ 0
  | .hostReadTimeout p => changeRank ⟨.mailbox, p⟩ 1
  | .mailboxComplete p => changeRank ⟨.mailbox, p⟩ 2
  | .generationRetire p .. | .eraseComplete p => changeRank ⟨.mailbox, p⟩ 3
  | .attestComplete p _ => changeRank ⟨.attest, p % 16⟩ 0
  -- Fireboss and the pair
  | .startupChecks h => changeRank ⟨.fireboss, stackNo h⟩ 0
  | .digestRound _ | .canaryStart | .canaryCompare => changeRank ⟨.fireboss, 0⟩ 1
  | .tickAlign _ | .trackDeltaTimeout _ | .linkDown | .linkTrained | .inputDigest
  | .inputDigestLate | .foxgloveDelta | .trajectoryDelta | .heldStopDelta | .trackDelta | .kvDelta | .rcMemoryDelta | .resyncEnd | .kvReq
  | .kvData | .attReq | .attRpt | .digest | .manifest | .lifeInEdge | .lifeOutToggle => changeRank ⟨.vuvon, 0⟩ 0
  -- interfaces
  | .pcieLinkChange .. | .functionLevelReset _ | .pcieLtssmLoopback | .perstNAssert => changeRank ⟨.pcie, 0⟩ 0
  | .aphyLinkTrained port _ | .aphyLinkLost port => changeRank ⟨.aphy, port⟩ 0
  | .portLinkChange unit .. => changeRank unit 0
  | .canBusOffRecovery c => changeRank ⟨.can, c⟩ 0
  | .crSweep _ => changeRank ⟨.bank, 0⟩ 0
  | .loopbackLimit _ => changeRank ⟨.test, 0⟩ 0
  -- class 9, counters
  | .thresholdHit p u => counterRank (field (ctSel s p u) 15 0)
  -- register accesses (R80)
  | .timeSet .. | .ptpEnable .. | .ptpDisable .. | .tsqPop .. | .tickNowLoRead .. | .timeNsLoRead .. | .counterLowWordRead ..
  | .clearingRead .. | .registerWrite .. | .unmappedWrite .. | .deniedRead .. | .softReset .. | .pgCtrlEnable .. | .errorInject ..
  | .pageLock .. | .devLevelWrite .. | .devPreset .. | .tlAdd .. | .tlClear .. | .drRetrain .. | .scRetrain .. | .kvPoolValidWrite ..
  | .streamStart .. | .streamStop .. | .liCtrlEnable .. | .irCtrlWrite .. | .lkCtrlEnable .. | .start .. | .fxStop .. | .forceSafe ..
  | .resume .. | .clearState .. | .ccRcDataAccess .. | .rosterLoad .. | .rosterEnable .. | .sbQuery .. | .attestPartition ..
  | .attestDevice .. | .dbgBreakWrite .. | .pwCmdActive .. | .pwCmdIdle .. | .pwCmdRetain .. | .pwCmdStandby .. | .pwCmdDepot ..
  | .tierWindowRead .. | .tierWindowWrite .. | .bar2RingWrite .. | .loadQuiet .. | .vlCtrlEn .. | .yield .. | .retrain .. | .snap ..
  | .clear .. | .ctClear .. | .loopbackStart .. | .loopbackStop .. | .samplePreload .. | .extest .. | .jtagSelect .. | .access .. | .attest ..
  | .tapReset | .clamp | .highz | .devid => accessRank

/-- The place of an action among those of its boundary: that of the event it gives rise to in the new tick, a flag or a change of the page
at which it arises (R50, R681). Pages of a KV pool are given back after every operation of the tick on their lane (R268, R287). -/
def actRank (s : State) (a : BAct) : Nat :=
  match a with
  | .softReset p _ | .errFlag p _ => changeRank p 0
  | .timeStep .. | .ptpStop => changeRank ptpPage 0
  | .level _ | .duty _ => changeRank devPage 0
  | .presetBegin p | .presetEnd p => changeRank (partPage p) 0
  | .tmPages part _ | .tmQuery part | .tmDone part => changeRank (partPage part) 1
  | .kvSwitch part .. | .kvGiveBack part .. | .kvSwap part .. => changeRank (partPage part) 2
  | .power _ => changeRank (partPage 0) 6
  | .windowPast _ => changeRank roPage 0
  | .relocEnd k .. | .gcEnd k _ => changeRank (keeperPage k) 0
  | .moveEnd .. | .pageRelease .. => changeRank hoistW 0
  | .hoistFetch pf => fetchRank s pf
  | .strideFetch pf part _ => rankOf 9 2 ((clsCode .hoist * 256 + 2) * 256) + moveRank part (.stride pf)
  | .digMove part _ => rankOf 9 2 ((clsCode .hoist * 256 + 2) * 256) + moveRank part .digest
  | .atBegin => changeRank ⟨.attest, 0⟩ 0
  | .rotate part | .retire part => changeRank ⟨.mailbox, part % 16⟩ 0
  | .kvReclaim part .. => hostKvRank part

end Sys2Proof.Machine
end

