-- ==== Sys2Proof/Machine/Tick.lean ====
section
/-! DEFINITION. The tick boundary (R42, R681) and the power governor with its thermal ceiling (R36, R648). -/

namespace Sys2Proof.Machine

/-! ### The governor -/

/-- The readings of a tick's sensors: the last 100 J3 samples in tenths of a watt (R36), the input in hundredths of a volt, and T_j in
sixteenths of a degree. -/
def sampleSensors (s : State) (j3 vin : Nat) (tj : Int) (die : Nat) : State :=
  let g := s.gov
  let w := (j3 :: g.window).take 100
  let low := decide (w.sum * 8 < (g.ceiling - 120) * 10 * w.length)
  let hot := if tj < 1760 then 0 else if g.hotRun ≥ 1000 then g.hotRun else g.hotRun + 1
  { s with gov := { g with window := w, below := if low then min (g.below + 1) 1000 else 0, sinceUp := min (g.sinceUp + 1) 1000, tj := tj, hotRun := hot }
           supply := { s.supply with vin := vin, die := die } }

/-- Whether the governor decides: not in Brown-out, in which the duty is held (R542), nor before reset is released. -/
def governs (s : State) : Bool := !s.gov.held && !s.sec.boot.held && s.supply.main

/-- GOVERNOR_LOWER_DUTY (R36): at a multiple of 100 ticks the average exceeds the ceiling. -/
def execGovernorLowerDuty (s : State) : Res :=
  .next (
    let w := s.gov.window
    if governs s ∧ now s % 100 = 0 ∧ w.sum * 8 > s.gov.ceiling * 10 * w.length ∧ s.gov.duty > 8 then atBoundary s (.duty (s.gov.duty - 1)) else s)

/-- GOVERNOR_RAISE_DUTY (R36): 1,000 ticks below the ceiling less 15 W, at most once every 1,000 ticks. -/
def execGovernorRaiseDuty (s : State) : Res :=
  .next (
    if governs s ∧ s.gov.below ≥ 1000 ∧ s.gov.sinceUp ≥ 1000 ∧ s.gov.duty < 16 then
      atBoundary { s with gov := { s.gov with sinceUp := 0 } } (.duty (s.gov.duty + 1))
    else s)

/-- The thermal ceiling in eighths of a watt (R648): 10 W less for each degree above 95 °C. -/
def thermalCeiling (tj : Int) : Nat := if tj ≤ 1520 then 3840 else 3840 - 5 * (tj - 1520).toNat

/-- THERMAL_CEILING_UPDATE (R648, R649): MD_FLAGS shows that the ceiling is lowered. -/
def execThermalCeilingUpdate (s : State) : Res :=
  .next (
    if now s % 1000 ≠ 0 ∨ s.sec.boot.held ∨ !s.supply.main then s
    else
      let t := { s with gov := { s.gov with ceiling := thermalCeiling s.gov.tj } }
      if t.gov.ceiling < 3840 then orReg t (partPage 0) 0x7D0 4 else t)

/-- THERMAL_TRIP (R648): 110 °C for 1,000 ticks, once for each such run. -/
def execThermalTrip (s : State) : Res :=
  .next (
    if s.gov.hotRun ≠ 1000 ∨ s.sec.boot.held ∨ !s.supply.main then s
    else deviceFatal { s with gov := { s.gov with hotRun := 1001 } } devPage 1)

/-! ### The tick boundary -/

/-- A soft reset takes effect (R89); the PTP page's also stops PTP and empties the timestamp queue (R72, R75). -/
def softResetAt (s : State) (p : Page) (enable : Bool) : State :=
  let t := resetPage s p enable
  if p = ptpPage then
    let u := applyPtpStop t
    { u with time := { u.time with tsq := [], tsqLate := [] } }
  else t

/-- One action of the boundary (R681). -/
def applyAct (s : State) (a : BAct) : State :=
  match a with
  | .softReset p enable => softResetAt s p enable
  | .errFlag p n => injectError s p n
  | .timeStep off first => applyTimeStep s off first
  | .ptpStop => applyPtpStop s
  | .level req => setRegField s devPage 0x108 15 8 (min req.toNat 1)
  | .duty d => { s with gov := { s.gov with duty := d } }
  | .presetBegin p => presetBegin s p
  | .presetEnd p => presetEnd s p
  | .moveEnd part vpn => match findMove s part vpn with
    | some m => resumeAppends (swapAfter (moveEnd s part vpn) m)
    | none => s
  | .tmPages part n => tmStep s part n
  | .pageRelease pf part vpn => pageRelease s pf part vpn
  | .digMove part vpn => digMove s part vpn
  | .hoistFetch pf => hoistFetch s pf
  | .strideFetch pf part vpns => strideFetch s pf part vpns
  | .tmQuery part => tmQuery s part
  | .tmDone part => tmDone s part
  | .relocEnd k block ok => relocEnd s k block ok
  | .gcEnd k freed => gcEnd s k freed
  | .kvSwitch part pool layer head row => kvSwitch s part pool layer head row
  | .kvGiveBack part pool slot => freeSlot s part pool slot
  | .kvSwap part pool lane => swapCheck s part pool lane
  | .kvReclaim part pool slot => kvReclaim s part pool slot
  | .atBegin => atBegin s
  | .rotate part => rotateAt s part
  | .retire part => retireAt s part
  | .power target => powerStep s target
  | .windowPast cmds => windowPast s cmds

/-- The end of the present tick: what is judged on its final values (R74, R173, R519, R570, R608, R660). -/
def tickEnd (s : State) : State := atTickEnd <| latchDump (tsqSettle (vlTickEnd (evalWatches (passDuePoints s))))

/-- TICK_NOW advances, and what belonged to the last tick alone is forgotten; the messages of the tick's end are still to be sent. -/
def tickAdvance (s : State) : State :=
  { s with time := { s.time with tickNow := s.time.tickNow + 1, inst := instBegin s, cmpDue := [] }, hwSet := [], rcTick := [], atTick := []
           fx := { s.fx with frames := [] }, sec := { s.sec with hostWr := [] }, cnt := { s.cnt with wraps := [] } }

/-- The start of the new tick, after the boundary's actions. -/
def tickBegin (s : State) : State :=
  let t := vlTick (snapDue (logLock (cmpEval s)))
  if crWanted t then { t with cnt := { t.cnt with cr := true } } else t

/-- The actions timed for a boundary, in the order of the events that they give rise to (R681). -/
def applyActs (s : State) (l : List BAct) : State := (sortBy (actRank s) l).foldl applyAct s

/-- TICK_BOUNDARY (R42, R46): the actions that the last tick timed for it apply in their order; tick generators that disagree are
device-fatal. Ticks run on in every state but Off, from the release of reset on (R43, R536). -/
def execTickBoundary (j3 : Nat) (vin : Nat) (tj : Int) (die : Nat) (mismatch : Bool) (s : State) : Res :=
  .next (
    if s.sec.boot.held ∨ !s.supply.main then { s with supply := { s.supply with vin := vin } }
    else
      let t := tickEnd { s with irqs := [] }
      let u := tickBegin (applyActs (tickAdvance t) t.atTick)
      let v := sampleSensors u j3 vin tj die
      if mismatch then deviceFatal (setFlag v tickPage 2) tickPage 1 else v)

end Sys2Proof.Machine
end

