-- ==== Sys2Proof/Machine/Dispatch.lean ====
section
/-! DEFINITION. What each command does: one arm per constructor, each one call of its meaning. -/

namespace Sys2Proof.Machine

/-- The effect of a command on everything but the queue. -/
def exec (i : Instr) (s : State) : Host.Outcome State Fault Refusal :=
  match i with
  | .tickBoundary j3 vin tj die mismatch => Sys2Proof.Machine.execTickBoundary j3 vin tj die mismatch s
  | .timeSet r => Sys2Proof.Machine.execTimeSet r s
  | .syncReceived offset delayOk => Sys2Proof.Machine.execSyncReceived offset delayOk s
  | .pdelayFail port => Sys2Proof.Machine.execPdelayFail port s
  | .grandmasterRoleChange role => Sys2Proof.Machine.execGrandmasterRoleChange role s
  | .tickCmpMatch n => Sys2Proof.Machine.execTickCmpMatch n s
  | .ptpEnable r v => Sys2Proof.Machine.execPtpEnable r v s
  | .ptpDisable r => Sys2Proof.Machine.execPtpDisable r s
  | .tsqPush frameId port mtype ns frac => Sys2Proof.Machine.execTsqPush frameId port mtype ns frac s
  | .tsqPop r => Sys2Proof.Machine.execTsqPop r s
  | .tickNowLoRead r => Sys2Proof.Machine.execTickNowLoRead r s
  | .timeNsLoRead r => Sys2Proof.Machine.execTimeNsLoRead r s
  | .counterLowWordRead r p slot => Sys2Proof.Machine.execCounterLowWordRead r p slot s
  | .clearingRead r addr size => Sys2Proof.Machine.execClearingRead r addr size s
  | .registerWrite r addr size v => Sys2Proof.Machine.execRegisterWrite r addr size v s
  | .unmappedWrite r addr v => Sys2Proof.Machine.execUnmappedWrite r addr v s
  | .deniedRead r addr size => Sys2Proof.Machine.execDeniedRead r addr size s
  | .softReset r p enable => Sys2Proof.Machine.execSoftReset r p enable s
  | .pgCtrlEnable r p enable => Sys2Proof.Machine.execPgCtrlEnable r p enable s
  | .errorInject r p bits => Sys2Proof.Machine.execErrorInject r p bits s
  | .pageLock r p => Sys2Proof.Machine.execPageLock r p s
  | .devLevelWrite r level => Sys2Proof.Machine.execDevLevelWrite r level s
  | .devPreset r part => Sys2Proof.Machine.execDevPreset r part s
  | .partialResetComplete p => Sys2Proof.Machine.execPartialResetComplete p s
  | .bootSlotCheck image => Sys2Proof.Machine.execBootSlotCheck image s
  | .mNop core => Sys2Proof.Machine.execMNop core s
  | .gemm core => Sys2Proof.Machine.execGemm core s
  | .conv core => Sys2Proof.Machine.execConv core s
  | .wino3 core => Sys2Proof.Machine.execWino3 core s
  | .commandEnd k stream clk err => Sys2Proof.Machine.execCommandEnd k stream clk err s
  | .tallyWaitRelease k stream => Sys2Proof.Machine.execTallyWaitRelease k stream s
  | .vNop core => Sys2Proof.Machine.execVNop core s
  | .map core => Sys2Proof.Machine.execMap core s
  | .binary core => Sys2Proof.Machine.execBinary core s
  | .reduce core => Sys2Proof.Machine.execReduce core s
  | .norm core => Sys2Proof.Machine.execNorm core s
  | .softmax core => Sys2Proof.Machine.execSoftmax core s
  | .convert core => Sys2Proof.Machine.execConvert core s
  | .debayer core => Sys2Proof.Machine.execDebayer core s
  | .resample core => Sys2Proof.Machine.execResample core s
  | .gather core => Sys2Proof.Machine.execGather core s
  | .tlAdd r page index inc parity => Sys2Proof.Machine.execTlAdd r page index inc parity s
  | .tlClear r page first count => Sys2Proof.Machine.execTlClear r page first count s
  | .tallyWatchHit page n => Sys2Proof.Machine.execTallyWatchHit page n s
  | .rowPush k stream chan => Sys2Proof.Machine.execRowPush k stream chan s
  | .rowLanded k stream chan => Sys2Proof.Machine.execRowLanded k stream chan s
  | .tierTagGrant k stream addr len write => Sys2Proof.Machine.execTierTagGrant k stream addr len write s
  | .tierRequestComplete tag port outcome => Sys2Proof.Machine.execTierRequestComplete tag port outcome s
  | .tierRequestTimeout tag => Sys2Proof.Machine.execTierRequestTimeout tag s
  | .mapNew p pages => Sys2Proof.Machine.execMapNew p pages s
  | .mapSeam p pages => Sys2Proof.Machine.execMapSeam p pages s
  | .unmap p pages => Sys2Proof.Machine.execUnmap p pages s
  | .migrate p pages => Sys2Proof.Machine.execMigrate p pages s
  | .protect p pages => Sys2Proof.Machine.execProtect p pages s
  | .writeback p pages => Sys2Proof.Machine.execWriteback p pages s
  | .query p => Sys2Proof.Machine.execQuery p s
  | .mapShare p => Sys2Proof.Machine.execMapShare p s
  | .tierMapComplete p => Sys2Proof.Machine.execTierMapComplete p s
  | .galleryScrub half frame line err => Sys2Proof.Machine.execGalleryScrub half frame line err s
  | .hoistFetch pf => Sys2Proof.Machine.execHoistFetch pf s
  | .hoistMoveComplete p vpn st => Sys2Proof.Machine.execHoistMoveComplete p vpn st s
  | .hoistRelease pf => Sys2Proof.Machine.execHoistRelease pf s
  | .strideDetect k => Sys2Proof.Machine.execStrideDetect k s
  | .garbageCollection k freed => Sys2Proof.Machine.execGarbageCollection k freed s
  | .readDisturbRelocate k block => Sys2Proof.Machine.execReadDisturbRelocate k block s
  | .relocationComplete k block ok => Sys2Proof.Machine.execRelocationComplete k block ok s
  | .drRetrain r k ch => Sys2Proof.Machine.execDrRetrain r k ch s
  | .scRetrain r c => Sys2Proof.Machine.execScRetrain r c s
  | .trainingComplete p ch pass => Sys2Proof.Machine.execTrainingComplete p ch pass s
  | .aNop core stream => Sys2Proof.Machine.execANop core stream s
  | .attn core => Sys2Proof.Machine.execAttn core s
  | .kvAppend core => Sys2Proof.Machine.execKvAppend core s
  | .attnMerge core => Sys2Proof.Machine.execAttnMerge core s
  | .attnBwd core => Sys2Proof.Machine.execAttnBwd core s
  | .kvReclaim p pool slot => Sys2Proof.Machine.execKvReclaim p pool slot s
  | .fork p entries => Sys2Proof.Machine.execFork p entries s
  | .free p entries => Sys2Proof.Machine.execFree p entries s
  | .kvQuery p => Sys2Proof.Machine.execKvQuery p s
  | .kvOpComplete p => Sys2Proof.Machine.execKvOpComplete p s
  | .kvPoolValidWrite r p pool v => Sys2Proof.Machine.execKvPoolValidWrite r p pool v s
  | .frameStart port vc fn => Sys2Proof.Machine.execFrameStart port vc fn s
  | .lineReceived port vc dt data crcOk ecc => Sys2Proof.Machine.execLineReceived port vc dt data crcOk ecc s
  | .frameEnd port vc found => Sys2Proof.Machine.execFrameEnd port vc found s
  | .aphyLinkTrained port gear => Sys2Proof.Machine.execAphyLinkTrained port gear s
  | .aphyLinkLost port => Sys2Proof.Machine.execAphyLinkLost port s
  | .streamStart r port => Sys2Proof.Machine.execStreamStart r port s
  | .streamStop r port => Sys2Proof.Machine.execStreamStop r port s
  | .lidarPacket src port payload crcOk linkEvent => Sys2Proof.Machine.execLidarPacket src port payload crcOk linkEvent s
  | .liCtrlEnable r src enable => Sys2Proof.Machine.execLiCtrlEnable r src enable s
  | .instantClose p => Sys2Proof.Machine.execInstantClose p s
  | .instantTableWrite p => Sys2Proof.Machine.execInstantTableWrite p s
  | .irCtrlWrite r p enable => Sys2Proof.Machine.execIrCtrlWrite r p enable s
  | .fNop core => Sys2Proof.Machine.execFNop core s
  | .lift core => Sys2Proof.Machine.execLift core s
  | .voxel core => Sys2Proof.Machine.execVoxel core s
  | .chan core => Sys2Proof.Machine.execChan core s
  | .tNop core => Sys2Proof.Machine.execTNop core s
  | .predict core => Sys2Proof.Machine.execPredict core s
  | .update core => Sys2Proof.Machine.execUpdate core s
  | .birth core => Sys2Proof.Machine.execBirth core s
  | .trkRead core => Sys2Proof.Machine.execTrkRead core s
  | .trkWrite core => Sys2Proof.Machine.execTrkWrite core s
  | .assign core => Sys2Proof.Machine.execAssign core s
  | .assignTimeout core => Sys2Proof.Machine.execAssignTimeout core s
  | .lNop core => Sys2Proof.Machine.execLNop core s
  | .wave core => Sys2Proof.Machine.execWave core s
  | .check core => Sys2Proof.Machine.execCheck core s
  | .stop core => Sys2Proof.Machine.execStop core s
  | .select core => Sys2Proof.Machine.execSelect core s
  | .lkCtrlEnable r enable => Sys2Proof.Machine.execLkCtrlEnable r enable s
  | .channelTick ch took ecc => Sys2Proof.Machine.execChannelTick ch took ecc s
  | .spiTransactionStart ch => Sys2Proof.Machine.execSpiTransactionStart ch s
  | .spiResponseComplete ch data => Sys2Proof.Machine.execSpiResponseComplete ch data s
  | .canFrameReceived c id payload crcOk => Sys2Proof.Machine.execCanFrameReceived c id payload crcOk s
  | .t1sFrameReceived port etherType payload fcsOk => Sys2Proof.Machine.execT1sFrameReceived port etherType payload fcsOk s
  | .start r ch => Sys2Proof.Machine.execStart r ch s
  | .fxStop r ch => Sys2Proof.Machine.execFxStop r ch s
  | .forceSafe r ch => Sys2Proof.Machine.execForceSafe r ch s
  | .resume r ch => Sys2Proof.Machine.execResume r ch s
  | .clearState r ch => Sys2Proof.Machine.execClearState r ch s
  | .ccRcDataAccess r core write => Sys2Proof.Machine.execCcRcDataAccess r core write s
  | .cCoreLockstepMismatch core => Sys2Proof.Machine.execCCoreLockstepMismatch core s
  | .ringScan p => Sys2Proof.Machine.execRingScan p s
  | .jobRun p entry => Sys2Proof.Machine.execJobRun p entry s
  | .jobCancel p entry => Sys2Proof.Machine.execJobCancel p entry s
  | .jobStartWork p entry => Sys2Proof.Machine.execJobStartWork p entry s
  | .jobStart p entry => Sys2Proof.Machine.execJobStart p entry s
  | .commandOffer k stream => Sys2Proof.Machine.execCommandOffer k stream s
  | .suspensionComplete p entry => Sys2Proof.Machine.execSuspensionComplete p entry s
  | .suspensionTimeout p entry stall => Sys2Proof.Machine.execSuspensionTimeout p entry stall s
  | .jobResume p entry => Sys2Proof.Machine.execJobResume p entry s
  | .jobEnd p entry => Sys2Proof.Machine.execJobEnd p entry s
  | .rosterLoad r => Sys2Proof.Machine.execRosterLoad r s
  | .rosterEnable r en => Sys2Proof.Machine.execRosterEnable r en s
  | .sbQuery r p w => Sys2Proof.Machine.execSbQuery r p w s
  | .loadManifest p image => Sys2Proof.Machine.execLoadManifest p image s
  | .keyRelease p => Sys2Proof.Machine.execKeyRelease p s
  | .rotate p => Sys2Proof.Machine.execRotate p s
  | .erase p => Sys2Proof.Machine.execErase p s
  | .sealedAccess p => Sys2Proof.Machine.execSealedAccess p s
  | .hostDma p data => Sys2Proof.Machine.execHostDma p data s
  | .updateStage bundle => Sys2Proof.Machine.execUpdateStage bundle s
  | .layoutWrite image => Sys2Proof.Machine.execLayoutWrite image s
  | .debugUnlock p => Sys2Proof.Machine.execDebugUnlock p s
  | .relock p => Sys2Proof.Machine.execRelock p s
  | .mailboxComplete p => Sys2Proof.Machine.execMailboxComplete p s
  | .hostReadTimeout p => Sys2Proof.Machine.execHostReadTimeout p s
  | .generationRetire p pages lost => Sys2Proof.Machine.execGenerationRetire p pages lost s
  | .eraseComplete p => Sys2Proof.Machine.execEraseComplete p s
  | .tamper source => Sys2Proof.Machine.execTamper source s
  | .attestPartition r p => Sys2Proof.Machine.execAttestPartition r p s
  | .attestDevice r p => Sys2Proof.Machine.execAttestDevice r p s
  | .attestComplete p signOk => Sys2Proof.Machine.execAttestComplete p signOk s
  | .debugExpiry p => Sys2Proof.Machine.execDebugExpiry p s
  | .dbgBreakWrite p v => Sys2Proof.Machine.execDbgBreakWrite p v s
  | .pwCmdActive r => Sys2Proof.Machine.execPwCmdActive r s
  | .pwCmdIdle r => Sys2Proof.Machine.execPwCmdIdle r s
  | .pwCmdRetain r => Sys2Proof.Machine.execPwCmdRetain r s
  | .pwCmdStandby r => Sys2Proof.Machine.execPwCmdStandby r s
  | .pwCmdDepot r => Sys2Proof.Machine.execPwCmdDepot r s
  | .powerTransitionComplete saveOk digestsOk badFrames reservedOk => Sys2Proof.Machine.execPowerTransitionComplete saveOk digestsOk badFrames reservedOk s
  | .brownOutExit undervoltage => Sys2Proof.Machine.execBrownOutExit undervoltage s
  | .functionLevelReset p => Sys2Proof.Machine.execFunctionLevelReset p s
  | .tierWindowRead p off size => Sys2Proof.Machine.execTierWindowRead p off size s
  | .tierWindowWrite p off bytes => Sys2Proof.Machine.execTierWindowWrite p off bytes s
  | .portLinkChange unit change detail => Sys2Proof.Machine.execPortLinkChange unit change detail s
  | .canBusOffRecovery c => Sys2Proof.Machine.execCanBusOffRecovery c s
  | .startupChecks h => Sys2Proof.Machine.execStartupChecks h s
  | .startupCheckResult chk pass => Sys2Proof.Machine.execStartupCheckResult chk pass s
  | .watchdogExpiry h n => Sys2Proof.Machine.execWatchdogExpiry h n s
  | .sliceDuePoint k => Sys2Proof.Machine.execSliceDuePoint k s
  | .selftestSliceStart k => Sys2Proof.Machine.execSelftestSliceStart k s
  | .selftestSliceEnd k pass => Sys2Proof.Machine.execSelftestSliceEnd k pass s
  | .coverageDebt k => Sys2Proof.Machine.execCoverageDebt k s
  | .loadQuiet r h => Sys2Proof.Machine.execLoadQuiet r h s
  | .digestRound odd => Sys2Proof.Machine.execDigestRound odd s
  | .stackHeartbeatLoss claimant holder => Sys2Proof.Machine.execStackHeartbeatLoss claimant holder s
  | .flitReceived count fecOk bytes => Sys2Proof.Machine.execFlitReceived count fecOk bytes s
  | .tickAlign offset => Sys2Proof.Machine.execTickAlign offset s
  | .trackDeltaTimeout core => Sys2Proof.Machine.execTrackDeltaTimeout core s
  | .vlCtrlEn r w => Sys2Proof.Machine.execVlCtrlEn r w s
  | .yield r => Sys2Proof.Machine.execYield r s
  | .retrain r => Sys2Proof.Machine.execRetrain r s
  | .snap r => Sys2Proof.Machine.execSnap r s
  | .clear r => Sys2Proof.Machine.execClear r s
  | .dumpComplete st => Sys2Proof.Machine.execDumpComplete st s
  | .crSweep silent => Sys2Proof.Machine.execCrSweep silent s
  | .ctClear r p w => Sys2Proof.Machine.execCtClear r p w s
  | .thresholdHit p u => Sys2Proof.Machine.execThresholdHit p u s
  | .thresholdSample p u => Sys2Proof.Machine.execThresholdSample p u s
  | .loopbackStart r limit => Sys2Proof.Machine.execLoopbackStart r limit s
  | .loopbackStop r limit count => Sys2Proof.Machine.execLoopbackStop r limit count s
  | .loopbackLimit count => Sys2Proof.Machine.execLoopbackLimit count s
  | .samplePreload levels shifted => Sys2Proof.Machine.execSamplePreload levels shifted s
  | .extest levels shifted => Sys2Proof.Machine.execExtest levels shifted s
  | .jtagSelect v => Sys2Proof.Machine.execJtagSelect v s
  | .access word => Sys2Proof.Machine.execAccess word s
  | .attest nonce => Sys2Proof.Machine.execAttest nonce s
  | .firebossLockstepMismatch h => Sys2Proof.Machine.execFirebossLockstepMismatch h s
  | .tierChannelLost p ch => Sys2Proof.Machine.execTierChannelLost p ch s
  | .pcieLinkChange up w speed vfs => Sys2Proof.Machine.execPcieLinkChange up w speed vfs s
  | .bar2RingWrite p off bytes => Sys2Proof.Machine.execBar2RingWrite p off bytes s
  | .governorLowerDuty => Sys2Proof.Machine.execGovernorLowerDuty s
  | .governorRaiseDuty => Sys2Proof.Machine.execGovernorRaiseDuty s
  | .thermalCeilingUpdate => Sys2Proof.Machine.execThermalCeilingUpdate s
  | .thermalTrip => Sys2Proof.Machine.execThermalTrip s
  | .syncReceiptTimeout => Sys2Proof.Machine.execSyncReceiptTimeout s
  | .resetRelease => Sys2Proof.Machine.execResetRelease s
  | .bootLayoutLoad => Sys2Proof.Machine.execBootLayoutLoad s
  | .kvDeltaLate => Sys2Proof.Machine.execKvDeltaLate s
  | .gridPublication => Sys2Proof.Machine.execGridPublication s
  | .cycleStart => Sys2Proof.Machine.execCycleStart s
  | .checkWindowOpen => Sys2Proof.Machine.execCheckWindowOpen s
  | .commit => Sys2Proof.Machine.execCommit s
  | .rosterOriginReached => Sys2Proof.Machine.execRosterOriginReached s
  | .rosterBoundary => Sys2Proof.Machine.execRosterBoundary s
  | .updateActivate => Sys2Proof.Machine.execUpdateActivate s
  | .updateCommit => Sys2Proof.Machine.execUpdateCommit s
  | .lifecycle => Sys2Proof.Machine.execLifecycle s
  | .d2ArmedLapse => Sys2Proof.Machine.execD2ArmedLapse s
  | .wakeCompare => Sys2Proof.Machine.execWakeCompare s
  | .hostLinkWake => Sys2Proof.Machine.execHostLinkWake s
  | .pwrFailNAssert => Sys2Proof.Machine.execPwrFailNAssert s
  | .undervoltage => Sys2Proof.Machine.execUndervoltage s
  | .brownOutReset => Sys2Proof.Machine.execBrownOutReset s
  | .resetNAssert => Sys2Proof.Machine.execResetNAssert s
  | .powerGoodLost => Sys2Proof.Machine.execPowerGoodLost s
  | .holdupExhausted => Sys2Proof.Machine.execHoldupExhausted s
  | .powerUp => Sys2Proof.Machine.execPowerUp s
  | .powerLoss => Sys2Proof.Machine.execPowerLoss s
  | .perstNAssert => Sys2Proof.Machine.execPerstNAssert s
  | .canaryStart => Sys2Proof.Machine.execCanaryStart s
  | .canaryCompare => Sys2Proof.Machine.execCanaryCompare s
  | .canaryMissing => Sys2Proof.Machine.execCanaryMissing s
  | .bothStacksSilent => Sys2Proof.Machine.execBothStacksSilent s
  | .linkDown => Sys2Proof.Machine.execLinkDown s
  | .linkTrained => Sys2Proof.Machine.execLinkTrained s
  | .hello => Sys2Proof.Machine.execHello s
  | .confirm => Sys2Proof.Machine.execConfirm s
  | .beat => Sys2Proof.Machine.execBeat s
  | .leadToken => Sys2Proof.Machine.execLeadToken s
  | .inputDigest => Sys2Proof.Machine.execInputDigest s
  | .inputDigestLate => Sys2Proof.Machine.execInputDigestLate s
  | .foxgloveDelta => Sys2Proof.Machine.execFoxgloveDelta s
  | .trajectoryDelta => Sys2Proof.Machine.execTrajectoryDelta s
  | .heldStopDelta => Sys2Proof.Machine.execHeldStopDelta s
  | .trackDelta => Sys2Proof.Machine.execTrackDelta s
  | .kvDelta => Sys2Proof.Machine.execKvDelta s
  | .rcMemoryDelta => Sys2Proof.Machine.execRcMemoryDelta s
  | .resyncEnd => Sys2Proof.Machine.execResyncEnd s
  | .kvReq => Sys2Proof.Machine.execKvReq s
  | .kvData => Sys2Proof.Machine.execKvData s
  | .attReq => Sys2Proof.Machine.execAttReq s
  | .attRpt => Sys2Proof.Machine.execAttRpt s
  | .digest => Sys2Proof.Machine.execDigest s
  | .manifest => Sys2Proof.Machine.execManifest s
  | .heartbeatLoss => Sys2Proof.Machine.execHeartbeatLoss s
  | .lifeInEdge => Sys2Proof.Machine.execLifeInEdge s
  | .lifeInLoss => Sys2Proof.Machine.execLifeInLoss s
  | .joinTimeout => Sys2Proof.Machine.execJoinTimeout s
  | .lifeOutToggle => Sys2Proof.Machine.execLifeOutToggle s
  | .dumpTrigger => Sys2Proof.Machine.execDumpTrigger s
  | .tapReset => Sys2Proof.Machine.execTapReset s
  | .clamp => Sys2Proof.Machine.execClamp s
  | .highz => Sys2Proof.Machine.execHighz s
  | .devid => Sys2Proof.Machine.execDevid s
  | .majorFrameBoundary => Sys2Proof.Machine.execMajorFrameBoundary s
  | .pcieLtssmLoopback => Sys2Proof.Machine.execPcieLtssmLoopback s
  | .alwaysOnHoldExpiry => Sys2Proof.Machine.execAlwaysOnHoldExpiry s
  | .holdupStoreDraw => Sys2Proof.Machine.execHoldupStoreDraw s

end Sys2Proof.Machine
end

