-- ==== Sys2Proof/Machine/Arrive.lean ====
section
/-! DEFINITION. The arrival of a command in the queue (R47, R51, R687): the commands of one tick stand in the order of their ranks, whatever
the order in which they came. -/

namespace Sys2Proof.Machine

/-- Trips counted by a stack's Fireboss. -/
def tripCount (s : State) (h : Nat) : DWord := ctrVal s (fbPage h) 1

/-- The stack whose Fireboss trips on a command as the block stands; W before E (R551, R687). -/
def tripOf (s : State) (c : Instr) : Option Nat :=
  match exec c { s with pending := [] } with
  | .next t => if tripCount t 0 ≠ tripCount s 0 then some 0 else if tripCount t 1 ≠ tripCount s 1 then some 1 else none
  | _ => none

/-- The place of a command in its tick: one that reveals a trip is applied at the trip's rank, before every event of a lower rank, whatever
its own class (R687). -/
def placeRank (s : State) (c : Instr) : Nat :=
  match tripOf s c with
  | some h => min (eventRank s c) (tripRank h)
  | none => eventRank s c

/-- The EARLY expiry that a command brings: an event of its own, of class 5 (R687). -/
def revealed (s : State) (c : Instr) : List Instr :=
  match earlyOf s c with
  | some d => [.watchdogExpiry (if d < 256 then .w else .e) (Fin.ofNat 256 d)]
  | none => []

/-- Whether a command ends its tick. -/
def endsTick (c : Instr) : Bool :=
  match c with
  | .tickBoundary .. => true
  | _ => false

/-- A command put into its place among the commands of the tick in progress, given with the newest first: after those that do not rank
behind it, and never before the boundary that began the tick. -/
def arriveRev (r : Instr → Nat) (c : Instr) : List Instr → List Instr
  | [] => [c]
  | x :: xs => if !(endsTick x) && decide (r c < r x) then x :: arriveRev r c xs else c :: x :: xs

/-- A command arrives in the queue (R47, R51): whatever the order of arrival, the commands of one tick stand in the order of their ranks, and
those of one rank in the order in which they came. An EARLY expiry that it reveals arrives with it. -/
def State.arrive (s : State) (c : Instr) : State :=
  { s with pending := ((revealed s c ++ [c]).foldl (fun l x => arriveRev (placeRank s) x l) s.pending.reverse).reverse }

/-- Several commands arrive one after another. -/
def State.post (s : State) (cs : List Instr) : State := cs.foldl State.arrive s

end Sys2Proof.Machine
end

