-- ==== Sys2Proof/WellFormed.lean ====
section
/-! DEFINITION. The well-formed commands: those that this hardware has a page, a core, a stream or a bus cycle for. -/

namespace Sys2Proof

open Machine

/-- A page of the page map (R81). -/
def pageOk (p : Page) : Bool := decide (p.inst < clsCount p.cls)

/-- A core that the device has (R16). -/
def coreOk (k : CoreId) : Bool := decide (k.inst < coreCount k.cls)

/-- A command stream of a core: the A-cores have two (R298), the others one. -/
def streamOk (k : CoreId) (stream : Fin 2) : Bool := stream.val == 0 || k.cls == .a

/-- A checker that the device has (R555). -/
def checkerOk (x : Checker) : Bool :=
  match x with
  | .core k => coreOk k
  | .drift n => decide (n.val < clsCount .drift)
  | .seam n => decide (n.val < clsCount .seam)
  | .gallery _ | .keeper _ | .tables _ | .duplex _ | .lockstep _ | .watchdogs _ | .tick | .keySlots => true

/-- The bytes of one bus write (R634): some, at most 512, and within one aligned block of 4 KiB. -/
def bytesOk (off : Nat) (bytes : List Byte) : Bool :=
  decide (1 ≤ bytes.length ∧ bytes.length ≤ 512 ∧ off % 4096 + bytes.length ≤ 4096)

/-- Whether a command is well formed: one arm for each constructor. -/
def Instr.wf (i : Instr) : Bool :=
  match i with
  | .tickBoundary _ _ _ _ _ => true
  | .timeSet _ => true
  | .syncReceived _ _ => true
  | .pdelayFail _ => true
  | .grandmasterRoleChange _ => true
  | .tickCmpMatch _ => true
  | .ptpEnable _ _ => true
  | .ptpDisable _ => true
  | .tsqPush _ _ _ _ _ => true
  | .tsqPop _ => true
  | .tickNowLoRead _ => true
  | .timeNsLoRead _ => true
  | .counterLowWordRead _ p _ => pageOk p
  | .clearingRead _ _ _ => true
  | .registerWrite _ _ _ _ => true
  | .unmappedWrite _ _ _ => true
  | .deniedRead _ _ _ => true
  | .softReset _ p _ => pageOk p
  | .pgCtrlEnable _ p _ => pageOk p
  | .errorInject _ p _ => pageOk p
  | .pageLock _ p => pageOk p
  | .devLevelWrite _ _ => true
  | .devPreset _ _ => true
  | .partialResetComplete _ => true
  | .bootSlotCheck _ => true
  | .mNop _ => true
  | .gemm _ => true
  | .conv _ => true
  | .wino3 _ => true
  | .commandEnd k stream _ _ => coreOk k && streamOk k stream
  | .tallyWaitRelease k stream => coreOk k && streamOk k stream
  | .vNop _ => true
  | .map _ => true
  | .binary _ => true
  | .reduce _ => true
  | .norm _ => true
  | .softmax _ => true
  | .convert _ => true
  | .debayer _ => true
  | .resample _ => true
  | .gather _ => true
  | .tlAdd _ _ _ _ _ => true
  | .tlClear _ _ _ _ => true
  | .tallyWatchHit _ _ => true
  | .rowPush k stream _ => coreOk k && streamOk k stream
  | .rowLanded k stream _ => coreOk k && streamOk k stream
  | .tierTagGrant k stream _ _ _ => coreOk k && streamOk k stream
  | .tierRequestComplete _ _ _ => true
  | .tierRequestTimeout _ => true
  | .mapNew _ _ => true
  | .mapSeam _ _ => true
  | .unmap _ _ => true
  | .migrate _ _ => true
  | .protect _ _ => true
  | .writeback _ _ => true
  | .query _ => true
  | .mapShare _ => true
  | .tierMapComplete _ => true
  | .galleryScrub _ _ _ _ => true
  | .hoistFetch _ => true
  | .hoistMoveComplete _ _ _ => true
  | .hoistRelease _ => true
  | .strideDetect k => coreOk k
  | .garbageCollection _ _ => true
  | .readDisturbRelocate _ _ => true
  | .relocationComplete _ _ _ => true
  | .drRetrain _ _ _ => true
  | .scRetrain _ _ => true
  | .trainingComplete p ch _ => pageOk p && (p.cls == .drift || (p.cls == .seam && ch.val == 0))
  | .aNop _ _ => true
  | .attn _ => true
  | .kvAppend _ => true
  | .attnMerge _ => true
  | .attnBwd _ => true
  | .kvReclaim _ _ _ => true
  | .fork _ _ => true
  | .free _ _ => true
  | .kvQuery _ => true
  | .kvOpComplete _ => true
  | .kvPoolValidWrite _ _ _ _ => true
  | .frameStart _ _ _ => true
  | .lineReceived _ _ _ _ _ _ => true
  | .frameEnd _ _ _ => true
  | .aphyLinkTrained _ _ => true
  | .aphyLinkLost _ => true
  | .streamStart _ _ => true
  | .streamStop _ _ => true
  | .lidarPacket _ _ _ _ _ => true
  | .liCtrlEnable _ _ _ => true
  | .instantClose _ => true
  | .instantTableWrite _ => true
  | .irCtrlWrite _ _ _ => true
  | .fNop _ => true
  | .lift _ => true
  | .voxel _ => true
  | .chan _ => true
  | .tNop _ => true
  | .predict _ => true
  | .update _ => true
  | .birth _ => true
  | .trkRead _ => true
  | .trkWrite _ => true
  | .assign _ => true
  | .assignTimeout _ => true
  | .lNop _ => true
  | .wave _ => true
  | .check _ => true
  | .stop _ => true
  | .select _ => true
  | .lkCtrlEnable _ _ => true
  | .channelTick _ _ _ => true
  | .spiTransactionStart _ => true
  | .spiResponseComplete _ _ => true
  | .canFrameReceived _ _ _ _ => true
  | .t1sFrameReceived _ _ _ _ => true
  | .start _ _ => true
  | .fxStop _ _ => true
  | .forceSafe _ _ => true
  | .resume _ _ => true
  | .clearState _ _ => true
  | .ccRcDataAccess _ _ _ => true
  | .cCoreLockstepMismatch _ => true
  | .ringScan _ => true
  | .jobRun _ _ => true
  | .jobCancel _ _ => true
  | .jobStartWork _ _ => true
  | .jobStart _ _ => true
  | .commandOffer k stream => coreOk k && streamOk k stream
  | .suspensionComplete _ _ => true
  | .suspensionTimeout _ _ _ => true
  | .jobResume _ _ => true
  | .jobEnd _ _ => true
  | .rosterLoad _ => true
  | .rosterEnable _ _ => true
  | .sbQuery _ _ _ => true
  | .loadManifest _ _ => true
  | .keyRelease _ => true
  | .rotate _ => true
  | .erase _ => true
  | .sealedAccess _ => true
  | .hostDma _ _ => true
  | .updateStage _ => true
  | .layoutWrite _ => true
  | .debugUnlock _ => true
  | .relock _ => true
  | .mailboxComplete _ => true
  | .hostReadTimeout _ => true
  | .generationRetire _ _ _ => true
  | .eraseComplete _ => true
  | .tamper _ => true
  | .attestPartition _ _ => true
  | .attestDevice _ _ => true
  | .attestComplete _ _ => true
  | .debugExpiry _ => true
  | .dbgBreakWrite _ _ => true
  | .pwCmdActive _ => true
  | .pwCmdIdle _ => true
  | .pwCmdRetain _ => true
  | .pwCmdStandby _ => true
  | .pwCmdDepot _ => true
  | .powerTransitionComplete _ _ _ _ => true
  | .brownOutExit _ => true
  | .functionLevelReset _ => true
  | .tierWindowRead _ _ _ => true
  | .tierWindowWrite _ off bytes => bytesOk off.toNat bytes
  | .portLinkChange unit _ _ => pageOk unit && (unit.cls == .eth || unit.cls == .plca || unit.cls == .can || unit.cls == .spi)
  | .canBusOffRecovery _ => true
  | .startupChecks _ => true
  | .startupCheckResult chk _ => checkerOk chk
  | .watchdogExpiry _ _ => true
  | .sliceDuePoint k => coreOk k
  | .selftestSliceStart k => coreOk k
  | .selftestSliceEnd k _ => coreOk k
  | .coverageDebt k => coreOk k
  | .loadQuiet _ _ => true
  | .digestRound odd => odd.all coreOk
  | .stackHeartbeatLoss _ _ => true
  | .flitReceived _ _ _ => true
  | .tickAlign _ => true
  | .trackDeltaTimeout _ => true
  | .vlCtrlEn _ _ => true
  | .yield _ => true
  | .retrain _ => true
  | .snap _ => true
  | .clear _ => true
  | .dumpComplete _ => true
  | .crSweep silent => silent.all pageOk
  | .ctClear _ _ _ => true
  | .thresholdHit _ _ => true
  | .thresholdSample _ _ => true
  | .loopbackStart _ _ => true
  | .loopbackStop _ _ _ => true
  | .loopbackLimit _ => true
  | .samplePreload _ _ => true
  | .extest _ _ => true
  | .jtagSelect _ => true
  | .access _ => true
  | .attest _ => true
  | .firebossLockstepMismatch _ => true
  | .tierChannelLost p ch => pageOk p && (p.cls == .drift || (p.cls == .seam && ch.val == 0))
  | .pcieLinkChange _ _ _ _ => true
  | .bar2RingWrite _ off bytes => bytesOk off.toNat bytes
  | .governorLowerDuty => true
  | .governorRaiseDuty => true
  | .thermalCeilingUpdate => true
  | .thermalTrip => true
  | .syncReceiptTimeout => true
  | .resetRelease => true
  | .bootLayoutLoad => true
  | .kvDeltaLate => true
  | .gridPublication => true
  | .cycleStart => true
  | .checkWindowOpen => true
  | .commit => true
  | .rosterOriginReached => true
  | .rosterBoundary => true
  | .updateActivate => true
  | .updateCommit => true
  | .lifecycle => true
  | .d2ArmedLapse => true
  | .wakeCompare => true
  | .hostLinkWake => true
  | .pwrFailNAssert => true
  | .undervoltage => true
  | .brownOutReset => true
  | .resetNAssert => true
  | .powerGoodLost => true
  | .holdupExhausted => true
  | .powerUp => true
  | .powerLoss => true
  | .perstNAssert => true
  | .canaryStart => true
  | .canaryCompare => true
  | .canaryMissing => true
  | .bothStacksSilent => true
  | .linkDown => true
  | .linkTrained => true
  | .hello => true
  | .confirm => true
  | .beat => true
  | .leadToken => true
  | .inputDigest => true
  | .inputDigestLate => true
  | .foxgloveDelta => true
  | .trajectoryDelta => true
  | .heldStopDelta => true
  | .trackDelta => true
  | .kvDelta => true
  | .rcMemoryDelta => true
  | .resyncEnd => true
  | .kvReq => true
  | .kvData => true
  | .attReq => true
  | .attRpt => true
  | .digest => true
  | .manifest => true
  | .heartbeatLoss => true
  | .lifeInEdge => true
  | .lifeInLoss => true
  | .joinTimeout => true
  | .lifeOutToggle => true
  | .dumpTrigger => true
  | .tapReset => true
  | .clamp => true
  | .highz => true
  | .devid => true
  | .majorFrameBoundary => true
  | .pcieLtssmLoopback => true
  | .alwaysOnHoldExpiry => true
  | .holdupStoreDraw => true

end Sys2Proof
end

