-- ==== Sys2Proof/Safety.lean ====
section
/-! DEFINITION. The words in which the claims are stated: what an accepted register access is, what a command may leave changed, and the
invariant of the whole machine. -/

namespace Sys2Proof.Machine

/-! ### Accesses -/

/-- A 32-bit write of a register that no rule of R104 rejects. -/
def Accepted (s : State) (r : Req) (p : Page) (off : Nat) (v : Word) : Prop :=
  pageOk p = true ∧ off < 0x1000 ∧ off % 4 = 0 ∧ reaches s r = true ∧ judge s r p off v false = none

/-- A 32-bit read of a register by a requester that may read it, of a page whose owner is in no partial reset. -/
def Readable (s : State) (r : Req) (p : Page) (off : Nat) : Prop :=
  pageOk p = true ∧ off < 0x1000 ∧ off % 4 = 0 ∧ reaches s r = true ∧ rightOf s r p off ≠ .none ∧ inReset s (pageOwner s p) = false

/-! ### What a command leaves unchanged -/

/-- The state s with the registers, the counters and the interrupt messages of t. -/
def withBlock (t s : State) : State :=
  { s with regs := t.regs, ctrs := t.ctrs, irqs := t.irqs, hwSet := t.hwSet, rcTick := t.rcTick, cnt := { s.cnt with wraps := t.cnt.wraps } }

/-- Nothing changes but registers, counters and interrupt messages. -/
def OnlyBlock (s t : State) : Prop := t = withBlock t s

/-- Every register keeps its value, but for those at the addresses listed. -/
def RegsBut (ks : List Nat) (s t : State) : Prop := ∀ p off, regKey p off ∉ ks → regVal t p off = regVal s p off

/-- Every counter keeps its value, but for those listed. -/
def CtrsBut (ks : List Nat) (s t : State) : Prop := ∀ k, k ∉ ks → smGet 0 t.ctrs k = smGet 0 s.ctrs k

/-- One byte of the physical memory. -/
def memByte (s : State) (a : Nat) : Byte := cellGet s.mem.cells a

/-- A tier tag that no request holds. -/
def tagFree (s : State) (t : Nat) : Bool := (smFind s.mem.tags t).isNone

/-- An error flag of a page stands (R91). -/
def Flagged (s : State) (p : Page) (n : Nat) : Prop := regBit s p 0x010 n = true

/-- A counter has advanced by n (R95). -/
def Counted (s t : State) (p : Page) (slot n : Nat) : Prop := ctrVal t p slot = ctrBump (ctrVal s p slot) n

/-- A mailbox command of an opcode stands without a result (R511). -/
def MbWaits (s : State) (n op : Nat) (r : MbRun) : Prop := (secOf s n).mb = some r ∧ r.op = op ∧ r.result = none

/-- A mailbox command has ended with a status and a plain response, which MAILBOX_COMPLETE posts (R511). -/
def MbEnds (t : State) (n : Nat) (r : MbRun) (st : Status) (rsp : List Byte) : Prop := (secOf t n).mb = some { r with result := some (st, rsp) }

/-- Lamphouse's state of every other partition is unchanged. -/
def SecBut (n : Nat) (s t : State) : Prop := ∀ m, m ≠ n → secOf t m = secOf s m

/-! ### Commands on the cores -/

/-- What may change between the offer of a command and the reading of its operands (R148, R181, R433): the core's page state and operation,
the credits of the windows that open, the job's first issue, and, where the command trace is on, its record. -/
def Entered (s u : State) (k : CoreId) (o : Offer) : Prop :=
  RegsBut [regKey (corePage k) 0x00C, regKey (corePage k) 0x028, regKey (corePage k) 0x118, regKey (sbPage o.part) 0x118, regKey (partPage o.part) 0x750] s u ∧
    (regBit s (partPage o.part) 0x748 31 = false → u.mem = s.mem ∧ u.free = s.free) ∧
    u = { withBlock u s with
      jobs := u.jobs, tally := u.tally, cores := u.cores, seq := { s.seq with lib := u.seq.lib }, mem := u.mem, free := u.free }

/-- What a command has read when it enters RUN (R152, R181, R686): the bytes of its memory operands, which it keeps where a window feeds it
besides. -/
def Reads (k : CoreId) (u : State) (r : CmdRun) : CmdRun :=
  { r with
    free0 := u.free
    seen := if cmdWindows k r.offer.desc = [] then [] else (cmdReads u k r).map fun x => (x.1, readBytes u r.offer.part x.1 x.2) }

/-- What a command computes once it runs (R152, R181): where its operands can be read, its output with no receive window, and with one
nothing before its rows land; else it fails with the status of the first operand that cannot be read. -/
def Computes (k : CoreId) (stream : Nat) (u t : State) (r : CmdRun) : Prop :=
  (readsStatus u k r = .ok → cmdWindows k r.offer.desc ≠ [] → t = setCur (spendFree u (2 ^ 40)) k stream (Reads k u r)) ∧
    (readsStatus u k r = .ok → cmdWindows k r.offer.desc = [] →
      t = setCur (spendFree u (2 ^ 40)) k stream { Reads k u r with out := some (computeOut u k stream (Reads k u r)) }) ∧
    (readsStatus u k r ≠ .ok →
      ∃ o, t = setCur (spendFree u (2 ^ 40)) k stream { Reads k u r with fail := some (readsStatus u k r), out := some o })

/-- A planning command of the cycle in progress, before its deadline (R355), computes; a late one does nothing. -/
def Plans (k : CoreId) (stream : Nat) (u t : State) (r : CmdRun) : Prop :=
  (planLate u (lDesc r.offer.desc).cycle = false → Computes k stream u t r) ∧
    (planLate u (lDesc r.offer.desc).cycle = true → t = setCur u k stream { r with fail := some .late, out := some noOut })

/-- The command r with the length table that an A-core command reads (R270). -/
def withTable (u : State) (r : CmdRun) : CmdRun :=
  let a := aDesc r.offer.desc
  let at' := a.lenAddr + 8 * a.entryFirst
  { r with lens := (List.range a.entries).map fun i => (readWord u r.offer.part (at' + 8 * i), readWord u r.offer.part (at' + 8 * i + 4)) }

/-- The length table can be read and every entry of it is valid. -/
def TableGood (u : State) (r : CmdRun) : Prop :=
  lenTableStatus u r.offer.part (aDesc r.offer.desc) = .ok ∧ ∀ e ∈ runTable u (withTable u r), e.good = true

/-- ATTN_MERGE and ATTN_BWD (R290, R291): the command computes with its table. -/
def Merges (k : CoreId) (stream : Nat) (u t : State) (r : CmdRun) : Prop := TableGood u r → Computes k stream u t (withTable u r)

/-- ATTN (R273, R275, R289, R304): every page of its pin pass is pinned once more, which slot 6 counts, a list stream is started for pages
homed in Drift, and the command computes over the pinned pages. -/
def Attends (k : CoreId) (stream : Nat) (u t : State) (r : CmdRun) : Prop :=
  let a := aDesc r.offer.desc
  let p := r.offer.part
  let x := pinPages p a u (pinList a (runTable u (withTable u r))) []
  TableGood u r → x.2.2 = none → pinnedStatus u p a x.2.1 = .ok →
    ∃ w, (∀ j, (kvRec w p a.pool j).pin = (kvRec u p a.pool j).pin + (x.2.1.map Prod.fst).count j) ∧ RegsBut [] u w ∧
      (x.2.1 ≠ [] → Counted u w (corePage k) 6 x.2.1.length) ∧ CtrsBut [ctrKey (corePage k) 6] u w ∧
      w = { withBlock w u with kv := { u.kv with recs := w.kv.recs }, mem := { u.mem with pf := w.mem.pf } } ∧
      Computes k stream w t { withTable u r with pins := x.2.1 }

/-- The rows of an append one by one (R279): each decided, copied and written while its own row has landed and its page is not under move,
up to the first that waits or fails. -/
def appendFrom (u : State) (k : CoreId) (r : CmdRun) : AppendSt :=
  let a := aDesc r.offer.desc
  let landed (i : Nat) : Bool := (List.range (i + 1)).all fun j => rowPresent u r 0 j && !(r.badRows.contains (0, j))
  (appendRows (runTable u r)).foldl (appendOne r.offer.part a (a.head % 8) landed (appendRowBytes u k r)) ⟨u, [], none, false⟩

/-- KV_APPEND (R279, R281): with its memory operand readable its rows are written as far as they have come, and what stops one of them ends
it; else it fails and writes nothing. -/
def Appends (k : CoreId) (stream : Nat) (u t : State) (r : CmdRun) : Prop :=
  let r0 := withTable u r
  let r1 : CmdRun := { r0 with free0 := u.free, seen := (cmdReads u k r0).map fun x => (x.1, readBytes u r.offer.part x.1 x.2) }
  let x := appendFrom (spendFree u (2 ^ 40)) k r1
  (TableGood u r → readsStatus u k r0 = .ok → r.fail = none →
    ∃ out, out.append = x.rows ∧ out.stores = [] ∧
      curOf t k stream = some { r1 with out := some out, fail := x.stop.map fun y => y.status } ∧
      t.mem = x.st.mem ∧ t.kv = x.st.kv ∧ t.keys = u.keys ∧ t.atTick = x.st.atTick ∧ t.tally = u.tally) ∧
  (TableGood u r → readsStatus u k r0 ≠ .ok →
    ∃ out, out.append = [] ∧ t = setCur (spendFree u (2 ^ 40)) k stream { r1 with out := some out, fail := some (readsStatus u k r0) })

/-- The issue of the offered command of one row on a stream that is free, where no other stream of the core offers one to that row (R104, R148,
R164, R685): a descriptor that no rule rejects leaves the offer and waits for its Tally, or runs and computes; one that is rejected is
recorded on the core's page and no byte of memory changes. -/
def Issues (k : CoreId) (stream op : Nat) (todo : State → State → CmdRun → Prop) (row : State → Res) : Prop :=
  ∀ (s : State) (o : Offer), devRunning s = true → (coreSt s k stream).offered = some o → rowOf k o.desc = op →
    (∀ i ∈ streamsOf k, i ≠ stream → ∀ o', (coreSt s k i).offered = some o' → rowOf k o'.desc ≠ op) →
    streamBusy (streamState s k stream) = false →
    (issueStatus s k stream o = .ok →
      let r : CmdRun := ⟨o, now s, none, none, windowMembers s k o, pushesOf s k o, [], [], none, none, [], [], 0⟩
      let waits := waitEn k o.desc && !(reached (tallyVal (openWindows s o r.win) (waitTally o.desc)) (waitThresh o.desc))
      ∃ u t, row s = .next t ∧ Entered s u k o ∧ coreSt u k stream = ⟨none, some r⟩ ∧ streamState u k stream = (if waits then cWait else cRun) ∧
        (waits = true → t = u ∧ Counted s t (tallyPage (waitTally o.desc)) 2 1) ∧ (waits = false → todo u t r)) ∧
    (issueStatus s k stream o ≠ .ok →
      ∃ t, row s = .next t ∧ regField t (corePage k) 0x01C 23 16 = statusCode (issueStatus s k stream o) ∧
        regField t (corePage k) 0x01C 15 0 = 0x1000 ∧ Counted s t (corePage k) 0 1 ∧ t.mem = s.mem ∧ t.tally = s.tally)

/-! ### A trip that halts the device -/

/-- What a device-fatal trip of a stack's Fireboss leaves of a device in RUN (R550, R552): HALT and both Fireboss TRIPPED, the trip counted,
recorded where none was since the last read, and kept by Lamphouse; no stream with a command and no channel that runs; and no byte of memory
and no Tally changed. -/
def Halted (s t : State) (stack cause : Nat) (p : Page) : Prop :=
  let what := cause * 2 ^ 24 + 4 * 2 ^ 16 + clsCode p.cls * 256 + p.inst
  devState t = stHalt ∧ pgState t (fbPage 0) = fbTripped ∧ pgState t (fbPage 1) = fbTripped ∧ Flagged t devPage 2 ∧
    Counted s t (fbPage stack) 1 1 ∧ Flagged t (fbPage stack) 0 ∧
    (regVal s (fbPage stack) 0x108 = 0 → regVal t (fbPage stack) 0x108 = BitVec.ofNat 32 what ∧ regVal t (fbPage stack) 0x10C = nowW s) ∧
    t.sec.flash.trips = s.sec.flash.trips ++ [(what, now s, chargeOf t)] ∧
    (∀ k ∈ allCores, ∀ i, i < 2 → curOf t k i = none) ∧ (∀ ch, ch < 64 → fxState t ch ≠ fxRun ∧ fxState t ch ≠ fxArmed) ∧
    t.mem.cells = s.mem.cells ∧ t.tally = s.tally

/-! ### Reset and loopback -/

/-- What a device reset leaves (R43, R410, R644): held in BOOT at tick 0 with no layout, no counts and nothing in progress, every register at its
reset value but for the safe stores, what Lamphouse keeps, Gallery zero and the tiers below it as they were. Without power Drift is lost too
(R537). A lifecycle change takes effect (R469): the entry to SERVICE advances SERVICE_EPOCH and discards the layout, each way between SEALED
and SERVICE erases Drift and Seam, and SCRAPPED burns KILL. -/
def ResetFrom (s t : State) (drift : Bool) : Prop :=
  let f := s.sec.flash
  let service := decide (f.lifeNext = some lcService)
  let wiped := service || decide (f.lifeNext = some lcSealed ∧ lifecycle s = lcService)
  t.sec.boot.held = true ∧ t.time.tickNow = 0 ∧ t.dev.power = 0 ∧ t.dev.layout = none ∧ t.dev.inReset = [] ∧ t.ctrs = [] ∧ t.tally = [] ∧ t.jobs = [] ∧
    t.cores = [] ∧ t.face = [] ∧ t.atTick = [] ∧ t.sec.parts = [] ∧ t.pending = s.pending ∧ t.vl.epoch = f.pairEpoch ∧ t.vl.lead = false ∧ t.vl.lifeOut = false ∧
    t.sec.flash = { f with
      lifeNext := none, d2Back := false, epoch := if service then min (f.epoch + 1) 3 else f.epoch
      layout := if service then none else f.layout, kill := f.kill || decide (f.lifeNext = some lcScrapped) } ∧
    t.dev.lifecycle = BitVec.ofNat 4 (s.sec.flash.lifeNext.getD s.dev.lifecycle.toNat) ∧
    (∀ p off, pageOk p = true → off < 0x1000 →
      regVal t p off = if p.cls = .fxch ∧ isSafeStore off = true then regVal s p off else regReset p off) ∧
    ∀ a, memByte t a = if wiped = false ∧ (if drift then driftBase else seamBase) ≤ a then memByte s a else unlisted

/-- A loopback ended with what its checker found (R673, R676). -/
def LoopEnds (s t : State) (l : LoopSt) (c : LoopCount) : Prop :=
  t.loop = none ∧ pgState t testPage = lbIdle ∧ regBit t testPage 0x00C 0 = false ∧
    regVal t testPage 0x10C = BitVec.ofNat 32 (statusCode (if c.errors = 0 then .ok else .integrity)) ∧
    regVal t testPage 0x110 = (if c.errors = 0 then 0 else c.first) ∧ (0 < c.sent → Counted s t testPage 1 c.sent) ∧
    (0 < c.received → Counted s t testPage 2 c.received) ∧ (0 < c.errors → Counted s t testPage 3 c.errors ∧ Flagged t testPage 0) ∧
    (pageOk l.page = true → (l.page.cls = .eth ∨ l.page.cls = .can ∨ l.page.cls = .aphy) →
      pgState t l.page = if enabled s l.page then portDown else portOff) ∧
    t.mem = s.mem

/-- The counters of a range cleared (R656), and no others; one that has wrapped in this tick keeps its overflow bit. -/
def Cleared (s t : State) (w : Word) : Prop :=
  let xs := rangeSlots (field w 11 0) (field w 28 16)
  (∀ x ∈ xs, ctrVal t x.1 x.2 = (if s.cnt.wraps.contains (ctrKey x.1 x.2) then BitVec.ofNat 64 (2 ^ 63) else 0) ∧ bankVal t x.1 x.2 = ctrVal t x.1 x.2) ∧
    CtrsBut (xs.map fun x => ctrKey x.1 x.2) s t ∧ t.mem = s.mem ∧ t.tally = s.tally ∧ t.reply = ⟨.ok, 0⟩

/-! ### The pair -/

/-- A module of a pair that may take the lead (R613, R615). -/
def MayTake (s : State) : Prop :=
  isPair s = true ∧ ableLead s = true ∧ s.vl.lead = false ∧ max s.vl.epoch.toNat s.vl.mateEpoch.toNat < 0xFFFFFFFF

/-- The lead taken with its cause, under an epoch one above the larger of both (R613, R616, R622). -/
def Takes (s t : State) (cause : Nat) : Prop :=
  t.vl.lead = true ∧ t.vl.epoch = BitVec.ofNat 32 (max s.vl.epoch.toNat s.vl.mateEpoch.toNat + 1) ∧ t.vl.mateLed = false ∧
    regVal t vlPage 0x118 = nowW s ∧ regVal t vlPage 0x11C = BitVec.ofNat 32 cause ∧ Counted s t vlPage 7 1 ∧ t.mem = s.mem ∧ t.tally = s.tally

/-- The message of a class and subtype that is the next of its class to be delivered among those received (R596). -/
def Front (s : State) (cls sub : Nat) (m : Msg) : Prop := headMsg s cls sub = some m

/-- A STATE_DELTA record that the standby takes in is the next (R608). -/
def DeltaFront (s : State) (sub : Nat) (m : Msg) : Prop := Front s 5 sub m ∧ takesIn s m.part = true

/-! ### The invariant of the machine -/

/-- An issue duty within the bounds of R36. -/
def dutyIn (d : Nat) : Bool := decide (8 ≤ d ∧ d ≤ 16)

/-- Whether an action of the next tick boundary sets no duty outside the bounds of R36. -/
def actIn (a : BAct) : Bool :=
  match a with
  | .duty d => dutyIn d
  | _ => true

/-- What holds of the machine in every state that it reaches: the issue duty stays within 8/16 and 16/16 (R36), and the register file, the
counters, the Tallies, the memory and the tags in use stand in their one canonical form, and both keepers have their stores. -/
def Inv (s : State) : Prop :=
  dutyIn s.gov.duty = true ∧ s.atTick.all actIn = true ∧ smRising s.regs = true ∧ smWf 0 s.ctrs = true ∧ smWf 0 s.tally = true ∧
    Memory.wf s.mem.cells = true ∧ smRising s.mem.tags = true ∧ s.mem.keeperFree.length = 2 ∧ s.mem.keeperSpare.length = 2 ∧ s.mem.keeperGc.length = 2

end Sys2Proof.Machine
end

