-- ==== Sys2Proof/Certificates/Slice0/Obligations.lean ====
section
/-! DEFINITION. The statements for the provers, family by family. Each cites the rules of spec/ that it formalises; `OBLIGATIONS.json` lists
them. -/

open Sys2Proof Sys2Proof.Machine

/-! ### The queue and the whole machine -/

/-- A step is `exec` of the command at the front of the queue, on the state with the queue's rest; an empty queue idles (DESIGN CHOICE,
log 2). -/
def Obligations.StepRunsFrontCommand : Prop :=
  (∀ (c : Instr) (rest : List Instr) (s : State), step { s with pending := c :: rest } = exec c { s with pending := rest }) ∧
  ∀ s : State, s.pending = [] → step s = .next s

/-- No state refuses a well-formed command, and no command takes from or adds to the queue: only the step does (model's interface, log 2). The queue
keeps the order of R47, R50 and R51, whatever the order of arrival; places that the spec does not rank are the model's choice (log 13). -/
def Obligations.CommandsLeaveQueue : Prop :=
  (∀ (c : Instr) (s : State), c.wf = true → ∃ t, exec c s = .next t) ∧
  (∀ (c : Instr) (s t : State), exec c s = .next t → t.pending = s.pending) ∧
  ∀ (c d : Instr) (s : State), endsTick c = false → endsTick d = false → earlyOf s c = none → earlyOf s d = none →
    placeRank s c ≠ placeRank s d → s.post [c, d] = s.post [d, c]

/-- R36 holds the duty within 8/16 and 16/16, whatever command is carried out; and every step keeps the one canonical form of the stores
(the model's own, log 5). -/
def Obligations.StepKeepsInvariant : Prop :=
  ∀ s t : State, Inv s → step s = .next t → Inv t

/-- The machine right after reset meets the invariant. -/
def Obligations.ResetMeetsInvariant : Prop := Inv State.reset

/-- The machine right after reset: TICK_NOW 0 (R43), DEVICE in BOOT (R112), every register at its reset value. -/
def Obligations.ResetState : Prop :=
  State.reset.pending = [] ∧ State.reset.time.tickNow = 0 ∧ devState State.reset = stBoot ∧
  (∀ (p : Page) (off : Nat), regVal State.reset p off = regReset p off) ∧
  (∀ (p : Page) (slot : Nat), ctrVal State.reset p slot = 0) ∧ (∀ i : Nat, tallyVal State.reset i = 0) ∧ ∀ a : Nat, memByte State.reset a = unlisted

/-! ### Register accesses -/

/-- A rejected write (R105): the record of R92, counter slot 0, and no other effect. A write of PW_CMD also shows in PW_STAT (R543). -/
def Obligations.RejectedWrite : Prop :=
  ∀ (s : State) (r : Req) (p : Page) (off : Nat) (v : Word) (st : Status),
    pageOk p = true → off < 0x1000 → off % 4 = 0 → reaches s r = true → judge s r p off v false = some st →
    ¬ (p = partPage 0 ∧ off = 0x700) →
    ∃ t, exec (.registerWrite r (BitVec.ofNat 26 (regKey p off)) .b4 (v.setWidth 64)) s = .next t ∧
      t.reply = ⟨st, 0⟩ ∧
      field (regVal t p 0x01C) 15 0 = off ∧ field (regVal t p 0x01C) 23 16 = statusCode st ∧
      field (regVal t p 0x01C) 31 24 = min (field (regVal s p 0x01C) 31 24 + 1) 255 ∧
      Counted s t p 0 1 ∧
      RegsBut [regKey p 0x01C] s t ∧ CtrsBut [ctrKey p 0] s t ∧ t = { withBlock t s with reply := t.reply }

/-- The first three places of R104's order. -/
def Obligations.WriteJudgedInOrder : Prop :=
  ∀ (s : State) (r : Req) (p : Page) (off : Nat) (v : Word),
    (rightOf s r p off ≠ .full → judge s r p off v false = some .ownerDenied) ∧
    (writeDenied s r p off v = false → (off < 0x100 ∨ some .ownerDenied ∉ blockCheck s r p off v) → inReset s (pageOwner s p) = true →
      judge s r p off v false = some .busyReset) ∧
    (writeDenied s r p off v = false → inReset s (pageOwner s p) = false → off ≠ 0x018 → off ≠ 0x008 → 0x20 ≤ off → off < 0x100 →
      v &&& ~~~(writableBits p off) ≠ 0 → judge s r p off v false = some .reservedSet)

/-- The rights of a function that does not own a page (R96). -/
def Obligations.StrangersCannotWrite : Prop :=
  ∀ (s : State) (q : Part) (p : Page) (off : Nat), pageOwner s p ≠ q.val →
    rightOf s (.host q) p off ≠ .full ∧
    (off < 8 ∨ 0x24 ≤ off ∧ off < 0x28 → rightOf s (.host q) p off = .read) ∧
    (q.val = 0 → off < 0x100 → rightOf s (.host q) p off = .read) ∧
    (0x100 ≤ off → pageShared s p = false → rightOf s (.host q) p off = .none) ∧
    (0x100 ≤ off → pageShared s p = true → rightOf s (.host q) p off = .read)

/-- The commands of a register access that no other row names. -/
def Obligations.AccessEffects : Prop :=
  (∀ (s : State) (r : Req) (p : Page) (off : Nat) (v : Word), Accepted s r p off v →
    exec (.registerWrite r (BitVec.ofNat 26 (regKey p off)) .b4 (v.setWidth 64)) s = .next { accept s p off v with reply := ⟨.ok, 0⟩ }) ∧
  (∀ (s : State) (r : Req) (a : BitVec 26) (v : DWord), reaches s r = true → a.toNat % 8 = 0 →
    let x := write32 s r a.toNat a.toNat (v.setWidth 32) false
    let y := write32 x.1 r (a.toNat + 4) (a.toNat + 4) ((v >>> 32).setWidth 32) false
    exec (.registerWrite r a .b8 v) s = .next { y.1 with reply := ⟨if x.2 = .ok then y.2 else x.2, 0⟩ }) ∧
  (∀ (s : State) (r : Req) (p : Page) (v : Word), Accepted s r p 0x014 v →
    ∃ t, exec (.registerWrite r (BitVec.ofNat 26 (regKey p 0x014)) .b4 (v.setWidth 64)) s = .next t ∧ t.reply = ⟨.ok, 0⟩ ∧
      regVal t p 0x014 &&& errMask p = v ∧ RegsBut [regKey p 0x014] s t ∧ t = { withBlock t s with reply := t.reply }) ∧
  (∀ (s : State) (r : Req) (a : BitVec 26) (v : Word), reaches s r = true → a.toNat % 4 = 0 → pageAt a.toNat = none →
    ∃ t, exec (.unmappedWrite r a v) s = .next t ∧ t.reply = ⟨.ok, 0⟩ ∧ Flagged t devPage 0 ∧
      regVal t devPage 0x110 = BitVec.ofNat 32 (a.toNat + reqPart r * 2 ^ 26) ∧ Counted s t devPage 1 1 ∧
      RegsBut [regKey devPage 0x110, regKey devPage 0x010] s t ∧ CtrsBut [ctrKey devPage 1] s t ∧ t = { withBlock t s with reply := t.reply }) ∧
  (∀ (s : State) (r : Req) (a : BitVec 26) (z : AccSize) (p : Page), reaches s r = true → z ≠ .b8 → a.toNat % sizeBytes z = 0 →
    pageAt (a.toNat - a.toNat % 4) = some p → rightOf s r p (pageOff (a.toNat - a.toNat % 4)) = .none →
    ∃ t, exec (.deniedRead r a z) s = .next t ∧ t.reply = ⟨.ownerDenied, 0⟩ ∧
      regVal t devPage 0x114 = BitVec.ofNat 32 (a.toNat + reqPart r * 2 ^ 26) ∧ Counted s t devPage 2 1 ∧
      RegsBut [regKey devPage 0x114] s t ∧ CtrsBut [ctrKey devPage 2] s t ∧ t = { withBlock t s with reply := t.reply }) ∧
  (∀ (s : State) (r : Req) (p : Page), Readable s r p 0x01C → isOwner s r p 0x01C = true → smFind s.rcTick (regKey p 0x01C) = none →
    ∃ t, exec (.clearingRead r (BitVec.ofNat 26 (regKey p 0x01C)) .b4) s = .next t ∧ t.reply = ⟨.ok, (regVal s p 0x01C).setWidth 64⟩ ∧
      regVal t p 0x01C = 0 ∧ RegsBut [regKey p 0x01C] s t ∧ t = { withBlock t s with reply := t.reply, latch := t.latch }) ∧
  (∀ (s : State) (r : Req) (p : Page) (off : Nat) (row : RegRow), Readable s r p off → isOwner s r p off = true → regRow p off = some row →
    row.rc ≠ 0 → inWindow off = false → isLatched p off = false → unpowered s p = false → foreignStream s r p off = false →
    ¬ (p.cls = .ptp ∧ off = 0x120) → ¬ (p.cls = .c ∧ off = 0x10C) →
    ∃ t, exec (.clearingRead r (BitVec.ofNat 26 (regKey p off)) .b4) s = .next t ∧ t.reply = ⟨.ok, (readValue s p off).setWidth 64⟩ ∧
      regVal t p off = (match smFind s.rcTick (regKey p off) with
        | some x => x.2
        | none => 0) ∧
      RegsBut [regKey p off] s t ∧ t = { withBlock t s with reply := t.reply, latch := t.latch }) ∧
  (∀ (s : State) (r : Req) (a : BitVec 26) (z : AccSize), reaches s r = true → a.toNat % sizeBytes z ≠ 0 →
    exec (.clearingRead r a z) s = .next { s with reply := ⟨.range, 0⟩ } ∧ exec (.deniedRead r a z) s = .next { s with reply := ⟨.range, 0⟩ }) ∧
  (∀ (s : State) (r : Req) (p : Page) (slot : Fin 24), Readable s r p (0x40 + 8 * slot.val) →
    ∃ t, exec (.counterLowWordRead r p slot) s = .next t ∧
      t.reply = ⟨.ok, (showWord s p (0x40 + 8 * slot.val)).setWidth 64⟩ ∧
      smGet 0 t.latch (latchKey r (regKey p (0x44 + 8 * slot.val))) = showWord s p (0x44 + 8 * slot.val) ∧
      t = { s with reply := t.reply, latch := t.latch })

/-- SOFT_RESET, PG_CTRL_ENABLE, ERROR_INJECT, PAGE_LOCK, DEV_LEVEL_WRITE and DEV_PRESET, accepted. -/
def Obligations.HeaderCommands : Prop :=
  (∀ (s : State) (r : Req) (p : Page) (en : Bool), Accepted s r p 0x008 (if en then 3 else 2) →
    ∃ t, exec (.softReset r p en) s = .next t ∧ t = { s with atTick := s.atTick ++ [.softReset p en], reply := ⟨.ok, 0⟩ }) ∧
  (∀ (s : State) (r : Req) (p : Page) (en : Bool), Accepted s r p 0x008 (if en then 1 else 0) →
    ∃ t, exec (.pgCtrlEnable r p en) s = .next t ∧ enabled t p = en ∧ t.reply = ⟨.ok, 0⟩ ∧ t.mem.cells = s.mem.cells) ∧
  (∀ (s : State) (r : Req) (p : Page), Accepted s r p 0x008 1 → (p.cls = .device ∨ p.cls = .tally ∨ p.cls = .mailbox ∨ p.cls = .part) →
    ∃ t, exec (.pgCtrlEnable r p true) s = .next t ∧ enabled t p = true ∧ RegsBut [regKey p 0x008] s t ∧
      t = { s with regs := t.regs, reply := ⟨.ok, 0⟩ }) ∧
  (∀ (s : State) (r : Req) (p : Page), Accepted s r p 0x008 1 → (p.cls = .c ∨ p.cls = .aphy) → pgState s p = 0 →
    ∃ t, exec (.pgCtrlEnable r p true) s = .next t ∧ enabled t p = true ∧ pgState t p = (if p.cls = .c then ccRun else apDown) ∧
      RegsBut [regKey p 0x008, regKey p 0x00C, regKey p 0x028] s t ∧ t = { s with regs := t.regs, reply := ⟨.ok, 0⟩ }) ∧
  (∀ (s : State) (r : Req) (p : Page) (bits : Word), Accepted s r p 0x018 bits →
    ∃ t, exec (.errorInject r p bits) s = .next t ∧ t.reply = ⟨.ok, 0⟩ ∧
      t.atTick = s.atTick ++ (((List.range 32).filter fun n => bit bits n).map fun n => BAct.errFlag p n) ∧
      t = { s with atTick := t.atTick, reply := t.reply }) ∧
  (∀ (s : State) (r : Req) (p : Page), Accepted s r p 0x020 (regVal s p 0x020 ||| 0x100#32) →
    ∃ t, exec (.pageLock r p) s = .next t ∧ pageLocked t p = true ∧ pageOwner t p = pageOwner s p ∧ RegsBut [regKey p 0x020] s t ∧
      t = { s with regs := t.regs, reply := ⟨.ok, 0⟩ }) ∧
  (∀ (s : State) (r : Req) (level : Byte), Accepted s r devPage 0x108 (level.setWidth 32) →
    ∃ t, exec (.devLevelWrite r level) s = .next t ∧ t.atTick = s.atTick ++ [.level level] ∧
      RegsBut [regKey devPage 0x108] s t ∧ t = { s with regs := t.regs, atTick := t.atTick, reply := ⟨.ok, 0⟩ }) ∧
  (∀ (s : State) (r : Req) (n : Part), Accepted s r devPage 0x11C (BitVec.ofNat 32 n.val) →
    ∃ t, exec (.devPreset r n) s = .next t ∧ t.atTick = s.atTick ++ [.presetBegin n.val] ∧
      RegsBut [regKey devPage 0x11C] s t ∧ t = { s with regs := t.regs, atTick := t.atTick, reply := ⟨.ok, 0⟩ })


/-! ### Device time (chapter 02) and the governor -/

/-- TICK_BOUNDARY (R42, R46). -/
def Obligations.TickBoundaryAdvancesTick : Prop :=
  (∀ (s : State) (j3 vin die : Nat) (tj : Int), s.sec.boot.held = false → s.supply.main = true →
    ∃ t, exec (.tickBoundary j3 vin tj die false) s = .next t ∧ t.time.tickNow = s.time.tickNow + 1 ∧
      t.supply.vin = vin ∧ t.supply.die = die ∧ t.gov.tj = tj ∧ t.gov.window.head? = some j3 ∧ t.gov.window.length ≤ 100 ∧ t.pending = s.pending) ∧
  ∀ (s : State) (j3 vin die : Nat) (tj : Int) (m : Bool), s.sec.boot.held = true →
    exec (.tickBoundary j3 vin tj die m) s = .next { s with supply := { s.supply with vin := vin } }

/-- The governor (R36) and the thermal limits (R648). -/
def Obligations.GovernorEffects : Prop :=
  (∀ s : State, governs s = true → now s % 100 = 0 → s.gov.ceiling * 10 * s.gov.window.length < s.gov.window.sum * 8 → 8 < s.gov.duty →
    exec .governorLowerDuty s = .next { s with atTick := s.atTick ++ [.duty (s.gov.duty - 1)] }) ∧
  (∀ s : State, governs s = true → 1000 ≤ s.gov.below → 1000 ≤ s.gov.sinceUp → s.gov.duty < 16 →
    ∃ t, exec .governorRaiseDuty s = .next t ∧ t.atTick = s.atTick ++ [.duty (s.gov.duty + 1)] ∧ t.gov.sinceUp = 0 ∧
      t = { s with atTick := t.atTick, gov := t.gov } ∧ t.gov.duty = s.gov.duty) ∧
  (∀ (s : State) (d : Nat), (applyAct s (.duty d)).gov.duty = d) ∧
  (∀ s : State, now s % 1000 = 0 → s.sec.boot.held = false → s.supply.main = true →
    ∃ t, exec .thermalCeilingUpdate s = .next t ∧ t.gov.ceiling = thermalCeiling s.gov.tj ∧
      (s.gov.tj ≤ 1520 → t.gov.ceiling = 3840) ∧ (1520 < s.gov.tj → t.gov.ceiling < 3840 ∧ regBit t (partPage 0) 0x7D0 2 = true) ∧
      RegsBut [regKey (partPage 0) 0x7D0] s t ∧ t = { withBlock t s with gov := { s.gov with ceiling := t.gov.ceiling } }) ∧
  (∀ s : State, s.gov.hotRun = 1000 → s.sec.boot.held = false → s.supply.main = true → devRunning s = true →
    ∃ t, exec .thermalTrip s = .next t ∧ devState t = stHalt ∧ pgState t (fbPage 0) = fbTripped ∧ pgState t (fbPage 1) = fbTripped ∧
      Flagged t devPage 2 ∧ t.gov.hotRun = 1001)

/-- Network time (R62 to R69, R77). -/
def Obligations.NetworkTimeEffects : Prop :=
  (∀ (s : State) (off : Int) (ok : Bool), ptpEnabled s = true → s.time.role = 1 → pairHoldsTime s = false →
    ∃ t, exec (.syncReceived off ok) s = .next t ∧ t.time.lastSync = now s ∧ (ok = true → t.time.offset = off) ∧
      (tbState s = tbFree → tbState t = tbAcquire) ∧
      (tbState s = tbLocked → ok = true → (1000000 < off ∨ off < -1000000) → tbState t = tbHold ∧ Flagged t tickPage 0 ∧ t.time.freqAdj = s.time.freqAdj) ∧
      (tbState s = tbHold → tbState t = tbHold) ∧
      RegsBut [regKey tickPage 0x00C, regKey tickPage 0x028, regKey tickPage 0x010] s t ∧
      t = { withBlock t s with time := t.time, atTick := t.atTick }) ∧
  (∀ s : State, ptpEnabled s = true → s.time.role = 1 → s.time.lastSync + 3 * syncInterval s ≤ now s →
    ∃ t, exec .syncReceiptTimeout s = .next t ∧ t.time.locked = false ∧ t.time.freqAdj = s.time.freqAdj ∧ Flagged t ptpPage 2 ∧
      RegsBut [regKey ptpPage 0x010] s t ∧ t = { withBlock t s with time := t.time }) ∧
  (∀ (s : State) (n : Fin 16), ptpEnabled s = true → regBit s ptpPage 0x104 n.val = true →
    ∃ t, exec (.pdelayFail n) s = .next t ∧ Flagged t ptpPage 1 ∧ RegsBut [regKey ptpPage 0x010] s t ∧ OnlyBlock s t) ∧
  (∀ s : State, ptpEnabled s = true → pairHoldsTime s = false → tbState s ≠ tbHold → regBit s ptpPage 0x100 2 = true → regField s ptpPage 0x100 23 16 ≠ 0xFF →
    ∃ t, exec (.grandmasterRoleChange 2) s = .next t ∧ tbState t = tbGm ∧ t.time.role = 2 ∧ t.time.stepDone = true ∧
      t.atTick = (s.atTick.filter fun a => !(isFirstStep a)) ∧
      RegsBut [regKey tickPage 0x00C, regKey tickPage 0x028] s t ∧ t = { s with regs := t.regs, time := t.time, atTick := t.atTick }) ∧
  (∀ (s : State) (role : BitVec 2), ptpEnabled s = true → pairHoldsTime s = false → s.time.role = 2 → tbState s = tbGm → (role = 1 ∨ role = 3) →
    ∃ t, exec (.grandmasterRoleChange role) s = .next t ∧ tbState t = tbLocked ∧ t.time.role = role ∧
      RegsBut [regKey tickPage 0x00C, regKey tickPage 0x028] s t ∧ t = { s with regs := t.regs, time := t.time })

/-- TICK_CMP_MATCH (R52 to R55). -/
def Obligations.ComparatorMatch : Prop :=
  (∀ (s : State) (n : Nat), n < 8 → ((cmpEval s).time.cmpDue.find? fun x => x.n == n) =
    if regBit s tickPage (0x160 + 4 * n) 0 = true ∧ reached (nowW s) (regVal s tickPage (0x140 + 4 * n)) = true then
      some ⟨n, regVal s tickPage (0x140 + 4 * n), regVal s tickPage (0x160 + 4 * n), s.time.cmpLate.getLsbD n⟩ else none) ∧
  ∀ (s : State) (n : Fin 8) (d : CmpDue), (s.time.cmpDue.find? fun x => x.n == n.val) = some d →
    let ctl := 0x160 + 4 * n.val
    let val := 0x140 + 4 * n.val
    let period := field d.ctl 31 16
    let same := regVal s tickPage val = d.c ∧ regField s tickPage ctl 31 16 = period ∧ regBit s tickPage ctl 0 = true
    ∃ t, exec (.tickCmpMatch n) s = .next t ∧ regBit t tickPage ctl 1 = true ∧ (d.late = true → regBit t tickPage ctl 2 = true) ∧
      (same → period = 0 → regBit t tickPage ctl 0 = false ∧ regVal t tickPage val = d.c) ∧
      (same → period ≠ 0 → regBit t tickPage ctl 0 = true ∧ regVal t tickPage val = nextCompare (nowW s) d.c (BitVec.ofNat 32 period)) ∧
      (¬ same → regBit t tickPage ctl 0 = regBit s tickPage ctl 0 ∧ regVal t tickPage val = regVal s tickPage val) ∧
      t.irqs = (if regBit s devPage 0x124 n.val then s.irqs else sendIrq ⟨0, 2, .compare n.val⟩ s.irqs) ∧
      (t.time.cmpDue.find? fun x => x.n == n.val) = none ∧
      RegsBut [regKey tickPage ctl, regKey tickPage val] s t ∧ t = { withBlock t s with time := t.time }

/-- The next value of a periodic comparator (R55). -/
def Obligations.NextCompareAhead : Prop :=
  ∀ (t c : Word) (period : Nat), 0 < period → period < 2 ^ 16 → (t - c).toNat + period < 2 ^ 31 →
    let d := (nextCompare t c (BitVec.ofNat 32 period) - t).toNat
    0 < d ∧ d ≤ period ∧ reached t (nextCompare t c (BitVec.ofNat 32 period)) = false ∧
      (nextCompare t c (BitVec.ofNat 32 period) - c).toNat % period = 0

/-- TIME_SET, PTP_ENABLE, PTP_DISABLE, TSQ_PUSH, TSQ_POP, TICK_NOW_LO_READ and TIME_NS_LO_READ. -/
def Obligations.TimePageCommands : Prop :=
  (∀ (s : State) (r : Req), Accepted s r tickPage 0x130 1 →
    ∃ t, exec (.timeSet r) s = .next t ∧ t.reply = ⟨.ok, 0⟩ ∧ t.time.setPend = true ∧
      t.atTick = s.atTick ++ [.timeStep (((regVal s tickPage 0x12C).toNat * 2 ^ 32 + (regVal s tickPage 0x128).toNat : Int) -
        ((boundaryNs s (now s)).toNat : Int)) false] ∧
      RegsBut [regKey tickPage 0x130] s t ∧ t = { s with regs := t.regs, reply := t.reply, time := t.time, atTick := t.atTick }) ∧
  (∀ (s : State) (off : Int), tbState (applyAct s (.timeStep off false)) = tbGm ∧
    (applyAct s (.timeStep off false)).time.origin = s.time.origin + BitVec.ofInt 64 off) ∧
  (∀ (s : State) (r : Req) (v : Word), Accepted s r ptpPage 0x100 (setBit v 0 true) → ptpEnabled s = false →
    ∃ t, exec (.ptpEnable r v) s = .next t ∧ ptpEnabled t = true ∧ t.time.role = 1 ∧
      RegsBut [regKey ptpPage 0x100] s t ∧ t = { s with regs := t.regs, reply := ⟨.ok, 0⟩, time := t.time }) ∧
  (∀ (s : State) (r : Req), Accepted s r ptpPage 0x100 (setBit (regVal s ptpPage 0x100) 0 false) → ptpEnabled s = true →
    ∃ t, exec (.ptpDisable r) s = .next t ∧ ptpEnabled t = true ∧ t.atTick = s.atTick ++ [.ptpStop] ∧
      RegsBut [regKey ptpPage 0x100] s t ∧ t = { s with regs := t.regs, reply := ⟨.ok, 0⟩, atTick := t.atTick }) ∧
  (∀ s : State, ptpEnabled (applyAct s .ptpStop) = false ∧ (applyAct s .ptpStop).time.role = 0) ∧
  (∀ (s : State) (f : Half) (port m : BitVec 4) (ns : DWord) (frac : Word), tsqInUse s = true → s.time.tsq.length < 64 → s.time.tsqLate = [] →
    exec (.tsqPush f port m ns frac) s = .next { s with time := { s.time with tsq := s.time.tsq ++ [⟨f, port, m, ns, frac⟩] } }) ∧
  (∀ (s : State) (f : Half) (port m : BitVec 4) (ns : DWord) (frac : Word), tsqInUse s = true → (64 ≤ s.time.tsq.length ∨ s.time.tsqLate ≠ []) →
    exec (.tsqPush f port m ns frac) s = .next { s with time := { s.time with tsqLate := s.time.tsqLate ++ [⟨f, port, m, ns, frac⟩] } }) ∧
  (∀ (s : State) (r : Req), Readable s r ptpPage 0x120 → isOwner s r ptpPage 0x120 = true →
    exec (.tsqPop r) s = .next { s with time := { s.time with tsq := s.time.tsq.drop 1 }, reply := ⟨.ok, (tsqWord s 3).setWidth 64⟩ }) ∧
  (∀ (s : State) (r : Req), Readable s r tickPage 0x100 →
    ∃ t, exec (.tickNowLoRead r) s = .next t ∧ t.reply = ⟨.ok, (nowW s).setWidth 64⟩ ∧
      smGet 0 t.latch (latchKey r (regKey tickPage 0x104)) = (s.time.tickNow >>> 32).setWidth 32 ∧ t = { s with reply := t.reply, latch := t.latch }) ∧
  (∀ (s : State) (r : Req), Readable s r tickPage 0x108 →
    ∃ t, exec (.timeNsLoRead r) s = .next t ∧ t.reply = ⟨.ok, (BitVec.ofNat 32 (instantNow s / 2 ^ 32)).setWidth 64⟩ ∧
      smGet 0 t.latch (latchKey r (regKey tickPage 0x10C)) = BitVec.ofNat 32 (instantNow s / 2 ^ 64) ∧
      smGet 0 t.latch (latchKey r (regKey tickPage 0x110)) = BitVec.ofNat 32 (instantNow s) ∧
      s.time.inst ≤ t.time.inst ∧
      t = { s with reply := t.reply, latch := t.latch, free := s.free + 1, time := { s.time with inst := instNext s } })

/-! ### Tallies (chapter 05) -/

/-- TL_ADD, TL_CLEAR and TALLY_WATCH_HIT (R163, R171, R173). -/
def Obligations.TallyEffects : Prop :=
  (∀ (s : State) (r : Req) (k : Fin 32) (i : Fin 512) (inc : Half), Accepted s r ⟨.tally, k.val⟩ 0x100 (BitVec.ofNat 32 (i.val * 65536 + inc.toNat)) →
    ∃ t, exec (.tlAdd r k i inc false) s = .next t ∧ tallyVal t (512 * k.val + i.val) = tallyVal s (512 * k.val + i.val) + inc.setWidth 32 ∧
      (∀ j, j ≠ 512 * k.val + i.val → tallyVal t j = tallyVal s j) ∧ Counted s t ⟨.tally, k.val⟩ 1 1 ∧ CtrsBut [ctrKey ⟨.tally, k.val⟩ 1] s t ∧
      RegsBut [regKey ⟨.tally, k.val⟩ 0x100] s t ∧ t = { withBlock t s with reply := ⟨.ok, 0⟩, tally := t.tally }) ∧
  (∀ (s : State) (r : Req) (k : Fin 32) (i : Fin 512) (n : BitVec 10), Accepted s r ⟨.tally, k.val⟩ 0x104 (BitVec.ofNat 32 (i.val * 65536 + n.toNat)) →
    ∃ t, exec (.tlClear r k i n) s = .next t ∧
      (∀ j, tallyVal t j = if 512 * k.val + i.val ≤ j ∧ j < 512 * k.val + i.val + n.toNat then 0 else tallyVal s j) ∧
      Counted s t ⟨.tally, k.val⟩ 4 n.toNat ∧ CtrsBut [ctrKey ⟨.tally, k.val⟩ 4] s t ∧
      RegsBut [regKey ⟨.tally, k.val⟩ 0x104] s t ∧ t = { withBlock t s with reply := ⟨.ok, 0⟩, tally := t.tally }) ∧
  (∀ (s : State) (k : Fin 32) (n : Fin 4), s.watchDue.contains (4 * k.toNat + n.val) = true → watchArmed s k.toNat n.val = true →
    ∃ t, exec (.tallyWatchHit k n) s = .next t ∧ watchArmed t k.toNat n.val = false ∧ regBit t ⟨.tally, k.toNat⟩ 0x10C n.val = true ∧
      Counted s t ⟨.tally, k.toNat⟩ 5 1 ∧ t.irqs = sendIrq ⟨pageOwner s ⟨.tally, k.toNat⟩, 2, .watch k.toNat n.val⟩ s.irqs ∧
      RegsBut [regKey ⟨.tally, k.toNat⟩ (0x110 + 4 * n.val), regKey ⟨.tally, k.toNat⟩ 0x10C] s t ∧ CtrsBut [ctrKey ⟨.tally, k.toNat⟩ 5] s t ∧
      t = { withBlock t s with watchDue := t.watchDue })

/-- The signed-difference rule of R52 and R164. -/
def Obligations.ReachedIsSignedDifference : Prop :=
  ∀ value threshold : Word, (reached value threshold = true ↔ 0 ≤ (value - threshold).toInt) ∧
    (∀ k : Nat, 0 < k → k < 2 ^ 31 → reached value (value + BitVec.ofNat 32 k) = false) ∧
    (∀ k : Nat, 2 ^ 31 ≤ k → k < 2 ^ 32 → reached value (value + BitVec.ofNat 32 k) = true)

/-- R61. -/
def Obligations.TickPageNeverReset : Prop :=
  ∀ (s : State) (r : Req) (v : Word), rightOf s r tickPage 0x008 = .full → inReset s (pageOwner s tickPage) = false → v &&& ~~~3#32 = 0 →
    (bit v 1 = true ∨ bit v 0 = false) →
    judge s r tickPage 0x008 v false = some .stateIllegal ∧
    (reaches s r = true → ∃ t, exec (.registerWrite r (BitVec.ofNat 26 (regKey tickPage 0x008)) .b4 (v.setWidth 64)) s = .next t ∧
      RegsBut [regKey tickPage 0x01C] s t ∧ t.time = s.time ∧ t.atTick = s.atTick)

/-- R83. -/
def Obligations.UnmappedAddresses : Prop :=
  ∀ (s : State) (r : Req) (a : BitVec 26), reaches s r = true → a.toNat % 4 = 0 → pageAt a.toNat = none →
    exec (.clearingRead r a .b4) s = .next { s with reply := ⟨.ok, 0⟩ } ∧
    ∀ v : Word, ∃ t, exec (.unmappedWrite r a v) s = .next t ∧ regVal t devPage 0x110 = BitVec.ofNat 32 (a.toNat + reqPart r * 2 ^ 26) ∧
      Flagged t devPage 0 ∧ RegsBut [regKey devPage 0x110, regKey devPage 0x010] s t ∧ CtrsBut [ctrKey devPage 1] s t ∧
      t = { withBlock t s with reply := ⟨.ok, 0⟩ }

/-- R84. -/
def Obligations.ReservedRegisters : Prop :=
  ∀ (s : State) (r : Req) (p : Page) (off : Nat), Readable s r p off → 0x100 ≤ off → regRow p off = none → isLatched p off = false →
    p.cls ≠ .bank →
    exec (.clearingRead r (BitVec.ofNat 26 (regKey p off)) .b4) s = .next { s with reply := ⟨.ok, 0⟩ } ∧
    (rightOf s r p off = .full → devRunning s = true → unpowered s p = false → (∀ v, (blockCheck s r p off v).all (· == none) = true) →
      (∀ v, sensorDenied s p off v = false) → (p = testPage → off ≠ 0x104) →
      exec (.registerWrite r (BitVec.ofNat 26 (regKey p off)) .b4 0) s = .next { s with reply := ⟨.ok, 0⟩ } ∧
      ∀ v : Word, v ≠ 0 → judge s r p off v false = some .reservedSet)

/-- R63. -/
def Obligations.GmEntryAndExit : Prop :=
  (∀ s t : State, exec (.grandmasterRoleChange 2) s = .next t → tbState s ≠ tbGm → tbState t = tbGm → t.time.stepDone = true) ∧
  (∀ (s : State) (off : Int), tbState (applyAct s (.timeStep off false)) = tbGm ∧ (applyAct s (.timeStep off false)).time.stepDone = true) ∧
  (∀ (s t : State) (i : Instr), tbState s = tbGm → tbState t = tbLocked → exec i s = .next t →
    (i = .grandmasterRoleChange 1 ∨ (∃ off ok, i = .syncReceived off ok)) → t.time.origin = s.time.origin ∧ t.time.tickNow = s.time.tickNow) ∧
  (∀ s : State, tbState s = tbGm → s.time.role = 2 → tbState (applyAct s .ptpStop) = tbLocked ∧ (applyAct s .ptpStop).time.origin = s.time.origin)

/-- R11: `storedBits` is what an accepted write leaves in a register. -/
def Obligations.HardwareSetBeatsClear : Prop :=
  ∀ (s : State) (p : Page) (off n : Nat) (row : RegRow) (v : Word), n < 32 → regRow p off = some row → bit row.w1c n = true →
    bit (row.rw ||| row.rwl) n = false → bit v n = true →
    bit (storedBits (orReg s p off (bitMask n)) p off row v) n = true ∧
    (bit (smGet 0 s.hwSet (regKey p off)) n = false → bit (storedBits s p off row v) n = false)


/-! ### Memory tiers (chapter 06) -/

/-- The tag allocator (R191 to R193). -/
def Obligations.TagGrantedIsLowestFree : Prop :=
  ∀ (s : State) (k : CoreId) (part t : Nat), Inv s → grantTag s k part = some t →
    tagFree s t = true ∧
    (((tagBlock k).1 ≤ t ∧ t < (tagBlock k).1 + (tagBlock k).2 ∧ ∀ u, (tagBlock k).1 ≤ u → u < t → tagFree s u = false) ∨
     ((∀ u, (tagBlock k).1 ≤ u → u < (tagBlock k).1 + (tagBlock k).2 → tagFree s u = false) ∧ 10880 ≤ t ∧ t < 16384 ∧
        ∀ u, 10880 ≤ u → u < t → tagFree s u = false))

/-- TIER_TAG_GRANT, TIER_REQUEST_COMPLETE and TIER_REQUEST_TIMEOUT (R190 to R193, R252, R253). -/
def Obligations.TierRequestEffects : Prop :=
  (∀ (s : State) (k : CoreId) (i : Fin 2) (a : Nat) (n : Fin 4097) (w : Bool) (r : CmdRun) (tag : Nat), (coreSt s k i).cur = some r →
    streamState s k i = cRun → n.val ≠ 0 → a % pageBytes + n.val ≤ pageBytes → grantTag s k r.offer.part = some tag →
    let e := pteOf s r.offer.part (vpnOf a)
    ∃ t x, exec (.tierTagGrant k i a n w) s = .next t ∧ smFind t.mem.tags tag = some x ∧ x.holder = .core k i ∧ x.part = r.offer.part ∧
      x.write = w ∧ x.addr = a ∧ x.len = n ∧ x.issue = now s ∧ x.tier = e.home ∧ x.frame = homeFrame e ∧ x.live = true ∧
      (x.st = .ok ↔ ∃ f, translate s r.offer.part a w true (kvWriter k i r) = .ok f) ∧ (x.held = true ↔ w = true ∧ e.mig = true ∧ x.st = .ok) ∧
      t.mem.cells = s.mem.cells ∧
      (w = true ∨ strideOn s r.offer.part = false → t = { s with mem := { s.mem with tags := t.mem.tags, looseAt := t.mem.looseAt } })) ∧
  (∀ (s : State) (k : CoreId) (i : Fin 2) (a : Nat) (n : Fin 4097) (w : Bool) (r : CmdRun), (coreSt s k i).cur = some r →
    grantTag s k r.offer.part = none → exec (.tierTagGrant k i a n w) s = .next s) ∧
  (∀ (s : State) (tag : Fin 16384) (port : Fin 8) (x : TagRec), smFind s.mem.tags tag = some x → x.held = false →
    let st := if x.st ≠ .ok then x.st else if pastDeadline s x then .timeout else servedStatus s x
    (x.st = .ok → pastDeadline s x = false → st = .timeout → exec (.tierRequestComplete tag port .clean) s = .next s) ∧
    ((x.st = .ok → pastDeadline s x = false → st ≠ .timeout) →
      ∃ t, exec (.tierRequestComplete tag port .clean) s = .next t ∧ smFind t.mem.tags tag = none ∧ t.mem.cells = s.mem.cells ∧
        ∀ (k : CoreId) (i : Nat) (c : CmdRun), x.holder = .core k i → x.live = true → curOf s k i = some c → c.fail = none →
          curOf t k i = some (if st = .ok then c else { c with fail := some st, failTag := some (now s, tag.val) }))) ∧
  (∀ (s : State) (tag : Fin 16384) (port : Fin 8) (o : TierOutcome) (x : TagRec), smFind s.mem.tags tag = some x → x.held = false →
    (x.st ≠ .ok ∨ pastDeadline s x = true ∨ (tierOutcome s x port o).1 ≠ .timeout) →
    ∃ t, exec (.tierRequestComplete tag port o) s = .next t ∧ smFind t.mem.tags tag = none) ∧
  (∀ (s : State) (tag : Fin 16384) (x : TagRec), smFind s.mem.tags tag = some x → x.held = false → x.issue + tierDeadline s x.tier ≤ now s →
    ∃ t, exec (.tierRequestTimeout tag) s = .next t ∧ smFind t.mem.tags tag = none ∧ t.mem.cells = s.mem.cells ∧
      ∀ (k : CoreId) (i : Nat) (c : CmdRun), x.holder = .core k i → x.live = true → curOf s k i = some c → c.fail = none →
        curOf t k i = some { c with fail := some .timeout, failTag := some (now s, tag.val) }) ∧
  (∀ (s : State) (tag : Fin 16384) (port : Fin 8) (o : TierOutcome) (x : TagRec), smFind s.mem.tags tag = some x → x.held = true →
    exec (.tierRequestComplete tag port o) s = .next s ∧ exec (.tierRequestTimeout tag) s = .next s) ∧
  ∀ (s : State) (tag : Fin 16384) (port : Fin 8) (o : TierOutcome), smFind s.mem.tags tag = none →
    exec (.tierRequestComplete tag port o) s = .next s ∧ exec (.tierRequestTimeout tag) s = .next s

/-- The rows of the tier-map requests (R218 to R220, R684). -/
def Obligations.TierMapCommands : Prop :=
  (∀ (s : State) (p : Part) (pages : Nat) (r : TmRun), tmOf s p = some r → r.checked = false → tmCheck s p r = .ok →
    let after (n : Nat) : State := { s with mem := { s.mem with tm := smPut s.mem.tm p { r with checked := true } }, atTick := s.atTick ++ [.tmPages p n] }
    (r.op = 1 → exec (.mapNew p pages) s = .next (after pages)) ∧ (r.op = 2 → exec (.mapSeam p pages) s = .next (after pages)) ∧
    (r.op = 3 → exec (.unmap p pages) s = .next (after pages)) ∧ (r.op = 4 → exec (.migrate p pages) s = .next (after pages)) ∧
    (r.op = 5 → exec (.protect p pages) s = .next (after pages)) ∧ (r.op = 6 → exec (.writeback p pages) s = .next (after pages)) ∧
    (r.op = 8 → exec (.mapShare p) s = .next (after 1)) ∧
    (r.op = 7 → exec (.query p) s = .next { s with atTick := s.atTick ++ [.tmQuery p] })) ∧
  (∀ (s : State) (p : Nat) (r : TmRun), tmOf s p = some r →
    let t := applyAct s (.tmQuery p)
    (∀ i, i < 4 → regVal t (partPage p) (0x418 + 4 * i) = (pteWords (pteOf s p r.vpn)).getD i 0) ∧
      RegsBut ((List.range 4).map fun i => regKey (partPage p) (0x418 + 4 * i)) s t ∧ tmOf t p = some { r with checked := true } ∧
      t = { s with regs := t.regs, mem := { s.mem with tm := t.mem.tm } }) ∧
  (∀ (s : State) (p : Part) (r : TmRun), tmOf s p = some r → ((tmFinal s p r).isSome = true ∨ s.atTick.contains (.tmQuery p) = true) →
    s.atTick.contains (.tmDone p) = false → exec (.tierMapComplete p) s = .next { s with atTick := s.atTick ++ [.tmDone p] }) ∧
  ∀ (s : State) (p : Nat) (r : TmRun) (st : Status), tmOf s p = some r → tmFinal s p r = some st →
    let t := applyAct s (.tmDone p)
    tmOf t p = none ∧ regField t (partPage p) 0x414 7 0 = statusCode st ∧
      regBit t (partPage p) 0x414 8 = false ∧ t.irqs = sendIrq ⟨p, 3, .service (partPage p)⟩ s.irqs ∧
      RegsBut [regKey (partPage p) 0x414] s t ∧ t = { s with regs := t.regs, irqs := t.irqs, mem := { s.mem with tm := t.mem.tm } }

/-- The pages of a tier-map request, applied at the tick boundary (R214, R220, R221). -/
def Obligations.TierMapPages : Prop :=
  ∀ (s : State) (p : Part) (r : TmRun), tmOf s p = some r → r.checked = true → r.next < tmTotal r → r.status = .ok →
    let v := (r.vpn + r.next) % 2 ^ 28
    let t := applyAct s (.tmPages p 1)
    let others := ∀ q u, pteKey q u ≠ pteKey p v → pteOf t q u = pteOf s q u
    let step := tmOf t p = some { r with next := r.next + 1, done := r.done + 1 }
    (r.op = 5 → pteOf t p v = { pteOf s p v with w := r.w } ∧ others ∧ step ∧ t.mem.cells = s.mem.cells) ∧
    (r.op = 3 → (pteOf t p v).v = false ∧ others ∧ step ∧ t.mem.cells = s.mem.cells) ∧
    (r.op = 2 → (pteOf t p v).v = true ∧ (pteOf t p v).home = .seam ∧ (pteOf t p v).w = r.w ∧ (pteOf t p v).sLpn = r.arg + r.next ∧
      others ∧ step ∧ t.mem.cells = s.mem.cells) ∧
    (r.op = 1 → r.tier = 0 → r.zc = false → ∀ f, freeGallery s p = some f →
      (pteOf t p v).v = true ∧ (pteOf t p v).home = .gallery ∧ (pteOf t p v).gFrame = f ∧ (pteOf t p v).w = r.w ∧ (pteOf t p v).kv = r.kv ∧
      others ∧ step ∧ ∀ o, o < pageBytes → readByte t p (v * pageBytes + o) = 0) ∧
    (r.op = 6 → s.dev.power ≠ 4 → pageReadable s p v = .ok → pgState s (keeperPageOf (r.arg + r.next)) ≠ 2 →
      (pteOf t p v).sv = true ∧ (pteOf t p v).sLpn = r.arg + r.next ∧ (pteOf t p v).home = (pteOf s p v).home ∧ others ∧ step) ∧
    (r.op = 4 → r.zc = false → (pteOf s p v).mig = false → findMove s p v = none → (pteOf s p v).home ≠ tierOf r.tier → (pteOf s p v).shared = false →
      (pteOf s p v).dv = false → (pteOf s p v).sv = false → pgState s (hoistPage p) ≠ 0 → (tierOf r.tier = .gallery → (freeGallery s p).isSome = true) →
      ∀ f u, moveTarget s p (pteOf s p v) (tierOf r.tier) (hoistPage p) = some (f, u) →
      pteOf t p v = { pteOf s p v with mig := true } ∧
      (∃ m ∈ t.mem.moves, m.part = p ∧ m.vpn = v ∧ m.dest = tierOf r.tier ∧ m.frame = f ∧ m.who = .migrate ∧ m.code = none ∧ m.dead = false) ∧ others ∧
      tmOf t p = some { r with next := r.next + 1 } ∧ t.mem.cells = s.mem.cells)

/-- HOIST_FETCH, HOIST_RELEASE, HOIST_MOVE_COMPLETE and STRIDE_DETECT (R243 to R249). -/
def Obligations.HoistEffects : Prop :=
  (∀ (s : State) (pf : Fin 256) (x : Prefetcher), pfOf s pf = some x → devRunning s = true → x.kind ≠ 3 → x.kvList = [] →
    pgState s (pfPage pf) ≠ 0 →
    let j := x.fetched + s.atTick.count (.hoistFetch pf)
    j < x.units → (j : Int) ≤ progress s x.done x.d0 + x.lead → (x.kind = 2 → (j : Int) + 1 ≤ progress s x.list x.l0) →
    ((unitVpns s x j).all fun v => !(pteOf s x.part v).mig && (findMove s x.part v).isNone && decide ((pteOf s x.part v).hold < 16383)) = true →
    exec (.hoistFetch pf) s = .next { s with atTick := s.atTick ++ [.hoistFetch pf] }) ∧
  (∀ (s : State) (pf : Nat) (x : Prefetcher), pfOf s pf = some x → mayFetch s pf x.fetched x = true →
    let t := applyAct s (.hoistFetch pf)
    t.mem.cells = s.mem.cells ∧
    (∀ u, fetchPages pf x.fetched x.dest x.part s (unitVpns s x x.fetched) = some u →
      ∃ y, pfOf t pf = some y ∧ y.fetched = x.fetched + 1 ∧ y.waitFrame = false ∧ y.released = x.released) ∧
    (fetchPages pf x.fetched x.dest x.part s (unitVpns s x x.fetched) = none →
      pfOf t pf = some { x with waitFrame := true } ∧ Counted s t (pfPage pf) 5 1 ∧
      t = { withBlock t s with mem := { s.mem with pf := t.mem.pf } })) ∧
  (∀ (s : State) (pf : Fin 256) (x : Prefetcher), pfOf s pf = some x → x.kind ≠ 3 → x.releaseEn = true → x.released < x.fetched →
    (x.kvList ≠ [] ∨ (x.released : Int) + 1 ≤ progress s x.done x.d0) →
    ∃ t, exec (.hoistRelease pf) s = .next t ∧ pfOf t pf = some { x with released := x.released + 1 } ∧
      t.atTick = s.atTick ++ (unitVpns s x x.released).map (fun v => BAct.pageRelease pf x.part v) ∧
      t = { s with atTick := t.atTick, mem := { s.mem with pf := t.mem.pf } }) ∧
  (∀ (s : State) (p : Part) (v : BitVec 28) (m : Move), findMove s p v.toNat = some m → s.atTick.contains (.moveEnd p v.toNat) = false →
    m.dead = false → m.tagged = true → (m.dest = .seam → s.dev.power ≠ 4) → moveStatus s m .ok = .ok →
    ∃ t, exec (.hoistMoveComplete p v .ok) s = .next t ∧ t.atTick = s.atTick ++ [.moveEnd p v.toNat] ∧ t.mem.cells = s.mem.cells ∧
      t.mem.ptes = s.mem.ptes ∧ t.mem.moves = s.mem.moves ∧ ∀ x ∈ t.mem.tags, x.2.holder ≠ .hoist p v.toNat) ∧
  (∀ (s : State) (p : Part) (v : BitVec 28) (st : Status) (m : Move), findMove s p v.toNat = some m →
    s.atTick.contains (.moveEnd p v.toNat) = false → m.dead = false → m.tagged = true → (m.dest = .seam → s.dev.power ≠ 4) →
    (pteOf s p v.toNat).v = true → (s.mem.migWrites.filter fun x => x.1 == p.val && vpnOf x.2.1 == v.toNat) = [] → st ≠ .ok →
    ∃ t, exec (.hoistMoveComplete p v st) s = .next t ∧ (pteOf t p v.toNat).mig = false ∧ (pteOf t p v.toNat).home = (pteOf s p v.toNat).home ∧
      findMove t p v.toNat = none ∧ Flagged t (movePage m.who p) 0 ∧ t.mem.cells = s.mem.cells) ∧
  (∀ (s : State) (p v : Nat) (m : Move), findMove s p v = some m → m.dead = false → (pteOf s p v).v = true → m.dest = .gallery →
    (∀ x ∈ s.mem.pf, x.2.waits = []) →
    (pteOf (moveEnd s p v) p v).home = .gallery ∧ (pteOf (moveEnd s p v) p v).gFrame = m.frame ∧ (pteOf (moveEnd s p v) p v).mig = false) ∧
  (∀ (s : State) (k : CoreId) (pf : Nat),
    let w := smGet (⟨16, 0, 0, 0⟩ : StrideWatch) s.mem.watch (coreCode k)
    devRunning s = true → w.part < 16 → strideOn s w.part = true → 3 ≤ w.times → w.stride ≠ 0 → w.stride.natAbs ≤ 64 →
    (s.mem.pf.any fun p => p.2.core == some k) = false → (stridePfs (coreStack k)).find? (fun i => (pfOf s i).isNone) = some pf →
    ∃ t x, exec (.strideDetect k) s = .next t ∧ pfOf t pf = some x ∧ x.core = some k ∧ x.part = w.part ∧ x.stride = w.stride ∧ x.base = w.last ∧
      x.kind = 3 ∧ t.atTick = s.atTick ++ [.strideFetch pf w.part (aheadVpns w.last w.stride 8)] ∧ Counted s t (pfPage pf) 6 1 ∧
      t = { withBlock t s with atTick := t.atTick, mem := { s.mem with pf := t.mem.pf } })

/-- GALLERY_SCRUB, the keeper's three events, the retraining of Drift and Seam, training and channel loss. -/
def Obligations.TierBlockEffects : Prop :=
  (∀ (s : State) (k : Stack) (f : Fin 16384) (l : Fin 512), regBit s ⟨.gallery, stackNo k⟩ 0x108 0 = true →
    (∃ t, exec (.galleryScrub k f l .clean) s = .next t ∧ Counted s t ⟨.gallery, stackNo k⟩ 6 1 ∧ RegsBut [] s t ∧ OnlyBlock s t) ∧
    (∃ t, exec (.galleryScrub k f l .corrected) s = .next t ∧ Counted s t ⟨.gallery, stackNo k⟩ 3 1 ∧ Flagged t ⟨.gallery, stackNo k⟩ 0 ∧
      RegsBut [regKey ⟨.gallery, stackNo k⟩ 0x010] s t ∧ OnlyBlock s t) ∧
    (∃ t, exec (.galleryScrub k f l .uncorrectable) s = .next t ∧ Counted s t ⟨.gallery, stackNo k⟩ 4 1 ∧ Flagged t ⟨.gallery, stackNo k⟩ 1 ∧
      512 * (16384 * stackNo k + f.val) + l.val ∈ t.mem.galBad ∧
      RegsBut [regKey ⟨.gallery, stackNo k⟩ 0x010, regKey ⟨.gallery, stackNo k⟩ 0x10C] s t ∧
      t = { withBlock t s with mem := { s.mem with galBad := t.mem.galBad } })) ∧
  (∀ (s : State) (k : Stack) (freed : Nat), s.mem.keeperFree.getD (stackNo k) 0 * 100 < 3 * keeperBlocks →
    exec (.garbageCollection k freed) s = .next { s with atTick := s.atTick ++ [.gcEnd (stackNo k) freed] }) ∧
  (∀ (s : State) (k : Stack) (freed : Nat), 5 * keeperBlocks < s.mem.keeperFree.getD (stackNo k) 0 * 100 →
    exec (.garbageCollection k freed) s = .next { s with mem := { s.mem with keeperGc := s.mem.keeperGc.set (stackNo k) false } }) ∧
  (∀ (s : State) (k : Stack), collects s (stackNo k) = true →
    let t := applyAct s (.gcEnd (stackNo k) 1)
    let vs := victims s (stackNo k)
    t.mem.cells = s.mem.cells ∧ t.mem.ptes = s.mem.ptes ∧ t.tally = s.tally ∧
      (vs[(freeAt s 0).toNat % (vs.length + 1)]?.isSome = true → Counted s t (keeperPage (stackNo k)) 4 1) ∧
      (vs = [] → t = spendFree s 1)) ∧
  (∀ (s : State) (k : Stack) (b : BitVec 24),
    let w := wearOf s (stackNo k) b.toNat
    w.reloc = false → w.bad = false → 0 < w.reads → readThreshold s (stackNo k) w ≤ w.reads → regField s ⟨.keeper, stackNo k⟩ 0x114 23 0 < 2 ^ 24 - 1 →
    ∃ t, exec (.readDisturbRelocate k b) s = .next t ∧ wearOf t (stackNo k) b.toNat = { w with reloc := true } ∧
      regField t ⟨.keeper, stackNo k⟩ 0x114 23 0 = regField s ⟨.keeper, stackNo k⟩ 0x114 23 0 + 1 ∧
      RegsBut [regKey ⟨.keeper, stackNo k⟩ 0x114] s t ∧ t = { s with regs := t.regs, mem := { s.mem with wear := t.mem.wear } }) ∧
  (∀ (s : State) (k : Stack) (b : BitVec 24) (ok : Bool), (wearOf s (stackNo k) b.toNat).reloc = true → erasing s (stackNo k) b.toNat = false →
    exec (.relocationComplete k b ok) s = .next { s with atTick := s.atTick ++ [.relocEnd (stackNo k) b.toNat ok] }) ∧
  (∀ (s : State) (k : Stack) (b : BitVec 24) (ok : Bool), Inv s → (wearOf s (stackNo k) b.toNat).reloc = true → s.mem.eraseDue = [] →
    (s.mem.units.any fun x => x.2.contains b.toNat) = false → openBlock s (8 * stackNo k + b.toNat % 8) ≠ some b.toNat →
    let w := wearOf s (stackNo k) b.toNat
    let t := applyAct s (.relocEnd (stackNo k) b.toNat ok)
    Counted s t (keeperPage (stackNo k)) 3 1 ∧ t.mem.cells = s.mem.cells ∧ t.mem.units = s.mem.units ∧
    (seamTags s ≠ [] → t.mem.keeperFree = s.mem.keeperFree ∧ erasing t (stackNo k) b.toNat = true) ∧
    (seamTags s = [] → ok = true → w.retire = false → w.erases + 1 < 3000 →
      t.mem.keeperFree.getD (stackNo k) 0 = s.mem.keeperFree.getD (stackNo k) 0 + 1 ∧
      wearOf t (stackNo k) b.toNat = { noWear with erases := w.erases + 1 } ∧ Counted s t (blockPage (stackNo k) b.toNat) 7 1) ∧
    (seamTags s = [] → ok = false →
      t.mem.keeperSpare.getD (stackNo k) 0 = s.mem.keeperSpare.getD (stackNo k) 0 - 1 ∧ Flagged t (blockPage (stackNo k) b.toNat) 2 ∧
      (wearOf t (stackNo k) b.toNat).bad = true)) ∧
  (∀ (s : State) (r : Req) (k : Fin 48) (ch : BitVec 2), Accepted s r ⟨.drift, k.val⟩ 0x108 (ch.setWidth 32) → ch ≠ 0 →
    ∃ t, exec (.drRetrain r k ch) s = .next t ∧ pgState t ⟨.drift, k.val⟩ = 0 ∧
      (ch.getLsbD 0 = true → regField t ⟨.drift, k.val⟩ 0x104 1 0 = 0) ∧ (ch.getLsbD 1 = true → regField t ⟨.drift, k.val⟩ 0x104 3 2 = 0) ∧
      t = { s with regs := t.regs, reply := ⟨.ok, 0⟩ }) ∧
  (∀ (s : State) (r : Req) (c : Fin 16), Accepted s r ⟨.seam, c.val⟩ 0x108 1 →
    ∃ t, exec (.scRetrain r c) s = .next t ∧ pgState t ⟨.seam, c.val⟩ = 0 ∧ t = { s with regs := t.regs, reply := ⟨.ok, 0⟩ }) ∧
  (∀ (s : State) (k : Fin 48) (ch : Fin 2) (pass : Bool), regField s ⟨.drift, k.val⟩ 0x104 (2 * ch.val + 1) (2 * ch.val) = 0 →
    ∃ t, exec (.trainingComplete ⟨.drift, k.val⟩ ch pass) s = .next t ∧
      regField t ⟨.drift, k.val⟩ 0x104 (2 * ch.val + 1) (2 * ch.val) = (if pass then 1 else 2) ∧ Counted s t ⟨.drift, k.val⟩ 7 1 ∧
      (pass = false → Flagged t ⟨.drift, k.val⟩ 3) ∧
      (pass = true → regField s ⟨.drift, k.val⟩ 0x104 (2 * (1 - ch.val) + 1) (2 * (1 - ch.val)) = 1 → pgState t ⟨.drift, k.val⟩ = 1) ∧
      OnlyBlock s t) ∧
  (∀ (s : State) (k : Fin 2) (pass : Bool) (ch : Fin 2) (kc : Cls), (kc = .gallery ∨ kc = .keeper ∨ kc = .hoist) → pgState s ⟨kc, k.val⟩ = 0 →
    ∃ t, exec (.trainingComplete ⟨kc, k.val⟩ ch pass) s = .next t ∧ pgState t ⟨kc, k.val⟩ = (if pass then 1 else 3) ∧ t = { s with regs := t.regs }) ∧
  (∀ (s : State) (k : Fin 48) (ch : Fin 2), pgState s ⟨.drift, k.val⟩ ≠ 0 → pgState s ⟨.drift, k.val⟩ ≠ 3 →
    ∃ t, exec (.tierChannelLost ⟨.drift, k.val⟩ ch) s = .next t ∧ regField t ⟨.drift, k.val⟩ 0x104 (2 * ch.val + 1) (2 * ch.val) = 2 ∧
      pgState t ⟨.drift, k.val⟩ = (if regField s ⟨.drift, k.val⟩ 0x104 (2 * (1 - ch.val) + 1) (2 * (1 - ch.val)) = 2 then 3 else 2) ∧
      t = { s with regs := t.regs }) ∧
  ∀ (s : State) (c : Fin 16) (ch : Fin 2), pgState s ⟨.seam, c.val⟩ ≠ 0 →
    ∃ t, exec (.tierChannelLost ⟨.seam, c.val⟩ ch) s = .next t ∧ pgState t ⟨.seam, c.val⟩ = 3 ∧ t = { s with regs := t.regs }


/-! ### The KV cache (chapter 07) -/

/-- KV_RECLAIM, FORK, FREE, KV_QUERY, KV_OP_COMPLETE, KV_POOL_VALID_WRITE and KV_DELTA_LATE. -/
def Obligations.KvEffects : Prop :=
  (∀ (s : State) (p : Part) (i : Fin 4) (k : BitVec 24),
    exec (.kvReclaim p i k) s = .next { s with atTick := s.atTick ++ [.kvReclaim p i k.toNat] }) ∧
  (∀ (s : State) (p i k : Nat),
    let t := applyAct s (.kvReclaim p i k)
    ((kvRec s p i k).st = 2 → (kvRec s p i k).ref = 0 → (kvRec s p i k).pin = 0 →
      (kvRec t p i k).st = 0 ∧ (kvRec t p i k).gen = ((kvRec s p i k).gen + 1) % 2 ^ 16 ∧
      (∀ q j n, recKey q j n ≠ recKey p i k → kvRec t q j n = kvRec s q j n) ∧ t = { s with kv := { s.kv with recs := t.kv.recs } }) ∧
    (¬ ((kvRec s p i k).st = 2 ∧ (kvRec s p i k).ref = 0 ∧ (kvRec s p i k).pin = 0) → t = s)) ∧
  (∀ (s : State) (p : Part) (r : KvRun), kvRunOf s p = some r → r.op = 1 → r.checked = true → r.status = .ok → r.next < kvOpTotal s p r →
    inReset s p.val = false →
    let nb := r.blocks
    let l := r.next / nb / (poolCfg s p r.pool).heads
    let h := r.next / nb % (poolCfg s p r.pool).heads
    let e := seqEntry s p r.pool r.src l h (r.next % nb)
    ∃ t, exec (.fork p 1) s = .next t ∧ kvRunOf t p = some { r with next := r.next + 1 } ∧
      (entIsEmpty e = false → seqEntry t p r.pool r.dst l h (r.next % nb) = e ∧
        kvRec t p r.pool (entKpn e) = { kvRec s p r.pool (entKpn e) with ref := (kvRec s p r.pool (entKpn e)).ref + 1 }) ∧
      (entIsEmpty e = true → t.kv.seqt = s.kv.seqt ∧ t.kv.recs = s.kv.recs) ∧ t = { s with kv := t.kv }) ∧
  (∀ (s : State) (p : Part) (r : KvRun), kvRunOf s p = some r → r.op = 2 → r.checked = true → r.status = .ok → r.next < kvOpTotal s p r →
    inReset s p.val = false →
    let nb := (poolCfg s p r.pool).bmax
    let l := r.next / nb / (poolCfg s p r.pool).heads
    let h := r.next / nb % (poolCfg s p r.pool).heads
    let e := seqEntry s p r.pool r.src l h (r.next % nb)
    ∃ t, exec (.free p 1) s = .next t ∧ kvRunOf t p = some { r with next := r.next + 1 } ∧
      (entIsEmpty e = false → seqEntry t p r.pool r.src l h (r.next % nb) = kvEmpty ∧
        (kvRec t p r.pool (entKpn e)).ref = (kvRec s p r.pool (entKpn e)).ref - 1 ∧
        ((kvRec s p r.pool (entKpn e)).ref ≤ 1 → (kvRec t p r.pool (entKpn e)).st = 2)) ∧
      (entIsEmpty e = true → t.kv.seqt = s.kv.seqt ∧ t.kv.recs = s.kv.recs) ∧ t = { s with kv := t.kv }) ∧
  (∀ (s : State) (p : Part) (r : KvRun), kvRunOf s p = some r → r.op = 3 → r.checked = false → kvOpCheck s p r = .ok →
    let e := seqEntry s p r.pool r.src r.layer r.head r.blocks
    ∃ t, exec (.kvQuery p) s = .next t ∧ regVal t (partPage p) 0x514 = BitVec.ofNat 32 (entKpn e) ∧
      (entIsEmpty e = false → regVal t (partPage p) 0x518 = BitVec.ofNat 32 ((kvRec s p r.pool (entKpn e)).pin * 65536 + (kvRec s p r.pool (entKpn e)).ref)) ∧
      RegsBut [regKey (partPage p) 0x514, regKey (partPage p) 0x518, regKey (partPage p) 0x51C] s t ∧
      kvRunOf t p = some { r with checked := true, status := .ok } ∧ t = { s with regs := t.regs, kv := { s.kv with runs := t.kv.runs } }) ∧
  (∀ (s : State) (p : Part) (r : KvRun) (st : Status), kvRunOf s p = some r → kvOpFinal s p r = some st →
    ∃ t, exec (.kvOpComplete p) s = .next t ∧ kvRunOf t p = none ∧ regVal t (partPage p) 0x510 = BitVec.ofNat 32 (statusCode st) ∧
      t.irqs = sendIrq ⟨p.val, 3, .service (partPage p)⟩ s.irqs ∧ RegsBut [regKey (partPage p) 0x510] s t ∧
      t = { s with regs := t.regs, irqs := t.irqs, kv := { s.kv with runs := t.kv.runs } }) ∧
  (∀ (s : State) (r : Req) (p : Part) (i : Fin 4) (v : Word), Accepted s r (partPage p) (0x480 + 0x20 * i.val) v → bit v 31 = true →
    (poolCfg s p i).valid = false →
    ∃ t, exec (.kvPoolValidWrite r p i v) s = .next t ∧ (poolCfg t p i).valid = true ∧
      (∀ seq l h b, seq < 512 → l < 256 → h < 256 → b < 2048 → seqEntry t p i seq l h b = kvEmpty) ∧
      RegsBut [regKey (partPage p) (0x480 + 0x20 * i.val)] s t ∧
      t = { s with regs := t.regs, reply := ⟨.ok, 0⟩, kv := { s.kv with seqt := t.kv.seqt } }) ∧
  ∀ (s : State) (d : KvDelta), (s.kv.theirs ++ s.kv.mine).find? (fun d => decide (now s ≥ d.seen + 2000)) = some d →
    ∃ t, exec .kvDeltaLate s = .next t ∧ Counted s t (kvHeadPage d.head) 11 1 ∧ t.kv.theirs = s.kv.theirs.erase d ∧ t.kv.mine = s.kv.mine.erase d ∧
      RegsBut [] s t ∧ t = { withBlock t s with kv := { s.kv with theirs := t.kv.theirs, mine := t.kv.mine } }

/-! ### Writes through a partition's range -/

/-- The frame and the effect of every store of the machine (`writeBytes`), by the physical places that `homeAddr` computes. -/
def Obligations.WriteBytesFrame : Prop :=
  ∀ (s : State) (part a : Nat) (bs : List Byte),
    let place (i : Nat) : Nat := homeAddr part (pteOf s part (vpnOf (a + i))) + (a + i) % pageBytes
    let still (i : Nat) : Prop := i < bs.length ∧ (pteOf s part (vpnOf (a + i))).mig = false
    let t := writeBytes s part a bs
    (∀ x, (∀ i, still i → place i ≠ x) → memByte t x = memByte s x) ∧
    ((∀ i j, still i → still j → place i = place j → i = j) → ∀ i, still i → memByte t (place i) = bs.getD i 0) ∧
    ((∀ i, i < bs.length → still i) → t.mem.migWrites = s.mem.migWrites) ∧
    (bs ≠ [] → a % pageBytes + bs.length ≤ pageBytes → (pteOf s part (vpnOf a)).mig = true →
      t = { s with mem := { s.mem with migWrites := s.mem.migWrites ++ [(part, a, bs)] } }) ∧
    RegsBut [] s t ∧ t = { withBlock t s with mem := t.mem, free := t.free }

/-! ### The sensor front end (chapter 08) -/

/-- R310. -/
def Obligations.StampAheadDiscarded : Prop :=
  ∀ (s : State) (part : Nat) (x : Sample), (x.arrival : Int) < x.tick →
    (∀ p, instSt (offerSample s part x) p = instSt s p) ∧ Counted s (offerSample s part x) (slotPage x.slot) (slotCtr x.slot 3) 1

/-- The A-PHY ports (R309 to R317, R343). -/
def Obligations.AphyEffects : Prop :=
  (∀ (s : State) (n : Fin 16) (g : BitVec 3), (pgState s (aphyPage n) = apDown ∨ pgState s (aphyPage n) = apStalled) → isLooped s (aphyPage n) = false →
    powered s = true →
    ∃ t, exec (.aphyLinkTrained n g) s = .next t ∧ pgState t (aphyPage n) = (if pgState s (aphyPage n) = apDown then apUp else apStream) ∧
      regVal t (aphyPage n) 0x13C = BitVec.ofNat 32 (8 + g.toNat) ∧ t = { s with regs := t.regs }) ∧
  (∀ (s : State) (n : Fin 16), pgState s (aphyPage n) = apUp →
    ∃ t, exec (.aphyLinkLost n) s = .next t ∧ pgState t (aphyPage n) = apDown ∧ regVal t (aphyPage n) 0x13C = 0 ∧ t = { s with regs := t.regs }) ∧
  (∀ (s : State) (n : Fin 16), pgState s (aphyPage n) = apStream →
    ∃ t, exec (.aphyLinkLost n) s = .next t ∧ pgState t (aphyPage n) = apStalled ∧ Flagged t (aphyPage n) 1 ∧ (portSt t n).frame = none) ∧
  (∀ (s : State) (r : Req) (n : Fin 16), Accepted s r (aphyPage n) 0x12C 1 →
    ∃ t, exec (.streamStart r n) s = .next t ∧ pgState t (aphyPage n) = apStream ∧ (portSt t n).k = 0 ∧ (portSt t n).frame = none ∧
      (portSt t n).rel0 = slotRel s n ∧ t = { s with regs := t.regs, reply := ⟨.ok, 0⟩, sens := { s.sens with ports := t.sens.ports } }) ∧
  (∀ (s : State) (r : Req) (n : Fin 16), Accepted s r (aphyPage n) 0x12C 2 →
    ∃ t, exec (.streamStop r n) s = .next t ∧ (pgState s (aphyPage n) = apStalled → pgState t (aphyPage n) = apDown) ∧
      (pgState s (aphyPage n) = apStream → pgState t (aphyPage n) = apStream ∧ (portSt t n).stop = true) ∧
      t = { s with regs := t.regs, reply := ⟨.ok, 0⟩, sens := { s.sens with ports := t.sens.ports } }) ∧
  (∀ (s : State) (n : Fin 16) (vc : BitVec 5) (fn : Half), pgState s (aphyPage n) = apStream → vc.toNat = regField s (aphyPage n) 0x100 31 27 →
    (portSt s n).frame = none →
    ∃ t, exec (.frameStart n vc fn) s = .next t ∧
      (released (slotRel s n) (portSt s n).rel0 (portSt s n).k (regField s (aphyPage n) 0x110 3 0) = true →
        (portSt t n).frame = some ⟨fn.toNat, (now s : Int) - regField s (aphyPage n) 0x108 15 0,
          tickTime s ((now s : Int) - regField s (aphyPage n) 0x108 15 0), 0, 0, 0, 0, 0, []⟩ ∧
        (portSt t n).k = (portSt s n).k ∧ Counted s t (aphyPage n) 1 1 ∧ RegsBut [] s t) ∧
      (released (slotRel s n) (portSt s n).rel0 (portSt s n).k (regField s (aphyPage n) 0x110 3 0) = false →
        portSt t n = { portSt s n with missed := true } ∧ Counted s t (aphyPage n) 2 1 ∧ Flagged t (aphyPage n) 0) ∧
      t = { withBlock t s with sens := { s.sens with ports := t.sens.ports } }) ∧
  (∀ (s : State) (n : Fin 16) (vc : BitVec 5) (dt : BitVec 6) (data : List Half) (ecc : Bool) (f : FrameRx), (portSt s n).frame = some f →
    vc.toNat = regField s (aphyPage n) 0x100 31 27 → dt.toNat = regField s (aphyPage n) 0x100 26 21 → dt.toNat ≠ 0x12 → f.lines < apRows s n →
    ∃ t g, exec (.lineReceived n vc dt data true ecc) s = .next t ∧ (portSt t n).frame = some g ∧ g.lines = f.lines + 1 ∧ g.rows = f.rows + 1 ∧
      t.mem = (sensorWrite s (pageOwner s (aphyPage n)) (apBuf s n (portSt s n).k + f.lines * apPitch s n)
        ((data.take (apCols s n)).flatMap fun h => natBytes 2 (h &&& BitVec.ofNat 16 (2 ^ pixelBits dt.toNat - 1)).toNat)).mem ∧
      (∀ i, i ≠ regField s (aphyPage n) 0x120 13 0 → tallyVal t i = tallyVal s i) ∧ RegsBut [] s t) ∧
  ∀ (s : State) (n : Fin 16) (vc : BitVec 5) (x : FrameFound) (f : FrameRx), pgState s (aphyPage n) = apStream →
    vc.toNat = regField s (aphyPage n) 0x100 31 27 → (portSt s n).frame = some f →
    ∃ t, exec (.frameEnd n vc x) s = .next t ∧ (portSt t n).frame = none ∧ (portSt t n).k = (portSt s n).k + 1 ∧
      (portSt t n).fnPrev = some f.fn ∧ pgState t (aphyPage n) = (if (portSt s n).stop then apUp else apStream) ∧
      ((portSt s n).check = true → x.blind = true → devRunning s = true → Flagged t (aphyPage n) 2 ∧ devState t = stHalt)

/-- LI_CTRL_ENABLE, LIDAR_PACKET, IR_CTRL_WRITE, INSTANT_CLOSE and INSTANT_TABLE_WRITE. -/
def Obligations.LidarAndInstantEffects : Prop :=
  (∀ (s : State) (r : Req) (n : Fin 8) (en : Bool), Accepted s r (ethPage n) 0x600 (if en then 1 else 0) → regBit s (ethPage n) 0x600 0 = !en →
    let waits : Bool := !en && pgState s (ethPage n) == portUp
    ∃ t, exec (.liCtrlEnable r n en) s = .next t ∧ regBit t (ethPage n) 0x600 0 = (en || waits) ∧
      lidarSt t n = (if en then { noLidar with rel0 := slotRel s (16 + n.val) } else if waits then { lidarSt s n with stop := true } else noLidar) ∧
      RegsBut [regKey (ethPage n) 0x600] s t ∧ t = { withBlock t s with reply := ⟨.ok, 0⟩, sens := { s.sens with lidars := t.sens.lidars } }) ∧
  (∀ (s : State) (n : Fin 8) (port : Half) (bs : List Byte) (ev : Bool) (d : Nat), pgState s (ethPage n) = portUp → isLooped s (ethPage n) = false →
    regBit s (ethPage n) 0x600 0 = true → port.toNat = regField s (ethPage n) 0x604 15 0 → bs.length ≤ 2016 → 0 < liPkts s n → 0 < liBufs s n →
    let x := lidarSt s n
    let seq := beNat (payloadAt s bs (regField s (ethPage n) 0x60C 15 0) 2)
    let b := x.base.getD seq
    let free := released (slotRel s (16 + n.val)) x.rel0 x.k (liBufs s n)
    ((seq : Int) - b) % 65536 = d → d < 32768 → d < liPkts s n → x.drop = false →
    (x.tick = none → free = false → (nlAdd x.filled d).length < liPkts s n →
      ∃ t, exec (.lidarPacket n port bs true ev) s = .next t ∧ (lidarSt t n).drop = true ∧ Counted s t (ethPage n) 1 1 ∧ Counted s t (ethPage n) 7 1 ∧
        Flagged t (ethPage n) 0 ∧ RegsBut [regKey (ethPage n) 0x010] s t ∧ t.mem = s.mem) ∧
    ((x.tick = none → free = true) →
      ∃ t, exec (.lidarPacket n port bs true ev) s = .next t ∧ Counted s t (ethPage n) 1 1 ∧ (x.tick = none → Counted s t (ethPage n) 6 1) ∧
        ((nlAdd x.filled d).length < liPkts s n →
          (lidarSt t n).filled = nlAdd x.filled d ∧ (lidarSt t n).base = some b ∧ (lidarSt t n).tick.isSome = true ∧ (lidarSt t n).drop = false ∧
          RegsBut [] s t ∧
          t.mem = (let u := if x.tick.isNone then spendBytes (spendBytes s 2) 10 else spendBytes s 2
            let a := liBase s n + (x.k % liBufs s n * liPkts s n + d) * 2048
            sensorWrite (sensorWrite u (pageOwner s (ethPage n)) a bs) (pageOwner s (ethPage n)) (a + 2044) (natBytes 4 bs.length)).mem) ∧
        (liPkts s n ≤ (nlAdd x.filled d).length → x.stop = false →
          (lidarSt t n).k = x.k + 1 ∧ (lidarSt t n).filled = [] ∧ (lidarSt t n).tick = none ∧
          tallyVal t (regField s (ethPage n) 0x61C 13 0) = tallyVal s (regField s (ethPage n) 0x61C 13 0) + 1 ∧
          ∀ i, i ≠ regField s (ethPage n) 0x61C 13 0 → tallyVal t i = tallyVal s i))) ∧
  (∀ (s : State) (n : Fin 8) (port : Half) (bs : List Byte) (ev : Bool), pgState s (ethPage n) = portUp → isLooped s (ethPage n) = false →
    (regBit s (ethPage n) 0x600 0 = false ∨ port.toNat ≠ regField s (ethPage n) 0x604 15 0 ∨ 2016 < bs.length) →
    ∃ t, exec (.lidarPacket n port bs true ev) s = .next t ∧ Counted s t (ethPage n) 1 1 ∧ CtrsBut [ctrKey (ethPage n) 1] s t ∧ RegsBut [] s t ∧
      OnlyBlock s t) ∧
  (∀ (s : State) (r : Req) (p : Part), Accepted s r (partPage p) 0x600 1 → instEnabled s p = false →
    ∃ t, exec (.irCtrlWrite r p true) s = .next t ∧ instEnabled t p = true ∧ instSt t p = noInst ∧ RegsBut [regKey (partPage p) 0x600] s t ∧
      t = { s with regs := t.regs, reply := ⟨.ok, 0⟩, sens := { s.sens with insts := t.sens.insts } }) ∧
  (∀ (s : State) (r : Req) (p : Part), Accepted s r (partPage p) 0x600 0 → instEnabled s p = true →
    ∃ t, exec (.irCtrlWrite r p false) s = .next t ∧ instEnabled t p = true ∧ (instSt t p).stop = true ∧
      (instSt t p).samples = (instSt s p).samples ∧ RegsBut [regKey (partPage p) 0x600] s t) ∧
  (∀ (s : State) (p : Part) (n : Nat), instEnabled s p = true → now s = instClose s p n →
    ∃ t, exec (.instantClose p) s = .next t ∧ (∃ x, (instSt t p).table = some x ∧ x.number = n) ∧
      (∀ x ∈ (instSt t p).samples, n < (offeredTo s p x).1) ∧ RegsBut [] s t ∧
      t = { withBlock t s with sens := { s.sens with insts := t.sens.insts } }) ∧
  ∀ (s : State) (p : Part) (x : InstTable), (instSt s p).table = some x →
    ∃ t, exec (.instantTableWrite p) s = .next t ∧ (instSt t p).table = none ∧
      tallyVal t (regField s (partPage p) 0x614 13 0) = tallyVal s (regField s (partPage p) 0x614 13 0) + 1 ∧
      (∀ i, i ≠ regField s (partPage p) 0x614 13 0 → tallyVal t i = tallyVal s i) ∧
      t.mem = (sensorWrite s p (regField s (partPage p) 0x610 27 0 * pageBytes + x.number % 4 * 32768) (tableBytes s p x)).mem

/-! ### The planning sequencer (chapter 09) -/

/-- R362. -/
def Obligations.NoCycleBeforePublication : Prop :=
  (∀ s : State, (s.seq.active = none ∨ lkState s = lkWaitGrid) → exec .cycleStart s = .next s) ∧
  (∀ s : State, s.seq.cycle = none → exec .commit s = .next s) ∧
  ∀ (s : State) (r : Req), Accepted s r lk 0x200 1 → lkState s = lkOff →
    ∃ t, exec (.lkCtrlEnable r true) s = .next t ∧ t.seq.active = none ∧ t.seq.cycle = none ∧ lkState t = lkWaitGrid

/-- The sequencer of L0 (R352 to R381, R386). -/
def Obligations.PlannerEffects : Prop :=
  (∀ s : State, lkState s ≠ lkOff → lkOwned s = true → reached (tallyVal s (pubTally s)) s.seq.pubNext = true →
    let e := nextEpoch (regVal s lk 0x234)
    ∃ t, exec .gridPublication s = .next t ∧ t.seq.pubNext = s.seq.pubNext + 1 ∧ Counted s t lk 19 1 ∧ t.mem = s.mem ∧
      (bufEpoch s (e.toNat % 2) = some e → regVal t lk 0x234 = e ∧ t.seq.active = some (e.toNat % 2) ∧
        (lkState s = lkWaitGrid → lkState t = lkCycling) ∧ t.seq.cycle = s.seq.cycle) ∧
      (bufEpoch s (e.toNat % 2) ≠ some e → t.seq.active = s.seq.active ∧ Flagged t lk 3 ∧ Counted s t lk 20 1 ∧
        tallyVal t (freeTally s) = tallyVal s (freeTally s) + 1)) ∧
  (∀ (s : State) (b : Nat), lkState s = lkCycling → lkOwned s = true → s.seq.cycle = none → s.seq.active = some b → lkPhase s ≤ now s →
    (now s - lkPhase s) % 20000 = 0 →
    ∃ t c, exec .cycleStart s = .next t ∧ t.seq.cycle = some c ∧ c.n = (now s - lkPhase s) / 20000 ∧ c.dTick = now s + lkDeadline s ∧
      c.epoch = regVal s lk 0x234 ∧ c.buf = b ∧ c.opened = false ∧ c.stops = [] ∧ c.winner = none ∧
      tallyVal t (cycTally s) = tallyVal s (cycTally s) + 1 ∧ (∀ i, i ≠ cycTally s → tallyVal t i = tallyVal s i) ∧
      t.mem = (sensorWrite s 0 (recAddr s 0) (cycleHeader s c)).mem ∧ RegsBut [regKey lk 0x230, regKey lk 0x238] s t) ∧
  (∀ (s : State) (c : Cycle), s.seq.cycle = some c → c.opened = false → now s + lkBudget s = c.dTick →
    ∃ t, exec .checkWindowOpen s = .next t ∧ t.seq.cycle = some { c with opened := true } ∧
      tallyVal t (chkTally s) = tallyVal s (chkTally s) + 1 ∧ (∀ i, i ≠ chkTally s → tallyVal t i = tallyVal s i) ∧ RegsBut [] s t ∧
      t = { withBlock t s with tally := t.tally, seq := { s.seq with cycle := t.seq.cycle } }) ∧
  (∀ (s : State) (c : Cycle), s.seq.cycle = some c → now s = c.dTick →
    ∃ t, exec .commit s = .next t ∧ t.seq.cycle = none ∧ t.seq.force.cycle = c.n ∧ t.seq.force.epoch = c.epoch ∧
      t.seq.force.dTick = BitVec.ofNat 32 c.dTick ∧ Counted s t lk 13 1 ∧
      (bufEpoch s c.buf ≠ some c.epoch → Flagged t lk 4 ∧ t.seq.force.status = statusCode .integrity ∧ (t.seq.force.outcome = 1 ∨ t.seq.force.outcome = 2)) ∧
      (∀ w, bufEpoch s c.buf = some c.epoch → c.winner = some (some w) →
        t.seq.force.outcome = 0 ∧ t.seq.force.status = statusCode .ok ∧ t.seq.force.knots = w.knots ∧ t.seq.force.prims = w.prims ∧ t.seq.force.cand = w.cand) ∧
      (t.seq.force.outcome = 2 → Flagged t lk 5)) ∧
  (∀ (s : State) (r : Req), Accepted s r lk 0x200 1 → lkState s = lkOff →
    ∃ t, exec (.lkCtrlEnable r true) s = .next t ∧ lkState t = lkWaitGrid ∧ t.seq.active = none ∧ t.seq.cycle = none ∧
      t.seq.force = standstill s ∧ t.seq.held = standstill s ∧ tallyVal t (freeTally s) = tallyVal s (freeTally s) + 1 ∧ regVal t lk 0x234 = 0) ∧
  ∀ (s : State) (r : Req), Accepted s r lk 0x200 0 → lkState s ≠ lkOff →
    ∃ t, exec (.lkCtrlEnable r false) s = .next t ∧ (s.seq.cycle = none → lkState t = lkOff) ∧
      (s.seq.cycle.isSome = true → t.seq.stopping = true ∧ lkState t = lkState s) ∧ t.mem = s.mem ∧ t.tally = s.tally

/-! ### Foxglove (chapter 10) -/

/-- R402. -/
def Obligations.ClearStateAndStart : Prop :=
  (∀ (s : State) (r : Req) (ch : Fin 64), Accepted s r (fxPage ch) 0x100 5 → (fxCfg s ch).rcBase + (fxCfg s ch).rcLen ≤ 65536 →
    ∃ t, exec (.clearState r ch) s = .next t ∧ (fxCh t ch).i = 0 ∧ (fxCh t ch).e = 0 ∧
      (∀ k, k < (fxCfg s ch).rcLen → poolWord t ch ((fxCfg s ch).rcBase + k) = 0) ∧
      (∀ c k, poolKey c k < poolKey ch (fxCfg s ch).rcBase ∨ poolKey ch (fxCfg s ch).rcBase + (fxCfg s ch).rcLen ≤ poolKey c k →
        poolWord t c k = poolWord s c k) ∧
      (∀ c, c ≠ ch.val → fxCh t c = fxCh s c) ∧ fxState t ch = fxState s ch) ∧
  ∀ (s : State) (r : Req) (ch : Fin 64), Accepted s r (fxPage ch) 0x100 1 →
    ∃ t, exec (.start r ch) s = .next t ∧ (fxCh t ch).i = (fxCh s ch).i ∧ (fxCh t ch).e = (fxCh s ch).e ∧ t.fx.pool = s.fx.pool

/-- START, FX_STOP, FORCE_SAFE, RESUME, CHANNEL_TICK and CC_RC_DATA_ACCESS. -/
def Obligations.FoxgloveChannelEffects : Prop :=
  (∀ (s : State) (r : Req) (ch : Fin 64), Accepted s r (fxPage ch) 0x100 1 →
    ∃ t, exec (.start r ch) s = .next t ∧ fxState t ch = fxArmed ∧ (fxCh t ch).n = 0 ∧ (fxCh t ch).start = some (now s) ∧ (fxCh t ch).step = none ∧
      (fxCh t ch).safe = copyOf s ch ∧ (∀ c, c ≠ ch.val → fxCh t c = fxCh s c) ∧
      t = { s with regs := t.regs, reply := ⟨.ok, 0⟩, fx := { s.fx with chans := t.fx.chans } }) ∧
  (∀ (s : State) (r : Req) (ch : Fin 64), Accepted s r (fxPage ch) 0x100 2 →
    ∃ t, exec (.fxStop r ch) s = .next t ∧ fxState t ch = fxOff ∧ (fxCh t ch).step = none ∧
      t = { s with regs := t.regs, reply := ⟨.ok, 0⟩, fx := { s.fx with chans := t.fx.chans } }) ∧
  (∀ (s : State) (r : Req) (ch : Fin 64), Accepted s r (fxPage ch) 0x100 3 → (fxState s ch = fxArmed ∨ fxState s ch = fxRun) →
    ∃ t, exec (.forceSafe r ch) s = .next t ∧ fxState t ch = fxSafe ∧ regField t (fxPage ch) 0x104 3 0 = 1 ∧ Counted s t (fxPage ch) 12 1 ∧
      t = { withBlock t s with reply := ⟨.ok, 0⟩, fx := { s.fx with chans := t.fx.chans } }) ∧
  (∀ (s : State) (r : Req) (ch : Fin 64), Accepted s r (fxPage ch) 0x100 4 →
    ∃ t, exec (.resume r ch) s = .next t ∧ fxState t ch = fxArmed ∧ regField t (fxPage ch) 0x104 15 8 = 0 ∧ t = { s with regs := t.regs, reply := ⟨.ok, 0⟩ }) ∧
  (∀ (s : State) (ch : Fin 64) (took : Nat), s.sec.boot.held = false → onGrid s ch (now s) = true → fxLive s ch = false →
    ∃ t, exec (.channelTick ch took .clean) s = .next t ∧ (fxCh t ch).n = (fxCh s ch).n + 1 ∧ t.fx.pool = s.fx.pool ∧ t.mem = s.mem) ∧
  (∀ (s : State) (ch : Fin 64) (took : Nat), s.sec.boot.held = false → onGrid s ch (now s) = true → fxLive s ch = true → fxState s ch = fxArmed →
    isStandby s = false → field (fxReg s ch 0x110) 31 28 = 0 → field (fxReg s ch 0x124) 9 8 = 0 → (fxCfg s ch).rcLen = 0 →
    ∃ t x, exec (.channelTick ch took .clean) s = .next t ∧ fxState t ch = fxRun ∧ (fxCh t ch).n = (fxCh s ch).n + 1 ∧ (fxCh t ch).step = some x ∧
      x.n = (fxCh s ch).n ∧ (fxCh t ch).lastU = x.u ∧
      x.u = (fxStep (fxCfg s ch) (fun j => fxInt s ch (0x400 + 4 * j)) (fxInt s ch 0x128) 0 (fxCh s ch).i (fxCh s ch).e (poolWord s ch (fxCfg s ch).rcBase)).u ∧
      t.mem = s.mem) ∧
  (∀ (s : State) (r : Req) (k : Fin 2) (v : Word), Accepted s r ⟨.c, k.val⟩ 0x10C v →
    ∃ t, exec (.ccRcDataAccess r k (some v)) s = .next t ∧ smGet 0 t.fx.pool (k.val * 65536 + regField s ⟨.c, k.val⟩ 0x108 15 0) = v ∧
      regField t ⟨.c, k.val⟩ 0x108 15 0 = (regField s ⟨.c, k.val⟩ 0x108 15 0 + 1) % 65536 ∧
      t = { s with regs := t.regs, reply := ⟨.ok, 0⟩, fx := { s.fx with pool := t.fx.pool } }) ∧
  ∀ (s : State) (r : Req) (k : Fin 2), Readable s r ⟨.c, k.val⟩ 0x10C → isOwner s r ⟨.c, k.val⟩ 0x10C = true → unpowered s ⟨.c, k.val⟩ = false →
    ∃ t, exec (.ccRcDataAccess r k none) s = .next t ∧
      t.reply = ⟨.ok, (smGet 0 s.fx.pool (k.val * 65536 + regField s ⟨.c, k.val⟩ 0x108 15 0)).setWidth 64⟩ ∧
      regField t ⟨.c, k.val⟩ 0x108 15 0 = (regField s ⟨.c, k.val⟩ 0x108 15 0 + 1) % 65536 ∧ t.fx = s.fx

/-- The bounds of the control step (R399, R401). -/
def Obligations.ControlStepBounded : Prop :=
  ∀ (c : FxCfg) (g : Nat → Int) (r y i e m : Int),
    let o := fxStep c g r y i e m
    (c.outMin ≤ c.outMax → c.outMin ≤ o.u ∧ o.u ≤ c.outMax) ∧
    (c.iMin ≤ c.iMax → (c.iMin ≤ o.i ∧ o.i ≤ c.iMax) ∨ o.i = i) ∧
    (0 ≤ c.rcLim → (0 < c.rcLen ∧ c.learn = true → -c.rcLim ≤ o.m ∧ o.m ≤ c.rcLim) ∧ (¬ (0 < c.rcLen ∧ c.learn = true) → o.m = m))

/-- SPI, CAN and 10BASE-T1S inputs (R405) and C_CORE_LOCKSTEP_MISMATCH (R419, R553). -/
def Obligations.FoxgloveInputEffects : Prop :=
  (∀ (s : State) (ch : Fin 64), (fxState s ch = fxArmed ∨ fxState s ch = fxRun) → fxLive s ch = true → field (fxReg s ch 0x110) 31 28 = 1 →
    onGrid s ch (now s + regField s (fxPage ch) 0x174 15 8) = true →
    ∃ t f, exec (.spiTransactionStart ch) s = .next t ∧ (fxCh t ch).spi = true ∧ t.fx.frames = s.fx.frames ++ [f] ∧ f.ch = ch.val ∧ f.dst = 0 ∧
      f.unit = field (fxReg s ch 0x110) 27 24 ∧ f.safe = false ∧ RegsBut [] s t ∧ t = { withBlock t s with fx := t.fx }) ∧
  (∀ (s : State) (ch : Fin 64) (data : List Byte), (fxCh s ch).spi = true →
    ∃ t, exec (.spiResponseComplete ch data) s = .next t ∧ (fxCh t ch).spi = false ∧
      (fxCh t ch).fresh = some (data.take (field (fxReg s ch 0x110) 19 16 + 1)) ∧ (∀ c, c ≠ ch.val → fxCh t c = fxCh s c) ∧
      t = { s with fx := { s.fx with chans := t.fx.chans } }) ∧
  (∀ (s : State) (u : Fin 8) (id : BitVec 29) (bs : List Byte), pgState s ⟨.can, u.val⟩ = portUp → isLooped s ⟨.can, u.val⟩ = false →
    ∃ t, exec (.canFrameReceived u id bs true) s = .next t ∧ Counted s t ⟨.can, u.val⟩ 1 1 ∧ RegsBut [] s t ∧
      (∀ ch, ch < 64 → field (fxReg s ch 0x110) 31 28 = 2 → field (fxReg s ch 0x110) 27 24 = u.val →
        id.setWidth 32 &&& fxReg s ch 0x118 = fxReg s ch 0x114 &&& 0x1FFFFFFF#32 → (inField (fxReg s ch 0x110) bs).isSome = true →
        fxCh t ch = { fxCh s ch with fresh := some bs }) ∧
      (∀ ch, ch < 64 → (field (fxReg s ch 0x110) 31 28 ≠ 2 ∨ field (fxReg s ch 0x110) 27 24 ≠ u.val ∨
        id.setWidth 32 &&& fxReg s ch 0x118 ≠ fxReg s ch 0x114 &&& 0x1FFFFFFF#32) → fxCh t ch = fxCh s ch) ∧
      t = { withBlock t s with fx := { s.fx with chans := t.fx.chans } }) ∧
  (∀ (s : State) (u : Fin 4) (et : Half) (bs : List Byte), pgState s ⟨.eth, 12 + u.val⟩ = portUp → isLooped s ⟨.eth, 12 + u.val⟩ = false →
    ∃ t, exec (.t1sFrameReceived u et bs true) s = .next t ∧ Counted s t ⟨.eth, 12 + u.val⟩ 1 1 ∧ RegsBut [] s t ∧
      (∀ ch, ch < 64 → field (fxReg s ch 0x110) 31 28 = 3 → field (fxReg s ch 0x110) 27 24 = u.val → 2 ≤ bs.length →
        fxReg s ch 0x114 = BitVec.ofNat 32 (et.toNat * 65536 + bytesNat (bs.take 2)) → (inField (fxReg s ch 0x110) bs).isSome = true →
        fxCh t ch = { fxCh s ch with fresh := some bs }) ∧
      (∀ ch, ch < 64 → (field (fxReg s ch 0x110) 31 28 ≠ 3 ∨ field (fxReg s ch 0x110) 27 24 ≠ u.val) → fxCh t ch = fxCh s ch) ∧
      t = { withBlock t s with fx := { s.fx with chans := t.fx.chans } }) ∧
  ∀ (s : State) (k : Fin 2), pgState s ⟨.c, k.val⟩ = ccRun → coresOn s = true → devRunning s = true →
    ∃ t, exec (.cCoreLockstepMismatch k) s = .next t ∧ Flagged t ⟨.c, k.val⟩ 0 ∧ Counted s t ⟨.c, k.val⟩ 3 1 ∧ devState t = stHalt ∧
      ∀ ch, ch < 64 → fxState t ch ≠ fxRun


/-! ### Lamphouse (chapter 12) -/

/-- LOAD_MANIFEST, UPDATE_STAGE, UPDATE_ACTIVATE, UPDATE_COMMIT, LAYOUT_WRITE and LIFECYCLE. -/
def Obligations.ImageEffects : Prop :=
  (∀ (s : State) (p : Part) (r : MbRun) (img : List Byte), MbWaits s p 0x01 r → (keysOf s p).state ≠ 2 → r.req.length = 12 →
    hostImageBad img (atN r.req 8 4) 0x20 (256 * 1024) (partLayout s p).ownerHash (partLayout s p).minSvn = none → manifestBad s p img = false →
    ∃ t, exec (.loadManifest p (some img)) s = .next t ∧ (secOf t p).manifest = some img ∧ MbEnds t p r .ok [] ∧ SecBut p s t ∧
      (∃ ms, t.vl.out = s.vl.out ++ ms ∧ (ms = [] ↔ linkState s < vlAlign)) ∧
      t = { s with sec := { s.sec with parts := t.sec.parts }, vl := { s.vl with out := t.vl.out } }) ∧
  (∀ (s : State) (r : MbRun) (b : List Byte), MbWaits s 0 0x10 r → s.sec.update < 2 → r.req.length = 12 → bundleBad s b (atN r.req 8 4) = none →
    s.sec.flash.slots.length = 2 → s.sec.boot.slot < 2 →
    ∃ t cs, exec (.updateStage (some b)) s = .next t ∧ t.sec.update = 1 ∧ t.sec.flash.slots.getD (otherSlot s) none = some cs ∧
      t.sec.flash.slots.getD s.sec.boot.slot none = s.sec.flash.slots.getD s.sec.boot.slot none ∧
      (∀ i, i < 4 → cs.getD i [] = (if ((bundleDir b).getD i (0, 0)).2 = 0 then s.sec.boot.comps.getD i []
        else sub b ((bundleDir b).getD i (0, 0)).1 ((bundleDir b).getD i (0, 0)).2)) ∧
      MbEnds t 0 r .ok [] ∧ SecBut 0 s t ∧
      t = { s with sec := { s.sec with parts := t.sec.parts, flash := { s.sec.flash with slots := t.sec.flash.slots }, update := 1 } }) ∧
  (∀ (s : State) (r : MbRun), MbWaits s 0 0x11 r → r.req = [] → s.sec.update = 1 →
    ∃ t, exec .updateActivate s = .next t ∧ MbEnds t 0 r .ok [] ∧ SecBut 0 s t ∧
      t = { s with sec := { s.sec with parts := t.sec.parts, flash := { s.sec.flash with trial := some (otherSlot s), tried := false }, update := 2 } }) ∧
  (∀ (s : State) (r : MbRun), MbWaits s 0 0x12 r → r.req = [] → s.sec.update = 3 →
    ∃ t, exec .updateCommit s = .next t ∧ t.sec.flash.active = s.sec.boot.slot ∧ t.sec.flash.trial = none ∧
      (∀ i, i < 4 → fuseCounter t i = max (fuseCounter s i) (imgSvn (s.sec.boot.comps.getD i []))) ∧ fuseCounter t 4 = fuseCounter s 4 ∧
      MbEnds t 0 r .ok [] ∧ SecBut 0 s t ∧ t = { s with sec := { s.sec with parts := t.sec.parts, flash := t.sec.flash, update := 0 } }) ∧
  (∀ (s : State) (r : MbRun) (img : List Byte), MbWaits s 0 0x13 r → r.req.length = 12 → atN r.req 8 4 = 384 + imgBodyLen img →
    layoutImageBad s img = none →
    ∃ t, exec (.layoutWrite (some img)) s = .next t ∧ MbEnds t 0 r .ok [] ∧ SecBut 0 s t ∧
      t = { s with sec := { s.sec with parts := t.sec.parts, flash := { s.sec.flash with layout := some img } } }) ∧
  ∀ (s : State) (r : MbRun), MbWaits s 0 0x20 r →
    let q := r.req
    let b := at8 q 5
    q.length = 320 → atN q 0 4 = 0x61 → at8 q 4 = 0xFF → b ≤ 3 → zeros q 6 10 = true → zeros q 209 15 = true →
    ¬ (b = lcService ∧ s.sec.flash.epoch = 3) → lifeStep (lifecycle s) b = true → sub q 16 48 = identityDigest → sub q 64 48 = (secOf s 0).nonce →
    lifeSigner (lifecycle s) b (sha384 (sub q 112 97)) = true → ecdsaVerify (sub q 112 97) (sub q 0 224) (sub q 224 96) = true →
    ∃ t, exec .lifecycle s = .next t ∧ t.sec.flash.lifeNext = some b ∧ (secOf t 0).nonce.length = 48 ∧ MbEnds t 0 r .ok [] ∧ SecBut 0 s t ∧
      t = { s with sec := { s.sec with parts := t.sec.parts, flash := { s.sec.flash with lifeNext := some b } }, free := t.free }

/-- KEY_RELEASE, ROTATE, ERASE, ERASE_COMPLETE and GENERATION_RETIRE. -/
def Obligations.KeyEffects : Prop :=
  (∀ (s : State) (p : Part) (r : MbRun) (q : Nat × Nat), MbWaits s p 0x02 r → (keysOf s p).state ≠ 2 → (secOf s p).manifest.isSome = true →
    ((confidential s p = false ∧ r.req.length = 97 ∧ ecOfBytes (sub r.req 0 97) = some q) ∨
      (confidential s p = true ∧ r.req.length = 512 ∧ atN r.req 0 4 = 0x50 ∧ zeros r.req 5 3 = true ∧ zeros r.req 105 7 = true ∧
        zeros r.req 305 15 = true ∧ zeros r.req 416 96 = true ∧ ticketGood s p r.req = true ∧ ecOfBytes (sub r.req 8 97) = some q)) →
    ∃ t, exec (.keyRelease p) s = .next t ∧ (secOf t p).session = (secOf s p).lastSess + 1 ∧ (secOf t p).lastSess = (secOf s p).lastSess + 1 ∧
      (secOf t p).mbSeq = 0 ∧ (secOf t p).dmaSeq = [0, 0] ∧ (secOf t p).nonce.length = 48 ∧
      MbEnds t p r .ok (releaseResponse (newSession s p) p q r.req) ∧ Counted s t (mbPage p) 4 1 ∧ CtrsBut [ctrKey (mbPage p) 4] s t ∧ SecBut p s t ∧
      t = { withBlock t s with regs := s.regs, sec := { s.sec with parts := t.sec.parts }, free := t.free }) ∧
  (∀ (s : State) (p : Part) (r : MbRun) (q : Nat × Nat), MbWaits s p 0x02 r → (keysOf s p).state ≠ 2 → (secOf s p).manifest.isSome = true →
    confidential s p = true → r.req.length = 512 → atN r.req 0 4 = 0x50 → zeros r.req 5 3 = true → zeros r.req 105 7 = true →
    zeros r.req 305 15 = true → zeros r.req 416 96 = true → ecOfBytes (sub r.req 8 97) = some q → ticketGood s p r.req = false →
    ∃ t, exec (.keyRelease p) s = .next t ∧ (secOf t p).session = (secOf s p).session ∧ (secOf t p).nonce.length = 48 ∧ Flagged t (mbPage p) 1 ∧
      MbEnds t p r .integrity []) ∧
  (∀ (s : State) (p : Part) (r : MbRun), MbWaits s p 0x03 r → r.req = [] → (keysOf s p).state = 0 → (keysOf s p).gen ≠ 3 → (keysOf s p).dbgGen = false →
    ∃ t, exec (.rotate p) s = .next t ∧ keysOf t p = { keysOf s p with state := 1 } ∧ (∀ m, m ≠ p.val → keysOf t m = keysOf s m) ∧
      t.atTick = s.atTick ++ [.rotate p] ∧ MbEnds t p r .ok [] ∧ SecBut p s t ∧
      t = { s with keys := t.keys, atTick := t.atTick, sec := { s.sec with parts := t.sec.parts } }) ∧
  (∀ (s : State) (p : Part) (r : MbRun), MbWaits s p 0x04 r → r.req = [] → (keysOf s p).dbgGen = false → (keysOf s p).state ≠ 2 → p.val ≠ 0 →
    ∃ t, exec (.erase p) s = .next t ∧ keysOf t p = { keysOf s p with state := 2 } ∧ (∀ m, m ≠ p.val → keysOf t m = keysOf s m) ∧
      (∀ a, seamAddr p 0 ≤ a → a < seamAddr (p.val + 1) 0 → memByte t a = 0) ∧
      (secOf t p).session = 0 ∧ (secOf t p).manifest = none ∧ (inReset s p = true ∨ BAct.presetBegin p.val ∈ t.atTick) ∧
      MbEnds t p r .ok [] ∧ SecBut p s t ∧
      (∀ l g a, s.dev.layout = some l → g ∈ galleryShare l p → galleryAddr g.1 ≤ a → a < galleryAddr (g.1 + g.2) → memByte t a = 0) ∧
      (∀ a, (a < seamAddr p 0 ∨ seamAddr (p.val + 1) 0 ≤ a) →
        (∀ l g, s.dev.layout = some l → g ∈ galleryShare l p → a < galleryAddr g.1 ∨ galleryAddr (g.1 + g.2) ≤ a) → memByte t a = memByte s a) ∧
      t.mem.ptes = s.mem.ptes ∧ t.mem.tags = s.mem.tags ∧ t.mem.moves = s.mem.moves ∧
      t = { withBlock t s with keys := t.keys, atTick := t.atTick, mem := t.mem, free := t.free, sec := { s.sec with parts := t.sec.parts } }) ∧
  (∀ (s : State) (r : MbRun), MbWaits s 0 0x04 r → r.req = [] → (keysOf s 0).dbgGen = false → (keysOf s 0).state ≠ 2 →
    ∃ t, exec (.erase 0) s = .next t ∧ keysOf t 0 = { keysOf s 0 with state := 2 } ∧ t.sec.flash.eraseNext = true ∧ MbEnds t 0 r .ok [] ∧
      t = { s with keys := t.keys, sec := { s.sec with parts := t.sec.parts, flash := { s.sec.flash with eraseNext := true } } }) ∧
  (∀ (s : State) (p : Part), (keysOf s p).state = 2 → inReset s p = false → s.mem.eraseDue = [] → (p.val = 0 → s.sec.flash.eraseNext = false) →
    ∃ t, exec (.eraseComplete p) s = .next t ∧ keysOf t p = { keysOf s p with state := 0, low := (keysOf s p).gen } ∧
      (∀ m, m ≠ p.val → keysOf t m = keysOf s m) ∧ t = { s with keys := t.keys }) ∧
  ∀ (s : State) (p : Part) (pages : Nat) (lost : List Nat), (keysOf s p).state = 1 → (keysOf s p).low < (keysOf s p).gen →
    (∀ x ∈ s.mem.tags, x.2.part = p.val → now s ≤ x.2.issue) →
    ∃ t, exec (.generationRetire p pages lost) s = .next t ∧
      keysOf t p = { keysOf s p with lost := min ((keysOf s p).lost + (sweepLost s p lost).length) 0xFFFFFFFF } ∧ t.mem.gens = sweepTags s p lost ∧
      t.mem.cells = s.mem.cells ∧ t.atTick = s.atTick ++ [.retire p] ∧ (0 < pages → Counted s t (mbPage p) 6 pages) ∧
      (sweepLost s p lost ≠ [] → Flagged t (mbPage p) 2) ∧ CtrsBut [ctrKey (mbPage p) 6] s t ∧ RegsBut [regKey (mbPage p) 0x010] s t ∧
      t = { withBlock t s with keys := t.keys, atTick := t.atTick, mem := { s.mem with gens := t.mem.gens } }

/-- HOST_DMA, SEALED_ACCESS, HOST_READ_TIMEOUT and MAILBOX_COMPLETE. -/
def Obligations.MailboxEffects : Prop :=
  (∀ (s : State) (p : Part) (r : MbRun) (d : List Byte), MbWaits s p 0x06 r →
    let q := r.req
    let dev := atN q 16 8
    let len := atN q 24 4
    let tal := atN q 28 2
    let inc := atN q 30 2
    q.length = 32 → (inc ≠ 0 → ownsTally s p tal = true) → zeros q 1 3 = true → tal < 16384 → at8 q 0 = 0 → atN q 8 8 % 4096 = 0 →
    0 < len → len ≤ 268435456 → dev + len ≤ 2 ^ 44 → meetsSeam s p dev len = false → atN q 4 4 = (secOf s p).dmaSeq.getD 0 0 →
    (secOf s p).dmaSeq.length = 2 →
    let t0 := setSec s p { secOf s p with dmaSeq := (secOf s p).dmaSeq.set 0 ((atN q 4 4 + 1) % 2 ^ 32) }
    let y := (List.range (dmaRecords len)).foldl (dmaIn p (atN q 4 4) len dev (confidential s p) (sessionKey s p "H2D") d) ⟨t0, 0, .ok⟩
    ∃ t, exec (.hostDma p (some d)) s = .next t ∧ t.mem = y.st.mem ∧ (secOf t p).dmaSeq.getD 0 0 = (atN q 4 4 + 1) % 2 ^ 32 ∧
      (secOf t p).dmaSeq.getD 1 0 = (secOf s p).dmaSeq.getD 1 0 ∧ MbEnds t p r y.stat (natBytes 4 y.done) ∧ SecBut p s t ∧
      (y.stat = .ok → y.done = dmaRecords len ∧ (0 < inc → tallyVal t tal = tallyVal s tal + BitVec.ofNat 32 inc)) ∧
      (y.stat ≠ .ok → t.tally = s.tally) ∧ (∀ i, i ≠ tal → tallyVal t i = tallyVal s i) ∧ RegsBut [] s t) ∧
  (∀ (s : State) (p : Part) (r : MbRun) (d : Option (List Byte)), MbWaits s p 0x06 r →
    let q := r.req
    let dev := atN q 16 8
    let len := atN q 24 4
    q.length = 32 → atN q 30 2 = 0 → zeros q 1 3 = true → atN q 28 2 < 16384 → at8 q 0 = 1 → atN q 8 8 % 4096 = 0 → 0 < len → len ≤ 4096 →
    dev + len ≤ 2 ^ 44 → atN q 4 4 = (secOf s p).dmaSeq.getD 1 0 → confidential s p = false → readRange s p dev len = .ok →
    ∃ t, exec (.hostDma p d) s = .next t ∧ t.sec.hostWr = s.sec.hostWr ++ [(p.val, atN q 8 8, readBytes s p dev len)] ∧ t.mem = s.mem ∧
      MbEnds t p r .ok (natBytes 4 1) ∧ SecBut p s t ∧ Counted s t (mbPage p) 5 1 ∧ RegsBut [] s t ∧ t.tally = s.tally) ∧
  (∀ (s : State) (p : Part) (r : MbRun), MbWaits s p 0x05 r → r.req.length = 12 →
    let a := nAt r.req 0 4
    a < 0x4000000 → a % 4 = 0 →
    let u := if nAt r.req 8 1 % 2 = 1 then busWrite s (.sealedOwner p) a .b4 (BitVec.ofNat 64 (nAt r.req 4 4)) else busRead s (.sealedOwner p) a .b4
    ∃ t, exec (.sealedAccess p) s = .next t ∧ MbEnds t p r .ok (natBytes 4 (statusCode u.reply.status) ++ natBytes 4 u.reply.data.toNat) ∧
      SecBut p u t ∧ t = { u with sec := { u.sec with parts := t.sec.parts } }) ∧
  (∀ (s : State) (p : Part) (r : MbRun), (secOf s p).mb = some r → r.result = none → readsHost r.op = true → r.go + 1000 ≤ now s →
    ∃ t, exec (.hostReadTimeout p) s = .next t ∧ MbEnds t p r .timeout [] ∧ SecBut p s t ∧
      t = { s with sec := { s.sec with parts := t.sec.parts } }) ∧
  ∀ (s : State) (p : Part) (r : MbRun) (st : Status) (plain : List Byte), (secOf s p).mb = some r → r.result = some (st, plain) →
    let nonce := natBytes 4 r.seq ++ natBytes 8 0
    let c := gcmSeal (sessionKey s p "MBR") nonce (sealAad p r.op r.seq) plain
    let rsp := if r.sealed ∧ st = .ok then nonce ++ natBytes 4 r.seq ++ c.1 ++ c.2 else plain
    ∃ t, exec (.mailboxComplete p) s = .next t ∧ (secOf t p).mb = none ∧
      regVal t (mbPage p) 0x10C = BitVec.ofNat 32 (rsp.length * 65536 + statusCode st) ∧
      (∀ i, i < 256 → regVal t (mbPage p) (0xC00 + 4 * i) = bytesWord rsp i) ∧ t.irqs = sendIrq ⟨p.val, 3, .service (mbPage p)⟩ s.irqs ∧
      Counted s t (mbPage p) (if st = .ok then 1 else 2) 1 ∧ SecBut p s t ∧
      RegsBut (regKey (mbPage p) 0x10C :: (List.range 256).map fun i => regKey (mbPage p) (0xC00 + 4 * i)) s t ∧
      t = { withBlock t s with sec := { s.sec with parts := t.sec.parts } }


/-- DEBUG_UNLOCK, RELOCK, DEBUG_EXPIRY, D2_ARMED_LAPSE and DBG_BREAK_WRITE. -/
def Obligations.DebugEffects : Prop :=
  (∀ (s : State) (p : Part) (r : MbRun), MbWaits s p 0x21 r → tokenBad s p r.req = none →
    let level := at8 r.req 5
    let dur := atN r.req 8 4
    let till := if dur = 0 then none else some (now s + dur * 1000000)
    ∃ t, exec (.debugUnlock p) s = .next t ∧ (secOf t p).nonce.length = 48 ∧
      MbEnds t p r .ok (natBytes 4 (secOf t p).dbg ++ natBytes 8 ((secOf t p).expiry.getD 0)) ∧
      (level = 1 → (secOf t p).dbg = dbgD1 ∧ (secOf t p).expiry = till ∧ SecBut p s t) ∧
      (level = 2 → (secOf s p).dbg = dbgD2 → (secOf t p).dbg = dbgD2 ∧ (secOf t p).expiry = till ∧ SecBut p s t) ∧
      (level = 2 → (secOf s p).dbg ≠ dbgD2 → p.val ≠ 0 →
        (secOf t p).dbg = dbgEnter ∧ (inReset s p = true ∨ BAct.presetBegin p.val ∈ t.atTick) ∧ SecBut p s t) ∧
      (level = 2 → (secOf s p).dbg ≠ dbgD2 → p.val = 0 → (secOf t 0).dbg = (secOf s 0).dbg ∧ (secOf t 0).armed = true ∧
        (secOf t 0).armedAt = now s ∧ (secOf t 0).duration = dur ∧ t.sec.flash.d2Armed = some dur ∧ SecBut 0 s t) ∧
      (level = 3 → ∀ i, i < 16 → (secOf t i).dbg = dbgD3) ∧ t = { s with sec := t.sec, atTick := t.atTick, free := t.free }) ∧
  (∀ (s : State) (p : Part) (r : MbRun), MbWaits s p 0x21 r → tokenBad s p r.req = some .integrity →
    ∃ t, exec (.debugUnlock p) s = .next t ∧ (secOf t p).dbg = (secOf s p).dbg ∧ (secOf t p).nonce.length = 48 ∧ Flagged t (mbPage p) 1 ∧
      MbEnds t p r .integrity []) ∧
  (∀ (s : State) (p : Part) (r : MbRun), MbWaits s p 0x21 r → r.req = natBytes 4 0x62 → (secOf s p).dbg < 4 →
    ∃ t, exec (.relock p) s = .next t ∧ regBit t (partPage p) 0x74C 31 = false ∧
      MbEnds t p r .ok (natBytes 4 (secOf t p).dbg ++ natBytes 8 ((secOf t p).expiry.getD 0)) ∧
      ((secOf s p).dbg = dbgD1 ∨ (secOf s p).dbg = dbgD3 → (secOf t p).dbg = dbgD0 ∧ (secOf t p).expiry = none) ∧
      ((secOf s p).dbg = dbgD3 → p.val = 0 → ∀ i, i < 16 → (secOf s i).dbg = dbgD3 → (secOf t i).dbg = dbgD0) ∧
      ((secOf s p).dbg = dbgD2 → p.val ≠ 0 → (secOf t p).dbg = dbgLeave ∧ (inReset s p = true ∨ BAct.presetBegin p.val ∈ t.atTick)) ∧
      ((secOf s p).dbg = dbgD2 → p.val = 0 → (secOf t 0).retArmed = true ∧ t.sec.flash.d2Back = true) ∧
      ((secOf s p).dbg ≠ dbgD3 → SecBut p s t ∧ RegsBut [regKey (partPage p) 0x74C] s t) ∧
      t = { s with regs := t.regs, sec := t.sec, atTick := t.atTick }) ∧
  (∀ (s : State) (p : Part) (e : Nat), (secOf s p).expiry = some e → e ≤ now s →
    ∃ t, exec (.debugExpiry p) s = .next t ∧
      ((secOf s p).dbg = dbgD1 ∨ (secOf s p).dbg = dbgD3 → (secOf t p).dbg = dbgD0 ∧ (secOf t p).expiry = none) ∧
      ((secOf s p).dbg = dbgD3 → ∀ i, i < 16 → (secOf s i).dbg = dbgD3 → (secOf t i).dbg = dbgD0) ∧
      ((secOf s p).dbg = dbgD2 → p.val ≠ 0 → (secOf t p).dbg = dbgLeave ∧ (inReset s p = true ∨ BAct.presetBegin p.val ∈ t.atTick)) ∧
      ((secOf s p).dbg = dbgD2 → p.val = 0 → (secOf t 0).retArmed = true ∧ t.sec.flash.d2Back = true) ∧
      t = { s with regs := t.regs, sec := t.sec, atTick := t.atTick }) ∧
  (∀ (s : State), (secOf s 0).armed = true → (secOf s 0).duration ≠ 0 → (secOf s 0).armedAt + (secOf s 0).duration * 1000000 ≤ now s →
    ∃ t, exec .d2ArmedLapse s = .next t ∧ secOf t 0 = { secOf s 0 with armed := false } ∧ t.sec.flash.d2Armed = none ∧ SecBut 0 s t ∧
      t = { s with sec := { s.sec with parts := t.sec.parts, flash := { s.sec.flash with d2Armed := none } } }) ∧
  ∀ (s : State) (p : Part) (v : Word), Accepted s (.jtag p) (partPage p) 0x74C v →
    ∃ t, exec (.dbgBreakWrite p v) s = .next t ∧ regBit t (partPage p) 0x74C 31 = bit v 31 ∧
      regField t (partPage p) 0x74C 30 27 = field v 30 27 ∧ regField t (partPage p) 0x74C 26 20 = field v 26 20 ∧
      regField t (partPage p) 0x74C 15 0 = field v 15 0 ∧ RegsBut [regKey (partPage p) 0x74C] s t ∧ t = { s with regs := t.regs, reply := ⟨.ok, 0⟩ }

/-- ATTEST_PARTITION, ATTEST_DEVICE, ATTEST and ATTEST_COMPLETE. -/
def Obligations.AttestEffects : Prop :=
  (∀ (s : State) (r : Req) (p : Part), Accepted s r (atPage p) 0x104 1 → regField s (atPage p) 0x100 1 0 = 1 →
    ∃ t, exec (.attestPartition r p) s = .next t ∧ t.sec.atOrder = s.sec.atOrder.filter (atBefore s p) ++ [p.val] ++ s.sec.atOrder.filter (fun m => !(atBefore s p m)) ∧ regVal t (atPage p) 0x108 = 0x100 ∧
      (secOf t p).at' = some ⟨1, regField s (atPage p) 0x100 11 8, pageBytesAt s (atPage p) 0x130 12, now s, none, none⟩ ∧ SecBut p s t ∧
      t.atTick = s.atTick ++ (if s.sec.atOrder.isEmpty then [.atBegin] else []) ∧ RegsBut [regKey (atPage p) 0x108] s t ∧
      t = { s with regs := t.regs, atTick := t.atTick, reply := ⟨.ok, 0⟩,
                   sec := { s.sec with parts := t.sec.parts, atOrder := t.sec.atOrder } }) ∧
  (∀ (s : State) (r : Req) (p : Part), Accepted s r (atPage p) 0x104 1 → regField s (atPage p) 0x100 1 0 = 2 →
    ∃ t, exec (.attestDevice r p) s = .next t ∧ t.sec.atOrder = s.sec.atOrder.filter (atBefore s p) ++ [p.val] ++ s.sec.atOrder.filter (fun m => !(atBefore s p m)) ∧ regVal t (atPage p) 0x108 = 0x100 ∧
      (secOf t p).at' = some ⟨2, regField s (atPage p) 0x100 11 8, pageBytesAt s (atPage p) 0x130 12, now s, none, none⟩ ∧ SecBut p s t ∧
      t.atTick = s.atTick ++ (if s.sec.atOrder.isEmpty then [.atBegin] else []) ∧ RegsBut [regKey (atPage p) 0x108] s t ∧
      t = { s with regs := t.regs, atTick := t.atTick, reply := ⟨.ok, 0⟩,
                   sec := { s.sec with parts := t.sec.parts, atOrder := t.sec.atOrder } }) ∧
  (∀ (s : State) (nonce : BitVec 384), s.supply.main = true → s.sec.boot.held = false → (secOf s atTap).at' = none →
    ∃ t, exec (.attest nonce) s = .next t ∧ t.sec.atOrder = s.sec.atOrder.filter (atBefore s atTap) ++ [atTap] ++ s.sec.atOrder.filter (fun m => !(atBefore s atTap m)) ∧
      (secOf t atTap).at' = some ⟨2, 0, natBytes 48 nonce.toNat, now s, none, none⟩ ∧ SecBut atTap s t ∧ t.tap.report = none ∧ t.tap.status = .busy ∧
      t = { s with tap := t.tap, atTick := t.atTick, sec := { s.sec with parts := t.sec.parts, atOrder := t.sec.atOrder } }) ∧
  (∀ (s : State) (p : Fin 18) (r : AtRun) (tick : Nat) (b : List Byte), (secOf s p).at' = some r → r.snap = some (tick, b) → b ≠ [] →
    ∃ t k, exec (.attestComplete p true) s = .next t ∧ (secOf t p).at' = none ∧ p.val ∉ t.sec.atOrder ∧ SecBut p s t ∧
      (let rep := b ++ ecdsaSign fuseIk k b
      (p.val < 16 → regVal t (atPage p) 0x108 = BitVec.ofNat 32 (rep.length * 65536) ∧ regVal t (atPage p) 0x10C = BitVec.ofNat 32 tick ∧
        (∀ i, i < 256 → regVal t (atPage p) (0x800 + 4 * i) = bytesWord rep i) ∧ Counted s t (atPage p) 1 1 ∧
        t.irqs = sendIrq ⟨p.val, 3, .service (atPage p)⟩ s.irqs) ∧
      (p.val = atTap → t.tap.report = some (some rep) ∧ t.regs = s.regs ∧ t.irqs = s.irqs))) ∧
  (∀ (s : State) (p : Part) (r : AtRun) (tick : Nat) (b : List Byte), (secOf s p).at' = some r → r.snap = some (tick, b) → b ≠ [] →
    ∃ t, exec (.attestComplete (p.castLE (by decide)) false) s = .next t ∧ (secOf t p).at' = none ∧ Flagged t (atPage p) 0 ∧
      (devRunning s = true → devState t = stHalt) ∧ regVal t (atPage p) 0x108 = BitVec.ofNat 32 (statusCode .integrity) ∧
      (∀ i, i < 256 → regVal t (atPage p) (0x800 + 4 * i) = 0) ∧ t.mem.cells = s.mem.cells ∧ t.tally = s.tally) ∧
  (∀ (s : State) (p : Fin 18) (ok : Bool), (secOf s p).at' = none → exec (.attestComplete p ok) s = .next s) ∧
  ∀ (s : State) (p : Part) (r : AtRun) (tick : Nat) (ok : Bool), (secOf s p).at' = some r → r.snap = some (tick, []) →
    ∃ t, exec (.attestComplete (p.castLE (by decide)) ok) s = .next t ∧ (secOf t p).at' = none ∧ SecBut p s t ∧
      regVal t (atPage p) 0x108 = BitVec.ofNat 32 (statusCode .busyReset) ∧ (∀ i, i < 256 → regVal t (atPage p) (0x800 + 4 * i) = 0) ∧
      Counted s t (atPage p) 2 1 ∧ t.irqs = sendIrq ⟨p.val, 3, .service (atPage p)⟩ s.irqs


/-! ### Commands on the cores (chapters 03 to 05 and 07 to 09) -/

/-- The rows M_NOP to WINO3, V_NOP to GATHER, A_NOP to ATTN_BWD, F_NOP to CHAN, T_NOP to ASSIGN and L_NOP to SELECT. -/
def Obligations.CommandsIssue : Prop :=
  (∀ c : Fin 8, Issues ⟨.m, c⟩ 0 0 (Computes ⟨.m, c⟩ 0) (exec (.mNop c))) ∧
  (∀ c : Fin 8, Issues ⟨.m, c⟩ 0 1 (Computes ⟨.m, c⟩ 0) (exec (.gemm c))) ∧
  (∀ c : Fin 8, Issues ⟨.m, c⟩ 0 2 (Computes ⟨.m, c⟩ 0) (exec (.conv c))) ∧
  (∀ c : Fin 8, Issues ⟨.m, c⟩ 0 3 (Computes ⟨.m, c⟩ 0) (exec (.wino3 c))) ∧
  (∀ c : Fin 32, Issues ⟨.v, c⟩ 0 0 (Computes ⟨.v, c⟩ 0) (exec (.vNop c))) ∧
  (∀ c : Fin 32, Issues ⟨.v, c⟩ 0 1 (Computes ⟨.v, c⟩ 0) (exec (.map c))) ∧
  (∀ c : Fin 32, Issues ⟨.v, c⟩ 0 2 (Computes ⟨.v, c⟩ 0) (exec (.binary c))) ∧
  (∀ c : Fin 32, Issues ⟨.v, c⟩ 0 3 (Computes ⟨.v, c⟩ 0) (exec (.reduce c))) ∧
  (∀ c : Fin 32, Issues ⟨.v, c⟩ 0 4 (Computes ⟨.v, c⟩ 0) (exec (.norm c))) ∧
  (∀ c : Fin 32, Issues ⟨.v, c⟩ 0 5 (Computes ⟨.v, c⟩ 0) (exec (.softmax c))) ∧
  (∀ c : Fin 32, Issues ⟨.v, c⟩ 0 6 (Computes ⟨.v, c⟩ 0) (exec (.convert c))) ∧
  (∀ c : Fin 32, Issues ⟨.v, c⟩ 0 7 (Computes ⟨.v, c⟩ 0) (exec (.debayer c))) ∧
  (∀ c : Fin 32, Issues ⟨.v, c⟩ 0 8 (Computes ⟨.v, c⟩ 0) (exec (.resample c))) ∧
  (∀ c : Fin 32, Issues ⟨.v, c⟩ 0 9 (Computes ⟨.v, c⟩ 0) (exec (.gather c))) ∧
  (∀ (c : Fin 8) (st : Fin 2), Issues ⟨.a, c⟩ st 0 (Computes ⟨.a, c⟩ st) (exec (.aNop c st))) ∧
  (∀ c : Fin 8, Issues ⟨.a, c⟩ 0 1 (Attends ⟨.a, c⟩ 0) (exec (.attn c))) ∧
  (∀ c : Fin 8, Issues ⟨.a, c⟩ 1 2 (Appends ⟨.a, c⟩ 1) (exec (.kvAppend c))) ∧
  (∀ c : Fin 8, Issues ⟨.a, c⟩ 0 3 (Merges ⟨.a, c⟩ 0) (exec (.attnMerge c))) ∧
  (∀ c : Fin 8, Issues ⟨.a, c⟩ 0 4 (Merges ⟨.a, c⟩ 0) (exec (.attnBwd c))) ∧
  (∀ c : Fin 4, Issues ⟨.f, c⟩ 0 0 (Computes ⟨.f, c⟩ 0) (exec (.fNop c))) ∧
  (∀ c : Fin 4, Issues ⟨.f, c⟩ 0 1 (Computes ⟨.f, c⟩ 0) (exec (.lift c))) ∧
  (∀ c : Fin 4, Issues ⟨.f, c⟩ 0 2 (Computes ⟨.f, c⟩ 0) (exec (.voxel c))) ∧
  (∀ c : Fin 4, Issues ⟨.f, c⟩ 0 3 (Computes ⟨.f, c⟩ 0) (exec (.chan c))) ∧
  (∀ c : Fin 2, Issues ⟨.t, c⟩ 0 0 (Computes ⟨.t, c⟩ 0) (exec (.tNop c))) ∧
  (∀ c : Fin 2, Issues ⟨.t, c⟩ 0 1 (Computes ⟨.t, c⟩ 0) (exec (.predict c))) ∧
  (∀ c : Fin 2, Issues ⟨.t, c⟩ 0 2 (Computes ⟨.t, c⟩ 0) (exec (.update c))) ∧
  (∀ c : Fin 2, Issues ⟨.t, c⟩ 0 3 (Computes ⟨.t, c⟩ 0) (exec (.birth c))) ∧
  (∀ c : Fin 2, Issues ⟨.t, c⟩ 0 4 (Computes ⟨.t, c⟩ 0) (exec (.trkRead c))) ∧
  (∀ c : Fin 2, Issues ⟨.t, c⟩ 0 5 (Computes ⟨.t, c⟩ 0) (exec (.trkWrite c))) ∧
  (∀ c : Fin 2, Issues ⟨.t, c⟩ 0 6 (Computes ⟨.t, c⟩ 0) (exec (.assign c))) ∧
  (∀ c : Fin 4, Issues ⟨.l, c⟩ 0 0 (Computes ⟨.l, c⟩ 0) (exec (.lNop c))) ∧
  (∀ c : Fin 4, Issues ⟨.l, c⟩ 0 1 (Plans ⟨.l, c⟩ 0) (exec (.wave c))) ∧
  (∀ c : Fin 4, Issues ⟨.l, c⟩ 0 2 (Plans ⟨.l, c⟩ 0) (exec (.check c))) ∧
  (∀ c : Fin 4, Issues ⟨.l, c⟩ 0 3 (Plans ⟨.l, c⟩ 0) (exec (.stop c))) ∧
  (∀ c : Fin 4, Issues ⟨.l, c⟩ 0 4 (Plans ⟨.l, c⟩ 0) (exec (.select c)))

/-- TALLY_WAIT_RELEASE, ROW_PUSH, ROW_LANDED, COMMAND_END and ASSIGN_TIMEOUT. -/
def Obligations.CommandsRunAndEnd : Prop :=
  (∀ (s : State) (k : CoreId) (i : Fin 2) (r : CmdRun), curOf s k i = some r → streamState s k i = cWait →
    reached (tallyVal s (waitTally r.offer.desc)) (waitThresh r.offer.desc) = true →
    ∃ u t, exec (.tallyWaitRelease k i) s = .next t ∧ streamState t k i = cRun ∧ Counted s t (tallyPage (waitTally r.offer.desc)) 3 1 ∧
      streamState u k i = cRun ∧ u = { withBlock u s with regs := u.regs } ∧
      RegsBut [regKey (corePage k) 0x00C, regKey (corePage k) 0x028, regKey (corePage k) 0x118] s u ∧
      (k.cls ≠ .a → (k.cls = .l → opOf r.offer.desc = 0 ∨ planLate s (lDesc r.offer.desc).cycle = false) → r.fail = none → Computes k i u t r)) ∧
  (∀ (s : State) (k : CoreId) (i : Fin 2) (ch : Fin 256) (r : CmdRun) (p : PushSt) (c : Channel), curOf s k i = some r →
    r.push.find? (fun x => x.chan == ch.val) = some p → chanOf s r.offer.job ch = some c → streamState s k i = cRun → r.fail = none →
    p.next < pushEnd c (runOut s k i r).rows.length → rowReady s k r p.next = true → 1 ≤ creditOf s c p →
    ∃ t r', exec (.rowPush k i ch) s = .next t ∧ curOf t k i = some r' ∧
      r'.push.find? (fun x => x.chan == ch.val) = some { p with next := p.next + 1, flying := p.flying + 1 } ∧
      r' = { r with push := r'.push } ∧ (k.cls = .v → Counted s t (corePage k) 10 1) ∧ RegsBut [] s t ∧
      t = { withBlock t s with cores := t.cores }) ∧
  (∀ (s : State) (k : CoreId) (i : Fin 2) (ch : Fin 256) (r : CmdRun) (p : PushSt) (c : Channel), curOf s k i = some r →
    r.push.find? (fun x => x.chan == ch.val) = some p → chanOf s r.offer.job ch = some c → 0 < p.flying →
    ∃ t, exec (.rowLanded k i ch) s = .next t ∧ tallyVal t c.rowT = tallyVal s c.rowT + 1 ∧
      (∀ j, j ≠ c.rowT → tallyVal t j = tallyVal s j) ∧
      ((∀ q, coreOfCode c.dst = some q → q.cls ≠ .a ∧ ∀ q', shadowOf s q = some q' → q'.cls ≠ .a) → t.mem = s.mem ∧ RegsBut [] s t) ∧
      (∀ q w rq, coreOfCode c.dst = some q → q.cls ≠ .a → shadowOf s q = none → curOf s q 0 = some rq → rq.offer.job = r.offer.job →
        rq.win.find? (fun x => x.1 == ch.val) = some w →
        let row := (runOut s k i r).rows.getD (p.next - p.flying) []
        let full := row ++ List.replicate (roundUp row.length 64 - row.length) 0
        let j := c.dstRow + (tallyVal s c.rowT - w.2.2).toNat
        (full.length = chanPitch c → ∀ n, n < full.length →
          smGet 0 t.face (faceKey q 0 (faceBase q rq.offer.desc w.2.1 + j * chanPitch c) + n) = full.getD n 0) ∧
        (full.length ≠ chanPitch c → ∃ r', curOf t q 0 = some r' ∧ r'.badRows = rq.badRows ++ [(w.2.1, j)] ∧ r'.fail = rq.fail))) ∧
  (∀ (s : State) (k : CoreId) (i : Fin 2) (r : CmdRun) (clk : EndClocks), curOf s k i = some r → streamState s k i = cRun → r.offer.role = 0 →
    r.ended = none → r.fail = none → r.badRows = [] → rowsDone s k i r = true → (∀ p ∈ r.push, p.flying = 0) → i.val < (streamsOf k).length →
    liveTags s k i = false →
    let o := runOut s k i r
    let part := r.offer.part
    ¬ (k.cls = .t ∧ opOf r.offer.desc = 6 ∧ o.spent = true) → (k.cls = .l → o.plan.isSome = true → planLate s (lDesc r.offer.desc).cycle = false) →
    writesStatus s part o = .ok → storesFree s part o = true → appendDone s k r o = true →
    (∀ d x, kickedDog s r.offer.job r.offer.stage r.offer.index = some d → dogOf s d = some x → kickOf s d x ≠ .early) →
    ∃ t, exec (.commandEnd k i clk .none) s = .next t ∧ curOf t k i = none ∧ streamState t k i = cIdle ∧
      regField t (corePage k) 0x100 7 0 = statusCode .ok ∧ regField t (corePage k) 0x100 15 8 = opOf r.offer.desc ∧
      (k.cls ≠ .l → regBit s (partPage part) 0x748 31 = false → t.mem.cells = (writeOut s part o).mem.cells) ∧
      (k.cls ≠ .l → signalEn k r.offer.desc = true → (jobOf s r.offer.job).isSome = true → inReset s part = false →
        tallyVal t (sigTally r.offer.desc) = tallyVal s (sigTally r.offer.desc) + BitVec.ofNat 32 (sigInc r.offer.desc)) ∧
      (k.cls ≠ .l → ∀ j, signalEn k r.offer.desc = false ∨ j ≠ sigTally r.offer.desc → tallyVal t j = tallyVal s j)) ∧
  (∀ (s : State) (k : CoreId) (i : Fin 2) (r : CmdRun) (clk : EndClocks) (st : Status), curOf s k i = some r → streamState s k i = cRun →
    r.offer.role = 0 → r.ended = none → r.fail = some st → st ≠ .ok → (∀ p ∈ r.push, p.flying = 0) → i.val < (streamsOf k).length →
    ¬ (k.cls = .t ∧ opOf r.offer.desc = 6 ∧ (runOut s k i r).spent = true) →
    ∃ t, exec (.commandEnd k i clk .none) s = .next t ∧ curOf t k i = none ∧ streamState t k i = cIdle ∧
      regField t (corePage k) 0x100 7 0 = statusCode st ∧ t.tally = s.tally ∧
      ((runOut s k i r).stores = [] → regBit s (partPage r.offer.part) 0x748 31 = false → t.mem.cells = s.mem.cells)) ∧
  (∀ (s : State) (k : CoreId) (i : Fin 2) (r : CmdRun) (clk : EndClocks) (e : CoreErr), curOf s k i = some r → inReset s r.offer.part = true →
    heldForPush s k i r = true → i.val < (streamsOf k).length →
    ∃ t, exec (.commandEnd k i clk e) s = .next t ∧ curOf t k i = none ∧ streamState t k i = cIdle ∧
      regField t (corePage k) 0x100 7 0 = statusCode .busyReset ∧ Counted s t (corePage k) (failSlot k) 1 ∧ t.tally = s.tally ∧
      t.mem.cells = s.mem.cells) ∧
  (∀ (s : State) (k q : CoreId) (r rq : CmdRun) (clk : EndClocks) (x : EndClocks), k ∈ allCores → q ∈ allCores → k ≠ q → k.cls ≠ .t →
    shadowOf s k = some q → curOf s k 0 = some r → curOf s q 0 = some rq → r.offer.role = 1 → rq.offer.role = 2 →
    sameCmd rq.offer r.offer = true → mayEnd s k 0 r = true → inReset s r.offer.part = false → r.fail = none → r.badRows = [] →
    (rq.ended = none → exec (.commandEnd k 0 clk .none) s = .next (setCur s k 0 { r with ended := some (clk, .none) })) ∧
    (rq.ended = some (x, .none) → rq.fail = none → outDigest (runOut s k 0 r) ≠ outDigest (runOut s q 0 rq) →
      ∃ t, exec (.commandEnd k 0 clk .none) s = .next t ∧ curOf t k 0 = none ∧ curOf t q 0 = none ∧
        regField t (corePage k) 0x100 7 0 = statusCode .safetyHold ∧ regField t (corePage q) 0x100 7 0 = statusCode .safetyHold ∧
        (let fb := fbPage (stackNo (coreStack k))
        Flagged t fb 3 ∧ Counted s t fb 7 1 ∧ Counted s t fb 8 1) ∧ t.tally = s.tally)) ∧
  ∀ (s : State) (c : Fin 2) (r : CmdRun), let k : CoreId := ⟨.t, c⟩
    curOf s k 0 = some r → streamState s k 0 = cRun → opOf r.offer.desc = 6 → r.fail = none → (runOut s k 0 r).spent = true → r.offer.role = 0 →
    (runOut s k 0 r).stores = [] → (runOut s k 0 r).tracks = [] →
    ∃ t, exec (.assignTimeout c) s = .next t ∧ curOf t k 0 = none ∧ streamState t k 0 = cIdle ∧
      regField t (corePage k) 0x100 7 0 = statusCode .timeout ∧ t.tracks = s.tracks ∧ t.tally = s.tally ∧
      (regBit s (partPage r.offer.part) 0x748 31 = false → t.mem.cells = s.mem.cells)


/-! ### Rings, jobs and the roster (chapter 11) -/

/-- The rows of R431 to R444 and JOB_END. -/
def Obligations.JobEffects : Prop :=
  (∀ (s : State) (p : Part), devRunning s = true → regBit s (sbPage p) 0x100 0 = true → inReset s p = false → smGet 0 s.scanAt p ≠ now s + 1 →
    scanTick s = true → ((ringWord s p 0) - regVal s (sbPage p) 0x108).toInt ≤ 256 →
    let c := regVal s (sbPage p) 0x104
    let n := min 16 (ringWord s p 0 - c).toInt.toNat
    ∃ t, exec (.ringScan p) s = .next t ∧ regVal t (sbPage p) 0x104 = c + BitVec.ofNat 32 n ∧ Counted s t (sbPage p) 9 1 ∧
      (∀ i, i < n → let e := (c + BitVec.ofNat 32 i).toNat % 256
        (∃ j, jobOf t (jobKey p e) = some j ∧ j.raw = true ∧ j.state = jPending) ∧ ∀ b, b < 16 → ringByte t p (0x9000 + 16 * e + b) = 0) ∧
      t.mem = s.mem ∧ RegsBut [regKey (sbPage p) 0x104] s t) ∧
  (∀ (s : State) (p : Part) (e : Fin 256) (j : Job) (w : List Word), jobOf s (jobKey p e) = some j → j.raw = true → devRunning s = true →
    inReset s p = false → openEntry s p e = some w → kindOf w ≠ 2 →
    ∃ t, exec (.jobRun p e) s = .next t ∧ jobOf t (jobKey p e) = some (jobFrom j w) ∧ (∀ k, k ≠ jobKey p e → jobOf t k = jobOf s k) ∧
      t = { s with jobs := t.jobs }) ∧
  (∀ (s : State) (p : Part) (e : Fin 256) (j : Job), jobOf s (jobKey p e) = some j → j.raw = true → devRunning s = true →
    inReset s p = false → openEntry s p e = none →
    ∃ t, exec (.jobRun p e) s = .next t ∧ Flagged t (sbPage p) 1 ∧ Counted s t (mbPage p) 3 1 ∧
      ringByte t p (0x9000 + 16 * e.val + 4) = BitVec.ofNat 8 (statusCode .integrity) ∧ ringByte t p (0x9000 + 16 * e.val + 5) = 1 ∧ t.mem = s.mem) ∧
  (∀ (s : State) (p : Part) (e : Fin 256) (j x : Job) (w : List Word), jobOf s (jobKey p e) = some j → j.raw = true → j.state = jPending →
    devRunning s = true → inReset s p = false → openEntry s p e = some w → kindOf w = 2 → cancelReserved w = false → 0 < df w 0 31 28 → df w 0 31 28 ≤ levelInForce s →
    let k := df w 11 7 0
    admitted s p e k = true → k ≠ e.val → (jobOf s (jobKey p k)).map (jobAsAdmitted s p k) = some x → x.state ≠ jEnding → x.state ≠ jDone →
    ∃ t, exec (.jobCancel p e) s = .next t ∧ Counted s t (sbPage p) 8 1 ∧ t.mem.cells = s.mem.cells ∧
      ringByte t p (0x9000 + 16 * e.val + 4) = BitVec.ofNat 8 (statusCode .ok) ∧ ringByte t p (0x9000 + 16 * e.val + 5) = 1 ∧
      ((x.state = jRunning ∨ x.state = jSuspending) → x.decided = false →
        jobOf t (jobKey p k) = some { x with cancelled := true, decided := true, status := .ok, stage := 0xFFFF, state := jEnding }) ∧
      (x.state ≠ jRunning → x.state ≠ jSuspending → ringByte t p (0x9000 + 16 * k + 4) = BitVec.ofNat 8 (statusCode .ok) ∧
        (ringByte t p (0x9000 + 16 * k + 5)).getLsbD 0 = true ∧ (ringByte t p (0x9000 + 16 * k + 5)).getLsbD 2 = true)) ∧
  (∀ (s : State) (p : Part) (e : Fin 256) (j : Job), jobOf s (jobKey p e) = some j → j.raw = false → j.state = jPending → jobsLive s p = true →
    behind s p j = false → slotStarted s p j.slot = false →
    let st := (startWork s p (jobKey p e) j).2
    ∃ t, exec (.jobStartWork p e) s = .next t ∧ t.mem.cells = s.mem.cells ∧
      (st = .ok → ∃ g, readGraph s p j.graph = .ok g ∧
        (∃ cs, jobOf t (jobKey p e) = some { j with state := jStarting, worked := true, safety := g.safety, stages := stageRts g, chans := cs }) ∧
        (∀ i, j.tclrFirst ≤ i → i < j.tclrFirst + j.tclrCount → tallyVal t i = 0) ∧
        (∀ i, i < j.tclrFirst ∨ j.tclrFirst + j.tclrCount ≤ i → tallyVal t i = tallyVal s i)) ∧
      (st ≠ .ok → ringByte t p (0x9000 + 16 * e.val + 4) = BitVec.ofNat 8 (statusCode st))) ∧
  (∀ (s : State) (p : Part) (e : Fin 256) (j : Job), jobOf s (jobKey p e) = some j → j.state = jStarting → j.worked = true → jobsLive s p = true →
    behind s p j = false → slotStarted s p j.slot = false → coresFree (claimCores s j) (jobKey p e) j = true → outranked (claimCores s j) p (jobKey p e) j = false →
    ∃ t, exec (.jobStart p e) s = .next t ∧ jobOf t (jobKey p e) = some { j with state := jRunning, started := true, startTick := now s } ∧
      Counted s t (sbPage p) 2 1 ∧ t.mem.cells = s.mem.cells ∧ t.tally = s.tally) ∧
  (∀ (s : State) (k : CoreId) (i : Fin 2) (key n : Nat) (j : Job) (x : StageRt), offerJob s k i = some (key, j, n, x) →
    jobsLive s (jobPart key) = true → x.busy = false → x.spent = false → j.decided = false → offerable s k i = true →
    (k.cls = .t → (trkOf s k.inst).wait = none) → readRange s (jobPart key) (x.addr + 64 * x.next) 64 = .ok →
    let d := readWords s (jobPart key) (x.addr + 64 * x.next) 16
    timeAllows s key k (nominalTicks s k (jobPart key) d) = true → shadowOf s k = none → j.state ≠ jSuspending → quietEnd s k = none →
    breakHolds s (jobPart key) j.slot n x.next = false →
    ∃ t, exec (.commandOffer k i) s = .next t ∧ coreSt t k i = ⟨some ⟨d, jobPart key, key, n, x.next, j.seed, decide (x.retries > 0), 0⟩, none⟩ ∧
      (∀ m, m ≠ streamKey k i → smGet noCore t.cores m = smGet noCore s.cores m) ∧ t.mem = s.mem ∧ t.jobs = s.jobs) ∧
  (∀ (s : State) (p : Part) (e : Fin 256) (j : Job), jobOf s (jobKey p e) = some j → j.state = jSuspending → jobsLive s p = true →
    (∀ k ∈ jobCores s j, holds s (jobKey p e) j k = false) →
    ∃ t, exec (.suspensionComplete p e) s = .next t ∧ (∃ sn, jobOf t (jobKey p e) = some { j with state := jSuspended, suspended := true, snap := sn } ∧
      ∀ x ∈ sn, x.2 = tallyVal s x.1) ∧ t = { s with jobs := t.jobs, cores := t.cores }) ∧
  (∀ (s : State) (p : Part) (e : Fin 256) (stall : Nat) (j : Job), jobOf s (jobKey p e) = some j → j.state = jSuspending → jobsLive s p = true →
    j.suspAt + 210 + min stall (tierDeadline s .seam) ≤ now s → j.decided = false →
    ∃ t, exec (.suspensionTimeout p e stall) s = .next t ∧
      jobOf t (jobKey p e) = some { j with stall := stall, decided := true, status := .timeout, stage := 0xFFFF, state := jEnding } ∧
      t = { s with jobs := t.jobs, cores := t.cores }) ∧
  (∀ (s : State) (p : Part) (e : Fin 256) (j : Job), jobOf s (jobKey p e) = some j → j.state = jSuspended → jobsLive s p = true →
    behind s p j = false → slotStarted s p j.slot = false → coresFree (claimCores s j) (jobKey p e) j = true → outranked (claimCores s j) p (jobKey p e) j = false →
    ∃ t, exec (.jobResume p e) s = .next t ∧ t.mem.cells = s.mem.cells ∧
      ((∀ x ∈ j.snap, tallyVal s x.1 = x.2) → jobOf t (jobKey p e) = some { j with state := jRunning } ∧ Counted s t (sbPage p) 6 1) ∧
      ((∃ x ∈ j.snap, tallyVal s x.1 ≠ x.2) → ringByte t p (0x9000 + 16 * e.val + 4) = BitVec.ofNat 8 (statusCode .integrity))) ∧
  (∀ (s : State) (p : Part) (e : Fin 256) (j : Job), jobOf s (jobKey p e) = some j → j.state = jEnding → devRunning s = true →
    (∀ k ∈ allCores, ∀ i, i < 2 → runsJob s k i (jobKey p e) = true → streamState s k i = cWait) →
    ∃ t, exec (.jobEnd p e) s = .next t ∧ (∀ k ∈ allCores, ∀ i, i < 2 → runsJob t k i (jobKey p e) = false) ∧ t.mem.cells = s.mem.cells) ∧
  ∀ (s : State) (p : Part) (e : Fin 256) (j : Job), jobOf s (jobKey p e) = some j → jobOver s (jobKey p e) j = true → devRunning s = true →
    inReset s p = false →
    ∃ t, exec (.jobEnd p e) s = .next t ∧ ringByte t p (0x9000 + 16 * e.val + 4) = BitVec.ofNat 8 (statusCode j.status) ∧
      (ringByte t p (0x9000 + 16 * e.val + 5)).getLsbD 0 = true ∧ (∀ d ∈ t.fb.dogs, d.2.job ≠ jobKey p e) ∧
      (j.sigEn = true → ownsTally s p j.doneTally = true → tallyVal t j.doneTally = tallyVal s j.doneTally + 1) ∧
      (∀ i, j.sigEn = false ∨ ownsTally s p j.doneTally = false ∨ i ≠ j.doneTally → tallyVal t i = tallyVal s i) ∧
      t.irqs = (if j.irqEn then sendIrq ⟨p.val, 0, .jobDone e.val⟩ s.irqs else s.irqs) ∧ t.mem.cells = s.mem.cells

/-- ROSTER_LOAD, ROSTER_ENABLE, ROSTER_ORIGIN_REACHED, MAJOR_FRAME_BOUNDARY, ROSTER_BOUNDARY and SB_QUERY. -/
def Obligations.RosterEffects : Prop :=
  (∀ (s : State) (r : Req), Accepted s r roPage 0x110 1 →
    ∃ t, exec (.rosterLoad r) s = .next t ∧
      ((roCheckTable s).2 = none → t.roster = (if roState s = roRun then { s.roster with pend := some (roCheckTable s).1 }
        else { s.roster with table := some (roCheckTable s).1 }) ∧ regField t roPage 0x114 23 16 = statusCode .ok ∧ Counted s t roPage 6 1) ∧
      (∀ i, (roCheckTable s).2 = some i → t.roster = s.roster ∧ regVal t roPage 0x11C = BitVec.ofNat 32 i ∧
        regField t roPage 0x114 23 16 = statusCode .range ∧ Flagged t roPage 0 ∧ Counted s t roPage 7 1) ∧ t.mem = s.mem) ∧
  (∀ (s : State) (r : Req) (en : Bool), Accepted s r roPage 0x100 (if en then 1 else 0) →
    ∃ t, exec (.rosterEnable r en) s = .next t ∧ t.roster = { s.roster with stop := !en } ∧
      (en = true → roState s = roOff → roState t = roArmed ∧ regVal t roPage 0x118 = 0) ∧ (en = false → roState s = roArmed → roState t = roOff) ∧
      (roState s = roRun → roState t = roRun) ∧ t = { s with regs := t.regs, reply := ⟨.ok, 0⟩, roster := t.roster }) ∧
  (∀ (s : State) (r : Req) (p : Part) (w : Word), Accepted s r (sbPage p) 0x110 w →
    ∃ t, exec (.sbQuery r p w) s = .next t ∧ regField t (sbPage p) 0x110 7 0 = field w 7 0 ∧
      (∀ j, jobOf s (jobKey p (field w 7 0)) = some j → sbQstat t p = BitVec.ofNat 32 (j.state + statusCode j.status * 256)) ∧
      RegsBut [regKey (sbPage p) 0x110] s t ∧ t = { s with regs := t.regs, reply := ⟨.ok, 0⟩ }) ∧
  (∀ (s : State), roState s = roArmed → devRunning s = true → reachedAt s (roOrigin s) = true →
    ∃ t, exec .rosterOriginReached s = .next t ∧ roState t = roRun ∧
      t.roster.frame0 = now s - (((now s : Int) - roOrigin s) % frameTicks).toNat ∧
      (((now s : Int) - roOrigin s) % frameTicks = 0 → Counted s t roPage 1 1 ∧ t.roster.pend = none) ∧
      (((now s : Int) - roOrigin s) % frameTicks ≠ 0 → 0 < now s → t.roster.late = some (now s)) ∧ t.mem = s.mem) ∧
  (∀ (s : State), roState s = roRun → devRunning s = true → reachedAt s (s.roster.frame0 + frameTicks) = true →
    ∃ t, exec .majorFrameBoundary s = .next t ∧ t.roster.table = (s.roster.pend.orElse fun _ => s.roster.table) ∧ t.roster.pend = none ∧
      (s.roster.stop = true → roState t = roOff ∧ t.roster.frame0 = s.roster.frame0) ∧
      (s.roster.stop = false → roState t = roRun ∧ t.roster.frame0 = s.roster.frame0 + frameTicks ∧
        regVal t roPage 0x118 = regVal s roPage 0x118 + 1 ∧ Counted s t roPage 1 1) ∧ t.mem = s.mem) ∧
  (∀ (s : State) (g : Nat) (w : WinNow), devRunning s = true → s.roster.wins.filter (fun x => reachedAt s x.2.stop) = [(g, w)] →
    roState s ≠ roRun →
    ∃ t, exec .rosterBoundary s = .next t ∧ windowOf t g = none ∧ (∀ h, h ≠ g → windowOf t h = windowOf s h) ∧
      (∀ k ∈ groupCores s g, pageOwner t (corePage k) = 0 ∧ pageLocked t (corePage k) = true) ∧ t.mem = s.mem) ∧
  (∀ (s : State) (i : Nat) (e : RoEntry), devRunning s = true → s.roster.wins.filter (fun x => reachedAt s x.2.stop) = [] →
    roState s = roRun → s.roster.late ≠ some (now s) →
    ((List.range (roEntries s).length).zip (roEntries s)).filter (fun x => reachedFirst s (s.roster.frame0 + x.2.start)) = [(i, e)] →
    let stop := s.roster.frame0 + e.start + e.dur
    (e.kind = 1 → e.part < 16 → windowOf s e.group ≠ some ⟨e.part, e.slot, stop⟩ →
      ∃ t, exec .rosterBoundary s = .next t ∧ windowOf t e.group = some ⟨e.part, e.slot, stop⟩ ∧ Counted s t roPage 2 1 ∧
        (∀ h, h ≠ e.group → windowOf t h = windowOf s h) ∧
        (∀ k ∈ groupCores s e.group, pageOwner t (corePage k) = e.part ∧ pageLocked t (corePage k) = false) ∧ t.mem = s.mem) ∧
    (e.kind = 2 → s.roster.canaryEnd ≠ stop →
      ∃ t, exec .rosterBoundary s = .next t ∧ t.roster.canaryEnd = stop ∧ t.fb.canDue = s.fb.canDue ++ [now s] ∧
        Counted s t roPage 4 1 ∧ t.mem = s.mem))


/-! ### Fireboss (chapter 14) -/

/-- CANARY_MISSING, BOTH_STACKS_SILENT, FIREBOSS_LOCKSTEP_MISMATCH, STACK_HEARTBEAT_LOSS, WATCHDOG_EXPIRY and STARTUP_CHECK_RESULT. -/
def Obligations.TripEffects : Prop :=
  (∀ (s : State), devRunning s = true → regBit s (fbPage 0) 0x100 0 = true → s.fb.lastPass + 20000 ≤ now s →
    ∃ t, exec .canaryMissing s = .next t ∧ Halted s t 0 4 (fbPage 0)) ∧
  (∀ (s : State), devRunning s = true → ∃ t, exec .bothStacksSilent s = .next t ∧ Halted s t 0 8 (fbPage 0)) ∧
  (∀ (s : State) (h : Stack), devRunning s = true →
    ∃ t, exec (.firebossLockstepMismatch h) s = .next t ∧ Flagged t (fbPage (stackNo h)) 6 ∧ Halted s t (stackNo h) 1 (fbPage (stackNo h))) ∧
  (∀ (s : State) (claimant holder : Bool), devRunning s = true →
    let k := 1 - chargeOf s
    ∃ t, exec (.stackHeartbeatLoss claimant holder) s = .next t ∧ Flagged t (fbPage k) 5 ∧ Counted s t (fbPage k) 13 3 ∧
      (claimant = false → holder = false → Halted s t 0 8 (fbPage 0) ∧ chargeOf t = chargeOf s) ∧
      (claimant = true → holder = true → chargeOf t = 0 ∧ t.fb.stopped = some 1 ∧ Halted s t 0 (if chargeOf s = 0 then 6 else 5) (fbPage k)) ∧
      (claimant = true → holder = false → chargeOf t = k ∧ t.fb.stopped = some (chargeOf s) ∧ Halted s t k 5 (fbPage k)) ∧
      (claimant = false → holder = true → chargeOf t = chargeOf s ∧ t.fb.stopped = some k ∧ Halted s t (chargeOf s) 6 (fbPage k))) ∧
  (∀ (s : State) (h : Stack) (n : Fin 256) (x : Dog), dogOf s (dogKey (stackNo h) n) = some x → devRunning s = true → x.out = false → x.held = false →
    let d := dogKey (stackNo h) n
    let c := wdCfg s d
    reachedAt s (dogClose s d x + 1) = true →
    ∃ t, exec (.watchdogExpiry h n) s = .next t ∧ dogOf t d = some { x with out := true } ∧ regBit t (wdPage (stackNo h)) (wdStat d) 27 = true ∧
      regBit t (wdPage (stackNo h)) (wdStat d) 28 = false ∧ Counted s t (wdPage (stackNo h)) 3 1 ∧ t.mem.cells = s.mem.cells ∧
      (field c 29 28 = 1 → field c 27 24 ≠ 0 → BAct.presetBegin (field c 27 24) ∈ t.atTick ∨ inReset s (field c 27 24) = true) ∧
      (field c 29 28 = 2 → Halted s t (stackNo h) 1 (wdPage (stackNo h))) ∧
      (field c 29 28 ≠ 1 → field c 29 28 ≠ 2 → ∀ j, jobOf s x.job = some j → j.decided = false → j.state ≠ jDone →
        jobOf t x.job = some { j with decided := true, status := .timeout, stage := x.stage, state := jEnding })) ∧
  (∀ (s : State) (h : Stack) (n : Fin 256) (x : Dog), dogOf s (dogKey (stackNo h) n) = some x → devRunning s = true → x.out = false → x.held = false →
    let d := dogKey (stackNo h) n
    reachedAt s (dogClose s d x + 1) = false → (restOfTick s).any (fun c => earlyOf s c == some d) = true →
    ∃ t, exec (.watchdogExpiry h n) s = .next t ∧ dogOf t d = some { x with out := true } ∧ regBit t (wdPage (stackNo h)) (wdStat d) 27 = true ∧
      regBit t (wdPage (stackNo h)) (wdStat d) 28 = true ∧ Counted s t (wdPage (stackNo h)) 4 1 ∧ t.mem.cells = s.mem.cells) ∧
  (∀ (s : State) (k : CoreId), k ∈ allCores → devState s ≠ stHalt → pgState s (fbOfCore k) = fbChecking →
    (∃ t, exec (.startupCheckResult (.core k) true) s = .next t ∧
      fbOf t k = { fbOf s k with checked := some (now s), points := 0, due := 0 } ∧ (∀ m ∈ allCores, m ≠ k → fbOf t m = fbOf s m) ∧
      (pgState t (fbOfCore k) = fbReady ↔ ∀ m ∈ allCores, coreStack m = coreStack k → (fbOf t m).checked.isSome = true ∨ isSuspect s m = true)) ∧
    (devState s = stBoot → k.cls ≠ .c → isSuspect s k = false → pgState s (corePage k) ≠ cSelftest →
      ∃ t, exec (.startupCheckResult (.core k) false) s = .next t ∧ isSuspect t k = true ∧ (fbOf t k).bootBad = true ∧
        (fbOf t k).marks = (fbOf s k).marks + 1 ∧ devState t = stBoot)) ∧
  (∀ (s : State) (n : Fin 48), devState s ≠ stHalt →
    ∃ t, exec (.startupCheckResult (.drift n) false) s = .next t ∧ pgState t ⟨.drift, n⟩ = 3 ∧ t = { s with regs := t.regs }) ∧
  (∀ (s : State), devRunning s = true → ∃ t, exec (.startupCheckResult .tick false) s = .next t ∧ Halted s t (chargeOf s) 7 tickPage) ∧
  ∀ (s : State), devState s = stBoot → s.fb.bootFail = none →
    ∃ t, exec (.startupCheckResult .tick false) s = .next t ∧ t = { s with fb := { s.fb with bootFail := some (7 * 256 + clsCode .tick, 0) } }

/-- STARTUP_CHECKS, SLICE_DUE_POINT, SELFTEST_SLICE_START, SELFTEST_SLICE_END, COVERAGE_DEBT, LOAD_QUIET, CANARY_START, CANARY_COMPARE and
DIGEST_ROUND. -/
def Obligations.FirebossEffects : Prop :=
  (∀ (s : State) (h : Stack), pgState s (fbPage (stackNo h)) = fbChecking →
    ∃ t, exec (.startupChecks h) s = .next t ∧ (∀ k ∈ allCores, coreStack k = h → (fbOf t k).checked = none) ∧
      (∀ k ∈ allCores, coreStack k ≠ h → fbOf t k = fbOf s k) ∧ t = { s with fb := { s.fb with cores := t.fb.cores } }) ∧
  (∀ (s : State) (k : CoreId), devRunning s = true → (fbOf s k).checked.isSome = true → dueTick s k + duePeriod s k ≤ now s →
    ∃ t, exec (.sliceDuePoint k) s = .next t ∧ fbOf t k = { fbOf s k with points := (fbOf s k).points + 1, due := (fbOf s k).due + 1 } ∧
      t = { s with fb := { s.fb with cores := t.fb.cores } }) ∧
  (∀ (s : State) (k : CoreId) (i : Nat), sliceNext s k = some i → devRunning s = true → sliceFits s k = true →
    ∃ t, exec (.selftestSliceStart k) s = .next t ∧ (fbOf t k).slice = some (i, now s, isSuspect s k) ∧
      ((fbOf s k).retest = none → i ≠ digSlice → (fbOf t k).due = (fbOf s k).due - 1 ∧ (fbOf t k).next = ((fbOf s k).next + 1) % sliceCount s k.cls) ∧
      (k.cls ≠ .c → ∀ j ∈ streamsOf k, streamState t k j = cSelftest) ∧ t = { s with regs := t.regs, fb := { s.fb with cores := t.fb.cores } }) ∧
  (∀ (s : State) (k : CoreId) (i t0 : Nat) (sus : Bool), (fbOf s k).slice = some (i, t0, sus) → devRunning s = true → t0 + 50 ≤ now s →
    i ≠ digSlice → (fbOf s k).pendMark = false →
    ∃ t, exec (.selftestSliceEnd k true) s = .next t ∧ (fbOf t k).slice = none ∧ smGet 0 (fbOf t k).last i = now s ∧
      Counted s t (fbOfCore k) 2 1 ∧ (sus = false → k.cls ≠ .c → ∀ j ∈ streamsOf k, streamState t k j = cIdle) ∧
      t = { withBlock t s with fb := { s.fb with cores := t.fb.cores } }) ∧
  (∀ (s : State) (k : CoreId) (i t0 : Nat) (sus : Bool), k ∈ allCores → (fbOf s k).slice = some (i, t0, sus) → devRunning s = true →
    t0 + 50 ≤ now s → i ≠ digSlice →
    ∃ t, exec (.selftestSliceEnd k false) s = .next t ∧ (k.cls ≠ .c → ∀ j ∈ streamsOf k, streamState t k j = cSuspect) ∧
      (fbOf t k).marks = (fbOf s k).marks + 1 ∧ Counted s t (fbOfCore k) 3 1 ∧ Flagged t (fbOfCore k) 0 ∧
      (devState t = if markFatal s k = true then stHalt else stRun)) ∧
  (∀ (s : State) (k : CoreId) (t0 m : Nat) (sus odd pass : Bool), k ∈ allCores → (fbOf s k).slice = some (digSlice, t0, sus) →
    (fbOf s k).dig = some (m + 1, odd) → devRunning s = true → t0 + 50 ≤ now s → (fbOf s k).pendMark = false → isSuspect s k = false →
    k.cls ≠ .c →
    ∃ t, exec (.selftestSliceEnd k pass) s = .next t ∧ (fbOf t k).slice = none ∧
      (devState t = if m = 0 ∧ odd = true ∧ markFatal s k = true then stHalt else stRun) ∧
      (0 < m → (fbOf t k).dig = some (m, odd) ∧ ∀ j ∈ streamsOf k, streamState t k j = cIdle) ∧
      (m = 0 → odd = false → (fbOf t k).dig = none ∧ ∀ j ∈ streamsOf k, streamState t k j = cIdle) ∧
      (m = 0 → odd = true → isSuspect t k = true ∧ Flagged t (fbPage 0) 4 ∧ Counted s t (fbPage 0) 12 1)) ∧
  (∀ (s : State) (k : CoreId), devRunning s = true → (fbOf s k).debt = false → debtAge < coreAge s k →
    ∃ t, exec (.coverageDebt k) s = .next t ∧ fbOf t k = { fbOf s k with debt := true } ∧ Flagged t (fbOfCore k) 1 ∧
      t = { withBlock t s with fb := { s.fb with cores := t.fb.cores } }) ∧
  (∀ (s : State) (r : Req) (h : Stack), Accepted s r (fbPage (stackNo h)) 0x120 1 →
    let base := regField s (fbPage (stackNo h)) 0x11C 27 0 * pageBytes
    readRange s 0 base 2048 = .ok →
    ∃ t, exec (.loadQuiet r h) s = .next t ∧ t.mem = s.mem ∧
      (∀ q, quietTable s (stackNo h) base 256 0 [] = some q → smFind t.fb.quietTo (stackNo h) = some q ∧
        regField t (fbPage (stackNo h)) 0x104 23 16 = statusCode .ok) ∧
      (quietTable s (stackNo h) base 256 0 [] = none → t.fb = s.fb ∧ regField t (fbPage (stackNo h)) 0x104 23 16 = statusCode .range)) ∧
  (∀ (s : State) (t0 : Nat) (rest : List Nat) (g : Graph), s.fb.canDue = t0 :: rest → devRunning s = true → jobOf s canaryKey = none →
    readGraph s 0 (canaryGraph s) = .ok g → canaryStatus s = .ok → (∀ k ∈ canaryCores s, ∀ i ∈ streamsOf k, streamState s k i = cIdle) →
    ∃ t j, exec .canaryStart s = .next t ∧ jobOf t canaryKey = some j ∧ j.state = jRunning ∧ j.stages = stageRts g ∧ t.fb.canDue = rest ∧
      (t0 < now s → Flagged t roPage 2 ∧ Counted s t roPage 5 1) ∧ (now s ≤ t0 → t.ctrs = s.ctrs) ∧ t.mem = s.mem) ∧
  (∀ (s : State) (j : Job), jobOf s canaryKey = some j → jobOver s canaryKey j = true → devRunning s = true →
    ∃ t, exec .canaryCompare s = .next t ∧ jobOf t canaryKey = none ∧
      (∀ d, j.status = .ok → canaryDigest s = .ok d → d = canaryRef s →
        t.fb.lastPass = now s ∧ Counted s t (fbPage 0) 5 1 ∧ regField t (fbPage 0) 0x140 15 8 = 1 ∧ devRunning t = true) ∧
      (∀ d, j.status = .ok → canaryDigest s = .ok d → d ≠ canaryRef s → Counted s t (fbPage 0) 6 1 ∧ Halted s t 0 3 (fbPage 0)) ∧
      (j.status ≠ .ok → Counted s t (fbPage 0) 6 1 ∧ regField t (fbPage 0) 0x140 15 8 = 3 ∧
        regField t (fbPage 0) 0x140 7 0 = statusCode j.status ∧ devRunning t = true)) ∧
  ∀ (s : State) (odd : List CoreId), devRunning s = true → regBit s (fbPage 0) 0x100 16 = true → roState s = roRun →
    let p := regField s (fbPage 0) 0x100 15 8
    let f := (now s - roOrigin s) / 10000
    p ≠ 0 → f % p = 0 → s.fb.digFrame ≤ f →
    ∃ t, exec (.digestRound odd) s = .next t ∧ t.fb.digFrame = f + 1 ∧ Counted s t (fbPage 0) 10 1 ∧
      (let body := manBody s 0
      let total := atN body 100 2
      body ≠ [] → total ≠ 0 → ∀ i k, digNext s 0 body total total (smGet 0 s.fb.nextDig 0) 0 = (some i, k) →
        smGet 0 t.fb.nextDig 0 = (i + 1) % total ∧ (digOwn s 0 (digEntry body i) ≠ some (digEntry body i).digest → Flagged t (fbPage 0) 4) ∧
        (digOwn s 0 (digEntry body i) = some (digEntry body i).digest → ∀ k ∈ digCores s i, isSuspect s k = false →
          (fbOf t k).dig = some (((digEntry body i).pages + 47) / 48, odd.contains k)))


/-! ### The pair (chapter 15) -/

/-- FLIT_RECEIVED, LINK_DOWN, LINK_TRAINED, HELLO, CONFIRM, TICK_ALIGN, BEAT, MANIFEST, VL_CTRL_EN and RETRAIN. -/
def Obligations.LinkEffects : Prop :=
  (∀ (s : State) (count : Nat) (bytes : List Byte), isPair s = true → vlAuth ≤ linkState s →
    ∃ t, exec (.flitReceived count false bytes) s = .next t ∧ t.vl.nak = true ∧ t.vl.inbox = s.vl.inbox ∧ Counted s t vlPage 3 1 ∧ RegsBut [] s t ∧
      t = { withBlock t s with vl := t.vl }) ∧
  (∀ (s : State) (count : Nat) (bytes area : List Byte) (ms : List Msg), isPair s = true → vlAuth ≤ linkState s →
    let confirmed := decide (linkState s ≥ vlAlign) || s.vl.inbox.any fun m => m.cls == 2 && m.sub == 2
    let head := bytes.take 8
    let body := (bytes.drop 8).take 1000
    let used := bytesNat ((head.drop 6).take 2)
    (confirmed = false → area = body) → (confirmed = true → s.vl.rxCount ≤ count) →
    (confirmed = true → gcmOpen (sub s.vl.keys (if s.dev.pairPos then 0 else 32) 32) (natBytes 8 count ++ List.replicate 4 0) head body
      ((bytes.drop 1008).take 16) = some area) →
    flitMsgs 251 (area.take used) = some ms → 0 < used → used ≤ 1000 → bytesNat (head.take 2) = (s.vl.rxSeq + 1) % 65536 →
    (head.getD 4 0).getLsbD 0 = false →
    ∃ t, exec (.flitReceived count true bytes) s = .next t ∧ t.vl.inbox = s.vl.inbox ++ ms.filter (msgOccurs confirmed) ∧
      t.vl.rxSeq = (s.vl.rxSeq + 1) % 65536 ∧ t.vl.lastFec = now s ∧ Counted s t vlPage 2 1 ∧ RegsBut [] s t ∧ t = { withBlock t s with vl := t.vl }) ∧
  (∀ (s : State), vlAuth ≤ linkState s →
    (16 ≤ (s.vl.naks.filter fun t => decide (now s < t + 1000)).length ∨ s.vl.thrice = true ∨ s.vl.lastFec + 2 ≤ now s ∨ 3 ≤ s.vl.tagRun) →
    ∃ t, exec .linkDown s = .next t ∧ linkState t = vlTrain ∧ Flagged t vlPage 0 ∧ Counted s t vlPage 5 1 ∧ t.vl.keys = [] ∧ t.vl.inbox = [] ∧
      t.vl.out = [] ∧ t.vl.lead = s.vl.lead ∧ t.vl.epoch = s.vl.epoch ∧ t = { withBlock t s with vl := t.vl, time := t.time }) ∧
  (∀ (s : State), linkState s = vlTrain → isLooped s vlPage = false →
    ∃ t, exec .linkTrained s = .next t ∧ linkState t = vlAuth ∧ t.vl.out = s.vl.out ++ [⟨2, 1, 0xFF, t.vl.ownHello⟩] ∧ t.vl.lastFec = now s ∧
      t.mem = s.mem ∧ t.tally = s.tally) ∧
  (∀ (s : State) (m : Msg), Front s 2 1 m → linkState s = vlAuth → s.vl.hello = [] →
    ∃ t, exec .hello s = .next t ∧ t.vl.lastBeat = some (now s) ∧
      (m.body.length = 148 → at8 m.body 48 ≠ s.dev.pairPos.toNat → at8 m.body 49 = lcSealed →
        linkState t = vlAuth ∧ t.vl.hello = m.body ∧ t.vl.keys = linkKeys t ∧ t.vl.inbox = s.vl.inbox.erase m ∧
        t.vl.out = s.vl.out ++ [⟨2, 2, 0xFF, confirmBytes t s.dev.pairPos⟩] ∧ t = { s with vl := t.vl }) ∧
      (m.body.length ≠ 148 ∨ at8 m.body 48 = s.dev.pairPos.toNat ∨ at8 m.body 49 ≠ lcSealed →
        linkState t = vlTrain ∧ Flagged t vlPage 1 ∧ t.vl.keys = [])) ∧
  (∀ (s : State) (m : Msg), Front s 2 2 m → linkState s = vlAuth → s.vl.hello ≠ [] →
    ∃ t, exec .confirm s = .next t ∧ t.mem = s.mem ∧ t.tally = s.tally ∧
      (m.body = confirmBytes s (!s.dev.pairPos) → t.vl.passed = true) ∧
      (m.body = confirmBytes s (!s.dev.pairPos) → sub s.vl.hello 52 48 = sub s.vl.ownHello 52 48 →
        linkState t = vlAlign ∧ t.vl.reached = true ∧ t.vl.alignAt = some (now s) ∧ (isPair s = true → s.dev.pairPos = true → field (timeStat t) 5 4 = 3)) ∧
      (m.body = confirmBytes s (!s.dev.pairPos) → sub s.vl.hello 52 48 ≠ sub s.vl.ownHello 52 48 →
        linkState t = vlApart ∧ Flagged t vlPage 11 ∧ t.vl.lead = s.vl.lead) ∧
      (m.body ≠ confirmBytes s (!s.dev.pairPos) → linkState t = vlTrain ∧ Flagged t vlPage 1 ∧ t.vl.passed = s.vl.passed)) ∧
  (∀ (s : State) (m : Msg) (off : Int), Front s 1 0 m → (linkState s = vlAlign ∨ linkState s = vlResync ∨ linkState s = vlPaired) →
    let bStep := if s.dev.pairPos then s.time.stepDone else (m.body.getD 48 0).getLsbD 3
    ∃ t, exec (.tickAlign off) s = .next t ∧ t.mem = s.mem ∧ (s.vl.reached = true → t.vl.lead = s.vl.lead) ∧
      (linkState s = vlAlign → off.natAbs ≤ 50 → bStep = true → s.vl.near + 1 < 100 → linkState t = vlAlign ∧ t.vl.near = s.vl.near + 1) ∧
      (linkState s = vlAlign → off.natAbs ≤ 50 → bStep = true → 100 ≤ s.vl.near + 1 → linkState t = vlResync ∧ t.vl.near = 0) ∧
      (linkState s = vlAlign → 50 < off.natAbs → off.natAbs ≤ 1000000 → linkState t = vlAlign ∧ t.vl.near = 0) ∧
      (linkState s ≠ vlAlign → 1000000 < off.natAbs → linkState t = vlApart ∧ Flagged t vlPage 2) ∧
      (linkState s ≠ vlAlign → off.natAbs ≤ 500 → linkState t = linkState s ∧ t.vl.far = 0) ∧
      (linkState s ≠ vlAlign → 500 < off.natAbs → off.natAbs ≤ 1000000 → 2 ≤ s.vl.far → s.vl.reached = true →
        linkState t = vlAlign ∧ Flagged t vlPage 3)) ∧
  (∀ (s : State) (m : Msg), Front s 2 0 m →
    ∃ t, exec .beat s = .next t ∧
      t = { s with vl := { s.vl with inbox := s.vl.inbox.erase m, lastBeat := some (now s), beatFor := at8 m.body 4 } }) ∧
  (∀ (s : State) (m : Msg), Front s 6 6 m → vlAlign ≤ linkState s →
    ∃ t, exec .manifest s = .next t ∧ t = { s with vl := { s.vl with inbox := s.vl.inbox.erase m, mateMan := m.body.take 256 } }) ∧
  (∀ (s : State) (r : Req) (w : Word), Accepted s r vlPage 0x100 w →
    ∃ t, exec (.vlCtrlEn r w) s = .next t ∧ regField t vlPage 0x100 31 16 = field w 31 16 ∧ regBit t vlPage 0x100 0 = bit w 0 ∧
      (bit w 0 = true → linkState s = vlOff → linkState t = vlTrain) ∧ (bit w 0 = false → linkState t = vlOff) ∧
      (bit w 0 = true → linkState s ≠ vlOff → linkState t = linkState s ∧ t.vl = s.vl) ∧ t.vl.lead = s.vl.lead) ∧
  ∀ (s : State) (r : Req), Accepted s r vlPage 0x120 2 →
    ∃ t, exec (.retrain r) s = .next t ∧ linkState t = vlTrain ∧ t.vl.keys = [] ∧ t.vl.inbox = [] ∧ t.vl.out = [] ∧ t.vl.lead = s.vl.lead

/-- HEARTBEAT_LOSS, LIFE_IN_LOSS, JOIN_TIMEOUT, LEAD_TOKEN, YIELD, LIFE_IN_EDGE and LIFE_OUT_TOGGLE. -/
def Obligations.LeadEffects : Prop :=
  (∀ (s : State) (b : Nat), MayTake s → s.vl.mateLed = true → s.vl.lastBeat = some b → b + 3 ≤ now s →
    ∃ t, exec .heartbeatLoss s = .next t ∧ Takes s t 3 ∧ Flagged t vlPage 10 ∧ Counted s t vlPage 8 1) ∧
  (∀ (s : State), MayTake s → s.vl.mateLed = true → lifeLoss s = true →
    ∃ t, exec .lifeInLoss s = .next t ∧ Takes s t 4 ∧ Flagged t vlPage 10 ∧ Counted s t vlPage 8 1) ∧
  (∀ (s : State) (a : Nat), MayTake s → s.vl.runAt = some a → a + joinTmo s ≤ now s → s.vl.passed = false →
    (lifeLoss s = true ∨ s.dev.pairPos = false) → ∃ t, exec .joinTimeout s = .next t ∧ Takes s t 2) ∧
  (∀ (s : State) (a : Nat), isPair s = true → s.dev.pairPos = false → s.vl.passed = true → s.vl.alignAt = some a → a + joinTmo s ≤ now s →
    ptpEnabled s = true → s.time.stepDone = false → s.time.setPend = false → s.time.lockPend = false → BAct.timeStep 0 false ∉ s.atTick →
    ∃ t, exec .joinTimeout s = .next t ∧ t = { s with atTick := s.atTick ++ [.timeStep 0 false] }) ∧
  (∀ (s : State) (m : Msg), Front s 3 0 m →
    let e := BitVec.ofNat 32 (bytesNat (m.body.take 4))
    let f := m.body.getD 4 0
    ∃ t, exec .leadToken s = .next t ∧ t.vl.mateEpoch = e ∧
      regField t vlPage 0x104 7 6 = (if f.getLsbD 2 then 3 else if f.getLsbD 0 then 2 else 1) ∧
      (f.getLsbD 0 = true → t.vl.mateLed = true) ∧
      (f.getLsbD 0 = true → s.vl.lead = false → t.vl.lead = false ∧ t.vl.epoch = e) ∧
      (f.getLsbD 0 = true → s.vl.lead = true → (s.vl.epoch.toNat < e.toNat ∨ (e = s.vl.epoch ∧ at8 m.body 5 = 0)) →
        t.vl.lead = false ∧ t.vl.epoch = e ∧ Flagged t vlPage 9 ∧ (linkState s = vlPaired → linkState t = vlResync)) ∧
      (f.getLsbD 0 = true → s.vl.lead = true → e.toNat < s.vl.epoch.toNat → t.vl.lead = true ∧ t.vl.epoch = s.vl.epoch ∧ Flagged t vlPage 9) ∧
      (f.getLsbD 0 = false → f.getLsbD 1 = true → isPair s = true → ableLead s = true → s.vl.lead = false →
        max s.vl.epoch.toNat e.toNat < 0xFFFFFFFF → t.vl.lead = true ∧ t.vl.epoch = BitVec.ofNat 32 (max s.vl.epoch.toNat e.toNat + 1) ∧
        regVal t vlPage 0x11C = 5) ∧ t.mem = s.mem ∧ t.tally = s.tally) ∧
  (∀ (s : State) (r : Req), Accepted s r vlPage 0x120 1 →
    ∃ t, exec (.yield r) s = .next t ∧ t.vl.lead = false ∧ t.vl.epoch = s.vl.epoch ∧ regVal t vlPage 0x118 = nowW s ∧ regVal t vlPage 0x11C = 7 ∧
      Counted s t vlPage 7 1 ∧ Counted s t vlPage 9 1 ∧ linkState t = linkState s ∧
      (vlAlign ≤ linkState s → ∃ m, t.vl.out = s.vl.out ++ [m] ∧ m.cls = 3 ∧ (m.body.getD 4 0).getLsbD 1 = true) ∧
      t = { withBlock t s with reply := ⟨.ok, 0⟩, vl := { s.vl with lead := false, out := t.vl.out } }) ∧
  (∀ (s : State), isPair s = false ∨ devRunning s = false → exec .lifeInEdge s = .next s) ∧
  (∀ (s : State), isPair s = true → devRunning s = true →
    ∃ t, exec .lifeInEdge s = .next t ∧ t.vl.lastLife = some (now s) ∧ (∀ a, s.vl.lastLife = some a → a < now s → t.vl.prevLife = some a) ∧
      t = { s with vl := { s.vl with lastLife := t.vl.lastLife, prevLife := t.vl.prevLife } }) ∧
  ∀ (s : State), devRunning s = true → powered s = true → pgState s (fbPage 0) = fbReady → pgState s (fbPage 1) = fbReady → now s % 100 = 0 →
    s.vl.lifeAt ≠ some (now s) →
    ∃ t, exec .lifeOutToggle s = .next t ∧ t = { s with vl := { s.vl with lifeOut := !s.vl.lifeOut, lifeAt := some (now s) } }

/-- The rows of R294, R380, R414, R607, R609 to R612. -/
def Obligations.MirrorEffects : Prop :=
  (∀ (s : State) (m : Msg), Front s 4 0 m → mirrors s = true → partAgrees s m.part = true →
    ∃ t, exec .inputDigest s = .next t ∧
      (∀ x, s.vl.mine.find? (fun x => digestKey x.1 == digestKey m.body) = some x → t.vl.mine = s.vl.mine.erase x ∧ t.vl.theirs = s.vl.theirs ∧
        Counted s t vlPage 10 1 ∧ (x.1 ≠ m.body → Flagged t vlPage 4 ∧ Counted s t vlPage 11 1) ∧ (x.1 = m.body → RegsBut [] s t)) ∧
      (s.vl.mine.find? (fun x => digestKey x.1 == digestKey m.body) = none → t.vl.theirs = s.vl.theirs ++ [(m.body, now s)] ∧ t.vl.mine = s.vl.mine) ∧
      t = { withBlock t s with vl := { s.vl with inbox := s.vl.inbox.erase m, mine := t.vl.mine, theirs := t.vl.theirs } }) ∧
  (∀ (s : State) (x : List Byte × Nat), (s.vl.theirs ++ s.vl.mine).find? (fun x => decide (now s ≥ x.2 + 2000)) = some x →
    ∃ t, exec .inputDigestLate s = .next t ∧ t.vl.theirs = s.vl.theirs.erase x ∧ t.vl.mine = s.vl.mine.erase x ∧ Counted s t vlPage 12 1 ∧
      RegsBut [] s t ∧ t = { withBlock t s with vl := { s.vl with mine := t.vl.mine, theirs := t.vl.theirs } }) ∧
  (∀ (s : State) (m : Msg), DeltaFront s 1 m → at8 m.body 0 < 64 →
    ∃ t x, exec .foxgloveDelta s = .next t ∧ (fxCh t (at8 m.body 0)).mirror = some x ∧ x.seq = bytesNat (sub m.body 2 2) ∧
      x.flags = at8 m.body 1 ∧ x.i = (BitVec.ofNat 32 (bytesNat (sub m.body 4 4))).toInt ∧ x.e = (BitVec.ofNat 32 (bytesNat (sub m.body 8 4))).toInt ∧
      (∀ c, c ≠ at8 m.body 0 → fxCh t c = fxCh s c) ∧
      t = { s with vl := { s.vl with inbox := s.vl.inbox.erase m }, fx := { s.fx with chans := t.fx.chans } }) ∧
  (∀ (s : State) (m : Msg), DeltaFront s 2 m →
    ∃ t, exec .trajectoryDelta s = .next t ∧
      t = { s with vl := { s.vl with inbox := s.vl.inbox.erase m }, seq := { s.seq with mateForce := some (trajOf m.body) } }) ∧
  (∀ (s : State) (m : Msg), DeltaFront s 3 m →
    ∃ t, exec .heldStopDelta s = .next t ∧
      t = { s with vl := { s.vl with inbox := s.vl.inbox.erase m }, seq := { s.seq with mateHeld := some (trajOf m.body) } }) ∧
  (∀ (s : State) (m : Msg), DeltaFront s 4 m → at8 m.body 0 < 2 → s.vl.trk.length = 2 →
    let core := at8 m.body 0
    let seq := bytesNat (sub m.body 4 4)
    let idx := bytesNat ((m.body.drop 2).take 2)
    ∃ t, exec .trackDelta s = .next t ∧
      (seq = (trkOf s core).seq → (seq ≠ (trkOf s core).late ∨ seq = 0) → idx < 512 →
        trackRec t core idx = ((List.range 512).map fun i => m.body.getD (8 + i) 0) ∧
        (∀ j, j < 512 → j ≠ idx → trackRec t core j = trackRec s core j)) ∧
      ((trkOf s core).seq < seq → trkOf t core = { trkOf s core with got := (trkOf s core).got ++ [(seq, m.body)] } ∧ t.tracks = s.tracks) ∧
      (seq < (trkOf s core).seq → Counted s t vlPage 14 1 ∧ t.tracks = s.tracks) ∧ t.mem = s.mem) ∧
  (∀ (s : State) (core : Fin 2) (a : Nat), (trkOf s core).wait = some a → a + 200 ≤ now s → s.vl.trk.length = 2 →
    ∃ t, exec (.trackDeltaTimeout core) s = .next t ∧ trkOf t core = { trkOf s core with wait := none, late := (trkOf s core).seq } ∧
      t = { s with vl := { s.vl with trk := t.vl.trk } }) ∧
  (∀ (s : State) (m : Msg), DeltaFront s 5 m →
    let d : KvDelta := ⟨m.part, at8 m.body 0 % 4, at8 m.body 1, at8 m.body 2, at8 m.body 3, bytesNat (sub m.body 4 2), bytesNat (sub m.body 6 2),
      bytesNat (sub m.body 8 4), bytesNat (sub m.body 16 16), now s⟩
    ∃ t, exec .kvDelta s = .next t ∧ t.mem = s.mem ∧
      (∀ x, s.kv.mine.find? (sameDelta d) = some x → t.kv = { s.kv with mine := s.kv.mine.erase x } ∧
        (x.digest ≠ d.digest → Flagged t (kvHeadPage x.head) 7 ∧ Counted s t (kvHeadPage x.head) 10 1) ∧ (x.digest = d.digest → t.ctrs = s.ctrs)) ∧
      (s.kv.mine.find? (sameDelta d) = none → linkState s = vlPaired → t.kv = { s.kv with theirs := s.kv.theirs ++ [d] })) ∧
  (∀ (s : State) (m : Msg), DeltaFront s 6 m →
    ∃ t, exec .rcMemoryDelta s = .next t ∧
      (∀ i, i < min (at8 m.body 2) 240 → smGet 0 t.fx.pool (at8 m.body 3 % 2 * 65536 + (bytesNat (m.body.take 2) + i) % 65536) =
        BitVec.ofNat 32 (bytesNat (sub m.body (4 + 4 * i) 4))) ∧
      t = { s with vl := { s.vl with inbox := s.vl.inbox.erase m }, fx := { s.fx with pool := t.fx.pool } }) ∧
  (∀ (s : State) (m : Msg), Front s 5 7 m → isStandby s = true → linkState s = vlResync →
    ∃ t, exec .resyncEnd s = .next t ∧ linkState t = vlPaired ∧ t = { s with regs := t.regs, vl := { s.vl with inbox := s.vl.inbox.erase m } }) ∧
  (∀ (s : State) (m : Msg) (pool k fill : Nat), Front s 6 1 m → mirrors s = true → partAgrees s m.part = true →
    reqPage s m.part m.body = some (pool, k, fill) →
    let c := poolCfg s m.part pool
    let n := fillBytes c fill
    ∃ t fs, exec .kvReq s = .next t ∧ t.vl.out = s.vl.out ++ fs ∧ (∀ x ∈ fs, x.cls = 6 ∧ x.sub = 2 ∧ x.part = m.part) ∧
      (fs.flatMap fun x => x.body.drop 12) =
        readBytes s m.part (kvRowAddr c k 0 false) n ++ readBytes s m.part (kvRowAddr c k 0 true) n ∧ t.mem = s.mem) ∧
  (∀ (s u : State) (m : Msg) (data : List Byte) (q : Nat × List Byte) (pool k fill : Nat), Front s 6 2 m → mirrors s = true →
    partAgrees s m.part = true → takeFragment (dropMsg s m) m = (u, some data) →
    u.vl.kvReqs.find? (fun q => q.1 == m.part &&
      data.length == 2 * fillBytes (poolCfg u m.part (at8 q.2 0 % 4)) (min (at8 q.2 8) 64)) = some q →
    reqPage s m.part q.2 = some (pool, k, fill) →
    let c := poolCfg s m.part pool
    let n := fillBytes c fill
    let v := writeBytes u m.part (kvRowAddr c k 0 false) (data.take n)
    writeRange u m.part (kvRowAddr c k 0 false) n false true = .ok → writeRange v m.part (kvRowAddr c k 0 true) n false true = .ok →
    ∃ t, exec .kvData s = .next t ∧ t.mem.cells = (writeBytes v m.part (kvRowAddr c k 0 true) (sub data n n)).mem.cells ∧
      t.vl.kvReqs = u.vl.kvReqs.erase q ∧ Counted s t vlPage 15 1 ∧ RegsBut [] s t) ∧
  (∀ (s : State) (m : Msg), Front s 6 3 m → vlAlign ≤ linkState s → (secOf s atMate).at' = none →
    let cmd := bytesNat (m.body.take 2)
    (cmd % 4 = 1 ∨ cmd % 4 = 2) →
    ∃ t, exec .attReq s = .next t ∧ (secOf t atMate).at' = some ⟨cmd % 4, cmd / 256 % 16, sub m.body 2 48, now s, none, none⟩ ∧
      t.sec.atOrder = s.sec.atOrder.filter (atBefore s atMate) ++ [atMate] ++ s.sec.atOrder.filter (fun n => !(atBefore s atMate n)) ∧ t.vl = { s.vl with inbox := s.vl.inbox.erase m } ∧ t.mem = s.mem) ∧
  (∀ (s : State) (m : Msg), Front s 6 4 m →
    ∃ t, exec .attRpt s = .next t ∧ (m.body.length ≤ 1 → t.vl.report = m.body) ∧
      (∀ u data, 1 < m.body.length → takeFragment (dropMsg s m) m = (u, some data) → t.vl.report = data) ∧ t = { s with vl := t.vl }) ∧
  ∀ (s : State) (m : Msg), Front s 6 5 m → mirrors s = true → partAgrees s m.part = true → m.part < 16 →
    let theirs := sub m.body 2 16
    let i := bytesNat (m.body.take 2)
    ∃ t, exec .digest s = .next t ∧ (sub m.body 18 16 ≠ theirs → Flagged t vlPage 6 ∧ Flagged t (fbPage 0) 4 ∧ Counted s t (fbPage 0) 12 1) ∧
      (i < atN (manBody s m.part) 100 2 → (digEntry (manBody s m.part) i).digest = theirs → partAgrees t m.part = true) ∧
      (atN (manBody s m.part) 100 2 ≤ i ∨ (digEntry (manBody s m.part) i).digest ≠ theirs → Flagged t vlPage 7 ∧ partAgrees t m.part = false) ∧
      t.mem = s.mem ∧ t.tally = s.tally


/-! ### Reset, boot and the endpoint (chapters 04, 11 and 16) -/

/-- PARTIAL_RESET_COMPLETE, RESET_RELEASE, BOOT_SLOT_CHECK, BOOT_LAYOUT_LOAD, RESET_N_ASSERT, PERST_N_ASSERT and FUNCTION_LEVEL_RESET. -/
def Obligations.ResetEffects : Prop :=
  (∀ (s : State) (n : Part), inReset s n.val = true → presetDone s n.val = true → BAct.presetEnd n.val ∉ s.atTick → BAct.presetBegin n.val ∉ s.atTick →
    ∃ t, exec (.partialResetComplete n) s = .next t ∧ t = { s with atTick := s.atTick ++ [.presetEnd n.val] }) ∧
  (∀ (s : State), s.sec.boot.held = true → s.supply.main = true →
    let f := s.sec.flash
    ∃ t, exec .resetRelease s = .next t ∧ t.sec.boot.held = false ∧ t.sec.boot.next = 0 ∧ t.supply.resetN = false ∧ t.vl.epoch = f.pairEpoch ∧
      (∀ x, f.trial = some x → f.tried = false → t.sec.boot.slot = x ∧ t.sec.boot.trialRun = true ∧ t.sec.flash = { f with tried := true }) ∧
      (f.trial = none ∨ f.tried = true → t.sec.boot.slot = f.active ∧ t.sec.boot.trialRun = false ∧ t.sec.flash = f) ∧
      t = { s with sec := { s.sec with boot := t.sec.boot, flash := t.sec.flash }, supply := t.supply, vl := t.vl }) ∧
  (∀ (s : State) (image : Option (List Byte)), s.sec.boot.held = false → devState s = stBoot → s.sec.boot.failed < 2 → s.sec.boot.next < 4 →
    lifecycle s ≠ lcScrapped →
    let b := s.sec.boot
    let read := image.map fun x => match s.sec.flash.slots.getD b.slot none with
      | some cs => cs.getD b.next []
      | none => x
    let bad := read.any (fun x => (imageBad x (b.next + 1) (compLimit b.next) fuseVfw (fuseCounter s b.next)).isSome) || read.isNone
    ∃ t, exec (.bootSlotCheck image) s = .next t ∧
      (∀ x, read = some x → bad = false → t.sec.boot = { b with comps := b.comps ++ [x], next := b.next + 1 }) ∧
      (bad = true → b.failed = 0 →
        t.sec.boot = { b with slot := 1 - b.slot, failed := 1, next := 0, comps := [], fallback := true, trialRun := false } ∧ t.sec.update = 0) ∧
      (bad = true → b.failed = 1 → t.sec.boot = { b with failed := 2, comps := [] }) ∧
      (bad = true → b.trialRun = true → Flagged t (mbPage 0) 3) ∧ (bad = false ∨ b.trialRun = false → t.regs = s.regs) ∧
      t = { withBlock t s with sec := { s.sec with boot := t.sec.boot, update := t.sec.update } }) ∧
  (∀ (s : State), s.sec.boot.held = false → devState s = stBoot → 4 ≤ s.sec.boot.next → lifecycle s ≠ lcScrapped →
    let img := s.sec.flash.layout.getD []
    let l := parseLayout (imgBody img) (imgSvn img)
    ∃ t, exec .bootLayoutLoad s = .next t ∧
      (layoutImageBad s img ≠ none → devState t = stRefused ∧ Flagged t devPage 1 ∧ t.dev = s.dev ∧ t.mem = s.mem) ∧
      (layoutImageBad s img = none → s.fb.bootFail = none → (∀ k ∈ allCores, (fbOf s k).bootBad = false) →
        devState t = stRun ∧ t.dev.layout = some l ∧ t.sec.boot.layoutDigest = imgDigest img ∧ t.vl.runAt = some (now s) ∧
        t.sec.flash.counters = s.sec.flash.counters.set 4 (max (s.sec.flash.counters.getD 4 0) l.svn) ∧
        ∀ p ∈ allPages, ∀ w, ownerWord l p = some w → regVal t p 0x020 = BitVec.ofNat 32 w)) ∧
  (∀ (s : State), s.supply.main = true → ∃ t, exec .resetNAssert s = .next t ∧ ResetFrom s t true ∧ t.supply.resetN = true ∧ t.supply.main = true ∧
    (∀ pin, safeOutConducts t pin = false) ∧ pairLeadConducts t = false ∧ lifeOutHigh t = false) ∧
  (∀ (s : State), s.supply.main = true → s.sec.boot.held = false →
    ∃ t, exec .perstNAssert s = .next t ∧ Flagged t pciePage 3 ∧ regVal t pciePage 0x100 = 0 ∧ regVal t pciePage 0x104 = 0 ∧
      (∀ n r, n < 16 → MbWaits s n 0x06 r → MbEnds t n r .timeout (natBytes 4 0)) ∧
      (∀ n, (∀ r, ¬ MbWaits s n 0x06 r) → secOf t n = secOf s n) ∧
      RegsBut [regKey pciePage 0x010, regKey pciePage 0x100, regKey pciePage 0x104] s t ∧
      t = { withBlock t s with sec := { s.sec with parts := t.sec.parts } }) ∧
  ∀ (s : State) (n : Part), s.supply.main = true → s.sec.boot.held = false →
    ∃ t, exec (.functionLevelReset n) s = .next t ∧ Flagged t pciePage 2 ∧
      (∀ r, MbWaits s n.val 0x06 r → MbEnds t n.val r .timeout (natBytes 4 0)) ∧ SecBut n.val s t ∧ RegsBut [regKey pciePage 0x010] s t ∧
      t = { withBlock t s with sec := { s.sec with parts := t.sec.parts } }

/-! ### Power (chapter 12) -/

/-- PW_CMD_ACTIVE, PW_CMD_IDLE, PW_CMD_RETAIN, PW_CMD_STANDBY, PW_CMD_DEPOT, POWER_TRANSITION_COMPLETE, WAKE_COMPARE and HOST_LINK_WAKE. -/
def Obligations.PowerEffects : Prop :=
  (∀ (s : State) (r : Req), Accepted s r (partPage 0) 0x700 0 →
    ∃ t, exec (.pwCmdActive r) s = .next t ∧ regField t (partPage 0) 0x704 23 16 = 0 ∧ t.reply = ⟨.ok, 0⟩ ∧ t.dev = s.dev ∧ t.mem = s.mem ∧
      (s.dev.power = 0 → t.atTick = s.atTick ∧ t.sec = s.sec) ∧
      (s.dev.power = 1 ∨ s.dev.power = 5 → t.atTick = s.atTick ++ [.power 0] ∧
        t.sec = { s.sec with power := { s.sec.power with transit := some 0, src := 0 } }) ∧
      (s.dev.power = 2 → t.sec.power.transit = some 0 ∧ t.sec.power.src = 3 ∧ t.atTick = s.atTick ∧ ∀ k ∈ allCores, (fbOf t k).checked = none)) ∧
  (∀ (s : State) (r : Req), Accepted s r (partPage 0) 0x700 1 →
    ∃ t, exec (.pwCmdIdle r) s = .next t ∧ regField t (partPage 0) 0x704 23 16 = 0 ∧
      (s.dev.power = 1 → t.atTick = s.atTick ∧ t.sec = s.sec) ∧
      (s.dev.power = 0 → t.atTick = s.atTick ++ [.power 1] ∧ t.sec.power = { s.sec.power with transit := some 1, src := 0 }) ∧
      t = { s with regs := t.regs, atTick := t.atTick, sec := { s.sec with power := t.sec.power }, reply := ⟨.ok, 0⟩ }) ∧
  (∀ (s : State) (r : Req), Accepted s r (partPage 0) 0x700 2 →
    ∃ t, exec (.pwCmdRetain r) s = .next t ∧ regField t (partPage 0) 0x704 23 16 = 0 ∧ (s.dev.power = 2 → t.sec = s.sec) ∧
      (s.dev.power ≠ 2 → quiescent s = true ∧ t.sec.power.transit = some 2 ∧ t.sec.power.src = 0) ∧
      t = { s with regs := t.regs, sec := { s.sec with power := t.sec.power }, reply := ⟨.ok, 0⟩ }) ∧
  (∀ (s : State) (r : Req), Accepted s r (partPage 0) 0x700 3 → s.dev.power ≠ 3 →
    ∃ t, exec (.pwCmdStandby r) s = .next t ∧ regField t (partPage 0) 0x704 23 16 = 0 ∧ quiescent s = true ∧ t.sec.power.transit = some 3 ∧
      t.sec.power.src = 0 ∧ t = { s with regs := t.regs, sec := { s.sec with power := t.sec.power }, reply := ⟨.ok, 0⟩ }) ∧
  (∀ (s : State) (r : Req), Accepted s r (partPage 0) 0x700 5 →
    ∃ t, exec (.pwCmdDepot r) s = .next t ∧ regField t (partPage 0) 0x704 23 16 = 0 ∧ lifecycle s = lcSealed ∧
      (s.dev.power = 5 → t.atTick = s.atTick ∧ t.sec = s.sec) ∧
      (s.dev.power ≠ 5 → t.atTick = s.atTick ++ [.power 5] ∧ t.sec.power = { s.sec.power with transit := some 5, src := 0 }) ∧
      t = { s with regs := t.regs, atTick := t.atTick, sec := { s.sec with power := t.sec.power }, reply := ⟨.ok, 0⟩ }) ∧
  (∀ (s : State) (save digests reserved : Bool) (frames : List Nat) (target : Nat), s.sec.power.transit = some target → BAct.power target ∉ s.atTick →
    ∃ t, exec (.powerTransitionComplete save digests frames reserved) s = .next t ∧
      (target = 2 ∨ target = 3 ∧ save = true → t.atTick = s.atTick ++ [.power target] ∧ regField t (partPage 0) 0x704 23 16 = 0 ∧
        t = { s with regs := t.regs, atTick := t.atTick }) ∧
      (target = 3 → save = false → t.sec.power.transit = none ∧ regField t (partPage 0) 0x704 23 16 = statusCode .tierFault ∧
        t = { s with regs := t.regs, sec := { s.sec with power := t.sec.power } }) ∧
      (target = 0 → BAct.power 0 ∈ t.atTick ∧ regVal t (partPage 0) 0x710 = BitVec.ofNat 32 s.sec.power.src ∧ t.dev.layout = s.dev.layout) ∧
      (target = 0 → powerUnder s ≠ 3 → t.mem.cells = s.mem.cells ∧ devState t = devState s) ∧
      (target = 0 → powerUnder s = 3 → (digests && reserved) = false → devRunning s = true → devState t = stHalt)) ∧
  (∀ (s : State), regBit s (partPage 0) 0x70C 0 = true → reached (nowW s) (regVal s (partPage 0) 0x708) = true → s.sec.boot.held = false →
    vinWakes s = true →
    ∃ t, exec .wakeCompare s = .next t ∧ regBit t (partPage 0) 0x70C 0 = false ∧ t.mem = s.mem ∧
      (powered s = true → t = { s with regs := t.regs } ∧ RegsBut [regKey (partPage 0) 0x70C] s t) ∧
      (powered s = false → s.sec.power.transit = none → s.dev.power ≠ 4 → t.sec.power.transit = some 0 ∧ t.sec.power.src = 1) ∧
      (powered s = false → s.sec.power.transit = none → s.dev.power = 4 → t.sec.power = { s.sec.power with kept := 1 }) ∧
      (powerUnder s = 2 → t.irqs = sendIrq ⟨0, 2, .power⟩ s.irqs) ∧ (powerUnder s = 3 → t.irqs = s.irqs)) ∧
  ∀ (s : State), s.dev.power = 3 → regBit s (partPage 0) 0x70C 1 = true → vinWakes s = true → s.sec.power.transit = none →
    ∃ t, exec .hostLinkWake s = .next t ∧ t.sec.power = { s.sec.power with transit := some 0, src := 2 } ∧
      (∀ k ∈ allCores, (fbOf t k).checked = none) ∧ t = { s with regs := t.regs, sec := { s.sec with power := t.sec.power }, fb := t.fb }

/-- PWR_FAIL_N_ASSERT, UNDERVOLTAGE, BROWN_OUT_EXIT, BROWN_OUT_RESET, TAMPER, POWER_GOOD_LOST, HOLDUP_STORE_DRAW, HOLDUP_EXHAUSTED, POWER_UP,
POWER_LOSS and ALWAYS_ON_HOLD_EXPIRY. -/
def Obligations.SupplyEffects : Prop :=
  (∀ (s : State), s.supply.main = true → s.sec.boot.held = false →
    ∃ t, exec .pwrFailNAssert s = .next t ∧ 0 ∈ t.supply.sources ∧
      (s.dev.power = 4 → t = { s with supply := { s.supply with sources := t.supply.sources } }) ∧
      (s.dev.power ≠ 4 → t.dev.power = 4 ∧ t.sec.power.under = s.dev.power.toNat ∧ t.supply.brownAt = some (now s) ∧ t.gov.held = true ∧
        t.atTick = s.atTick ++ [.duty 8] ∧
        t = { s with
          dev := { s.dev with power := 4 }, sec := { s.sec with power := t.sec.power }, supply := t.supply, gov := { s.gov with held := true },
          atTick := t.atTick })) ∧
  (∀ (s : State), s.supply.main = true → s.sec.boot.held = false →
    ∃ t, exec .undervoltage s = .next t ∧ 2 ∈ t.supply.sources ∧ regBit t (partPage 0) 0x7D0 1 = true ∧ RegsBut [regKey (partPage 0) 0x7D0] s t ∧
      t.dev.power = 4 ∧ (s.dev.power ≠ 4 → t.supply.brownAt = some (now s) ∧ t.atTick = s.atTick ++ [.duty 8] ∧ t.gov.held = true) ∧ t.mem = s.mem) ∧
  (∀ (s : State) (under : Bool) (b : Nat), s.supply.brownAt = some b → s.dev.power = 4 → b + 100 ≤ now s →
    let left := nlDel s.supply.sources (if under then 2 else 0)
    let x := s.sec.power
    ∃ t, exec (.brownOutExit under) s = .next t ∧
      (left ≠ [] → t = { s with supply := { s.supply with sources := left } }) ∧
      (left = [] → t.dev.power = BitVec.ofNat 4 x.under ∧ t.supply.brownAt = none ∧ t.gov.held = false ∧ t.mem.heldWrites = [] ∧
        (s.mem.heldWrites = [] → t.mem = s.mem) ∧ (x.kept = 0 → t.sec.power = { x with under := 0, kept := 0 }) ∧
        (x.kept ≠ 0 → x.transit = none → x.under = 2 ∨ x.under = 3 → t.sec.power.transit = some 0 ∧ t.sec.power.src = x.kept))) ∧
  (∀ (s : State) (b : Nat), s.supply.brownAt = some b → s.dev.power = 4 → b + 10000 ≤ now s → s.supply.sources ≠ [] →
    ∃ t, exec .brownOutReset s = .next t ∧ ResetFrom s t true ∧ t.supply.main = s.supply.main ∧ t.supply.brownAt = none) ∧
  (∀ (s : State) (source : Fin 8), s.supply.main = true → s.sec.boot.held = false → devRunning s = true →
    (source ≠ 0 ∨ ∃ l, s.dev.layout = some l ∧ l.tamperPin = true) →
    ∃ t, exec (.tamper source) s = .next t ∧ devState t = stHalt ∧ (powerUnder s ≠ 3 → Counted s t (mbPage 0) 8 1) ∧ t.face = [] ∧ t.mem.tags = [] ∧
      t.sec.flash.tampers = s.sec.flash.tampers ++ [(source.val, now s, lifecycle s)] ∧ t.sec.flash.d2Armed = none ∧
      (∀ n, n < 16 → (secOf t n).session = 0 ∧ (secOf t n).sk = [] ∧ (secOf t n).dbg = dbgD0 ∧ (secOf t n).armed = false ∧ Flagged t (mbPage n) 4) ∧
      ∀ a, memByte t a = if a < driftBase then unlisted else memByte s a) ∧
  (∀ (s : State), s.supply.main = true → s.sec.boot.held = false → s.dev.layout = none →
    ∃ t, exec (.tamper 0) s = .next t ∧ (powerUnder s ≠ 3 → Counted s t (mbPage 0) 8 1) ∧ CtrsBut [ctrKey (mbPage 0) 8] s t ∧ RegsBut [] s t ∧ OnlyBlock s t) ∧
  (∀ (s : State), s.supply.main = true → ∃ t, exec .powerGoodLost s = .next t ∧ ResetFrom s t true ∧ t.supply.main = true) ∧
  (∀ (s : State), s.supply.main = true → s.supply.drawAt = none →
    ∃ t, exec .holdupStoreDraw s = .next t ∧ regBit t (partPage 0) 0x7D0 3 = true ∧ RegsBut [regKey (partPage 0) 0x7D0] s t ∧
      t = { withBlock t s with supply := { s.supply with drawAt := some (now s) } }) ∧
  (∀ (s : State) (d : Nat), s.supply.drawAt = some d → s.supply.main = true → d + 3000 ≤ now s →
    ∃ t, exec .holdupExhausted s = .next t ∧ ResetFrom s t false ∧ t.supply.main = false) ∧
  (∀ (s : State), s.supply.main = false →
    ∃ t, exec .powerUp s = .next t ∧ ResetFrom s t true ∧ t.supply.main = true ∧ t.supply.always = true ∧ t.tap = TapSt.reset) ∧
  (∀ (s : State), s.supply.main = true →
    ∃ t, exec .powerLoss s = .next t ∧ ResetFrom s t false ∧ t.supply.main = false ∧
      (∀ pin, safeOutConducts t pin = false) ∧ pairLeadConducts t = false ∧ lifeOutHigh t = false ∧ t.supply.lostAt = some (s.supply.lostAt.getD (now s))) ∧
  ∀ (s : State), s.supply.lostAt.isSome = true → s.supply.main = false →
    ∃ t, exec .alwaysOnHoldExpiry s = .next t ∧ t.fx.chans = [] ∧
      (∀ p off, pageOk p = true → off < 0x1000 → regVal t p off = if p.cls = .fxch then regReset p off else regVal s p off) ∧
      t = { s with supply := { s.supply with always := false }, fx := { s.fx with chans := [] }, regs := t.regs }

/-! ### Ports and BARs (chapter 16) -/

/-- TIER_WINDOW_READ, TIER_WINDOW_WRITE, BAR2_RING_WRITE, PORT_LINK_CHANGE, CAN_BUS_OFF_RECOVERY, PCIE_LINK_CHANGE and PCIE_LTSSM_LOOPBACK. -/
def Obligations.PortEffects : Prop :=
  (∀ (s : State) (n : Part) (off : BitVec 29) (size : AccSize), barOpen s = true →
    let a := twAddr s n.val off.toNat
    let st := (twStop s n.val a).getD (readRange s n.val a (sizeBytes size))
    ∃ t, exec (.tierWindowRead n off size) s = .next t ∧
      (confidential s n.val = true → t = { s with reply := ⟨.ok, 0⟩ }) ∧
      (confidential s n.val = false → st = .ok →
        t.reply = ⟨.ok, BitVec.ofNat 64 (bytesNat (windowBytes s n.val a (sizeBytes size)))⟩ ∧ RegsBut [] s t ∧ t.mem.cells = s.mem.cells ∧
          ((pteOf s n.val (vpnOf a)).home ≠ .seam → t = { withBlock t s with reply := t.reply })) ∧
      (confidential s n.val = false → st ≠ .ok → t.reply = ⟨st, 0⟩ ∧ Counted s t pciePage 4 1 ∧
        regVal t (partPage n.val) 0x784 = BitVec.ofNat 32 (statusCode st * 65536 + off.toNat / pageBytes % 65536) ∧
        RegsBut [regKey (partPage n.val) 0x784] s t ∧ t = { withBlock t s with reply := t.reply })) ∧
  (∀ (s : State) (n : Part) (off : BitVec 29) (bytes : List Byte), barOpen s = true → bytes ≠ [] → bytes.length ≤ 512 →
    off.toNat % 4096 + bytes.length ≤ 4096 →
    let a := twAddr s n.val off.toNat
    let st := (twStop s n.val a).getD (writeRange s n.val a bytes.length false false)
    let e := pteOf s n.val (vpnOf a)
    let key := pteKey n.val (vpnOf a)
    let got := smGet [] s.mem.tw key
    ∃ t, exec (.tierWindowWrite n off bytes) s = .next t ∧ t.reply = s.reply ∧
      (confidential s n.val = true → Counted s t pciePage 3 1 ∧ Counted s t (mbPage n.val) 7 1 ∧ RegsBut [] s t ∧ OnlyBlock s t) ∧
      (confidential s n.val = false → st = .ok → e.home ≠ .seam → e.mig = true →
        t.mem = { s.mem with migWrites := s.mem.migWrites ++ [(n.val, a, bytes)] } ∧ RegsBut [] s t) ∧
      (confidential s n.val = false → st = .ok → e.home ≠ .seam → e.mig = false →
        (∀ i, i < bytes.length → readByte t n.val (a + i) = bytes.getD i 0) ∧
        (∀ x, ¬ (homeAddr n.val e + a % pageBytes ≤ x ∧ x < homeAddr n.val e + a % pageBytes + bytes.length) → memByte t x = memByte s x) ∧
        RegsBut [] s t ∧ t = { withBlock t s with mem := t.mem }) ∧
      (confidential s n.val = false → st = .ok → e.home = .seam → a % pageBytes = got.length → (got ++ bytes).length < pageBytes →
        smGet [] t.mem.tw key = got ++ bytes ∧ t = { s with mem := { s.mem with tw := t.mem.tw } }) ∧
      (confidential s n.val = false → st ≠ .ok → Counted s t pciePage 4 1 ∧ t.mem.cells = s.mem.cells ∧
        regVal t (partPage n.val) 0x784 = BitVec.ofNat 32 (statusCode st * 65536 + off.toNat / pageBytes % 65536))) ∧
  (∀ (s : State) (n : Part) (off : BitVec 29) (bytes : List Byte), barOpen s = true → powerUnder s ≠ 2 → s.dev.layout ≠ none → bytes ≠ [] →
    bytes.length ≤ 512 → off.toNat % 4096 + bytes.length ≤ 4096 →
    ∃ t, exec (.bar2RingWrite n off bytes) s = .next t ∧
      (∀ i, i < bytes.length → ringWritable (off.toNat + i) = true → ringByte t n.val (off.toNat + i) = bytes.getD i 0) ∧
      (∀ k, (∀ i, i < bytes.length → ringWritable (off.toNat + i) = true → k ≠ ringKey n.val (off.toNat + i)) → smGet 0 t.ring k = smGet 0 s.ring k) ∧
      (0x9000 ≤ off.toNat → off.toNat < 0xA000 → Counted s t pciePage 3 1) ∧ RegsBut [] s t ∧
      t = { withBlock t s with ring := t.ring, prodAt := t.prodAt }) ∧
  (∀ (s : State) (n : Part) (off : BitVec 29) (bytes : List Byte), (bytes = [] ∨ 512 < bytes.length ∨ 4096 < off.toNat % 4096 + bytes.length) →
    exec (.tierWindowWrite n off bytes) s = .fault .malformedCommand ∧ exec (.bar2RingWrite n off bytes) s = .fault .malformedCommand) ∧
  (∀ (s : State) (p : Page) (c : LinkChange) (detail : Half), isUnit p = true → p ∈ allPages → barOpen s = true → isLooped s p = false →
    ∃ t, exec (.portLinkChange p c detail) s = .next t ∧
      ((p.cls ≠ .eth ∨ 8 ≤ p.inst ∨ (lidarSt s p.inst).tick = none) →
        RegsBut [regKey p 0x00C, regKey p 0x028, regKey p 0x010, regKey p 0x104, regKey p 0x10C] s t ∧ OnlyBlock s t) ∧
      (p.cls = .eth → regField t p 0x104 11 8 = detail.toNat % 16) ∧ (p.cls = .can → regField t p 0x10C 15 0 = detail.toNat) ∧
      (c = .trained → pgState s p = portDown → pgState t p = portUp) ∧
      (c = .lost → pgState s p = portUp → pgState t p = portDown ∧ Flagged t p 0 ∧ (p.cls = .eth → Counted s t p 5 1)) ∧
      (c = .fault → pgState s p = portUp → pgState t p = portFault ∧ Flagged t p 1 ∧ (p.cls = .can → Counted s t p 4 1)) ∧
      (c = .recovered → pgState s p = portFault → p.cls ≠ .can → pgState t p = portDown)) ∧
  (∀ (s : State) (c : Fin 8), pgState s ⟨.can, c.val⟩ = portFault →
    ∃ t, exec (.canBusOffRecovery c) s = .next t ∧ pgState t ⟨.can, c.val⟩ = portDown ∧ regVal t ⟨.can, c.val⟩ 0x10C = 0 ∧
      RegsBut [regKey ⟨.can, c.val⟩ 0x10C, regKey ⟨.can, c.val⟩ 0x00C, regKey ⟨.can, c.val⟩ 0x028] s t ∧ t = { s with regs := t.regs }) ∧
  (∀ (s : State) (up : Bool) (w : Fin 3) (speed : Fin 5) (vfs : Half), s.supply.main = true → s.sec.boot.held = false → powerUnder s ≠ 3 →
    ∃ t, exec (.pcieLinkChange up w speed vfs) s = .next t ∧ regBit t pciePage 0x100 8 = up ∧
      (up = true → regField t pciePage 0x100 6 4 = 2 ^ w.val ∧ regField t pciePage 0x100 3 0 = speed.val + 1) ∧
      regBit t pciePage 0x104 0 = false ∧ regField t pciePage 0x104 15 1 = vfs.toNat / 2 ∧
      RegsBut [regKey pciePage 0x100, regKey pciePage 0x104] s t ∧ t = { s with regs := t.regs }) ∧
  ∀ (s : State), s.supply.main = true → s.sec.boot.held = false →
    ∃ t, exec .pcieLtssmLoopback s = .next t ∧ regBit t pciePage 0x100 8 = false ∧ RegsBut [regKey pciePage 0x100] s t ∧ t = { s with regs := t.regs }

/-! ### Counters (chapter 17) -/

/-- DUMP_TRIGGER, SNAP, CLEAR, DUMP_COMPLETE, CR_SWEEP, CT_CLEAR, THRESHOLD_HIT and THRESHOLD_SAMPLE. -/
def Obligations.CounterEffects : Prop :=
  (∀ (s : State),
    (pgState s dumpPage = cdArmed ∧ reached (nowW s) (regVal s dumpPage 0x108) = true ∨ pgState s dumpPage = cdRun ∧ reachedAt s s.cnt.next = true) →
    ∃ t, exec .dumpTrigger s = .next t ∧ pgState t dumpPage = cdRun ∧ t.mem = s.mem ∧
      (s.cnt.run = none → crMode s = false → t.cnt.run = some ⟨now s, false, none⟩ ∧ regBit t dumpPage 0x00C 0 = true ∧ t.ctrs = s.ctrs) ∧
      (s.cnt.run ≠ none ∨ crMode s = true → t.cnt.run = s.cnt.run ∧ Flagged t dumpPage 0 ∧ Counted s t dumpPage 1 1) ∧
      (pgState s dumpPage = cdRun → t.cnt.next = s.cnt.next + cdPeriod s) ∧
      (pgState s dumpPage = cdArmed → now s < t.cnt.next ∧ t.cnt.next ≤ now s + cdPeriod s)) ∧
  (∀ (s : State) (r : Req), Accepted s r dumpPage 0x11C 1 →
    ∃ t, exec (.snap r) s = .next t ∧ t = { s with regs := t.regs, cnt := { s.cnt with snap := some (now s + 1) }, reply := ⟨.ok, 0⟩ }) ∧
  (∀ (s : State) (r : Req), Accepted s r dumpPage 0x11C 2 → ∃ t, exec (.clear r) s = .next t ∧ Cleared s t (regVal s dumpPage 0x120)) ∧
  (∀ (s : State) (r : DumpRun) (m : SMap DWord) (st : Status), s.cnt.run = some r → r.counts = some m →
    let a := (regField s dumpPage 0x110 27 0 + s.cnt.seq % cdSlots s) * pageBytes
    let st' := if st ≠ .ok ∨ cdHost s = true then st else writeRange s 0 a pageBytes false false
    ∃ t, exec (.dumpComplete st) s = .next t ∧ t.cnt.run = none ∧ t.cnt.seq = s.cnt.seq + 1 ∧ regBit t dumpPage 0x00C 0 = false ∧
      regField t dumpPage 0x124 15 8 = statusCode st' ∧ (s.cnt.stop = true → pgState t dumpPage = cdOff) ∧
      (st' = .ok → Counted s t dumpPage 3 1 ∧ regVal t dumpPage 0x128 = regVal s dumpPage 0x128 + 1 ∧ t.irqs = sendIrq ⟨0, 2, .compare 3105⟩ s.irqs) ∧
      (st' = .ok → cdHost s = false → t.mem.cells = (writeBytes s 0 a (dumpBytes s r)).mem.cells ∧ t.sec = s.sec) ∧
      (st' = .ok → cdHost s = true → t.mem = s.mem ∧ ∃ h, t.sec = { s.sec with hostWr := s.sec.hostWr ++ [(0, h, dumpBytes s r)] }) ∧
      (st' ≠ .ok → Flagged t dumpPage 1 ∧ t.ctrs = s.ctrs ∧ t.tally = s.tally)) ∧
  (∀ (s : State) (silent : List Page), crMode s = true → s.sec.boot.held = false → s.cnt.swept + 1000 ≤ now s → powerUnder s ≠ 3 →
    ∃ t, exec (.crSweep silent) s = .next t ∧
      (∀ x ∈ assignedSlots, bankVal t x.1 x.2 = if silent.contains x.1 then bankVal s x.1 x.2 else ctrVal s x.1 x.2) ∧
      t.cnt.swept = now s ∧ t.cnt.cr = crWanted s ∧ Counted s t dumpPage 4 1 ∧ t.cnt.snap = none ∧ t.mem = s.mem ∧
      (s.cnt.snap ≠ none → s.cnt.run = none → t.cnt.run = some ⟨now s, true, some t.cnt.bank⟩)) ∧
  (∀ (s : State) (r : Req) (n : Part) (w : Word), Accepted s r (partPage n.val) 0x880 w → ∃ t, exec (.ctClear r n w) s = .next t ∧ Cleared s t w) ∧
  (∀ (s : State) (n : Part) (u : Fin 4) (p : Page) (slot : Nat), counterAt (field (ctSel s n.val u.val) 11 0) = some (p, slot) →
    bit (ctSel s n.val u.val) 31 = true → smGet 0 s.cnt.armAt (ctKey n.val u.val) < now s →
    countReached (ctrVal s p slot).toNat (ctThreshold s n.val u.val) = true →
    ∃ t, exec (.thresholdHit n u) s = .next t ∧ bit (ctSel t n.val u.val) 31 = false ∧ field (ctSel t n.val u.val) 11 0 = field (ctSel s n.val u.val) 11 0 ∧
      smFind t.cnt.hits (ctKey n.val u.val) = some (now s, field (ctSel s n.val u.val) 11 0, endedOn s p) ∧
      RegsBut [regKey (partPage n.val) (0x800 + 0x20 * u.val)] s t ∧ t = { s with regs := t.regs, cnt := { s.cnt with hits := t.cnt.hits } }) ∧
  ∀ (s : State) (n : Part) (u : Fin 4) (hit num ended : Nat) (p : Page) (slot : Nat), smFind s.cnt.hits (ctKey n.val u.val) = some (hit, num, ended) →
    counterAt num = some (p, slot) → (hit + 2 ≤ now s ∨ ended + 8 ≤ endedOn s p) →
    let o := 0x800 + 0x20 * u.val
    ∃ t, exec (.thresholdSample n u) s = .next t ∧ regVal t (partPage n.val) (o + 0x14) = BitVec.ofNat 32 (now s) ∧
      regVal t (partPage n.val) (o + 0x18) = BitVec.ofNat 32 hit ∧
      (commandOn s p = none → regVal t (partPage n.val) (o + 0xC) = 0x80FF0000#32 ∧ regVal t (partPage n.val) (o + 0x10) = 0) ∧
      (∀ k r, commandOn s p = some (k, r) → regField t (partPage n.val) (o + 0xC) 30 16 = coreCode k ∧
        regField t (partPage n.val) (o + 0xC) 15 8 = r.offer.stage % 256 ∧ regField t (partPage n.val) (o + 0x10) 31 16 = r.offer.index % 65536) ∧
      t.irqs = sendIrq ⟨n.val, 2, .counter num⟩ s.irqs ∧ smFind t.cnt.hits (ctKey n.val u.val) = none ∧
      RegsBut [regKey (partPage n.val) (o + 0xC), regKey (partPage n.val) (o + 0x10), regKey (partPage n.val) (o + 0x14),
        regKey (partPage n.val) (o + 0x18)] s t ∧
      t = { s with regs := t.regs, irqs := t.irqs, cnt := { s.cnt with hits := t.cnt.hits } }

/-! ### Loopbacks and the TAP (chapter 17) -/

/-- LOOPBACK_START, LOOPBACK_STOP, LOOPBACK_LIMIT, TAP_RESET, SAMPLE_PRELOAD, EXTEST, CLAMP, HIGHZ, DEVID, JTAG_SELECT and ACCESS. -/
def Obligations.TestEffects : Prop :=
  (∀ (s : State) (r : Req) (limit : Half), Accepted s r testPage 0x104 (BitVec.ofNat 32 (limit.toNat * 65536 + 1)) →
    ∃ t u, exec (.loopbackStart r limit) s = .next t ∧ lbUnit (regVal s testPage 0x100) = some u ∧
      t.loop = some ⟨u, regField s testPage 0x100 2 0, now s + limit.toNat * 1000, none⟩ ∧ pgState t testPage = lbActive ∧
      regBit t testPage 0x00C 0 = true ∧ Counted s t testPage 4 1 ∧
      ((u.cls = .eth ∨ u.cls = .can ∨ u.cls = .spi ∨ u.cls = .aphy) → pgState t u = portDown) ∧
      (u.cls = .pcie → regBit t u 0x100 8 = false) ∧ t = { withBlock t s with loop := t.loop, reply := ⟨.ok, 0⟩ }) ∧
  (∀ (s : State) (r : Req) (limit : Half) (c : LoopCount) (l : LoopSt), Accepted s r testPage 0x104 (BitVec.ofNat 32 (limit.toNat * 65536)) →
    s.loop = some l → ∃ t, exec (.loopbackStop r limit c) s = .next t ∧ LoopEnds s t l c ∧ t.reply = ⟨.ok, 0⟩) ∧
  (∀ (s : State) (c : LoopCount) (l : LoopSt), s.loop = some l → l.limit ≤ now s →
    ∃ t, exec (.loopbackLimit c) s = .next t ∧ LoopEnds s t l c ∧ t.reply = s.reply) ∧
  (∀ (s : State), ∃ t, exec .tapReset s = .next t ∧ t = { s with tap := { s.tap with ir := 0xFF, select := none } }) ∧
  (∀ (s : State) (levels shifted : List Bool),
    ∃ t, exec (.samplePreload levels shifted) s = .next t ∧ t.tap.ir = 0x01 ∧ t.tap.boundary = shifted ∧
      (∀ i, i < levels.length → (t.tap.capture.getD (i / 8) 0).getLsbD (i % 8) = levels.getD i false) ∧ t = { s with tap := t.tap }) ∧
  (∀ (s : State) (levels shifted : List Bool),
    ∃ t, exec (.extest levels shifted) s = .next t ∧
      (wholeDevice s = true → t.tap.ir = 0x02 ∧ t.tap.boundary = shifted ∧
        (∀ i, i < levels.length → (t.tap.capture.getD (i / 8) 0).getLsbD (i % 8) = levels.getD i false) ∧ t = { s with tap := t.tap }) ∧
      (wholeDevice s = false → t.tap = { s.tap with ir := 0xFF } ∧ Counted s t testPage 6 1)) ∧
  (∀ (s : State), ∃ t, exec .clamp s = .next t ∧ (wholeDevice s = true → t = { s with tap := { s.tap with ir := 0x03 } }) ∧
      (wholeDevice s = false → t.tap = { s.tap with ir := 0xFF } ∧ Counted s t testPage 6 1)) ∧
  (∀ (s : State), ∃ t, exec .highz s = .next t ∧ (wholeDevice s = true → t = { s with tap := { s.tap with ir := 0x04 } }) ∧
      (wholeDevice s = false → t.tap = { s.tap with ir := 0xFF } ∧ Counted s t testPage 6 1)) ∧
  (∀ (s : State),
    ∃ t, exec .devid s = .next t ∧ t.tap.ir = 0x10 ∧ bytesNat (t.tap.capture.take 4) = (showWord s devPage 0x100).toNat ∧
      bytesNat (t.tap.capture.drop 4) = (showWord s devPage 0x104).toNat ∧ t = { s with tap := t.tap }) ∧
  (∀ (s : State) (v : Byte),
    ∃ t, exec (.jtagSelect v) s = .next t ∧ (v.msb = true → t.tap.select = some (v.toNat % 16)) ∧ (v.msb = false → t.tap.select = none) ∧
      t = { s with tap := { s.tap with ir := 0x11, select := t.tap.select } }) ∧
  ∀ (s : State) (p : Page) (off : Nat) (v : Word), pageOk p = true → off < 0x1000 → off % 4 = 0 →
    let r : Req := .jtag (Fin.ofNat 16 (s.tap.select.getD 0))
    let read := BitVec.ofNat 64 (regKey p off)
    let write := BitVec.ofNat 64 (regKey p off + 2 ^ 26) ||| (v.setWidth 64 <<< 32)
    reaches s r = true →
    (∃ t, exec (.access read) s = .next t ∧ t.tap.ir = 0x12 ∧
      (rightOf s r p off = .none → t.tap.status = .ownerDenied ∧ t.tap.data = 0 ∧ Counted s t devPage 2 1) ∧
      (rightOf s r p off ≠ .none → isLatched p off = false → t.tap.status = .ok ∧
        (foreignStream s r p off = false → t.tap.data = readValue s p off) ∧ (foreignStream s r p off = true → t.tap.data = 0) ∧
        t.regs = s.regs)) ∧
    ∃ t, exec (.access write) s = .next t ∧ t.tap.ir = 0x12 ∧
      (∀ st, judge s r p off v false = some st → t.tap.status = st ∧ Counted s t p 0 1 ∧ t.mem = s.mem) ∧
      (judge s r p off v false = none → t.tap.status = .ok ∧ (off = 0x014 → regVal t p 0x014 &&& errMask p = v))
end

