-- ==== Sys2Proof/Laws/Arrive.lean ====
section
/-! SUPPORT. What the arrival of a command and the sending of a message can do: each adds its element to the list and loses none, and changes
nothing else of the state. -/

namespace Sys2Proof.Machine

theorem arriveRev_perm (r : Instr → Nat) (x : Instr) (xs : List Instr) : (arriveRev r x xs).Perm (x :: xs) := by
  induction xs with
  | nil => exact .refl _
  | cons y ys ih =>
    unfold arriveRev
    split
    · exact (ih.cons y).trans (.swap x y ys)
    · exact .refl _

theorem sendIrq_perm (m : Irq) (xs : List Irq) : (sendIrq m xs).Perm (m :: xs) := by
  induction xs with
  | nil => exact .refl _
  | cons y ys ih =>
    unfold sendIrq
    split
    · exact .refl _
    · exact (ih.cons y).trans (.swap m y ys)

theorem mem_sendIrq {m x : Irq} {xs : List Irq} : x ∈ sendIrq m xs ↔ x = m ∨ x ∈ xs := by
  simp [(sendIrq_perm m xs).mem_iff]

/-- An arrival changes the queue alone. -/
theorem arrive_frame (s : State) (c : Instr) : s.arrive c = { s with pending := (s.arrive c).pending } := rfl

theorem post_frame (cs : List Instr) : ∀ s : State, s.post cs = { s with pending := (s.post cs).pending } := by
  induction cs with
  | nil => intro s; rfl
  | cons x xs ih =>
    intro s
    have h := ih (s.arrive x)
    simp only [State.post, List.foldl_cons] at h ⊢
    rw [h]; rfl

/-- A command that reveals no EARLY expiry adds itself to the queue and nothing else. -/
theorem arrive_perm {s : State} {c : Instr} (h : revealed s c = []) : (s.arrive c).pending.Perm (c :: s.pending) := by
  have k := arriveRev_perm (placeRank s) c s.pending.reverse
  simp only [State.arrive, h, List.nil_append, List.foldl_cons, List.foldl_nil]
  exact (List.reverse_perm _).trans (k.trans ((List.reverse_perm _).cons c))

end Sys2Proof.Machine
end

