-- ==== Sys2Proof/Laws/Crypto.lean ====
section
/-! SUPPORT. What SHA-384, HKDF and AES-GCM give: a digest of 48 bytes, as many bytes of key as asked for, and a message that opens to what
was sealed. -/

namespace Sys2Proof.Machine

theorem xorBytes_length (a b : List Byte) : (xorBytes a b).length = min a.length b.length := by simp [xorBytes]

theorem xorBytes_twice (a b : List Byte) (h : a.length ≤ b.length) : xorBytes (xorBytes a b) b = a := by
  apply List.ext_getElem
  · simp [xorBytes_length]; omega
  · intro i h1 h2
    simp [xorBytes]

theorem shiftRows_length (s : List Byte) : (shiftRows s).length = 16 := by simp [shiftRows]

theorem piecesOf_length {α : Type} (n : Nat) (hn : 0 < n) : ∀ (k : Nat) (xs : List α), n * k ≤ xs.length →
    (piecesOf n k xs).length = k ∧ ∀ p ∈ piecesOf n k xs, p.length = n := by
  intro k
  induction k with
  | zero => intro xs _; simp [piecesOf]
  | succ k ih =>
    intro xs h
    have hk : n * k + n ≤ xs.length := by rw [Nat.mul_succ] at h; exact h
    have hne : xs.isEmpty = false := by
      cases xs with
      | nil => simp at hk; omega
      | cons => rfl
    have := ih (xs.drop n) (by rw [List.length_drop]; omega)
    simp only [piecesOf, hne, Bool.false_eq_true, if_false, List.length_cons, this.1, List.mem_cons, true_and]
    rintro p (rfl | hp)
    · rw [List.length_take]; omega
    · exact this.2 p hp

theorem aesExpand_words : ∀ (n : Nat) (rc : Byte) (ws : List (List Byte)), 8 ≤ ws.length → (∀ w ∈ ws, w.length = 4) →
    (aesExpand n rc ws).length = ws.length + 8 * n ∧ ∀ w ∈ aesExpand n rc ws, w.length = 4 := by
  intro n
  induction n with
  | zero => intro rc ws _ h; exact ⟨rfl, h⟩
  | succ n ih =>
    intro rc ws h8 h4
    have hg : ∀ i, i < 8 → ((ws.drop (ws.length - 8)).getD i []).length = 4 := by
      intro i hi
      have : i < (ws.drop (ws.length - 8)).length := by rw [List.length_drop]; omega
      rw [List.getD_eq_getElem _ _ this]
      exact h4 _ (List.mem_of_mem_drop (List.getElem_mem this))
    obtain ⟨new, hn, hn4, heq⟩ : ∃ new : List (List Byte), new.length = 8 ∧ (∀ w ∈ new, w.length = 4) ∧
        aesExpand (n + 1) rc ws = aesExpand n (xtime rc) (ws ++ new) := by
      refine ⟨_, ?_, ?_, rfl⟩
      · rfl
      · have h0 := hg 0 (by decide)
        simp only [List.getD_eq_getElem?_getD, List.getElem?_drop] at hg
        simp at h0
        simp [xorBytes_length, hg, h0]
    have := ih (xtime rc) (ws ++ new) (by rw [List.length_append]; omega) (List.forall_mem_append.2 ⟨h4, hn4⟩)
    rw [heq]
    exact ⟨by rw [this.1, List.length_append, hn]; omega, this.2⟩

theorem aesKeys_last (key : List Byte) (h : key.length = 32) : ((aesKeys key).getD 14 []).length = 16 := by
  have hp := piecesOf_length 4 (by decide) 8 key (by omega)
  have hw := aesExpand_words 7 0x01 (piecesOf 4 8 key) (by omega) hp.2
  have hl : ∀ l : List (List Byte), (∀ w ∈ l, w.length = 4) → (l.flatMap id).length = 4 * l.length := by
    intro l
    induction l with
    | nil => intro _; rfl
    | cons a l ih =>
      intro h
      simp only [List.flatMap_cons, List.length_append, List.length_cons, id_eq, ih fun w hw => h w (List.mem_cons_of_mem _ hw), h a List.mem_cons_self]
      omega
  have hq := piecesOf_length 16 (by decide) 15 ((aesExpand 7 0x01 (piecesOf 4 8 key)).flatMap id) (by rw [hl _ hw.2, hw.1, hp.1]; decide)
  rw [aesKeys, List.take_of_length_le (by omega)]
  have : 14 < (piecesOf 16 15 ((aesExpand 7 0x01 (piecesOf 4 8 key)).flatMap id)).length := by omega
  rw [List.getD_eq_getElem _ _ this]
  exact hq.2 _ (List.getElem_mem this)

/-- A block is 16 bytes. -/
theorem aesBlock_length (key x : List Byte) (h : key.length = 32) : (aesBlock (aesKeys key) x).length = 16 := by
  simp only [aesBlock, xorBytes_length, shiftRows_length, aesKeys_last key h, Nat.min_self]

/-- The keystream is as long as the message, in whole blocks. -/
theorem keystream_length (key nonce : List Byte) (n c : Nat) (h : key.length = 32) :
    ((List.range n).flatMap fun i => aesBlock (aesKeys key) (nonce ++ beBytes 4 (c + i))).length = 16 * n := by
  induction n with
  | zero => rfl
  | succ n ih => rw [List.range_succ, List.flatMap_append, List.length_append, ih]; simp [aesBlock_length _ _ h]; omega

/-- Counter mode twice from the same nonce and counter gives the message. -/
theorem aesCtr_twice (key nonce m : List Byte) (c : Nat) (h : key.length = 32) :
    aesCtr (aesKeys key) nonce (aesCtr (aesKeys key) nonce m c) c = m := by
  have hl : (aesCtr (aesKeys key) nonce m c).length = m.length := by
    simp only [aesCtr, xorBytes_length, keystream_length _ _ _ _ h]; omega
  have hk := keystream_length key nonce ((m.length + 15) / 16) c h
  rw [aesCtr, hl, aesCtr]
  exact xorBytes_twice _ _ (by rw [hk]; omega)

theorem aesCtr_length (key nonce m : List Byte) (c : Nat) (h : key.length = 32) : (aesCtr (aesKeys key) nonce m c).length = m.length := by
  simp only [aesCtr, xorBytes_length, keystream_length _ _ _ _ h]; omega

/-- A sealed message is as long as the message, and its tag is 16 bytes. -/
theorem gcmSeal_lengths (key nonce aad m : List Byte) (h : key.length = 32) :
    (gcmSeal key nonce aad m).1.length = m.length ∧ (gcmSeal key nonce aad m).2.length = 16 := by
  refine ⟨aesCtr_length _ _ _ _ h, ?_⟩
  simp only [gcmSeal, gcmTag, xorBytes_length, aesBlock_length _ _ h]
  simp [beBytes]

/-- What was sealed under a key, a nonce and additional data opens under them to the message. -/
theorem gcmOpen_gcmSeal (key nonce aad m : List Byte) (h : key.length = 32) :
    gcmOpen key nonce aad (gcmSeal key nonce aad m).1 (gcmSeal key nonce aad m).2 = some m := by
  simp only [gcmOpen, gcmSeal, if_true, aesCtr_twice _ _ _ _ h]

/-! ### The lengths of SHA-384 and HKDF -/

theorem shaRound_length (x : List Nat × List Nat) (k : Nat) (h : x.1.length = 8) : (shaRound x k).1.length = 8 := by
  rw [shaRound]
  split
  · rfl
  · exact h

theorem shaRounds_length : ∀ (ks : List Nat) (x : List Nat × List Nat), x.1.length = 8 → (ks.foldl shaRound x).1.length = 8 := by
  intro ks
  induction ks with
  | nil => intro x h; exact h
  | cons k ks ih => intro x h; exact ih _ (shaRound_length x k h)

theorem shaBlocks_length : ∀ (bs : List (List Byte)) (h : List Nat), h.length = 8 → (bs.foldl shaBlock h).length = 8 := by
  intro bs
  induction bs with
  | nil => intro h hh; exact hh
  | cons b bs ih =>
    intro h hh
    refine ih _ ?_
    rw [shaBlock]
    simp [hh, shaRounds_length shaK (h, (piecesOf 8 16 b).map beNat) hh]

/-- A digest is 48 bytes. -/
theorem sha384_length (m : List Byte) : (sha384 m).length = 48 := by
  have h8 := shaBlocks_length (piecesOf 128 ((m ++ [0x80] ++ List.replicate ((239 - m.length % 128) % 128) 0 ++ beBytes 16 (8 * m.length)).length / 128 + 1)
    (m ++ [0x80] ++ List.replicate ((239 - m.length % 128) % 128) 0 ++ beBytes 16 (8 * m.length))) shaH0 rfl
  have hb : ∀ l : List Nat, (l.flatMap (beBytes 8)).length = 8 * l.length := by
    intro l
    induction l with
    | nil => rfl
    | cons a l ih => rw [List.flatMap_cons, List.length_append, ih]; simp [beBytes]; omega
  rw [sha384]
  simp only [hb, List.length_take, h8]
  decide

theorem hmac384_length (key m : List Byte) : (hmac384 key m).length = 48 := sha384_length _

theorem hkdfBlocks_length (prk info : List Byte) : ∀ (n : Nat) (t : List Byte) (i : Nat), (hkdfBlocks prk info n t i).length = 48 * n := by
  intro n
  induction n with
  | zero => intro t i; rfl
  | succ n ih => intro t i; rw [hkdfBlocks, List.length_append, hmac384_length, ih]; omega

/-- HKDF gives the bytes asked for. -/
theorem hkdf384_length (salt ikm info : List Byte) (len : Nat) : (hkdf384 salt ikm info len).length = len := by
  rw [hkdf384, List.length_take, hkdfBlocks_length]; omega

end Sys2Proof.Machine
end

