-- ==== Sys2Proof/Laws/SMap.lean ====
section
/-! SUPPORT. The laws of the sparse maps: what a key reads as after a write, a removal and a clearing, and that each of them keeps the
rising keys and the canonical form. -/

namespace Sys2Proof.Machine

variable {α : Type}

@[simp] theorem smGet_nil (d : α) (i : Nat) : smGet d [] i = d := rfl

theorem smGet_cons (d : α) (k : Nat) (v : α) (m : SMap α) (i : Nat) :
    smGet d ((k, v) :: m) i = if k = i then v else smGet d m i := rfl

theorem smDel_cons (k : Nat) (v : α) (m : SMap α) (i : Nat) :
    smDel ((k, v) :: m) i = if k = i then smDel m i else (k, v) :: smDel m i := rfl

theorem smPut_cons (k : Nat) (v : α) (m : SMap α) (i : Nat) (x : α) :
    smPut ((k, v) :: m) i x = if k = i then (k, x) :: m else if i < k then (i, x) :: (k, v) :: m else (k, v) :: smPut m i x := rfl

@[simp] theorem smGet_smDel_same (d : α) (m : SMap α) (i : Nat) : smGet d (smDel m i) i = d := by
  induction m with
  | nil => rfl
  | cons p m ih =>
    obtain ⟨k, v⟩ := p
    by_cases h : k = i <;> simp [smDel_cons, smGet_cons, h, ih]

theorem smGet_smDel_ne (d : α) (m : SMap α) {i j : Nat} (h : i ≠ j) : smGet d (smDel m i) j = smGet d m j := by
  induction m with
  | nil => rfl
  | cons p m ih =>
    obtain ⟨k, v⟩ := p
    by_cases hk : k = i
    · subst hk; simp [smDel_cons, smGet_cons, h, ih]
    · simp [smDel_cons, smGet_cons, hk, ih]

@[simp] theorem smGet_smPut_same (d : α) (m : SMap α) (i : Nat) (x : α) : smGet d (smPut m i x) i = x := by
  induction m with
  | nil => simp [smPut, smGet_cons]
  | cons p m ih =>
    obtain ⟨k, v⟩ := p
    by_cases hk : k = i
    · simp [smPut_cons, smGet_cons, hk]
    · by_cases hl : i < k <;> simp [smPut_cons, smGet_cons, hk, hl, ih]

theorem smGet_smPut_ne (d : α) (m : SMap α) {i j : Nat} (x : α) (h : i ≠ j) : smGet d (smPut m i x) j = smGet d m j := by
  induction m with
  | nil => simp [smPut, smGet_cons, h]
  | cons p m ih =>
    obtain ⟨k, v⟩ := p
    by_cases hk : k = i
    · subst hk; simp [smPut_cons, smGet_cons, h]
    · by_cases hl : i < k <;> simp [smPut_cons, smGet_cons, hk, hl, ih, h]

variable [DecidableEq α]

/-- A written key reads as what was written, under the default that the write used. -/
@[simp] theorem smGet_smSet_same (d : α) (m : SMap α) (i : Nat) (x : α) : smGet d (smSet d m i x) i = x := by
  unfold smSet; split
  · next h => simp [h]
  · simp

/-- Every other key reads as before, under any default. -/
theorem smGet_smSet_ne (d d' : α) (m : SMap α) {i j : Nat} (x : α) (h : i ≠ j) : smGet d' (smSet d m i x) j = smGet d' m j := by
  unfold smSet; split
  · exact smGet_smDel_ne d' m h
  · exact smGet_smPut_ne d' m x h

theorem smGet_smSet (d : α) (m : SMap α) (i j : Nat) (x : α) : smGet d (smSet d m i x) j = if i = j then x else smGet d m j := by
  split
  · next h => subst h; simp
  · next h => exact smGet_smSet_ne d d m x h

omit [DecidableEq α] in
theorem smGet_smClear (d : α) (m : SMap α) (lo hi j : Nat) :
    smGet d (smClear m lo hi) j = if lo ≤ j ∧ j < hi then d else smGet d m j := by
  induction m with
  | nil => simp [smClear]
  | cons p m ih =>
    obtain ⟨k, v⟩ := p
    unfold smClear at ih ⊢
    by_cases hk : lo ≤ k ∧ k < hi
    · rw [List.filter_cons_of_neg (by simp [hk]), ih]
      by_cases hj : k = j
      · subst hj; simp [hk]
      · simp [smGet_cons, hj]
    · rw [List.filter_cons_of_pos (by simp only [Bool.not_eq_true', decide_eq_false_iff_not]; exact hk), smGet_cons, smGet_cons, ih]
      by_cases hj : k = j
      · subst hj; simp [hk]
      · simp [hj]

omit [DecidableEq α]

@[simp] theorem smFind_nil (i : Nat) : smFind ([] : SMap α) i = none := rfl

theorem smFind_cons (k : Nat) (v : α) (m : SMap α) (i : Nat) : smFind ((k, v) :: m) i = if k = i then some v else smFind m i := rfl

@[simp] theorem smFind_smPut_same (m : SMap α) (i : Nat) (x : α) : smFind (smPut m i x) i = some x := by
  induction m with
  | nil => simp [smPut, smFind_cons]
  | cons p m ih =>
    obtain ⟨k, v⟩ := p
    by_cases hk : k = i
    · simp [smPut_cons, smFind_cons, hk]
    · by_cases hl : i < k <;> simp [smPut_cons, smFind_cons, hk, hl, ih]

theorem smFind_smPut_ne (m : SMap α) {i j : Nat} (x : α) (h : i ≠ j) : smFind (smPut m i x) j = smFind m j := by
  induction m with
  | nil => simp [smPut, smFind_cons, h]
  | cons p m ih =>
    obtain ⟨k, v⟩ := p
    by_cases hk : k = i
    · subst hk; simp [smPut_cons, smFind_cons, h]
    · by_cases hl : i < k <;> simp [smPut_cons, smFind_cons, hk, hl, ih, h]

@[simp] theorem smFind_smDel_same (m : SMap α) (i : Nat) : smFind (smDel m i) i = none := by
  induction m with
  | nil => rfl
  | cons p m ih =>
    obtain ⟨k, v⟩ := p
    by_cases h : k = i <;> simp [smDel_cons, smFind_cons, h, ih]

theorem smFind_smDel_ne (m : SMap α) {i j : Nat} (h : i ≠ j) : smFind (smDel m i) j = smFind m j := by
  induction m with
  | nil => rfl
  | cons p m ih =>
    obtain ⟨k, v⟩ := p
    by_cases hk : k = i
    · subst hk; simp [smDel_cons, smFind_cons, h, ih]
    · simp [smDel_cons, smFind_cons, hk, ih]

/-! ### The canonical form -/

theorem smRising_cons (k : Nat) (v : α) (m : SMap α) : smRising ((k, v) :: m) = true ↔ (∀ p ∈ m, k < p.1) ∧ smRising m = true := by
  unfold smRising
  simp [List.pairwise_cons]

theorem smRising_filter (m : SMap α) (f : Nat × α → Bool) (h : smRising m = true) : smRising (m.filter f) = true := by
  induction m with
  | nil => exact h
  | cons p m ih =>
    obtain ⟨k, v⟩ := p
    rw [smRising_cons] at h
    by_cases hf : f (k, v)
    · rw [List.filter_cons_of_pos hf, smRising_cons]
      exact ⟨fun q hq => h.1 q (List.mem_of_mem_filter hq), ih h.2⟩
    · rw [List.filter_cons_of_neg hf]; exact ih h.2

theorem mem_smDel {m : SMap α} {i : Nat} {p : Nat × α} (h : p ∈ smDel m i) : p ∈ m := by
  induction m with
  | nil => exact h
  | cons q m ih =>
    obtain ⟨k, v⟩ := q
    rw [smDel_cons] at h
    split at h
    · exact List.mem_cons_of_mem _ (ih h)
    · rcases List.mem_cons.1 h with rfl | h
      · exact List.mem_cons_self
      · exact List.mem_cons_of_mem _ (ih h)

theorem mem_smPut {m : SMap α} {i : Nat} {x : α} {p : Nat × α} (h : p ∈ smPut m i x) : p = (i, x) ∨ p ∈ m := by
  induction m with
  | nil => simpa [smPut] using h
  | cons q m ih =>
    obtain ⟨k, v⟩ := q
    rw [smPut_cons] at h
    split at h
    · next hk => subst hk; rcases List.mem_cons.1 h with h | h <;> simp [h]
    · split at h
      · rcases List.mem_cons.1 h with h | h <;> simp [h]
      · rcases List.mem_cons.1 h with h | h
        · simp [h]
        · rcases ih h with h | h <;> simp [h]

theorem smRising_smDel (m : SMap α) (i : Nat) (h : smRising m = true) : smRising (smDel m i) = true := by
  induction m with
  | nil => exact h
  | cons q m ih =>
    obtain ⟨k, v⟩ := q
    rw [smRising_cons] at h
    rw [smDel_cons]
    split
    · exact ih h.2
    · rw [smRising_cons]; exact ⟨fun p hp => h.1 p (mem_smDel hp), ih h.2⟩

theorem smRising_smPut (m : SMap α) (i : Nat) (x : α) (h : smRising m = true) : smRising (smPut m i x) = true := by
  induction m with
  | nil => rfl
  | cons q m ih =>
    obtain ⟨k, v⟩ := q
    have hc := (smRising_cons k v m).1 h
    rw [smPut_cons]
    split
    · rw [smRising_cons]; exact hc
    · split
      · next hk hl =>
        rw [smRising_cons]
        refine ⟨fun p hp => ?_, h⟩
        rcases List.mem_cons.1 hp with rfl | hp
        · exact hl
        · exact Nat.lt_trans hl (hc.1 p hp)
      · next hk hl =>
        rw [smRising_cons]
        refine ⟨fun p hp => ?_, ih hc.2⟩
        rcases mem_smPut hp with rfl | hp
        · show k < i; omega
        · exact hc.1 p hp

variable [DecidableEq α]

theorem smRising_smSet (d : α) (m : SMap α) (i : Nat) (x : α) (h : smRising m = true) : smRising (smSet d m i x) = true := by
  unfold smSet; split
  · exact smRising_smDel m i h
  · exact smRising_smPut m i x h

theorem smWf_iff (d : α) (m : SMap α) : smWf d m = true ↔ smRising m = true ∧ ∀ p ∈ m, p.2 ≠ d := by
  simp [smWf]

theorem smWf_filter (d : α) (m : SMap α) (f : Nat × α → Bool) (h : smWf d m = true) : smWf d (m.filter f) = true := by
  rw [smWf_iff] at h ⊢
  exact ⟨smRising_filter m f h.1, fun p hp => h.2 p (List.mem_of_mem_filter hp)⟩

theorem smWf_smClear (d : α) (m : SMap α) (lo hi : Nat) (h : smWf d m = true) : smWf d (smClear m lo hi) = true :=
  smWf_filter d m _ h

theorem smWf_smDel (d : α) (m : SMap α) (i : Nat) (h : smWf d m = true) : smWf d (smDel m i) = true := by
  rw [smWf_iff] at h ⊢
  exact ⟨smRising_smDel m i h.1, fun p hp => h.2 p (mem_smDel hp)⟩

/-- A write keeps the canonical form. -/
theorem smWf_smSet (d : α) (m : SMap α) (i : Nat) (x : α) (h : smWf d m = true) : smWf d (smSet d m i x) = true := by
  unfold smSet; split
  · exact smWf_smDel d m i h
  · next hx =>
    rw [smWf_iff] at h ⊢
    refine ⟨smRising_smPut m i x h.1, fun p hp => ?_⟩
    rcases mem_smPut hp with rfl | hp
    · exact hx
    · exact h.2 p hp

end Sys2Proof.Machine
end

