-- ==== Sys2Proof/Laws/Jobs.lean ====
section
/-! SUPPORT. The ring area: what a write to it leaves, and that an entry sealed under its session's key opens to its words (R430, R500). -/

namespace Sys2Proof.Machine

/-- A write to the ring area changes the ring area alone. -/
theorem putRing_frame (p : Nat) : ∀ (bs : List Byte) (s : State) (o : Nat), putRing s p o bs = { s with ring := (putRing s p o bs).ring } := by
  intro bs
  induction bs with
  | nil => intro s o; rfl
  | cons b bs ih => intro s o; rw [putRing, ih]

/-- What a byte of the ring area reads as after a write. -/
theorem ringByte_putRing (p : Nat) : ∀ (bs : List Byte) (s : State) (o x : Nat),
    ringByte (putRing s p o bs) p x = if o ≤ x ∧ x < o + bs.length then bs.getD (x - o) 0 else ringByte s p x := by
  intro bs
  induction bs with
  | nil => intro s o x; rw [putRing, if_neg (by simp)]
  | cons b bs ih =>
    intro s o x
    rw [putRing, ih]
    by_cases hx : x = o
    · subst hx
      rw [if_neg (by omega), if_pos (by simp)]
      simp [ringByte]
    · have hne : ringKey p o ≠ ringKey p x := by simp only [ringKey]; omega
      by_cases hin : o + 1 ≤ x ∧ x < o + 1 + bs.length
      · rw [if_pos hin, if_pos (by simp only [List.length_cons]; omega)]
        obtain ⟨k, rfl⟩ : ∃ k, x = o + 1 + k := ⟨x - (o + 1), by omega⟩
        have h1 : o + 1 + k - (o + 1) = k := by omega
        have h2 : o + 1 + k - o = k + 1 := by omega
        rw [h1, h2, List.getD_cons_succ]
      · rw [if_neg hin, if_neg (by simp only [List.length_cons]; omega)]
        simp only [ringByte, smGet_smSet_ne _ _ _ _ hne]

/-- Bytes read where they were written. -/
theorem ringBytes_putRing (s : State) (p o k n : Nat) (bs : List Byte) (h : k + n ≤ bs.length) :
    ((List.range n).map fun i => ringByte (putRing s p o bs) p (o + k + i)) = (bs.drop k).take n := by
  apply List.ext_getElem
  · simp; omega
  · intro i h1 h2
    simp only [List.length_map, List.length_range] at h1
    have hi : k + i < bs.length := by omega
    have hs : o + k + i - o = k + i := by omega
    simp only [List.getElem_map, List.getElem_range, List.getElem_take, List.getElem_drop]
    rw [ringByte_putRing, if_pos ⟨by omega, by omega⟩, hs, List.getD_eq_getElem _ _ hi]

theorem bytesNat_natBytes : ∀ (n k : Nat), k < 256 ^ n → bytesNat (natBytes n k) = k := by
  intro n
  induction n with
  | zero => intro k h; simp [natBytes, bytesNat] at h ⊢; omega
  | succ n ih =>
    intro k h
    have hd : natBytes (n + 1) k = BitVec.ofNat 8 k :: natBytes n (k / 256) := by
      simp only [natBytes, List.range_succ_eq_map, List.map_cons, List.map_map]
      refine congrArg₂ _ (by simp) (List.map_congr_left fun i _ => ?_)
      simp only [Function.comp, Nat.shiftRight_eq_div_pow]
      rw [Nat.div_div_eq_div_mul, show 2 ^ (8 * i.succ) = 256 * 2 ^ (8 * i) by rw [Nat.mul_succ, Nat.pow_add, Nat.mul_comm]]
    rw [hd, bytesNat, ih _ (by rw [Nat.pow_succ] at h; omega)]
    simp
    omega

/-- An entry that was sealed for its place under the session in force opens to the words that were sealed. -/
theorem openEntry_sealed (s : State) (p entry : Nat) (m nonce : List Byte) (hm : m.length = 96) (hn : nonce.length = 12)
    (h0 : (secOf s p).session ≠ 0) (h32 : (secOf s p).session < 2 ^ 32) :
    let c := gcmSeal (sessionKey s p "RING") nonce
      ([BitVec.ofNat 8 p, 0, 0, 0] ++ wordBytes (descNumber s p entry) ++ natBytes 4 (secOf s p).session ++ natBytes 4 0) m
    openEntry (putRing s p (0x1000 + 128 * (entry % 256)) (c.1 ++ nonce ++ natBytes 4 (secOf s p).session ++ c.2)) p entry =
      some ((List.range 24).map fun i => bytesWord m i) := by
  intro c
  have hk : (sessionKey s p "RING").length = 32 := hkdf384_length _ _ _ _
  have hc := gcmSeal_lengths (sessionKey s p "RING") nonce
    ([BitVec.ofNat 8 p, 0, 0, 0] ++ wordBytes (descNumber s p entry) ++ natBytes 4 (secOf s p).session ++ natBytes 4 0) m hk
  have h1 : c.1.length = 96 := hc.1.trans hm
  have h2 : c.2.length = 16 := hc.2
  have hb : (natBytes 4 (secOf s p).session).length = 4 := by simp [natBytes]
  have hl : (c.1 ++ nonce ++ natBytes 4 (secOf s p).session ++ c.2).length = 128 := by simp only [List.length_append]; omega
  simp only [openEntry]
  rw [ringBytes_putRing _ _ _ _ _ _ (by omega), ringBytes_putRing _ _ _ _ _ _ (by omega), ringBytes_putRing _ _ _ _ _ _ (by omega),
    ringBytes_putRing _ _ _ _ _ _ (by omega)]
  have e0 : ((c.1 ++ nonce ++ natBytes 4 (secOf s p).session ++ c.2).drop 0).take 96 = c.1 := by
    simp only [List.append_assoc, List.drop_zero]; exact List.take_left' h1
  have e1 : ((c.1 ++ nonce ++ natBytes 4 (secOf s p).session ++ c.2).drop 96).take 12 = nonce := by
    simp only [List.append_assoc]; rw [List.drop_left' h1]; exact List.take_left' hn
  have e2 : ((c.1 ++ nonce ++ natBytes 4 (secOf s p).session ++ c.2).drop 108).take 4 = natBytes 4 (secOf s p).session := by
    rw [List.append_assoc, List.drop_left' (by simp only [List.length_append]; omega)]; exact List.take_left' hb
  have e3 : ((c.1 ++ nonce ++ natBytes 4 (secOf s p).session ++ c.2).drop 112).take 16 = c.2 := by
    rw [List.drop_left' (by simp only [List.length_append]; omega), List.take_of_length_le (by omega)]
  rw [e0, e1, e2, e3, putRing_frame]
  rw [if_neg]
  · have := gcmOpen_gcmSeal (sessionKey s p "RING") nonce
      ([BitVec.ofNat 8 p, 0, 0, 0] ++ wordBytes (descNumber s p entry) ++ natBytes 4 (secOf s p).session ++ natBytes 4 0) m hk
    exact congrArg (Option.map _) this
  · rw [bytesNat_natBytes 4 _ (by simpa using h32)]
    simp only [ne_eq, secOf] at h0 ⊢
    simp [h0]

end Sys2Proof.Machine
end

