-- ==== Sys2Proof/Laws/State.lean ====
section
/-! SUPPORT. What each named update of the state leaves: one lemma for each field that it does not write. -/

namespace Sys2Proof.Machine

variable (s : State)

@[simp] theorem setReg_pending (p : Page) (off : Nat) (v : Word) : (setReg s p off v).pending = s.pending := rfl
@[simp] theorem setReg_reply (p : Page) (off : Nat) (v : Word) : (setReg s p off v).reply = s.reply := rfl
@[simp] theorem setReg_irqs (p : Page) (off : Nat) (v : Word) : (setReg s p off v).irqs = s.irqs := rfl
@[simp] theorem setReg_ctrs (p : Page) (off : Nat) (v : Word) : (setReg s p off v).ctrs = s.ctrs := rfl
@[simp] theorem setReg_latch (p : Page) (off : Nat) (v : Word) : (setReg s p off v).latch = s.latch := rfl
@[simp] theorem setReg_hwSet (p : Page) (off : Nat) (v : Word) : (setReg s p off v).hwSet = s.hwSet := rfl
@[simp] theorem setReg_rcTick (p : Page) (off : Nat) (v : Word) : (setReg s p off v).rcTick = s.rcTick := rfl
@[simp] theorem setReg_atTick (p : Page) (off : Nat) (v : Word) : (setReg s p off v).atTick = s.atTick := rfl
@[simp] theorem setReg_dev (p : Page) (off : Nat) (v : Word) : (setReg s p off v).dev = s.dev := rfl
@[simp] theorem setReg_time (p : Page) (off : Nat) (v : Word) : (setReg s p off v).time = s.time := rfl
@[simp] theorem setReg_gov (p : Page) (off : Nat) (v : Word) : (setReg s p off v).gov = s.gov := rfl
@[simp] theorem setReg_tally (p : Page) (off : Nat) (v : Word) : (setReg s p off v).tally = s.tally := rfl
@[simp] theorem setReg_watchDue (p : Page) (off : Nat) (v : Word) : (setReg s p off v).watchDue = s.watchDue := rfl
@[simp] theorem setReg_keys (p : Page) (off : Nat) (v : Word) : (setReg s p off v).keys = s.keys := rfl
@[simp] theorem setReg_mem (p : Page) (off : Nat) (v : Word) : (setReg s p off v).mem = s.mem := rfl
@[simp] theorem setReg_kv (p : Page) (off : Nat) (v : Word) : (setReg s p off v).kv = s.kv := rfl
@[simp] theorem setReg_sens (p : Page) (off : Nat) (v : Word) : (setReg s p off v).sens = s.sens := rfl
@[simp] theorem setReg_tracks (p : Page) (off : Nat) (v : Word) : (setReg s p off v).tracks = s.tracks := rfl
@[simp] theorem setReg_seq (p : Page) (off : Nat) (v : Word) : (setReg s p off v).seq = s.seq := rfl
@[simp] theorem setReg_fx (p : Page) (off : Nat) (v : Word) : (setReg s p off v).fx = s.fx := rfl
@[simp] theorem setReg_sec (p : Page) (off : Nat) (v : Word) : (setReg s p off v).sec = s.sec := rfl
@[simp] theorem setReg_cores (p : Page) (off : Nat) (v : Word) : (setReg s p off v).cores = s.cores := rfl
@[simp] theorem setReg_face (p : Page) (off : Nat) (v : Word) : (setReg s p off v).face = s.face := rfl
@[simp] theorem setReg_jobs (p : Page) (off : Nat) (v : Word) : (setReg s p off v).jobs = s.jobs := rfl
@[simp] theorem setReg_jobSeq (p : Page) (off : Nat) (v : Word) : (setReg s p off v).jobSeq = s.jobSeq := rfl
@[simp] theorem setReg_ring (p : Page) (off : Nat) (v : Word) : (setReg s p off v).ring = s.ring := rfl
@[simp] theorem setReg_scanAt (p : Page) (off : Nat) (v : Word) : (setReg s p off v).scanAt = s.scanAt := rfl
@[simp] theorem setReg_fb (p : Page) (off : Nat) (v : Word) : (setReg s p off v).fb = s.fb := rfl
@[simp] theorem setReg_vl (p : Page) (off : Nat) (v : Word) : (setReg s p off v).vl = s.vl := rfl
@[simp] theorem setReg_supply (p : Page) (off : Nat) (v : Word) : (setReg s p off v).supply = s.supply := rfl
@[simp] theorem setReg_loop (p : Page) (off : Nat) (v : Word) : (setReg s p off v).loop = s.loop := rfl
@[simp] theorem setReg_tap (p : Page) (off : Nat) (v : Word) : (setReg s p off v).tap = s.tap := rfl
@[simp] theorem setReg_cnt (p : Page) (off : Nat) (v : Word) : (setReg s p off v).cnt = s.cnt := rfl
@[simp] theorem setReg_prodAt (p : Page) (off : Nat) (v : Word) : (setReg s p off v).prodAt = s.prodAt := rfl
@[simp] theorem setReg_roster (p : Page) (off : Nat) (v : Word) : (setReg s p off v).roster = s.roster := rfl
@[simp] theorem setReg_free (p : Page) (off : Nat) (v : Word) : (setReg s p off v).free = s.free := rfl

@[simp] theorem clearReg_pending (p : Page) (off : Nat) (v : Word) : (clearReg s p off v).pending = s.pending := rfl
@[simp] theorem clearReg_reply (p : Page) (off : Nat) (v : Word) : (clearReg s p off v).reply = s.reply := rfl
@[simp] theorem clearReg_irqs (p : Page) (off : Nat) (v : Word) : (clearReg s p off v).irqs = s.irqs := rfl
@[simp] theorem clearReg_ctrs (p : Page) (off : Nat) (v : Word) : (clearReg s p off v).ctrs = s.ctrs := rfl
@[simp] theorem clearReg_latch (p : Page) (off : Nat) (v : Word) : (clearReg s p off v).latch = s.latch := rfl
@[simp] theorem clearReg_hwSet (p : Page) (off : Nat) (v : Word) : (clearReg s p off v).hwSet = s.hwSet := rfl
@[simp] theorem clearReg_rcTick (p : Page) (off : Nat) (v : Word) : (clearReg s p off v).rcTick = s.rcTick := rfl
@[simp] theorem clearReg_atTick (p : Page) (off : Nat) (v : Word) : (clearReg s p off v).atTick = s.atTick := rfl
@[simp] theorem clearReg_dev (p : Page) (off : Nat) (v : Word) : (clearReg s p off v).dev = s.dev := rfl
@[simp] theorem clearReg_time (p : Page) (off : Nat) (v : Word) : (clearReg s p off v).time = s.time := rfl
@[simp] theorem clearReg_gov (p : Page) (off : Nat) (v : Word) : (clearReg s p off v).gov = s.gov := rfl
@[simp] theorem clearReg_tally (p : Page) (off : Nat) (v : Word) : (clearReg s p off v).tally = s.tally := rfl
@[simp] theorem clearReg_watchDue (p : Page) (off : Nat) (v : Word) : (clearReg s p off v).watchDue = s.watchDue := rfl
@[simp] theorem clearReg_keys (p : Page) (off : Nat) (v : Word) : (clearReg s p off v).keys = s.keys := rfl
@[simp] theorem clearReg_mem (p : Page) (off : Nat) (v : Word) : (clearReg s p off v).mem = s.mem := rfl
@[simp] theorem clearReg_kv (p : Page) (off : Nat) (v : Word) : (clearReg s p off v).kv = s.kv := rfl
@[simp] theorem clearReg_sens (p : Page) (off : Nat) (v : Word) : (clearReg s p off v).sens = s.sens := rfl
@[simp] theorem clearReg_tracks (p : Page) (off : Nat) (v : Word) : (clearReg s p off v).tracks = s.tracks := rfl
@[simp] theorem clearReg_seq (p : Page) (off : Nat) (v : Word) : (clearReg s p off v).seq = s.seq := rfl
@[simp] theorem clearReg_fx (p : Page) (off : Nat) (v : Word) : (clearReg s p off v).fx = s.fx := rfl
@[simp] theorem clearReg_sec (p : Page) (off : Nat) (v : Word) : (clearReg s p off v).sec = s.sec := rfl
@[simp] theorem clearReg_cores (p : Page) (off : Nat) (v : Word) : (clearReg s p off v).cores = s.cores := rfl
@[simp] theorem clearReg_face (p : Page) (off : Nat) (v : Word) : (clearReg s p off v).face = s.face := rfl
@[simp] theorem clearReg_jobs (p : Page) (off : Nat) (v : Word) : (clearReg s p off v).jobs = s.jobs := rfl
@[simp] theorem clearReg_jobSeq (p : Page) (off : Nat) (v : Word) : (clearReg s p off v).jobSeq = s.jobSeq := rfl
@[simp] theorem clearReg_ring (p : Page) (off : Nat) (v : Word) : (clearReg s p off v).ring = s.ring := rfl
@[simp] theorem clearReg_scanAt (p : Page) (off : Nat) (v : Word) : (clearReg s p off v).scanAt = s.scanAt := rfl
@[simp] theorem clearReg_fb (p : Page) (off : Nat) (v : Word) : (clearReg s p off v).fb = s.fb := rfl
@[simp] theorem clearReg_vl (p : Page) (off : Nat) (v : Word) : (clearReg s p off v).vl = s.vl := rfl
@[simp] theorem clearReg_supply (p : Page) (off : Nat) (v : Word) : (clearReg s p off v).supply = s.supply := rfl
@[simp] theorem clearReg_loop (p : Page) (off : Nat) (v : Word) : (clearReg s p off v).loop = s.loop := rfl
@[simp] theorem clearReg_tap (p : Page) (off : Nat) (v : Word) : (clearReg s p off v).tap = s.tap := rfl
@[simp] theorem clearReg_cnt (p : Page) (off : Nat) (v : Word) : (clearReg s p off v).cnt = s.cnt := rfl
@[simp] theorem clearReg_prodAt (p : Page) (off : Nat) (v : Word) : (clearReg s p off v).prodAt = s.prodAt := rfl
@[simp] theorem clearReg_roster (p : Page) (off : Nat) (v : Word) : (clearReg s p off v).roster = s.roster := rfl
@[simp] theorem clearReg_free (p : Page) (off : Nat) (v : Word) : (clearReg s p off v).free = s.free := rfl

@[simp] theorem setRegField_pending (p : Page) (off hi lo v : Nat) : (setRegField s p off hi lo v).pending = s.pending := rfl
@[simp] theorem setRegField_reply (p : Page) (off hi lo v : Nat) : (setRegField s p off hi lo v).reply = s.reply := rfl
@[simp] theorem setRegField_irqs (p : Page) (off hi lo v : Nat) : (setRegField s p off hi lo v).irqs = s.irqs := rfl
@[simp] theorem setRegField_ctrs (p : Page) (off hi lo v : Nat) : (setRegField s p off hi lo v).ctrs = s.ctrs := rfl
@[simp] theorem setRegField_latch (p : Page) (off hi lo v : Nat) : (setRegField s p off hi lo v).latch = s.latch := rfl
@[simp] theorem setRegField_hwSet (p : Page) (off hi lo v : Nat) : (setRegField s p off hi lo v).hwSet = s.hwSet := rfl
@[simp] theorem setRegField_rcTick (p : Page) (off hi lo v : Nat) : (setRegField s p off hi lo v).rcTick = s.rcTick := rfl
@[simp] theorem setRegField_atTick (p : Page) (off hi lo v : Nat) : (setRegField s p off hi lo v).atTick = s.atTick := rfl
@[simp] theorem setRegField_dev (p : Page) (off hi lo v : Nat) : (setRegField s p off hi lo v).dev = s.dev := rfl
@[simp] theorem setRegField_time (p : Page) (off hi lo v : Nat) : (setRegField s p off hi lo v).time = s.time := rfl
@[simp] theorem setRegField_gov (p : Page) (off hi lo v : Nat) : (setRegField s p off hi lo v).gov = s.gov := rfl
@[simp] theorem setRegField_tally (p : Page) (off hi lo v : Nat) : (setRegField s p off hi lo v).tally = s.tally := rfl
@[simp] theorem setRegField_watchDue (p : Page) (off hi lo v : Nat) : (setRegField s p off hi lo v).watchDue = s.watchDue := rfl
@[simp] theorem setRegField_keys (p : Page) (off hi lo v : Nat) : (setRegField s p off hi lo v).keys = s.keys := rfl
@[simp] theorem setRegField_mem (p : Page) (off hi lo v : Nat) : (setRegField s p off hi lo v).mem = s.mem := rfl
@[simp] theorem setRegField_kv (p : Page) (off hi lo v : Nat) : (setRegField s p off hi lo v).kv = s.kv := rfl
@[simp] theorem setRegField_sens (p : Page) (off hi lo v : Nat) : (setRegField s p off hi lo v).sens = s.sens := rfl
@[simp] theorem setRegField_tracks (p : Page) (off hi lo v : Nat) : (setRegField s p off hi lo v).tracks = s.tracks := rfl
@[simp] theorem setRegField_seq (p : Page) (off hi lo v : Nat) : (setRegField s p off hi lo v).seq = s.seq := rfl
@[simp] theorem setRegField_fx (p : Page) (off hi lo v : Nat) : (setRegField s p off hi lo v).fx = s.fx := rfl
@[simp] theorem setRegField_sec (p : Page) (off hi lo v : Nat) : (setRegField s p off hi lo v).sec = s.sec := rfl
@[simp] theorem setRegField_cores (p : Page) (off hi lo v : Nat) : (setRegField s p off hi lo v).cores = s.cores := rfl
@[simp] theorem setRegField_face (p : Page) (off hi lo v : Nat) : (setRegField s p off hi lo v).face = s.face := rfl
@[simp] theorem setRegField_jobs (p : Page) (off hi lo v : Nat) : (setRegField s p off hi lo v).jobs = s.jobs := rfl
@[simp] theorem setRegField_jobSeq (p : Page) (off hi lo v : Nat) : (setRegField s p off hi lo v).jobSeq = s.jobSeq := rfl
@[simp] theorem setRegField_ring (p : Page) (off hi lo v : Nat) : (setRegField s p off hi lo v).ring = s.ring := rfl
@[simp] theorem setRegField_scanAt (p : Page) (off hi lo v : Nat) : (setRegField s p off hi lo v).scanAt = s.scanAt := rfl
@[simp] theorem setRegField_fb (p : Page) (off hi lo v : Nat) : (setRegField s p off hi lo v).fb = s.fb := rfl
@[simp] theorem setRegField_vl (p : Page) (off hi lo v : Nat) : (setRegField s p off hi lo v).vl = s.vl := rfl
@[simp] theorem setRegField_supply (p : Page) (off hi lo v : Nat) : (setRegField s p off hi lo v).supply = s.supply := rfl
@[simp] theorem setRegField_loop (p : Page) (off hi lo v : Nat) : (setRegField s p off hi lo v).loop = s.loop := rfl
@[simp] theorem setRegField_tap (p : Page) (off hi lo v : Nat) : (setRegField s p off hi lo v).tap = s.tap := rfl
@[simp] theorem setRegField_cnt (p : Page) (off hi lo v : Nat) : (setRegField s p off hi lo v).cnt = s.cnt := rfl
@[simp] theorem setRegField_prodAt (p : Page) (off hi lo v : Nat) : (setRegField s p off hi lo v).prodAt = s.prodAt := rfl
@[simp] theorem setRegField_roster (p : Page) (off hi lo v : Nat) : (setRegField s p off hi lo v).roster = s.roster := rfl
@[simp] theorem setRegField_free (p : Page) (off hi lo v : Nat) : (setRegField s p off hi lo v).free = s.free := rfl

@[simp] theorem setBusy_pending (p : Page) (b : Bool) : (setBusy s p b).pending = s.pending := rfl
@[simp] theorem setBusy_reply (p : Page) (b : Bool) : (setBusy s p b).reply = s.reply := rfl
@[simp] theorem setBusy_irqs (p : Page) (b : Bool) : (setBusy s p b).irqs = s.irqs := rfl
@[simp] theorem setBusy_ctrs (p : Page) (b : Bool) : (setBusy s p b).ctrs = s.ctrs := rfl
@[simp] theorem setBusy_latch (p : Page) (b : Bool) : (setBusy s p b).latch = s.latch := rfl
@[simp] theorem setBusy_hwSet (p : Page) (b : Bool) : (setBusy s p b).hwSet = s.hwSet := rfl
@[simp] theorem setBusy_rcTick (p : Page) (b : Bool) : (setBusy s p b).rcTick = s.rcTick := rfl
@[simp] theorem setBusy_atTick (p : Page) (b : Bool) : (setBusy s p b).atTick = s.atTick := rfl
@[simp] theorem setBusy_dev (p : Page) (b : Bool) : (setBusy s p b).dev = s.dev := rfl
@[simp] theorem setBusy_time (p : Page) (b : Bool) : (setBusy s p b).time = s.time := rfl
@[simp] theorem setBusy_gov (p : Page) (b : Bool) : (setBusy s p b).gov = s.gov := rfl
@[simp] theorem setBusy_tally (p : Page) (b : Bool) : (setBusy s p b).tally = s.tally := rfl
@[simp] theorem setBusy_watchDue (p : Page) (b : Bool) : (setBusy s p b).watchDue = s.watchDue := rfl
@[simp] theorem setBusy_keys (p : Page) (b : Bool) : (setBusy s p b).keys = s.keys := rfl
@[simp] theorem setBusy_mem (p : Page) (b : Bool) : (setBusy s p b).mem = s.mem := rfl
@[simp] theorem setBusy_kv (p : Page) (b : Bool) : (setBusy s p b).kv = s.kv := rfl
@[simp] theorem setBusy_sens (p : Page) (b : Bool) : (setBusy s p b).sens = s.sens := rfl
@[simp] theorem setBusy_tracks (p : Page) (b : Bool) : (setBusy s p b).tracks = s.tracks := rfl
@[simp] theorem setBusy_seq (p : Page) (b : Bool) : (setBusy s p b).seq = s.seq := rfl
@[simp] theorem setBusy_fx (p : Page) (b : Bool) : (setBusy s p b).fx = s.fx := rfl
@[simp] theorem setBusy_sec (p : Page) (b : Bool) : (setBusy s p b).sec = s.sec := rfl
@[simp] theorem setBusy_cores (p : Page) (b : Bool) : (setBusy s p b).cores = s.cores := rfl
@[simp] theorem setBusy_face (p : Page) (b : Bool) : (setBusy s p b).face = s.face := rfl
@[simp] theorem setBusy_jobs (p : Page) (b : Bool) : (setBusy s p b).jobs = s.jobs := rfl
@[simp] theorem setBusy_jobSeq (p : Page) (b : Bool) : (setBusy s p b).jobSeq = s.jobSeq := rfl
@[simp] theorem setBusy_ring (p : Page) (b : Bool) : (setBusy s p b).ring = s.ring := rfl
@[simp] theorem setBusy_scanAt (p : Page) (b : Bool) : (setBusy s p b).scanAt = s.scanAt := rfl
@[simp] theorem setBusy_fb (p : Page) (b : Bool) : (setBusy s p b).fb = s.fb := rfl
@[simp] theorem setBusy_vl (p : Page) (b : Bool) : (setBusy s p b).vl = s.vl := rfl
@[simp] theorem setBusy_supply (p : Page) (b : Bool) : (setBusy s p b).supply = s.supply := rfl
@[simp] theorem setBusy_loop (p : Page) (b : Bool) : (setBusy s p b).loop = s.loop := rfl
@[simp] theorem setBusy_tap (p : Page) (b : Bool) : (setBusy s p b).tap = s.tap := rfl
@[simp] theorem setBusy_cnt (p : Page) (b : Bool) : (setBusy s p b).cnt = s.cnt := rfl
@[simp] theorem setBusy_prodAt (p : Page) (b : Bool) : (setBusy s p b).prodAt = s.prodAt := rfl
@[simp] theorem setBusy_roster (p : Page) (b : Bool) : (setBusy s p b).roster = s.roster := rfl
@[simp] theorem setBusy_free (p : Page) (b : Bool) : (setBusy s p b).free = s.free := rfl

@[simp] theorem orReg_pending (p : Page) (off : Nat) (v : Word) : (orReg s p off v).pending = s.pending := rfl
@[simp] theorem orReg_reply (p : Page) (off : Nat) (v : Word) : (orReg s p off v).reply = s.reply := rfl
@[simp] theorem orReg_irqs (p : Page) (off : Nat) (v : Word) : (orReg s p off v).irqs = s.irqs := rfl
@[simp] theorem orReg_ctrs (p : Page) (off : Nat) (v : Word) : (orReg s p off v).ctrs = s.ctrs := rfl
@[simp] theorem orReg_latch (p : Page) (off : Nat) (v : Word) : (orReg s p off v).latch = s.latch := rfl
@[simp] theorem orReg_rcTick (p : Page) (off : Nat) (v : Word) : (orReg s p off v).rcTick = s.rcTick := rfl
@[simp] theorem orReg_atTick (p : Page) (off : Nat) (v : Word) : (orReg s p off v).atTick = s.atTick := rfl
@[simp] theorem orReg_dev (p : Page) (off : Nat) (v : Word) : (orReg s p off v).dev = s.dev := rfl
@[simp] theorem orReg_time (p : Page) (off : Nat) (v : Word) : (orReg s p off v).time = s.time := rfl
@[simp] theorem orReg_gov (p : Page) (off : Nat) (v : Word) : (orReg s p off v).gov = s.gov := rfl
@[simp] theorem orReg_tally (p : Page) (off : Nat) (v : Word) : (orReg s p off v).tally = s.tally := rfl
@[simp] theorem orReg_watchDue (p : Page) (off : Nat) (v : Word) : (orReg s p off v).watchDue = s.watchDue := rfl
@[simp] theorem orReg_keys (p : Page) (off : Nat) (v : Word) : (orReg s p off v).keys = s.keys := rfl
@[simp] theorem orReg_mem (p : Page) (off : Nat) (v : Word) : (orReg s p off v).mem = s.mem := rfl
@[simp] theorem orReg_kv (p : Page) (off : Nat) (v : Word) : (orReg s p off v).kv = s.kv := rfl
@[simp] theorem orReg_sens (p : Page) (off : Nat) (v : Word) : (orReg s p off v).sens = s.sens := rfl
@[simp] theorem orReg_tracks (p : Page) (off : Nat) (v : Word) : (orReg s p off v).tracks = s.tracks := rfl
@[simp] theorem orReg_seq (p : Page) (off : Nat) (v : Word) : (orReg s p off v).seq = s.seq := rfl
@[simp] theorem orReg_fx (p : Page) (off : Nat) (v : Word) : (orReg s p off v).fx = s.fx := rfl
@[simp] theorem orReg_sec (p : Page) (off : Nat) (v : Word) : (orReg s p off v).sec = s.sec := rfl
@[simp] theorem orReg_cores (p : Page) (off : Nat) (v : Word) : (orReg s p off v).cores = s.cores := rfl
@[simp] theorem orReg_face (p : Page) (off : Nat) (v : Word) : (orReg s p off v).face = s.face := rfl
@[simp] theorem orReg_jobs (p : Page) (off : Nat) (v : Word) : (orReg s p off v).jobs = s.jobs := rfl
@[simp] theorem orReg_jobSeq (p : Page) (off : Nat) (v : Word) : (orReg s p off v).jobSeq = s.jobSeq := rfl
@[simp] theorem orReg_ring (p : Page) (off : Nat) (v : Word) : (orReg s p off v).ring = s.ring := rfl
@[simp] theorem orReg_scanAt (p : Page) (off : Nat) (v : Word) : (orReg s p off v).scanAt = s.scanAt := rfl
@[simp] theorem orReg_fb (p : Page) (off : Nat) (v : Word) : (orReg s p off v).fb = s.fb := rfl
@[simp] theorem orReg_vl (p : Page) (off : Nat) (v : Word) : (orReg s p off v).vl = s.vl := rfl
@[simp] theorem orReg_supply (p : Page) (off : Nat) (v : Word) : (orReg s p off v).supply = s.supply := rfl
@[simp] theorem orReg_loop (p : Page) (off : Nat) (v : Word) : (orReg s p off v).loop = s.loop := rfl
@[simp] theorem orReg_tap (p : Page) (off : Nat) (v : Word) : (orReg s p off v).tap = s.tap := rfl
@[simp] theorem orReg_cnt (p : Page) (off : Nat) (v : Word) : (orReg s p off v).cnt = s.cnt := rfl
@[simp] theorem orReg_prodAt (p : Page) (off : Nat) (v : Word) : (orReg s p off v).prodAt = s.prodAt := rfl
@[simp] theorem orReg_roster (p : Page) (off : Nat) (v : Word) : (orReg s p off v).roster = s.roster := rfl
@[simp] theorem orReg_free (p : Page) (off : Nat) (v : Word) : (orReg s p off v).free = s.free := rfl

@[simp] theorem markSet_pending (p : Page) (off : Nat) (v : Word) : (markSet s p off v).pending = s.pending := rfl
@[simp] theorem markSet_reply (p : Page) (off : Nat) (v : Word) : (markSet s p off v).reply = s.reply := rfl
@[simp] theorem markSet_irqs (p : Page) (off : Nat) (v : Word) : (markSet s p off v).irqs = s.irqs := rfl
@[simp] theorem markSet_regs (p : Page) (off : Nat) (v : Word) : (markSet s p off v).regs = s.regs := rfl
@[simp] theorem markSet_ctrs (p : Page) (off : Nat) (v : Word) : (markSet s p off v).ctrs = s.ctrs := rfl
@[simp] theorem markSet_latch (p : Page) (off : Nat) (v : Word) : (markSet s p off v).latch = s.latch := rfl
@[simp] theorem markSet_rcTick (p : Page) (off : Nat) (v : Word) : (markSet s p off v).rcTick = s.rcTick := rfl
@[simp] theorem markSet_atTick (p : Page) (off : Nat) (v : Word) : (markSet s p off v).atTick = s.atTick := rfl
@[simp] theorem markSet_dev (p : Page) (off : Nat) (v : Word) : (markSet s p off v).dev = s.dev := rfl
@[simp] theorem markSet_time (p : Page) (off : Nat) (v : Word) : (markSet s p off v).time = s.time := rfl
@[simp] theorem markSet_gov (p : Page) (off : Nat) (v : Word) : (markSet s p off v).gov = s.gov := rfl
@[simp] theorem markSet_tally (p : Page) (off : Nat) (v : Word) : (markSet s p off v).tally = s.tally := rfl
@[simp] theorem markSet_watchDue (p : Page) (off : Nat) (v : Word) : (markSet s p off v).watchDue = s.watchDue := rfl
@[simp] theorem markSet_keys (p : Page) (off : Nat) (v : Word) : (markSet s p off v).keys = s.keys := rfl
@[simp] theorem markSet_mem (p : Page) (off : Nat) (v : Word) : (markSet s p off v).mem = s.mem := rfl
@[simp] theorem markSet_kv (p : Page) (off : Nat) (v : Word) : (markSet s p off v).kv = s.kv := rfl
@[simp] theorem markSet_sens (p : Page) (off : Nat) (v : Word) : (markSet s p off v).sens = s.sens := rfl
@[simp] theorem markSet_tracks (p : Page) (off : Nat) (v : Word) : (markSet s p off v).tracks = s.tracks := rfl
@[simp] theorem markSet_seq (p : Page) (off : Nat) (v : Word) : (markSet s p off v).seq = s.seq := rfl
@[simp] theorem markSet_fx (p : Page) (off : Nat) (v : Word) : (markSet s p off v).fx = s.fx := rfl
@[simp] theorem markSet_sec (p : Page) (off : Nat) (v : Word) : (markSet s p off v).sec = s.sec := rfl
@[simp] theorem markSet_cores (p : Page) (off : Nat) (v : Word) : (markSet s p off v).cores = s.cores := rfl
@[simp] theorem markSet_face (p : Page) (off : Nat) (v : Word) : (markSet s p off v).face = s.face := rfl
@[simp] theorem markSet_jobs (p : Page) (off : Nat) (v : Word) : (markSet s p off v).jobs = s.jobs := rfl
@[simp] theorem markSet_jobSeq (p : Page) (off : Nat) (v : Word) : (markSet s p off v).jobSeq = s.jobSeq := rfl
@[simp] theorem markSet_ring (p : Page) (off : Nat) (v : Word) : (markSet s p off v).ring = s.ring := rfl
@[simp] theorem markSet_scanAt (p : Page) (off : Nat) (v : Word) : (markSet s p off v).scanAt = s.scanAt := rfl
@[simp] theorem markSet_fb (p : Page) (off : Nat) (v : Word) : (markSet s p off v).fb = s.fb := rfl
@[simp] theorem markSet_vl (p : Page) (off : Nat) (v : Word) : (markSet s p off v).vl = s.vl := rfl
@[simp] theorem markSet_supply (p : Page) (off : Nat) (v : Word) : (markSet s p off v).supply = s.supply := rfl
@[simp] theorem markSet_loop (p : Page) (off : Nat) (v : Word) : (markSet s p off v).loop = s.loop := rfl
@[simp] theorem markSet_tap (p : Page) (off : Nat) (v : Word) : (markSet s p off v).tap = s.tap := rfl
@[simp] theorem markSet_cnt (p : Page) (off : Nat) (v : Word) : (markSet s p off v).cnt = s.cnt := rfl
@[simp] theorem markSet_prodAt (p : Page) (off : Nat) (v : Word) : (markSet s p off v).prodAt = s.prodAt := rfl
@[simp] theorem markSet_roster (p : Page) (off : Nat) (v : Word) : (markSet s p off v).roster = s.roster := rfl
@[simp] theorem markSet_free (p : Page) (off : Nat) (v : Word) : (markSet s p off v).free = s.free := rfl

@[simp] theorem rcEvent_pending (p : Page) (off : Nat) (f : Word → Word) : (rcEvent s p off f).pending = s.pending := rfl
@[simp] theorem rcEvent_reply (p : Page) (off : Nat) (f : Word → Word) : (rcEvent s p off f).reply = s.reply := rfl
@[simp] theorem rcEvent_irqs (p : Page) (off : Nat) (f : Word → Word) : (rcEvent s p off f).irqs = s.irqs := rfl
@[simp] theorem rcEvent_ctrs (p : Page) (off : Nat) (f : Word → Word) : (rcEvent s p off f).ctrs = s.ctrs := rfl
@[simp] theorem rcEvent_latch (p : Page) (off : Nat) (f : Word → Word) : (rcEvent s p off f).latch = s.latch := rfl
@[simp] theorem rcEvent_hwSet (p : Page) (off : Nat) (f : Word → Word) : (rcEvent s p off f).hwSet = s.hwSet := rfl
@[simp] theorem rcEvent_atTick (p : Page) (off : Nat) (f : Word → Word) : (rcEvent s p off f).atTick = s.atTick := rfl
@[simp] theorem rcEvent_dev (p : Page) (off : Nat) (f : Word → Word) : (rcEvent s p off f).dev = s.dev := rfl
@[simp] theorem rcEvent_time (p : Page) (off : Nat) (f : Word → Word) : (rcEvent s p off f).time = s.time := rfl
@[simp] theorem rcEvent_gov (p : Page) (off : Nat) (f : Word → Word) : (rcEvent s p off f).gov = s.gov := rfl
@[simp] theorem rcEvent_tally (p : Page) (off : Nat) (f : Word → Word) : (rcEvent s p off f).tally = s.tally := rfl
@[simp] theorem rcEvent_watchDue (p : Page) (off : Nat) (f : Word → Word) : (rcEvent s p off f).watchDue = s.watchDue := rfl
@[simp] theorem rcEvent_keys (p : Page) (off : Nat) (f : Word → Word) : (rcEvent s p off f).keys = s.keys := rfl
@[simp] theorem rcEvent_mem (p : Page) (off : Nat) (f : Word → Word) : (rcEvent s p off f).mem = s.mem := rfl
@[simp] theorem rcEvent_kv (p : Page) (off : Nat) (f : Word → Word) : (rcEvent s p off f).kv = s.kv := rfl
@[simp] theorem rcEvent_sens (p : Page) (off : Nat) (f : Word → Word) : (rcEvent s p off f).sens = s.sens := rfl
@[simp] theorem rcEvent_tracks (p : Page) (off : Nat) (f : Word → Word) : (rcEvent s p off f).tracks = s.tracks := rfl
@[simp] theorem rcEvent_seq (p : Page) (off : Nat) (f : Word → Word) : (rcEvent s p off f).seq = s.seq := rfl
@[simp] theorem rcEvent_fx (p : Page) (off : Nat) (f : Word → Word) : (rcEvent s p off f).fx = s.fx := rfl
@[simp] theorem rcEvent_sec (p : Page) (off : Nat) (f : Word → Word) : (rcEvent s p off f).sec = s.sec := rfl
@[simp] theorem rcEvent_cores (p : Page) (off : Nat) (f : Word → Word) : (rcEvent s p off f).cores = s.cores := rfl
@[simp] theorem rcEvent_face (p : Page) (off : Nat) (f : Word → Word) : (rcEvent s p off f).face = s.face := rfl
@[simp] theorem rcEvent_jobs (p : Page) (off : Nat) (f : Word → Word) : (rcEvent s p off f).jobs = s.jobs := rfl
@[simp] theorem rcEvent_jobSeq (p : Page) (off : Nat) (f : Word → Word) : (rcEvent s p off f).jobSeq = s.jobSeq := rfl
@[simp] theorem rcEvent_ring (p : Page) (off : Nat) (f : Word → Word) : (rcEvent s p off f).ring = s.ring := rfl
@[simp] theorem rcEvent_scanAt (p : Page) (off : Nat) (f : Word → Word) : (rcEvent s p off f).scanAt = s.scanAt := rfl
@[simp] theorem rcEvent_fb (p : Page) (off : Nat) (f : Word → Word) : (rcEvent s p off f).fb = s.fb := rfl
@[simp] theorem rcEvent_vl (p : Page) (off : Nat) (f : Word → Word) : (rcEvent s p off f).vl = s.vl := rfl
@[simp] theorem rcEvent_supply (p : Page) (off : Nat) (f : Word → Word) : (rcEvent s p off f).supply = s.supply := rfl
@[simp] theorem rcEvent_loop (p : Page) (off : Nat) (f : Word → Word) : (rcEvent s p off f).loop = s.loop := rfl
@[simp] theorem rcEvent_tap (p : Page) (off : Nat) (f : Word → Word) : (rcEvent s p off f).tap = s.tap := rfl
@[simp] theorem rcEvent_cnt (p : Page) (off : Nat) (f : Word → Word) : (rcEvent s p off f).cnt = s.cnt := rfl
@[simp] theorem rcEvent_prodAt (p : Page) (off : Nat) (f : Word → Word) : (rcEvent s p off f).prodAt = s.prodAt := rfl
@[simp] theorem rcEvent_roster (p : Page) (off : Nat) (f : Word → Word) : (rcEvent s p off f).roster = s.roster := rfl
@[simp] theorem rcEvent_free (p : Page) (off : Nat) (f : Word → Word) : (rcEvent s p off f).free = s.free := rfl

@[simp] theorem rcPut_pending (p : Page) (off : Nat) (v : Word) : (rcPut s p off v).pending = s.pending := rfl
@[simp] theorem rcPut_reply (p : Page) (off : Nat) (v : Word) : (rcPut s p off v).reply = s.reply := rfl
@[simp] theorem rcPut_irqs (p : Page) (off : Nat) (v : Word) : (rcPut s p off v).irqs = s.irqs := rfl
@[simp] theorem rcPut_ctrs (p : Page) (off : Nat) (v : Word) : (rcPut s p off v).ctrs = s.ctrs := rfl
@[simp] theorem rcPut_latch (p : Page) (off : Nat) (v : Word) : (rcPut s p off v).latch = s.latch := rfl
@[simp] theorem rcPut_hwSet (p : Page) (off : Nat) (v : Word) : (rcPut s p off v).hwSet = s.hwSet := rfl
@[simp] theorem rcPut_atTick (p : Page) (off : Nat) (v : Word) : (rcPut s p off v).atTick = s.atTick := rfl
@[simp] theorem rcPut_dev (p : Page) (off : Nat) (v : Word) : (rcPut s p off v).dev = s.dev := rfl
@[simp] theorem rcPut_time (p : Page) (off : Nat) (v : Word) : (rcPut s p off v).time = s.time := rfl
@[simp] theorem rcPut_gov (p : Page) (off : Nat) (v : Word) : (rcPut s p off v).gov = s.gov := rfl
@[simp] theorem rcPut_tally (p : Page) (off : Nat) (v : Word) : (rcPut s p off v).tally = s.tally := rfl
@[simp] theorem rcPut_watchDue (p : Page) (off : Nat) (v : Word) : (rcPut s p off v).watchDue = s.watchDue := rfl
@[simp] theorem rcPut_keys (p : Page) (off : Nat) (v : Word) : (rcPut s p off v).keys = s.keys := rfl
@[simp] theorem rcPut_mem (p : Page) (off : Nat) (v : Word) : (rcPut s p off v).mem = s.mem := rfl
@[simp] theorem rcPut_kv (p : Page) (off : Nat) (v : Word) : (rcPut s p off v).kv = s.kv := rfl
@[simp] theorem rcPut_sens (p : Page) (off : Nat) (v : Word) : (rcPut s p off v).sens = s.sens := rfl
@[simp] theorem rcPut_tracks (p : Page) (off : Nat) (v : Word) : (rcPut s p off v).tracks = s.tracks := rfl
@[simp] theorem rcPut_seq (p : Page) (off : Nat) (v : Word) : (rcPut s p off v).seq = s.seq := rfl
@[simp] theorem rcPut_fx (p : Page) (off : Nat) (v : Word) : (rcPut s p off v).fx = s.fx := rfl
@[simp] theorem rcPut_sec (p : Page) (off : Nat) (v : Word) : (rcPut s p off v).sec = s.sec := rfl
@[simp] theorem rcPut_cores (p : Page) (off : Nat) (v : Word) : (rcPut s p off v).cores = s.cores := rfl
@[simp] theorem rcPut_face (p : Page) (off : Nat) (v : Word) : (rcPut s p off v).face = s.face := rfl
@[simp] theorem rcPut_jobs (p : Page) (off : Nat) (v : Word) : (rcPut s p off v).jobs = s.jobs := rfl
@[simp] theorem rcPut_jobSeq (p : Page) (off : Nat) (v : Word) : (rcPut s p off v).jobSeq = s.jobSeq := rfl
@[simp] theorem rcPut_ring (p : Page) (off : Nat) (v : Word) : (rcPut s p off v).ring = s.ring := rfl
@[simp] theorem rcPut_scanAt (p : Page) (off : Nat) (v : Word) : (rcPut s p off v).scanAt = s.scanAt := rfl
@[simp] theorem rcPut_fb (p : Page) (off : Nat) (v : Word) : (rcPut s p off v).fb = s.fb := rfl
@[simp] theorem rcPut_vl (p : Page) (off : Nat) (v : Word) : (rcPut s p off v).vl = s.vl := rfl
@[simp] theorem rcPut_supply (p : Page) (off : Nat) (v : Word) : (rcPut s p off v).supply = s.supply := rfl
@[simp] theorem rcPut_loop (p : Page) (off : Nat) (v : Word) : (rcPut s p off v).loop = s.loop := rfl
@[simp] theorem rcPut_tap (p : Page) (off : Nat) (v : Word) : (rcPut s p off v).tap = s.tap := rfl
@[simp] theorem rcPut_cnt (p : Page) (off : Nat) (v : Word) : (rcPut s p off v).cnt = s.cnt := rfl
@[simp] theorem rcPut_prodAt (p : Page) (off : Nat) (v : Word) : (rcPut s p off v).prodAt = s.prodAt := rfl
@[simp] theorem rcPut_roster (p : Page) (off : Nat) (v : Word) : (rcPut s p off v).roster = s.roster := rfl
@[simp] theorem rcPut_free (p : Page) (off : Nat) (v : Word) : (rcPut s p off v).free = s.free := rfl

@[simp] theorem irq_pending (n v : Nat) (c : IrqCause) : (irq s n v c).pending = s.pending := rfl
@[simp] theorem irq_reply (n v : Nat) (c : IrqCause) : (irq s n v c).reply = s.reply := rfl
@[simp] theorem irq_regs (n v : Nat) (c : IrqCause) : (irq s n v c).regs = s.regs := rfl
@[simp] theorem irq_ctrs (n v : Nat) (c : IrqCause) : (irq s n v c).ctrs = s.ctrs := rfl
@[simp] theorem irq_latch (n v : Nat) (c : IrqCause) : (irq s n v c).latch = s.latch := rfl
@[simp] theorem irq_hwSet (n v : Nat) (c : IrqCause) : (irq s n v c).hwSet = s.hwSet := rfl
@[simp] theorem irq_rcTick (n v : Nat) (c : IrqCause) : (irq s n v c).rcTick = s.rcTick := rfl
@[simp] theorem irq_atTick (n v : Nat) (c : IrqCause) : (irq s n v c).atTick = s.atTick := rfl
@[simp] theorem irq_dev (n v : Nat) (c : IrqCause) : (irq s n v c).dev = s.dev := rfl
@[simp] theorem irq_time (n v : Nat) (c : IrqCause) : (irq s n v c).time = s.time := rfl
@[simp] theorem irq_gov (n v : Nat) (c : IrqCause) : (irq s n v c).gov = s.gov := rfl
@[simp] theorem irq_tally (n v : Nat) (c : IrqCause) : (irq s n v c).tally = s.tally := rfl
@[simp] theorem irq_watchDue (n v : Nat) (c : IrqCause) : (irq s n v c).watchDue = s.watchDue := rfl
@[simp] theorem irq_keys (n v : Nat) (c : IrqCause) : (irq s n v c).keys = s.keys := rfl
@[simp] theorem irq_mem (n v : Nat) (c : IrqCause) : (irq s n v c).mem = s.mem := rfl
@[simp] theorem irq_kv (n v : Nat) (c : IrqCause) : (irq s n v c).kv = s.kv := rfl
@[simp] theorem irq_sens (n v : Nat) (c : IrqCause) : (irq s n v c).sens = s.sens := rfl
@[simp] theorem irq_tracks (n v : Nat) (c : IrqCause) : (irq s n v c).tracks = s.tracks := rfl
@[simp] theorem irq_seq (n v : Nat) (c : IrqCause) : (irq s n v c).seq = s.seq := rfl
@[simp] theorem irq_fx (n v : Nat) (c : IrqCause) : (irq s n v c).fx = s.fx := rfl
@[simp] theorem irq_sec (n v : Nat) (c : IrqCause) : (irq s n v c).sec = s.sec := rfl
@[simp] theorem irq_cores (n v : Nat) (c : IrqCause) : (irq s n v c).cores = s.cores := rfl
@[simp] theorem irq_face (n v : Nat) (c : IrqCause) : (irq s n v c).face = s.face := rfl
@[simp] theorem irq_jobs (n v : Nat) (c : IrqCause) : (irq s n v c).jobs = s.jobs := rfl
@[simp] theorem irq_jobSeq (n v : Nat) (c : IrqCause) : (irq s n v c).jobSeq = s.jobSeq := rfl
@[simp] theorem irq_ring (n v : Nat) (c : IrqCause) : (irq s n v c).ring = s.ring := rfl
@[simp] theorem irq_scanAt (n v : Nat) (c : IrqCause) : (irq s n v c).scanAt = s.scanAt := rfl
@[simp] theorem irq_fb (n v : Nat) (c : IrqCause) : (irq s n v c).fb = s.fb := rfl
@[simp] theorem irq_vl (n v : Nat) (c : IrqCause) : (irq s n v c).vl = s.vl := rfl
@[simp] theorem irq_supply (n v : Nat) (c : IrqCause) : (irq s n v c).supply = s.supply := rfl
@[simp] theorem irq_loop (n v : Nat) (c : IrqCause) : (irq s n v c).loop = s.loop := rfl
@[simp] theorem irq_tap (n v : Nat) (c : IrqCause) : (irq s n v c).tap = s.tap := rfl
@[simp] theorem irq_cnt (n v : Nat) (c : IrqCause) : (irq s n v c).cnt = s.cnt := rfl
@[simp] theorem irq_prodAt (n v : Nat) (c : IrqCause) : (irq s n v c).prodAt = s.prodAt := rfl
@[simp] theorem irq_roster (n v : Nat) (c : IrqCause) : (irq s n v c).roster = s.roster := rfl
@[simp] theorem irq_free (n v : Nat) (c : IrqCause) : (irq s n v c).free = s.free := rfl

@[simp] theorem atBoundary_pending (a : BAct) : (atBoundary s a).pending = s.pending := rfl
@[simp] theorem atBoundary_reply (a : BAct) : (atBoundary s a).reply = s.reply := rfl
@[simp] theorem atBoundary_irqs (a : BAct) : (atBoundary s a).irqs = s.irqs := rfl
@[simp] theorem atBoundary_regs (a : BAct) : (atBoundary s a).regs = s.regs := rfl
@[simp] theorem atBoundary_ctrs (a : BAct) : (atBoundary s a).ctrs = s.ctrs := rfl
@[simp] theorem atBoundary_latch (a : BAct) : (atBoundary s a).latch = s.latch := rfl
@[simp] theorem atBoundary_hwSet (a : BAct) : (atBoundary s a).hwSet = s.hwSet := rfl
@[simp] theorem atBoundary_rcTick (a : BAct) : (atBoundary s a).rcTick = s.rcTick := rfl
@[simp] theorem atBoundary_dev (a : BAct) : (atBoundary s a).dev = s.dev := rfl
@[simp] theorem atBoundary_time (a : BAct) : (atBoundary s a).time = s.time := rfl
@[simp] theorem atBoundary_gov (a : BAct) : (atBoundary s a).gov = s.gov := rfl
@[simp] theorem atBoundary_tally (a : BAct) : (atBoundary s a).tally = s.tally := rfl
@[simp] theorem atBoundary_watchDue (a : BAct) : (atBoundary s a).watchDue = s.watchDue := rfl
@[simp] theorem atBoundary_keys (a : BAct) : (atBoundary s a).keys = s.keys := rfl
@[simp] theorem atBoundary_mem (a : BAct) : (atBoundary s a).mem = s.mem := rfl
@[simp] theorem atBoundary_kv (a : BAct) : (atBoundary s a).kv = s.kv := rfl
@[simp] theorem atBoundary_sens (a : BAct) : (atBoundary s a).sens = s.sens := rfl
@[simp] theorem atBoundary_tracks (a : BAct) : (atBoundary s a).tracks = s.tracks := rfl
@[simp] theorem atBoundary_seq (a : BAct) : (atBoundary s a).seq = s.seq := rfl
@[simp] theorem atBoundary_fx (a : BAct) : (atBoundary s a).fx = s.fx := rfl
@[simp] theorem atBoundary_sec (a : BAct) : (atBoundary s a).sec = s.sec := rfl
@[simp] theorem atBoundary_cores (a : BAct) : (atBoundary s a).cores = s.cores := rfl
@[simp] theorem atBoundary_face (a : BAct) : (atBoundary s a).face = s.face := rfl
@[simp] theorem atBoundary_jobs (a : BAct) : (atBoundary s a).jobs = s.jobs := rfl
@[simp] theorem atBoundary_jobSeq (a : BAct) : (atBoundary s a).jobSeq = s.jobSeq := rfl
@[simp] theorem atBoundary_ring (a : BAct) : (atBoundary s a).ring = s.ring := rfl
@[simp] theorem atBoundary_scanAt (a : BAct) : (atBoundary s a).scanAt = s.scanAt := rfl
@[simp] theorem atBoundary_fb (a : BAct) : (atBoundary s a).fb = s.fb := rfl
@[simp] theorem atBoundary_vl (a : BAct) : (atBoundary s a).vl = s.vl := rfl
@[simp] theorem atBoundary_supply (a : BAct) : (atBoundary s a).supply = s.supply := rfl
@[simp] theorem atBoundary_loop (a : BAct) : (atBoundary s a).loop = s.loop := rfl
@[simp] theorem atBoundary_tap (a : BAct) : (atBoundary s a).tap = s.tap := rfl
@[simp] theorem atBoundary_cnt (a : BAct) : (atBoundary s a).cnt = s.cnt := rfl
@[simp] theorem atBoundary_prodAt (a : BAct) : (atBoundary s a).prodAt = s.prodAt := rfl
@[simp] theorem atBoundary_roster (a : BAct) : (atBoundary s a).roster = s.roster := rfl
@[simp] theorem atBoundary_free (a : BAct) : (atBoundary s a).free = s.free := rfl

@[simp] theorem answer_pending (st : Status) (d : DWord) : (answer s st d).pending = s.pending := rfl
@[simp] theorem answer_irqs (st : Status) (d : DWord) : (answer s st d).irqs = s.irqs := rfl
@[simp] theorem answer_regs (st : Status) (d : DWord) : (answer s st d).regs = s.regs := rfl
@[simp] theorem answer_ctrs (st : Status) (d : DWord) : (answer s st d).ctrs = s.ctrs := rfl
@[simp] theorem answer_latch (st : Status) (d : DWord) : (answer s st d).latch = s.latch := rfl
@[simp] theorem answer_hwSet (st : Status) (d : DWord) : (answer s st d).hwSet = s.hwSet := rfl
@[simp] theorem answer_rcTick (st : Status) (d : DWord) : (answer s st d).rcTick = s.rcTick := rfl
@[simp] theorem answer_atTick (st : Status) (d : DWord) : (answer s st d).atTick = s.atTick := rfl
@[simp] theorem answer_dev (st : Status) (d : DWord) : (answer s st d).dev = s.dev := rfl
@[simp] theorem answer_time (st : Status) (d : DWord) : (answer s st d).time = s.time := rfl
@[simp] theorem answer_gov (st : Status) (d : DWord) : (answer s st d).gov = s.gov := rfl
@[simp] theorem answer_tally (st : Status) (d : DWord) : (answer s st d).tally = s.tally := rfl
@[simp] theorem answer_watchDue (st : Status) (d : DWord) : (answer s st d).watchDue = s.watchDue := rfl
@[simp] theorem answer_keys (st : Status) (d : DWord) : (answer s st d).keys = s.keys := rfl
@[simp] theorem answer_mem (st : Status) (d : DWord) : (answer s st d).mem = s.mem := rfl
@[simp] theorem answer_kv (st : Status) (d : DWord) : (answer s st d).kv = s.kv := rfl
@[simp] theorem answer_sens (st : Status) (d : DWord) : (answer s st d).sens = s.sens := rfl
@[simp] theorem answer_tracks (st : Status) (d : DWord) : (answer s st d).tracks = s.tracks := rfl
@[simp] theorem answer_seq (st : Status) (d : DWord) : (answer s st d).seq = s.seq := rfl
@[simp] theorem answer_fx (st : Status) (d : DWord) : (answer s st d).fx = s.fx := rfl
@[simp] theorem answer_sec (st : Status) (d : DWord) : (answer s st d).sec = s.sec := rfl
@[simp] theorem answer_cores (st : Status) (d : DWord) : (answer s st d).cores = s.cores := rfl
@[simp] theorem answer_face (st : Status) (d : DWord) : (answer s st d).face = s.face := rfl
@[simp] theorem answer_jobs (st : Status) (d : DWord) : (answer s st d).jobs = s.jobs := rfl
@[simp] theorem answer_jobSeq (st : Status) (d : DWord) : (answer s st d).jobSeq = s.jobSeq := rfl
@[simp] theorem answer_ring (st : Status) (d : DWord) : (answer s st d).ring = s.ring := rfl
@[simp] theorem answer_scanAt (st : Status) (d : DWord) : (answer s st d).scanAt = s.scanAt := rfl
@[simp] theorem answer_fb (st : Status) (d : DWord) : (answer s st d).fb = s.fb := rfl
@[simp] theorem answer_vl (st : Status) (d : DWord) : (answer s st d).vl = s.vl := rfl
@[simp] theorem answer_supply (st : Status) (d : DWord) : (answer s st d).supply = s.supply := rfl
@[simp] theorem answer_loop (st : Status) (d : DWord) : (answer s st d).loop = s.loop := rfl
@[simp] theorem answer_tap (st : Status) (d : DWord) : (answer s st d).tap = s.tap := rfl
@[simp] theorem answer_cnt (st : Status) (d : DWord) : (answer s st d).cnt = s.cnt := rfl
@[simp] theorem answer_prodAt (st : Status) (d : DWord) : (answer s st d).prodAt = s.prodAt := rfl
@[simp] theorem answer_roster (st : Status) (d : DWord) : (answer s st d).roster = s.roster := rfl
@[simp] theorem answer_free (st : Status) (d : DWord) : (answer s st d).free = s.free := rfl

@[simp] theorem spendFree_pending (n : Nat) : (spendFree s n).pending = s.pending := rfl
@[simp] theorem spendFree_reply (n : Nat) : (spendFree s n).reply = s.reply := rfl
@[simp] theorem spendFree_irqs (n : Nat) : (spendFree s n).irqs = s.irqs := rfl
@[simp] theorem spendFree_regs (n : Nat) : (spendFree s n).regs = s.regs := rfl
@[simp] theorem spendFree_ctrs (n : Nat) : (spendFree s n).ctrs = s.ctrs := rfl
@[simp] theorem spendFree_latch (n : Nat) : (spendFree s n).latch = s.latch := rfl
@[simp] theorem spendFree_hwSet (n : Nat) : (spendFree s n).hwSet = s.hwSet := rfl
@[simp] theorem spendFree_rcTick (n : Nat) : (spendFree s n).rcTick = s.rcTick := rfl
@[simp] theorem spendFree_atTick (n : Nat) : (spendFree s n).atTick = s.atTick := rfl
@[simp] theorem spendFree_dev (n : Nat) : (spendFree s n).dev = s.dev := rfl
@[simp] theorem spendFree_time (n : Nat) : (spendFree s n).time = s.time := rfl
@[simp] theorem spendFree_gov (n : Nat) : (spendFree s n).gov = s.gov := rfl
@[simp] theorem spendFree_tally (n : Nat) : (spendFree s n).tally = s.tally := rfl
@[simp] theorem spendFree_watchDue (n : Nat) : (spendFree s n).watchDue = s.watchDue := rfl
@[simp] theorem spendFree_keys (n : Nat) : (spendFree s n).keys = s.keys := rfl
@[simp] theorem spendFree_mem (n : Nat) : (spendFree s n).mem = s.mem := rfl
@[simp] theorem spendFree_kv (n : Nat) : (spendFree s n).kv = s.kv := rfl
@[simp] theorem spendFree_sens (n : Nat) : (spendFree s n).sens = s.sens := rfl
@[simp] theorem spendFree_tracks (n : Nat) : (spendFree s n).tracks = s.tracks := rfl
@[simp] theorem spendFree_seq (n : Nat) : (spendFree s n).seq = s.seq := rfl
@[simp] theorem spendFree_fx (n : Nat) : (spendFree s n).fx = s.fx := rfl
@[simp] theorem spendFree_sec (n : Nat) : (spendFree s n).sec = s.sec := rfl
@[simp] theorem spendFree_cores (n : Nat) : (spendFree s n).cores = s.cores := rfl
@[simp] theorem spendFree_face (n : Nat) : (spendFree s n).face = s.face := rfl
@[simp] theorem spendFree_jobs (n : Nat) : (spendFree s n).jobs = s.jobs := rfl
@[simp] theorem spendFree_jobSeq (n : Nat) : (spendFree s n).jobSeq = s.jobSeq := rfl
@[simp] theorem spendFree_ring (n : Nat) : (spendFree s n).ring = s.ring := rfl
@[simp] theorem spendFree_scanAt (n : Nat) : (spendFree s n).scanAt = s.scanAt := rfl
@[simp] theorem spendFree_fb (n : Nat) : (spendFree s n).fb = s.fb := rfl
@[simp] theorem spendFree_vl (n : Nat) : (spendFree s n).vl = s.vl := rfl
@[simp] theorem spendFree_supply (n : Nat) : (spendFree s n).supply = s.supply := rfl
@[simp] theorem spendFree_loop (n : Nat) : (spendFree s n).loop = s.loop := rfl
@[simp] theorem spendFree_tap (n : Nat) : (spendFree s n).tap = s.tap := rfl
@[simp] theorem spendFree_cnt (n : Nat) : (spendFree s n).cnt = s.cnt := rfl
@[simp] theorem spendFree_prodAt (n : Nat) : (spendFree s n).prodAt = s.prodAt := rfl
@[simp] theorem spendFree_roster (n : Nat) : (spendFree s n).roster = s.roster := rfl

@[simp] theorem setPgState_pending (p : Page) (st : Nat) : (setPgState s p st).pending = s.pending := by
  unfold setPgState; try dsimp only
  split_ifs <;> rfl
@[simp] theorem setPgState_reply (p : Page) (st : Nat) : (setPgState s p st).reply = s.reply := by
  unfold setPgState; try dsimp only
  split_ifs <;> rfl
@[simp] theorem setPgState_irqs (p : Page) (st : Nat) : (setPgState s p st).irqs = s.irqs := by
  unfold setPgState; try dsimp only
  split_ifs <;> rfl
@[simp] theorem setPgState_ctrs (p : Page) (st : Nat) : (setPgState s p st).ctrs = s.ctrs := by
  unfold setPgState; try dsimp only
  split_ifs <;> rfl
@[simp] theorem setPgState_latch (p : Page) (st : Nat) : (setPgState s p st).latch = s.latch := by
  unfold setPgState; try dsimp only
  split_ifs <;> rfl
@[simp] theorem setPgState_hwSet (p : Page) (st : Nat) : (setPgState s p st).hwSet = s.hwSet := by
  unfold setPgState; try dsimp only
  split_ifs <;> rfl
@[simp] theorem setPgState_rcTick (p : Page) (st : Nat) : (setPgState s p st).rcTick = s.rcTick := by
  unfold setPgState; try dsimp only
  split_ifs <;> rfl
@[simp] theorem setPgState_atTick (p : Page) (st : Nat) : (setPgState s p st).atTick = s.atTick := by
  unfold setPgState; try dsimp only
  split_ifs <;> rfl
@[simp] theorem setPgState_dev (p : Page) (st : Nat) : (setPgState s p st).dev = s.dev := by
  unfold setPgState; try dsimp only
  split_ifs <;> rfl
@[simp] theorem setPgState_time (p : Page) (st : Nat) : (setPgState s p st).time = s.time := by
  unfold setPgState; try dsimp only
  split_ifs <;> rfl
@[simp] theorem setPgState_gov (p : Page) (st : Nat) : (setPgState s p st).gov = s.gov := by
  unfold setPgState; try dsimp only
  split_ifs <;> rfl
@[simp] theorem setPgState_tally (p : Page) (st : Nat) : (setPgState s p st).tally = s.tally := by
  unfold setPgState; try dsimp only
  split_ifs <;> rfl
@[simp] theorem setPgState_watchDue (p : Page) (st : Nat) : (setPgState s p st).watchDue = s.watchDue := by
  unfold setPgState; try dsimp only
  split_ifs <;> rfl
@[simp] theorem setPgState_keys (p : Page) (st : Nat) : (setPgState s p st).keys = s.keys := by
  unfold setPgState; try dsimp only
  split_ifs <;> rfl
@[simp] theorem setPgState_mem (p : Page) (st : Nat) : (setPgState s p st).mem = s.mem := by
  unfold setPgState; try dsimp only
  split_ifs <;> rfl
@[simp] theorem setPgState_kv (p : Page) (st : Nat) : (setPgState s p st).kv = s.kv := by
  unfold setPgState; try dsimp only
  split_ifs <;> rfl
@[simp] theorem setPgState_sens (p : Page) (st : Nat) : (setPgState s p st).sens = s.sens := by
  unfold setPgState; try dsimp only
  split_ifs <;> rfl
@[simp] theorem setPgState_tracks (p : Page) (st : Nat) : (setPgState s p st).tracks = s.tracks := by
  unfold setPgState; try dsimp only
  split_ifs <;> rfl
@[simp] theorem setPgState_seq (p : Page) (st : Nat) : (setPgState s p st).seq = s.seq := by
  unfold setPgState; try dsimp only
  split_ifs <;> rfl
@[simp] theorem setPgState_fx (p : Page) (st : Nat) : (setPgState s p st).fx = s.fx := by
  unfold setPgState; try dsimp only
  split_ifs <;> rfl
@[simp] theorem setPgState_sec (p : Page) (st : Nat) : (setPgState s p st).sec = s.sec := by
  unfold setPgState; try dsimp only
  split_ifs <;> rfl
@[simp] theorem setPgState_cores (p : Page) (st : Nat) : (setPgState s p st).cores = s.cores := by
  unfold setPgState; try dsimp only
  split_ifs <;> rfl
@[simp] theorem setPgState_face (p : Page) (st : Nat) : (setPgState s p st).face = s.face := by
  unfold setPgState; try dsimp only
  split_ifs <;> rfl
@[simp] theorem setPgState_jobs (p : Page) (st : Nat) : (setPgState s p st).jobs = s.jobs := by
  unfold setPgState; try dsimp only
  split_ifs <;> rfl
@[simp] theorem setPgState_jobSeq (p : Page) (st : Nat) : (setPgState s p st).jobSeq = s.jobSeq := by
  unfold setPgState; try dsimp only
  split_ifs <;> rfl
@[simp] theorem setPgState_ring (p : Page) (st : Nat) : (setPgState s p st).ring = s.ring := by
  unfold setPgState; try dsimp only
  split_ifs <;> rfl
@[simp] theorem setPgState_scanAt (p : Page) (st : Nat) : (setPgState s p st).scanAt = s.scanAt := by
  unfold setPgState; try dsimp only
  split_ifs <;> rfl
@[simp] theorem setPgState_fb (p : Page) (st : Nat) : (setPgState s p st).fb = s.fb := by
  unfold setPgState; try dsimp only
  split_ifs <;> rfl
@[simp] theorem setPgState_vl (p : Page) (st : Nat) : (setPgState s p st).vl = s.vl := by
  unfold setPgState; try dsimp only
  split_ifs <;> rfl
@[simp] theorem setPgState_supply (p : Page) (st : Nat) : (setPgState s p st).supply = s.supply := by
  unfold setPgState; try dsimp only
  split_ifs <;> rfl
@[simp] theorem setPgState_loop (p : Page) (st : Nat) : (setPgState s p st).loop = s.loop := by
  unfold setPgState; try dsimp only
  split_ifs <;> rfl
@[simp] theorem setPgState_tap (p : Page) (st : Nat) : (setPgState s p st).tap = s.tap := by
  unfold setPgState; try dsimp only
  split_ifs <;> rfl
@[simp] theorem setPgState_cnt (p : Page) (st : Nat) : (setPgState s p st).cnt = s.cnt := by
  unfold setPgState; try dsimp only
  split_ifs <;> rfl
@[simp] theorem setPgState_prodAt (p : Page) (st : Nat) : (setPgState s p st).prodAt = s.prodAt := by
  unfold setPgState; try dsimp only
  split_ifs <;> rfl
@[simp] theorem setPgState_roster (p : Page) (st : Nat) : (setPgState s p st).roster = s.roster := by
  unfold setPgState; try dsimp only
  split_ifs <;> rfl
@[simp] theorem setPgState_free (p : Page) (st : Nat) : (setPgState s p st).free = s.free := by
  unfold setPgState; try dsimp only
  split_ifs <;> rfl

@[simp] theorem setFlag_pending (p : Page) (n : Nat) : (setFlag s p n).pending = s.pending := by
  unfold setFlag; try dsimp only
  split_ifs <;> rfl
@[simp] theorem setFlag_reply (p : Page) (n : Nat) : (setFlag s p n).reply = s.reply := by
  unfold setFlag; try dsimp only
  split_ifs <;> rfl
@[simp] theorem setFlag_ctrs (p : Page) (n : Nat) : (setFlag s p n).ctrs = s.ctrs := by
  unfold setFlag; try dsimp only
  split_ifs <;> rfl
@[simp] theorem setFlag_latch (p : Page) (n : Nat) : (setFlag s p n).latch = s.latch := by
  unfold setFlag; try dsimp only
  split_ifs <;> rfl
@[simp] theorem setFlag_rcTick (p : Page) (n : Nat) : (setFlag s p n).rcTick = s.rcTick := by
  unfold setFlag; try dsimp only
  split_ifs <;> rfl
@[simp] theorem setFlag_atTick (p : Page) (n : Nat) : (setFlag s p n).atTick = s.atTick := by
  unfold setFlag; try dsimp only
  split_ifs <;> rfl
@[simp] theorem setFlag_dev (p : Page) (n : Nat) : (setFlag s p n).dev = s.dev := by
  unfold setFlag; try dsimp only
  split_ifs <;> rfl
@[simp] theorem setFlag_time (p : Page) (n : Nat) : (setFlag s p n).time = s.time := by
  unfold setFlag; try dsimp only
  split_ifs <;> rfl
@[simp] theorem setFlag_gov (p : Page) (n : Nat) : (setFlag s p n).gov = s.gov := by
  unfold setFlag; try dsimp only
  split_ifs <;> rfl
@[simp] theorem setFlag_tally (p : Page) (n : Nat) : (setFlag s p n).tally = s.tally := by
  unfold setFlag; try dsimp only
  split_ifs <;> rfl
@[simp] theorem setFlag_watchDue (p : Page) (n : Nat) : (setFlag s p n).watchDue = s.watchDue := by
  unfold setFlag; try dsimp only
  split_ifs <;> rfl
@[simp] theorem setFlag_keys (p : Page) (n : Nat) : (setFlag s p n).keys = s.keys := by
  unfold setFlag; try dsimp only
  split_ifs <;> rfl
@[simp] theorem setFlag_mem (p : Page) (n : Nat) : (setFlag s p n).mem = s.mem := by
  unfold setFlag; try dsimp only
  split_ifs <;> rfl
@[simp] theorem setFlag_kv (p : Page) (n : Nat) : (setFlag s p n).kv = s.kv := by
  unfold setFlag; try dsimp only
  split_ifs <;> rfl
@[simp] theorem setFlag_sens (p : Page) (n : Nat) : (setFlag s p n).sens = s.sens := by
  unfold setFlag; try dsimp only
  split_ifs <;> rfl
@[simp] theorem setFlag_tracks (p : Page) (n : Nat) : (setFlag s p n).tracks = s.tracks := by
  unfold setFlag; try dsimp only
  split_ifs <;> rfl
@[simp] theorem setFlag_seq (p : Page) (n : Nat) : (setFlag s p n).seq = s.seq := by
  unfold setFlag; try dsimp only
  split_ifs <;> rfl
@[simp] theorem setFlag_fx (p : Page) (n : Nat) : (setFlag s p n).fx = s.fx := by
  unfold setFlag; try dsimp only
  split_ifs <;> rfl
@[simp] theorem setFlag_sec (p : Page) (n : Nat) : (setFlag s p n).sec = s.sec := by
  unfold setFlag; try dsimp only
  split_ifs <;> rfl
@[simp] theorem setFlag_cores (p : Page) (n : Nat) : (setFlag s p n).cores = s.cores := by
  unfold setFlag; try dsimp only
  split_ifs <;> rfl
@[simp] theorem setFlag_face (p : Page) (n : Nat) : (setFlag s p n).face = s.face := by
  unfold setFlag; try dsimp only
  split_ifs <;> rfl
@[simp] theorem setFlag_jobs (p : Page) (n : Nat) : (setFlag s p n).jobs = s.jobs := by
  unfold setFlag; try dsimp only
  split_ifs <;> rfl
@[simp] theorem setFlag_jobSeq (p : Page) (n : Nat) : (setFlag s p n).jobSeq = s.jobSeq := by
  unfold setFlag; try dsimp only
  split_ifs <;> rfl
@[simp] theorem setFlag_ring (p : Page) (n : Nat) : (setFlag s p n).ring = s.ring := by
  unfold setFlag; try dsimp only
  split_ifs <;> rfl
@[simp] theorem setFlag_scanAt (p : Page) (n : Nat) : (setFlag s p n).scanAt = s.scanAt := by
  unfold setFlag; try dsimp only
  split_ifs <;> rfl
@[simp] theorem setFlag_fb (p : Page) (n : Nat) : (setFlag s p n).fb = s.fb := by
  unfold setFlag; try dsimp only
  split_ifs <;> rfl
@[simp] theorem setFlag_vl (p : Page) (n : Nat) : (setFlag s p n).vl = s.vl := by
  unfold setFlag; try dsimp only
  split_ifs <;> rfl
@[simp] theorem setFlag_supply (p : Page) (n : Nat) : (setFlag s p n).supply = s.supply := by
  unfold setFlag; try dsimp only
  split_ifs <;> rfl
@[simp] theorem setFlag_loop (p : Page) (n : Nat) : (setFlag s p n).loop = s.loop := by
  unfold setFlag; try dsimp only
  split_ifs <;> rfl
@[simp] theorem setFlag_tap (p : Page) (n : Nat) : (setFlag s p n).tap = s.tap := by
  unfold setFlag; try dsimp only
  split_ifs <;> rfl
@[simp] theorem setFlag_cnt (p : Page) (n : Nat) : (setFlag s p n).cnt = s.cnt := by
  unfold setFlag; try dsimp only
  split_ifs <;> rfl
@[simp] theorem setFlag_prodAt (p : Page) (n : Nat) : (setFlag s p n).prodAt = s.prodAt := by
  unfold setFlag; try dsimp only
  split_ifs <;> rfl
@[simp] theorem setFlag_roster (p : Page) (n : Nat) : (setFlag s p n).roster = s.roster := by
  unfold setFlag; try dsimp only
  split_ifs <;> rfl
@[simp] theorem setFlag_free (p : Page) (n : Nat) : (setFlag s p n).free = s.free := by
  unfold setFlag; try dsimp only
  split_ifs <;> rfl

@[simp] theorem ctrAdd_pending (p : Page) (slot n : Nat) : (ctrAdd s p slot n).pending = s.pending := by
  unfold ctrAdd; try dsimp only
  split_ifs <;> rfl
@[simp] theorem ctrAdd_reply (p : Page) (slot n : Nat) : (ctrAdd s p slot n).reply = s.reply := by
  unfold ctrAdd; try dsimp only
  split_ifs <;> rfl
@[simp] theorem ctrAdd_irqs (p : Page) (slot n : Nat) : (ctrAdd s p slot n).irqs = s.irqs := by
  unfold ctrAdd; try dsimp only
  split_ifs <;> rfl
@[simp] theorem ctrAdd_regs (p : Page) (slot n : Nat) : (ctrAdd s p slot n).regs = s.regs := by
  unfold ctrAdd; try dsimp only
  split_ifs <;> rfl
@[simp] theorem ctrAdd_latch (p : Page) (slot n : Nat) : (ctrAdd s p slot n).latch = s.latch := by
  unfold ctrAdd; try dsimp only
  split_ifs <;> rfl
@[simp] theorem ctrAdd_hwSet (p : Page) (slot n : Nat) : (ctrAdd s p slot n).hwSet = s.hwSet := by
  unfold ctrAdd; try dsimp only
  split_ifs <;> rfl
@[simp] theorem ctrAdd_rcTick (p : Page) (slot n : Nat) : (ctrAdd s p slot n).rcTick = s.rcTick := by
  unfold ctrAdd; try dsimp only
  split_ifs <;> rfl
@[simp] theorem ctrAdd_atTick (p : Page) (slot n : Nat) : (ctrAdd s p slot n).atTick = s.atTick := by
  unfold ctrAdd; try dsimp only
  split_ifs <;> rfl
@[simp] theorem ctrAdd_dev (p : Page) (slot n : Nat) : (ctrAdd s p slot n).dev = s.dev := by
  unfold ctrAdd; try dsimp only
  split_ifs <;> rfl
@[simp] theorem ctrAdd_time (p : Page) (slot n : Nat) : (ctrAdd s p slot n).time = s.time := by
  unfold ctrAdd; try dsimp only
  split_ifs <;> rfl
@[simp] theorem ctrAdd_gov (p : Page) (slot n : Nat) : (ctrAdd s p slot n).gov = s.gov := by
  unfold ctrAdd; try dsimp only
  split_ifs <;> rfl
@[simp] theorem ctrAdd_tally (p : Page) (slot n : Nat) : (ctrAdd s p slot n).tally = s.tally := by
  unfold ctrAdd; try dsimp only
  split_ifs <;> rfl
@[simp] theorem ctrAdd_watchDue (p : Page) (slot n : Nat) : (ctrAdd s p slot n).watchDue = s.watchDue := by
  unfold ctrAdd; try dsimp only
  split_ifs <;> rfl
@[simp] theorem ctrAdd_keys (p : Page) (slot n : Nat) : (ctrAdd s p slot n).keys = s.keys := by
  unfold ctrAdd; try dsimp only
  split_ifs <;> rfl
@[simp] theorem ctrAdd_mem (p : Page) (slot n : Nat) : (ctrAdd s p slot n).mem = s.mem := by
  unfold ctrAdd; try dsimp only
  split_ifs <;> rfl
@[simp] theorem ctrAdd_kv (p : Page) (slot n : Nat) : (ctrAdd s p slot n).kv = s.kv := by
  unfold ctrAdd; try dsimp only
  split_ifs <;> rfl
@[simp] theorem ctrAdd_sens (p : Page) (slot n : Nat) : (ctrAdd s p slot n).sens = s.sens := by
  unfold ctrAdd; try dsimp only
  split_ifs <;> rfl
@[simp] theorem ctrAdd_tracks (p : Page) (slot n : Nat) : (ctrAdd s p slot n).tracks = s.tracks := by
  unfold ctrAdd; try dsimp only
  split_ifs <;> rfl
@[simp] theorem ctrAdd_seq (p : Page) (slot n : Nat) : (ctrAdd s p slot n).seq = s.seq := by
  unfold ctrAdd; try dsimp only
  split_ifs <;> rfl
@[simp] theorem ctrAdd_fx (p : Page) (slot n : Nat) : (ctrAdd s p slot n).fx = s.fx := by
  unfold ctrAdd; try dsimp only
  split_ifs <;> rfl
@[simp] theorem ctrAdd_sec (p : Page) (slot n : Nat) : (ctrAdd s p slot n).sec = s.sec := by
  unfold ctrAdd; try dsimp only
  split_ifs <;> rfl
@[simp] theorem ctrAdd_cores (p : Page) (slot n : Nat) : (ctrAdd s p slot n).cores = s.cores := by
  unfold ctrAdd; try dsimp only
  split_ifs <;> rfl
@[simp] theorem ctrAdd_face (p : Page) (slot n : Nat) : (ctrAdd s p slot n).face = s.face := by
  unfold ctrAdd; try dsimp only
  split_ifs <;> rfl
@[simp] theorem ctrAdd_jobs (p : Page) (slot n : Nat) : (ctrAdd s p slot n).jobs = s.jobs := by
  unfold ctrAdd; try dsimp only
  split_ifs <;> rfl
@[simp] theorem ctrAdd_jobSeq (p : Page) (slot n : Nat) : (ctrAdd s p slot n).jobSeq = s.jobSeq := by
  unfold ctrAdd; try dsimp only
  split_ifs <;> rfl
@[simp] theorem ctrAdd_ring (p : Page) (slot n : Nat) : (ctrAdd s p slot n).ring = s.ring := by
  unfold ctrAdd; try dsimp only
  split_ifs <;> rfl
@[simp] theorem ctrAdd_scanAt (p : Page) (slot n : Nat) : (ctrAdd s p slot n).scanAt = s.scanAt := by
  unfold ctrAdd; try dsimp only
  split_ifs <;> rfl
@[simp] theorem ctrAdd_fb (p : Page) (slot n : Nat) : (ctrAdd s p slot n).fb = s.fb := by
  unfold ctrAdd; try dsimp only
  split_ifs <;> rfl
@[simp] theorem ctrAdd_vl (p : Page) (slot n : Nat) : (ctrAdd s p slot n).vl = s.vl := by
  unfold ctrAdd; try dsimp only
  split_ifs <;> rfl
@[simp] theorem ctrAdd_supply (p : Page) (slot n : Nat) : (ctrAdd s p slot n).supply = s.supply := by
  unfold ctrAdd; try dsimp only
  split_ifs <;> rfl
@[simp] theorem ctrAdd_loop (p : Page) (slot n : Nat) : (ctrAdd s p slot n).loop = s.loop := by
  unfold ctrAdd; try dsimp only
  split_ifs <;> rfl
@[simp] theorem ctrAdd_tap (p : Page) (slot n : Nat) : (ctrAdd s p slot n).tap = s.tap := by
  unfold ctrAdd; try dsimp only
  split_ifs <;> rfl
@[simp] theorem ctrAdd_prodAt (p : Page) (slot n : Nat) : (ctrAdd s p slot n).prodAt = s.prodAt := by
  unfold ctrAdd; try dsimp only
  split_ifs <;> rfl
@[simp] theorem ctrAdd_roster (p : Page) (slot n : Nat) : (ctrAdd s p slot n).roster = s.roster := by
  unfold ctrAdd; try dsimp only
  split_ifs <;> rfl
@[simp] theorem ctrAdd_free (p : Page) (slot n : Nat) : (ctrAdd s p slot n).free = s.free := by
  unfold ctrAdd; try dsimp only
  split_ifs <;> rfl

end Sys2Proof.Machine
end

