-- ==== Sys2Proof/Laws/Keeper.lean ====
section
/-! SUPPORT. What the operations of the Seam keepers leave alone: the bytes of the memory, their tags, the page-table entries and the tier
requests. -/

namespace Sys2Proof.Machine

variable (s : State)

/-- The part of the memory that no keeper operation writes: the bytes, their tags, the entries and the requests. -/
def storeOf (s : State) : List Host.Cell × SMap Byte × SMap Pte × SMap TagRec := (s.mem.cells, s.mem.gens, s.mem.ptes, s.mem.tags)

theorem storeOf_of_mem {s t : State} (h : t.mem = s.mem) : storeOf t = storeOf s := by unfold storeOf; rw [h]

theorem storeOf_foldl {β : Type} (f : State → β → State) (hf : ∀ t x, storeOf (f t x) = storeOf t) (xs : List β) :
    storeOf (xs.foldl f s) = storeOf s := by
  induction xs generalizing s with
  | nil => rfl
  | cons x xs ih => rw [List.foldl_cons, ih, hf]

/-! ### The plain updates -/

@[simp] theorem storeOf_setWear (k b : Nat) (w : BlockWear) : storeOf (setWear s k b w) = storeOf s := rfl
@[simp] theorem storeOf_setFreeBlocks (k n : Nat) : storeOf (setFreeBlocks s k n) = storeOf s := rfl
@[simp] theorem storeOf_setSpareBlocks (k n : Nat) : storeOf (setSpareBlocks s k n) = storeOf s := rfl
@[simp] theorem storeOf_setOpen (ch : Nat) (b : Option Nat) : storeOf (setOpen s ch b) = storeOf s := rfl
@[simp] theorem storeOf_setUnits (key : Nat) (bs : List Nat) : storeOf (setUnits s key bs) = storeOf s := rfl
@[simp] theorem storeOf_spendFree (n : Nat) : storeOf (spendFree s n) = storeOf s := rfl
@[simp] theorem storeOf_setRegField (p : Page) (off hi lo v : Nat) : storeOf (setRegField s p off hi lo v) = storeOf s := rfl
@[simp] theorem storeOf_setBlocksReloc (k n : Nat) : storeOf (setBlocksReloc s k n) = storeOf s := rfl
@[simp] theorem storeOf_ctrAdd (p : Page) (i n : Nat) : storeOf (ctrAdd s p i n) = storeOf s := storeOf_of_mem (ctrAdd_mem s p i n)
@[simp] theorem storeOf_setFlag (p : Page) (n : Nat) : storeOf (setFlag s p n) = storeOf s := storeOf_of_mem (setFlag_mem s p n)
@[simp] theorem storeOf_setPgState (p : Page) (n : Nat) : storeOf (setPgState s p n) = storeOf s := storeOf_of_mem (setPgState_mem s p n)

/-! ### Units and blocks -/

@[simp] theorem storeOf_programUnit (ch : Nat) : storeOf (programUnit s ch).2 = storeOf s := by
  unfold programUnit; dsimp only
  rw [storeOf_ctrAdd, storeOf_setWear]
  split
  · rfl
  · split <;> rfl

@[simp] theorem storeOf_programPage (part lpn : Nat) : storeOf (programPage s part lpn) = storeOf s := by
  unfold programPage; dsimp only
  rw [storeOf_ctrAdd, storeOf_setUnits]
  suffices h : ∀ (cs : List Nat) (acc : List Nat × State),
      storeOf (cs.foldl (fun (a : List Nat × State) c => (a.1 ++ [(programUnit a.2 c).1], (programUnit a.2 c).2)) acc).2 = storeOf acc.2 from
    h _ _
  intro cs
  induction cs with
  | nil => exact fun _ => rfl
  | cons c cs ih => exact fun acc => (ih _).trans (storeOf_programUnit _ c)

@[simp] theorem storeOf_countRead (k b bits : Nat) (soft : Bool) : storeOf (countRead s k b bits soft) = storeOf s := by
  simp [countRead]

@[simp] theorem storeOf_readUnit (part lpn off bits : Nat) (soft : Bool) : storeOf (readUnit s part lpn off bits soft) = storeOf s := by
  unfold readUnit; split <;> simp

@[simp] theorem storeOf_awaitReloc (k b : Nat) (r : Bool) : storeOf (awaitReloc s k b r) = storeOf s := by
  unfold awaitReloc; dsimp only; split_ifs <;> simp

@[simp] theorem storeOf_retireBlock (k : Nat) : storeOf (retireBlock s k) = storeOf s := by
  unfold retireBlock; dsimp only; split_ifs <;> simp

@[simp] theorem storeOf_eraseBlock (k b : Nat) (ok : Bool) : storeOf (eraseBlock s k b ok) = storeOf s := by
  unfold eraseBlock; dsimp only; split_ifs <;> simp

@[simp] theorem storeOf_programFailed (ch : Nat) : storeOf (programFailed s ch) = storeOf s := by
  unfold programFailed; dsimp only; split <;> simp

@[simp] theorem storeOf_moveUnits (k b : Nat) : storeOf (moveUnits s k b) = storeOf s := by
  unfold moveUnits
  rw [storeOf_foldl]
  · split_ifs <;> simp
  · intro t x; dsimp only; split_ifs <;> simp

@[simp] theorem storeOf_settleErase : storeOf (settleErase s) = storeOf s := by
  unfold settleErase; dsimp only
  rw [storeOf_foldl]
  · rfl
  · intro t d; simp

@[simp] theorem storeOf_emptyBlock (k b : Nat) (ok : Bool) : storeOf (emptyBlock s k b ok) = storeOf s := by
  unfold emptyBlock; dsimp only
  rw [storeOf_settleErase]
  exact storeOf_moveUnits s k b

/-- The switch of a relocation leaves every byte where it reads. -/
@[simp] theorem storeOf_relocEnd (k b : Nat) (ok : Bool) : storeOf (relocEnd s k b ok) = storeOf s := by
  unfold relocEnd; dsimp only; split_ifs <;> simp

@[simp] theorem storeOf_collectOne (k : Nat) : storeOf (collectOne s k) = storeOf s := by
  unfold collectOne; dsimp only
  split_ifs
  · rfl
  · split
    · rfl
    · rw [storeOf_ctrAdd, storeOf_emptyBlock]; rfl

/-- Garbage collection moves units and erases blocks; it changes no byte. -/
@[simp] theorem storeOf_gcEnd (k n : Nat) : storeOf (gcEnd s k n) = storeOf s := by
  unfold gcEnd; exact storeOf_foldl _ _ (fun t _ => storeOf_collectOne t k) _

/-! ### The bytes -/

theorem cells_of_storeOf {s t : State} (h : storeOf t = storeOf s) : t.mem.cells = s.mem.cells := congrArg Prod.fst h

@[simp] theorem programPage_cells (part lpn : Nat) : (programPage s part lpn).mem.cells = s.mem.cells := cells_of_storeOf (storeOf_programPage s part lpn)
@[simp] theorem eraseBlock_cells (k b : Nat) (ok : Bool) : (eraseBlock s k b ok).mem.cells = s.mem.cells := cells_of_storeOf (storeOf_eraseBlock s k b ok)
@[simp] theorem emptyBlock_cells (k b : Nat) (ok : Bool) : (emptyBlock s k b ok).mem.cells = s.mem.cells := cells_of_storeOf (storeOf_emptyBlock s k b ok)

end Sys2Proof.Machine
end

