-- ==== Sys2Proof/Laws/Memory.lean ====
section
/-! SUPPORT. The physical memory keeps its one canonical form through every operation that writes it, and a byte reads as what was last
written to it. -/

namespace Sys2Proof.Machine

variable (s : State)

/-! ### Bytes -/

@[simp] theorem cellGet_cellSet_same (m : List Host.Cell) (a : Nat) (b : Byte) : cellGet (cellSet m a b) a = b := smGet_smSet_same _ _ _ _

theorem cellGet_cellSet_ne (m : List Host.Cell) {a x : Nat} (b : Byte) (h : a ≠ x) : cellGet (cellSet m a b) x = cellGet m x :=
  smGet_smSet_ne _ _ _ _ h

theorem cellSet_wf (m : List Host.Cell) (a : Nat) (b : Byte) (h : Memory.wf m = true) : Memory.wf (cellSet m a b) = true :=
  smWf_smSet _ _ _ _ h

theorem smClear_cells_wf (m : List Host.Cell) (lo hi : Nat) (h : Memory.wf m = true) : Memory.wf (smClear m lo hi) = true :=
  smWf_smClear _ _ _ _ h

theorem filter_cells_wf (m : List Host.Cell) (f : Host.Cell → Bool) (h : Memory.wf m = true) : Memory.wf (m.filter f) = true :=
  smWf_filter _ _ _ h

/-! ### Writes through a partition's range -/

@[simp] theorem setPte_cells (n vpn : Nat) (e : Pte) : (setPte s n vpn e).mem.cells = s.mem.cells := rfl

@[simp] theorem freeFrame_cells (t : Tier) (f : Nat) : (freeFrame s t f).mem.cells = s.mem.cells := by
  unfold freeFrame; split
  · rfl
  · cases t <;> rfl

@[simp] theorem pageWritten_cells (n vpn : Nat) : (pageWritten s n vpn).mem.cells = s.mem.cells := by
  unfold pageWritten; dsimp only
  split
  · split_ifs <;> simp
  · simp
  · simp

@[simp] theorem setCode_cells (n a code : Nat) : (setCode s n a code).mem.cells = s.mem.cells := by
  unfold setCode; dsimp only
  split_ifs <;> rfl

/-- One byte written changes one cell, the home address of the byte. -/
theorem writeByte_cells (n a : Nat) (b : Byte) :
    (writeByte s n a b).mem.cells = cellSet s.mem.cells (homeAddr n (pteOf s n (vpnOf a)) + a % pageBytes) b := by
  unfold writeByte; dsimp only
  split <;> rfl

theorem writeByte_wf (n a : Nat) (b : Byte) (h : Memory.wf s.mem.cells = true) : Memory.wf (writeByte s n a b).mem.cells = true := by
  rw [writeByte_cells]; exact cellSet_wf _ _ _ h

theorem writeList_wf (n a : Nat) (bs : List Byte) (h : Memory.wf s.mem.cells = true) : Memory.wf (writeList s n a bs).mem.cells = true := by
  induction bs generalizing s a with
  | nil => exact h
  | cons b bs ih => exact ih _ _ (writeByte_wf s n a b h)

theorem foldl_cells {β : Type} (f : State → β → State) (hf : ∀ t x, (f t x).mem.cells = t.mem.cells) (xs : List β) :
    (xs.foldl f s).mem.cells = s.mem.cells := by
  induction xs generalizing s with
  | nil => rfl
  | cons x xs ih => rw [List.foldl_cons, ih, hf]

/-- The cells of a write to one page that is not under move are those of its bytes alone; what follows them is bookkeeping. -/
theorem writePage_cells (n a : Nat) (bs : List Byte) (h : (pteOf s n (vpnOf a)).mig = false) :
    (writePage s n a bs).mem.cells = (writeList s n a bs).mem.cells := by
  unfold writePage
  cases bs with
  | nil => rfl
  | cons b bs =>
    simp only [List.isEmpty_cons, h, Bool.false_eq_true, if_false]
    rw [foldl_cells _ _ (fun t x => setCode_cells t _ _ _), pageWritten_cells]

/-- A write to a page under move changes no cell: it waits for the switch (R247). -/
theorem writePage_mig_cells (n a : Nat) (bs : List Byte) (h : (pteOf s n (vpnOf a)).mig = true) :
    (writePage s n a bs).mem.cells = s.mem.cells := by
  unfold writePage; split_ifs <;> rfl

theorem writePage_wf (n a : Nat) (bs : List Byte) (h : Memory.wf s.mem.cells = true) : Memory.wf (writePage s n a bs).mem.cells = true := by
  cases hm : (pteOf s n (vpnOf a)).mig with
  | true => rwa [writePage_mig_cells s n a bs hm]
  | false => rw [writePage_cells s n a bs hm]; exact writeList_wf s n a bs h

theorem foldl_wf {β : Type} (f : State → β → State) (hf : ∀ t x, Memory.wf t.mem.cells = true → Memory.wf (f t x).mem.cells = true)
    (xs : List β) (h : Memory.wf s.mem.cells = true) : Memory.wf (xs.foldl f s).mem.cells = true := by
  induction xs generalizing s with
  | nil => exact h
  | cons x xs ih => exact ih _ (hf s x h)

theorem writeBytes_wf (n a : Nat) (bs : List Byte) (h : Memory.wf s.mem.cells = true) : Memory.wf (writeBytes s n a bs).mem.cells = true :=
  foldl_wf _ _ (fun t x ht => writePage_wf t n x.1 x.2 ht) _ h

/-! ### Pages -/

theorem zeroPage_cells (n : Nat) (t : Tier) (pa : Nat) : (zeroPage s n t pa).mem.cells = smClear s.mem.cells pa (pa + pageBytes) := by
  unfold zeroPage; dsimp only
  split
  · rfl
  · have h : ∀ (xs : List Nat) (m : MemSt), (xs.foldl (fun g i => tagBlock512 s n g (pa / 512 + i)) m).cells = m.cells := by
      intro xs
      induction xs with
      | nil => exact fun _ => rfl
      | cons x xs ih => exact fun m => ih _
    rw [h]

theorem zeroPage_wf (n : Nat) (t : Tier) (pa : Nat) (h : Memory.wf s.mem.cells = true) : Memory.wf (zeroPage s n t pa).mem.cells = true := by
  rw [zeroPage_cells]; exact smClear_cells_wf _ _ _ h

theorem foldl_cellSet_wf (xs m : List Host.Cell) (h : Memory.wf m = true) :
    Memory.wf (xs.foldl (fun m p => cellSet m p.1 p.2) m) = true := by
  induction xs generalizing m with
  | nil => exact h
  | cons x xs ih => exact ih _ (cellSet_wf _ _ _ h)

theorem copyPage_wf (n : Nat) (t : Tier) (src dst : Nat) (h : Memory.wf s.mem.cells = true) :
    Memory.wf (copyPage s n t src dst).mem.cells = true := by
  unfold copyPage
  exact foldl_cellSet_wf _ _ (zeroPage_wf s n t dst h)

theorem trimSeam_wf (n : Nat) (h : Memory.wf s.mem.cells = true) : Memory.wf (trimSeam s n).mem.cells = true := smClear_cells_wf _ _ _ h

theorem eraseSeam_wf (n : Nat) (h : Memory.wf s.mem.cells = true) : Memory.wf (eraseSeam s n).mem.cells = true := by
  unfold eraseSeam
  refine foldl_wf _ _ (fun t x ht => ?_) _ (trimSeam_wf s n h)
  split_ifs
  · exact ht
  · rwa [emptyBlock_cells]

theorem zeroGallery_wf (n : Nat) (h : Memory.wf s.mem.cells = true) : Memory.wf (zeroGallery s n).mem.cells = true := by
  unfold zeroGallery; split
  · exact h
  · next l hl =>
    exact foldl_wf _ _ (fun t x ht => smClear_cells_wf _ _ _ ht) _ h

/-! ### Reset and power -/

theorem keptMem_wf (drift : Bool) (h : Memory.wf s.mem.cells = true) : Memory.wf (keptMem s drift).cells = true := filter_cells_wf _ _ h

theorem eraseTiers_cells : (eraseTiers s).mem.cells = [] := by
  unfold eraseTiers; dsimp only
  rw [foldl_cells]
  intro t k
  rw [foldl_cells]
  intro u x
  split_ifs
  · rfl
  · exact eraseBlock_cells u _ _ _

theorem lifeChange_wf (h : Memory.wf s.mem.cells = true) : Memory.wf (lifeChange s).mem.cells = true := by
  unfold lifeChange; dsimp only
  split
  · exact h
  · split_ifs
    · rw [eraseTiers_cells]; rfl
    · rw [eraseTiers_cells]; rfl
    · exact h
    · exact h

theorem deviceReset_wf (h : Memory.wf s.mem.cells = true) : Memory.wf (deviceReset s).mem.cells = true :=
  keptMem_wf (lifeChange s) true (lifeChange_wf s h)
theorem powerOff_wf (h : Memory.wf s.mem.cells = true) : Memory.wf (powerOff s).mem.cells = true :=
  keptMem_wf (deviceReset s) false (deviceReset_wf s h)

theorem clearUnassigned_wf (h : Memory.wf s.mem.cells = true) : Memory.wf (clearUnassigned s).mem.cells = true := by
  unfold clearUnassigned; split
  · exact h
  · exact filter_cells_wf _ _ h

theorem releaseHeld_wf (h : Memory.wf s.mem.cells = true) : Memory.wf (releaseHeld s).mem.cells = true := by
  unfold releaseHeld
  suffices k : ∀ (xs : List (Nat × List Byte)) (t : State), Memory.wf t.mem.cells = true →
      Memory.wf (xs.foldl (fun t x =>
        if writeRange t (x.1 / 2 ^ 28) (x.1 % 2 ^ 28 * pageBytes) pageBytes false false = .ok then
          writeBytes t (x.1 / 2 ^ 28) (x.1 % 2 ^ 28 * pageBytes) x.2
        else t) t).mem.cells = true from k _ _ h
  intro xs
  induction xs with
  | nil => exact fun t ht => ht
  | cons x xs ih =>
    intro t ht
    rw [List.foldl_cons]
    split_ifs
    · exact ih _ (writeBytes_wf _ _ _ _ ht)
    · exact ih _ ht

/-- The memory right after reset is canonical. -/
theorem reset_memory_wf : Memory.wf State.reset.mem.cells = true := by decide

end Sys2Proof.Machine
end

