-- ==== Sys2Proof/Laws/Word.lean ====
section
/-! SUPPORT. Bit fields of a word: a field reads as what was put there, and the bits outside it stay. -/

namespace Sys2Proof

/-- A bit of a word after a field is replaced. -/
theorem getLsbD_setField (w : Word) (hi lo v j : Nat) :
    (setField w hi lo v).getLsbD j =
      if j < 32 ∧ lo ≤ j ∧ j < lo + (hi + 1 - lo) then v.testBit (j - lo) else w.getLsbD j := by
  simp only [setField, BitVec.getLsbD_or, BitVec.getLsbD_and, BitVec.getLsbD_not, BitVec.getLsbD_ofNat, Nat.testBit_shiftLeft,
    Nat.testBit_two_pow_sub_one, Nat.testBit_mod_two_pow]
  by_cases h32 : j < 32
  · by_cases hlo : lo ≤ j
    · by_cases hn : j - lo < hi + 1 - lo
      · have : j < lo + (hi + 1 - lo) := by omega
        simp [h32, hlo, hn, this]
      · have : ¬ j < lo + (hi + 1 - lo) := by omega
        simp [h32, hlo, hn, this]
    · simp [h32, hlo]
  · have : w.getLsbD j = false := BitVec.getLsbD_of_ge _ _ (by omega)
    simp [h32, this]

theorem testBit_field (w : Word) (hi lo i : Nat) : (field w hi lo).testBit i = (decide (i < hi + 1 - lo) && w.getLsbD (lo + i)) := by
  simp only [field, Nat.testBit_mod_two_pow, Nat.testBit_shiftRight, BitVec.testBit_toNat]

/-- A field reads as what was put there (R7). -/
theorem field_setField_same (w : Word) {hi lo : Nat} (v : Nat) (h : hi < 32) :
    field (setField w hi lo v) hi lo = v % 2 ^ (hi + 1 - lo) := by
  apply Nat.eq_of_testBit_eq
  intro i
  rw [testBit_field, getLsbD_setField, Nat.testBit_mod_two_pow]
  by_cases hi' : i < hi + 1 - lo
  · rw [if_pos ⟨by omega, by omega, by omega⟩]; simp
  · simp [hi']

/-- A field apart from the one replaced stays. -/
theorem field_setField_ne (w : Word) {hi lo hi' lo' : Nat} (v : Nat) (h : hi < lo' ∨ hi' < lo) :
    field (setField w hi lo v) hi' lo' = field w hi' lo' := by
  apply Nat.eq_of_testBit_eq
  intro i
  rw [testBit_field, testBit_field, getLsbD_setField]
  by_cases hi'' : i < hi' + 1 - lo'
  · rw [if_neg (by omega)]
  · simp [hi'']

theorem bit_bitMask (n j : Nat) : bit (bitMask n) j = (decide (j < 32) && decide (n = j)) := by
  unfold bit bitMask
  rw [BitVec.getLsbD_ofNat, Nat.one_shiftLeft, Nat.testBit_two_pow]

end Sys2Proof
end

