-- ==== Sys2Proof/Laws/Ops.lean ====
section
/-! SUPPORT. What the shared operations do: registers, counters, Tallies, flags and rejections, and how a register access of a page comes
down to its judgement. -/

namespace Sys2Proof.Machine

variable (s : State) (p q : Page)

/-! ### Registers -/

@[simp] theorem regVal_setReg_same (off : Nat) (v : Word) : regVal (setReg s p off v) p off = v := by
  simp [regVal, setReg]

theorem regVal_setReg_ne {off o : Nat} (v : Word) (h : regKey p off ≠ regKey q o) : regVal (setReg s p off v) q o = regVal s q o := by
  simp only [regVal, setReg]
  exact smGet_smSet_ne _ _ _ _ h

/-- Two offsets of one page name different registers. -/
theorem regKey_inj {off o : Nat} : regKey p off = regKey p o ↔ off = o := by simp [regKey]

theorem regVal_setReg_off {off o : Nat} (v : Word) (h : off ≠ o) : regVal (setReg s p off v) p o = regVal s p o :=
  regVal_setReg_ne s p p v (fun e => h ((regKey_inj p).1 e))

/-- A register depends on the register file alone. -/
theorem regVal_congr {s t : State} (h : t.regs = s.regs) (p : Page) (off : Nat) : regVal t p off = regVal s p off := by
  simp [regVal, h]

theorem regVal_rcEvent_same (off : Nat) (f : Word → Word) : regVal (rcEvent s p off f) p off = f (regVal s p off) := by
  have := regVal_setReg_same s p off (f (regVal s p off))
  simpa [rcEvent, regVal] using this

theorem regVal_rcEvent_ne {off o : Nat} (f : Word → Word) (h : regKey p off ≠ regKey q o) : regVal (rcEvent s p off f) q o = regVal s q o := by
  have := regVal_setReg_ne s p q (f (regVal s p off)) h
  simpa [rcEvent, regVal] using this

theorem regVal_orReg_same (off : Nat) (v : Word) : regVal (orReg s p off v) p off = regVal s p off ||| v := by
  have := regVal_setReg_same s p off (regVal s p off ||| v)
  simpa [orReg, markSet, regVal] using this

theorem regVal_orReg_ne {off o : Nat} (v : Word) (h : regKey p off ≠ regKey q o) : regVal (orReg s p off v) q o = regVal s q o := by
  have := regVal_setReg_ne s p q (regVal s p off ||| v) h
  simpa [orReg, markSet, regVal] using this

/-- The register file keeps its canonical keys through every store. -/
theorem setReg_rising (off : Nat) (v : Word) (h : smRising s.regs = true) : smRising (setReg s p off v).regs = true :=
  smRising_smSet _ _ _ _ h

/-! ### Counters and Tallies -/

/-- ctrAdd advances its own counter and no other (R95). -/
theorem ctrVal_ctrAdd_same {n : Nat} (slot : Nat) (h : n ≠ 0) : ctrVal (ctrAdd s p slot n) p slot = ctrBump (ctrVal s p slot) n := by
  unfold ctrAdd; simp only [h, if_false]
  split <;> simp [ctrVal]

theorem ctrs_ctrAdd_ne (slot n k : Nat) (h : ctrKey p slot ≠ k) : smGet 0 (ctrAdd s p slot n).ctrs k = smGet 0 s.ctrs k := by
  unfold ctrAdd; dsimp only
  split_ifs
  · rfl
  · exact smGet_smSet_ne _ _ _ _ h
  · exact smGet_smSet_ne _ _ _ _ h

theorem ctrAdd_wf (slot n : Nat) (h : smWf 0 s.ctrs = true) : smWf 0 (ctrAdd s p slot n).ctrs = true := by
  unfold ctrAdd; dsimp only
  split_ifs
  · exact h
  · exact smWf_smSet _ _ _ _ h
  · exact smWf_smSet _ _ _ _ h

/-- ADD changes its own Tally by its increment, modulo 2³² (R163). -/
theorem tallyVal_tallyAdd_same (i n : Nat) : tallyVal (tallyAdd s i n) i = tallyVal s i + BitVec.ofNat 32 n := by
  simp [tallyAdd, tallyVal]

theorem tallyVal_tallyAdd_ne {i j : Nat} (n : Nat) (h : i ≠ j) : tallyVal (tallyAdd s i n) j = tallyVal s j := by
  simp only [tallyAdd, tallyVal, ctrAdd_tally]
  exact smGet_smSet_ne _ _ _ _ h

theorem tallyAdd_wf (i n : Nat) (h : smWf 0 s.tally = true) : smWf 0 (tallyAdd s i n).tally = true := by
  simp only [tallyAdd, ctrAdd_tally]
  exact smWf_smSet _ _ _ _ h

/-- CLEAR leaves zero in its range and nothing changed outside it (R163). -/
theorem tallyVal_tallyClear (first count i : Nat) :
    tallyVal (tallyClear s first count) i = if first ≤ i ∧ i < first + count then 0 else tallyVal s i := by
  simp only [tallyClear, tallyVal, ctrAdd_tally, smGet_smClear]

/-! ### Frames -/

theorem onlyBlock_refl : OnlyBlock s s := rfl

theorem onlyBlock_setReg (off : Nat) (v : Word) : OnlyBlock s (setReg s p off v) := rfl
theorem onlyBlock_orReg (off : Nat) (v : Word) : OnlyBlock s (orReg s p off v) := rfl
theorem onlyBlock_rcEvent (off : Nat) (f : Word → Word) : OnlyBlock s (rcEvent s p off f) := rfl

theorem onlyBlock_ctrAdd (slot n : Nat) : OnlyBlock s (ctrAdd s p slot n) := by
  unfold ctrAdd; dsimp only
  split_ifs <;> rfl

theorem onlyBlock_setFlag (n : Nat) : OnlyBlock s (setFlag s p n) := by
  unfold setFlag; dsimp only
  split_ifs <;> rfl

theorem onlyBlock_setPgState (st : Nat) : OnlyBlock s (setPgState s p st) := by
  unfold setPgState
  split_ifs <;> rfl

theorem onlyBlock_trans {s t u : State} (h : OnlyBlock s t) (k : OnlyBlock t u) : OnlyBlock s u := by
  unfold OnlyBlock at *
  rw [k, h]
  rfl

/-- A rejection is recorded in registers and counters alone (R92, R105). -/
theorem onlyBlock_recordReject (st : Status) (off : Nat) : OnlyBlock s (recordReject s p st off) :=
  onlyBlock_trans (onlyBlock_rcEvent s p _ _) (onlyBlock_ctrAdd _ p _ _)

/-! ### Flags and page states -/

/-- The state of a page, once set (R90). -/
theorem pgState_setPgState (st : Nat) : pgState (setPgState s p st) p = st % 16 := by
  unfold setPgState
  split_ifs with h
  · exact h
  · have a : regVal (setReg (setRegField s p 0x00C 7 4 st) p 0x028 (nowW s)) p 0x00C = setField (regVal s p 0x00C) 7 4 st := by
      rw [regVal_setReg_off _ p _ (by decide)]; exact regVal_setReg_same s p _ _
    simp only [pgState, regField, a]
    exact field_setField_same _ _ (by decide)

/-- A flag that hardware sets stands (R91). -/
theorem regVal_setFlag (n : Nat) : regVal (setFlag s p n) p 0x010 = regVal s p 0x010 ||| bitMask n := by
  have h := regVal_orReg_same s p 0x010 (bitMask n)
  unfold setFlag; dsimp only
  split_ifs
  · exact h
  · simpa [irq, regVal] using h

theorem regVal_setFlag_ne {n o : Nat} (h : regKey p 0x010 ≠ regKey q o) : regVal (setFlag s p n) q o = regVal s q o := by
  have k := regVal_orReg_ne s p q (bitMask n) h
  unfold setFlag; dsimp only
  split_ifs
  · exact k
  · simpa [irq, regVal] using k

theorem flagged_setFlag (n : Nat) (h : n < 32) : Flagged (setFlag s p n) p n := by
  have b := bit_bitMask n n
  simp only [Flagged, regBit, regVal_setFlag, bit, BitVec.getLsbD_or] at b ⊢
  simp [b, h]

/-! ### Addresses -/

theorem mem_allCls (c : Cls) : c ∈ allCls := by cases c <;> decide

/-- No two blocks of R81 share an address. -/
theorem blocks_disjoint : ∀ c ∈ allCls, ∀ k ∈ allCls,
    c = k ∨ clsBase c + clsCount c * 0x1000 ≤ clsBase k ∨ clsBase k + clsCount k * 0x1000 ≤ clsBase c := by decide

/-- An address inside a page falls in that page (R81). -/
theorem pageAt_regKey {p : Page} {off : Nat} (hp : pageOk p = true) (ho : off < 0x1000) : pageAt (regKey p off) = some p := by
  obtain ⟨k, i⟩ := p
  simp only [pageOk, decide_eq_true_eq] at hp
  have hin : clsBase k ≤ regKey ⟨k, i⟩ off ∧ regKey ⟨k, i⟩ off < clsBase k + clsCount k * 0x1000 := by
    simp only [regKey, pageBase]; omega
  unfold pageAt
  cases h : allCls.find? fun c => decide (clsBase c ≤ regKey ⟨k, i⟩ off ∧ regKey ⟨k, i⟩ off < clsBase c + clsCount c * 0x1000) with
  | none => exact absurd hin (by simpa using List.find?_eq_none.1 h k (mem_allCls k))
  | some c =>
    have hc : clsBase c ≤ regKey ⟨k, i⟩ off ∧ regKey ⟨k, i⟩ off < clsBase c + clsCount c * 0x1000 := by simpa using List.find?_some h
    have e : c = k := by
      rcases blocks_disjoint c (mem_allCls c) k (mem_allCls k) with e | e | e
      · exact e
      · omega
      · omega
    subst e
    simp only [Option.map_some, Option.some.injEq, Page.mk.injEq, true_and, regKey, pageBase]
    omega

theorem pageOff_regKey {p : Page} {off : Nat} (ho : off < 0x1000) : pageOff (regKey p off) = off := by
  obtain ⟨k, i⟩ := p
  cases k <;> simp only [pageOff, regKey, pageBase, clsBase] <;> omega

/-- Registers of two pages of the page map have different addresses. -/
theorem regKey_ne {p q : Page} {off o : Nat} (hp : pageOk p = true) (hq : pageOk q = true) (ho : off < 0x1000) (ho' : o < 0x1000)
    (h : p ≠ q ∨ off ≠ o) : regKey p off ≠ regKey q o := by
  intro e
  have a := pageAt_regKey hp ho
  have b := pageAt_regKey hq ho'
  rw [e, b] at a
  have c := pageOff_regKey (p := p) ho
  rw [e, pageOff_regKey ho'] at c
  rcases h with h | h
  · exact h (Option.some.inj a).symm
  · exact h c.symm

theorem regKey_aligned {p : Page} {off : Nat} (h : off % 4 = 0) : regKey p off % 4 = 0 := by
  obtain ⟨k, i⟩ := p
  cases k <;> simp only [regKey, pageBase, clsBase] <;> omega

/-! ### Register accesses -/

/-- A 32-bit write of a register that no rule rejects is carried out and answered OK (R104). -/
theorem regWrite_accept {s : State} {r : Req} {p : Page} {off : Nat} {v : Word} (h : Accepted s r p off v) :
    regWrite s r p off v = answer (accept s p off v) .ok 0 := by
  obtain ⟨hp, ho, ha, hr, hj⟩ := h
  have e : (v.setWidth 64).setWidth 32 = v := by simp
  simp [regWrite, busWrite, hr, regKey_aligned ha, write32, pageAt_regKey hp ho, pageOff_regKey ho, hj, e]

/-- A 32-bit write of a register that a rule rejects is recorded, and answered with the reason (R105). -/
theorem regWrite_reject {s : State} {r : Req} {p : Page} {off : Nat} {v : Word} {st : Status} (hp : pageOk p = true) (ho : off < 0x1000)
    (ha : off % 4 = 0) (hr : reaches s r = true) (hj : judge s r p off v false = some st) :
    regWrite s r p off v = answer (rejectWrite s p off st) st 0 := by
  have e : (v.setWidth 64).setWidth 32 = v := by simp
  simp [regWrite, busWrite, hr, regKey_aligned ha, write32, pageAt_regKey hp ho, pageOff_regKey ho, hj, e]

/-- A device that cannot be reached answers 0 and changes nothing else. -/
theorem regWrite_unreached {s : State} {r : Req} (p : Page) (off : Nat) (v : Word) (hr : reaches s r = false) :
    regWrite s r p off v = answer s .ok 0 := by
  simp [regWrite, busWrite, hr]

/-- A stored header register (R9): an accepted write stores what the register keeps, and does nothing more. -/
theorem accept_header {s : State} {p : Page} {off : Nat} {v : Word} {row : RegRow} (h1 : off ≠ 0x008) (h2 : off ≠ 0x018) (h3 : off < 0x40)
    (hr : regRow p off = some row) (hc : p.cls ≠ .c ∨ off ≠ 0x10C) : accept s p off v = setReg s p off (storedBits s p off row v) := by
  have hw : inWindow off = false := by simp [inWindow]; omega
  have hx : ¬ (p.cls = .c ∧ off = 0x10C) := by rintro ⟨a, b⟩; rcases hc with c | c <;> contradiction
  simp only [accept, h1, h2, hw, hr, hx, if_false, Bool.false_eq_true]
  rw [if_pos (by omega)]

end Sys2Proof.Machine
end

