-- ==== Sys2Proof/Tests/Slice0.lean ====
section
/-! SUPPORT. The package's own tests: the well-formedness checks refuse an ill-formed term each, a few commands do what the spec's rules say on
small states, and for every hypothesis of a statement a state and operands that meet it. -/

namespace Sys2Proof.Tests

set_option Elab.async false

open Sys2Proof.Machine

/-! ### Small states -/

/-- Registers as they stand. -/
def withRegs (s : State) (xs : List (Page × Nat × Word)) : State := xs.foldl (fun t x => setReg t x.1 x.2.1 x.2.2) s

/-- A tick. -/
def atNow (s : State) (n : Nat) : State := { s with time := { s.time with tickNow := BitVec.ofNat 64 n } }

/-- A device in BOOT after RESET_RELEASE. -/
def booting : State := { State.reset with sec := { SecSt.reset with boot := { BootSt.reset with held := false } } }

/-- A device in RUN, counters out of CR mode, at tick 100,000. -/
def running : State :=
  atNow (withRegs { booting with cnt := { CntSt.reset with cr := false } }
    [(devPage, 0x00C, 0x20#32), (fbPage 0, 0x00C, 0x10#32), (fbPage 1, 0x00C, 0x10#32)]) 100000

/-- The running device with another state of one page. -/
def inState (s : State) (p : Page) (st : Nat) : State := withRegs s [(p, 0x00C, BitVec.ofNat 32 (16 * st))]

/-- PT0 with the first Tally page, and every partition with 16 pages of Seam. -/
def smallPart (n : Nat) : PartLayout := { noPart with tallyFirst := n, tallyPages := 1, tagCap := 64, pfQuota := 4, seamPages := 16, galFrames := 4, galBg := 0 }
def smallLayout : Layout :=
  ⟨List.replicate 60 (.part 0 false), [], (List.range 16).map smallPart, [], [], 0, true, 0, true, 0⟩
def laidOut : State := { running with dev := { running.dev with layout := some smallLayout } }

/-! ### Well-formed commands -/

/-- Each check of `Instr.wf` refuses an ill-formed term, and accepts one that is well formed. -/
theorem test_wf_page : Instr.wf (.pageLock (.host 0) ⟨.m, 7⟩) = true ∧ Instr.wf (.pageLock (.host 0) ⟨.m, 8⟩) = false := by decide
theorem test_wf_core : Instr.wf (.coverageDebt ⟨.t, 1⟩) = true ∧ Instr.wf (.coverageDebt ⟨.t, 2⟩) = false := by decide
theorem test_wf_stream : Instr.wf (.tallyWaitRelease ⟨.a, 0⟩ 1) = true ∧ Instr.wf (.tallyWaitRelease ⟨.m, 0⟩ 1) = false := by decide
theorem test_wf_checker : Instr.wf (.startupCheckResult (.core ⟨.c, 1⟩) true) = true ∧ Instr.wf (.startupCheckResult (.core ⟨.c, 2⟩) true) = false := by
  decide
theorem test_wf_bytes : Instr.wf (.tierWindowWrite 0 0 [1]) = true ∧ Instr.wf (.tierWindowWrite 0 0 []) = false ∧
    Instr.wf (.bar2RingWrite 0 4095 [1, 2]) = false ∧ Instr.wf (.bar2RingWrite 0 0 (List.replicate 513 0)) = false := by
  decide +kernel

/-- No row of the table has bits, so no word spells a command. -/
theorem test_no_table_word : decodeTableWord 8 0 = none ∧ running.withFetchWord 8 0 = running := by decide

/-! ### Hypotheses that can be met: the queue, the accesses and device time -/

theorem meets_StepRunsFrontCommand : State.reset.pending = [] := rfl
theorem meets_CommandsLeaveQueue : ∃ t, exec .tapReset running = .next t := ⟨_, rfl⟩
theorem meets_CommandsLeaveQueue_order : endsTick .heartbeatLoss = false ∧ endsTick .tapReset = false ∧ earlyOf running .heartbeatLoss = none ∧
    earlyOf running .tapReset = none ∧ placeRank running .heartbeatLoss ≠ placeRank running .tapReset := by decide
/-- R47: a supply event, a loss of the mate and a register access stand in that order, whatever the order of arrival, behind what waits of the
ticks before. -/
theorem test_arrival_order : (running.post [.tapReset, .heartbeatLoss, .pwrFailNAssert]).pending = [.pwrFailNAssert, .heartbeatLoss, .tapReset] ∧
    ({ running with pending := [.tapReset, .tickBoundary 0 0 0 0 false] }.arrive .heartbeatLoss).pending =
      [.tapReset, .tickBoundary 0 0 0 0 false, .heartbeatLoss] := by decide +kernel
theorem meets_StepKeepsInvariant : Machine.Inv running ∧ ∃ t, step { running with pending := [.tapReset] } = .next t := ⟨by unfold Machine.Inv; decide, ⟨_, rfl⟩⟩
theorem meets_RejectedWrite : pageOk tickPage = true ∧ (0x130 : Nat) < 0x1000 ∧ 0x130 % 4 = 0 ∧ reaches running (.host 1) = true ∧
    judge running (.host 1) tickPage 0x130 1 false = some .ownerDenied ∧ ¬ (tickPage = partPage 0 ∧ 0x130 = 0x700) := by decide
theorem meets_WriteJudgedInOrder_1 : rightOf running (.host 1) tickPage 0x130 ≠ .full := by decide
theorem meets_WriteJudgedInOrder_2 :
    let s := { running with dev := { running.dev with inReset := [3] } }
    writeDenied s (.host 3) (partPage 3) 0x014 0 = false ∧ inReset s (pageOwner s (partPage 3)) = true := by decide
theorem meets_WriteJudgedInOrder_3 : writeDenied running (.host 0) devPage 0x014 0x80000000#32 = false ∧ inReset running (pageOwner running devPage) = false ∧
    0x80000000#32 &&& ~~~(writableBits devPage 0x014) ≠ 0 := by decide
theorem meets_StrangersCannotWrite_1 : pageOwner running devPage ≠ 1 ∧ pageShared running devPage = false := by decide
theorem meets_StrangersCannotWrite_2 : pageOwner running tickPage ≠ 1 ∧ pageShared running tickPage = true := by decide
theorem meets_StrangersCannotWrite_3 : pageOwner running (partPage 3) ≠ 0 := by decide
theorem meets_AccessEffects_1 : Accepted running (.host 0) devPage 0x014 7 := by unfold Accepted; decide
theorem meets_AccessEffects_2 : reaches running (.host 0) = true ∧ (0x3FFFFFC#26).toNat % 4 = 0 ∧ pageAt (0x3FFFFFC#26).toNat = none := by decide
theorem meets_AccessEffects_3 : reaches running (.host 1) = true ∧ AccSize.b1 ≠ .b8 ∧ (BitVec.ofNat 26 (regKey devPage 0x103)).toNat % sizeBytes .b1 = 0 ∧
    pageAt (regKey devPage 0x100) = some devPage ∧ rightOf running (.host 1) devPage 0x100 = .none := by decide
theorem meets_AccessEffects_6 : reaches running (.host 0) = true ∧ (BitVec.ofNat 26 (regKey devPage 0x010)).toNat % 8 = 0 := by decide
theorem meets_AccessEffects_7 : ∃ row, regRow devPage 0x01C = some row ∧ row.rc ≠ 0 ∧ inWindow 0x01C = false ∧ isLatched devPage 0x01C = false ∧
    unpowered running devPage = false ∧ foreignStream running (.host 0) devPage 0x01C = false := ⟨_, rfl, by decide⟩
theorem meets_AccessEffects_8 : reaches running (.host 0) = true ∧ (3#26).toNat % sizeBytes .b4 ≠ 0 := by decide
theorem meets_AccessEffects_4 : Readable running (.host 0) devPage 0x01C ∧ isOwner running (.host 0) devPage 0x01C = true ∧
    smFind running.rcTick (regKey devPage 0x01C) = none := by unfold Readable; decide
theorem meets_AccessEffects_5 : Readable running (.host 0) devPage 0xF8 := by unfold Readable; decide
theorem meets_HeaderCommands_1 : Accepted running (.host 0) ptpPage 0x008 3 ∧ Accepted running (.host 0) ptpPage 0x008 2 := by unfold Accepted; decide
theorem meets_HeaderCommands_2 : Accepted running (.host 0) ptpPage 0x008 1 ∧ Accepted running (.host 0) ptpPage 0x008 0 := by unfold Accepted; decide
theorem meets_HeaderCommands_3 : Accepted running (.host 15) (mbPage 15) 0x008 1 := by unfold Accepted; decide
theorem meets_HeaderCommands_4 : Accepted running (.host 0) ⟨.c, 1⟩ 0x008 1 ∧ pgState running ⟨.c, 1⟩ = 0 := by unfold Accepted; decide
theorem meets_HeaderCommands_5 : let s := { running with dev := { running.dev with lifecycle := 0 } }
    Accepted s (.jtag 0) devPage 0x018 1 ∨ Accepted running (.host 0) devPage 0x018 0 := by unfold Accepted; decide
theorem meets_HeaderCommands_6 : Accepted running (.host 2) (partPage 2) 0x020 (regVal running (partPage 2) 0x020 ||| 0x100#32) := by
  unfold Accepted; decide
theorem meets_HeaderCommands_7 : Accepted running (.host 0) devPage 0x108 ((0xFF#8 : Byte).setWidth 32) := by unfold Accepted; decide
theorem meets_HeaderCommands_8 : Accepted running (.host 0) devPage 0x11C 15 := by unfold Accepted; decide

theorem meets_TickBoundaryAdvancesTick_1 : running.sec.boot.held = false ∧ running.supply.main = true := by decide
theorem meets_TickBoundaryAdvancesTick_2 : State.reset.sec.boot.held = true := by decide
theorem meets_GovernorEffects_1 : let s := { running with gov := { running.gov with window := [5000] } }
    governs s = true ∧ now s % 100 = 0 ∧ s.gov.ceiling * 10 * s.gov.window.length < s.gov.window.sum * 8 ∧ 8 < s.gov.duty := by decide
theorem meets_GovernorEffects_2 : let s := { running with gov := { running.gov with below := 1000, sinceUp := 1000, duty := 8 } }
    governs s = true ∧ 1000 ≤ s.gov.below ∧ 1000 ≤ s.gov.sinceUp ∧ s.gov.duty < 16 := by decide
theorem meets_GovernorEffects_3 : now running % 1000 = 0 ∧ running.gov.tj ≤ 1520 := by decide
theorem meets_GovernorEffects_4 : let s := { running with gov := { running.gov with tj := 1521 } }
    now s % 1000 = 0 ∧ s.sec.boot.held = false ∧ s.supply.main = true ∧ 1520 < s.gov.tj := by decide
theorem meets_GovernorEffects_5 : let s := { running with gov := { running.gov with hotRun := 1000 } }
    s.gov.hotRun = 1000 ∧ s.sec.boot.held = false ∧ s.supply.main = true ∧ devRunning s = true := by decide

/-- PTP in use as a follower, on a port. -/
def following : State :=
  let s := withRegs running [(ptpPage, 0x100, 0x00F80007#32), (ptpPage, 0x104, 0x8001#32)]
  { s with time := { s.time with role := 1 } }
theorem meets_NetworkTimeEffects_1 : ptpEnabled following = true ∧ following.time.role = 1 ∧ pairHoldsTime following = false ∧
    tbState following = tbFree := by decide
theorem meets_NetworkTimeEffects_2 : let s := inState following tickPage tbLocked
    ptpEnabled s = true ∧ s.time.role = 1 ∧ pairHoldsTime s = false ∧ tbState s = tbLocked := by decide
theorem meets_NetworkTimeEffects_3 : let s := inState following tickPage tbHold
    ptpEnabled s = true ∧ s.time.role = 1 ∧ pairHoldsTime s = false ∧ tbState s = tbHold := by decide
theorem meets_NetworkTimeEffects_4 : let s := atNow following 4000000
    ptpEnabled s = true ∧ s.time.role = 1 ∧ s.time.lastSync + 3 * syncInterval s ≤ now s := by decide
theorem meets_NetworkTimeEffects_5 : ptpEnabled following = true ∧ regBit following ptpPage 0x104 15 = true := by decide
theorem meets_NetworkTimeEffects_6 : ptpEnabled following = true ∧ pairHoldsTime following = false ∧ tbState following ≠ tbHold ∧
    regBit following ptpPage 0x100 2 = true ∧ regField following ptpPage 0x100 23 16 ≠ 0xFF := by decide
def master : State := let s := inState following tickPage tbGm; { s with time := { s.time with role := 2 } }
theorem meets_NetworkTimeEffects_7 : ptpEnabled master = true ∧ pairHoldsTime master = false ∧ master.time.role = 2 ∧ tbState master = tbGm := by decide
/-- A comparator that the beginning of the tick found reached. -/
def matching (d : CmpDue) (xs : List (Page × Nat × Word)) : State :=
  let s := withRegs running xs
  { s with time := { s.time with cmpDue := [d] } }
theorem meets_ComparatorMatch_1 : let s := matching ⟨7, 100000, 1, false⟩ [(tickPage, 0x17C, 1), (tickPage, 0x15C, 100000)]
    (s.time.cmpDue.find? fun x => x.n == 7) = some ⟨7, 100000, 1, false⟩ ∧ regVal s tickPage 0x15C = 100000 ∧ regField s tickPage 0x17C 31 16 = 0 ∧
      regBit s tickPage 0x17C 0 = true := by decide
theorem meets_ComparatorMatch_2 : let s := matching ⟨0, 100000, 0x00010001, true⟩ [(tickPage, 0x160, 0x00010001), (tickPage, 0x140, 100000)]
    (s.time.cmpDue.find? fun x => x.n == 0) = some ⟨0, 100000, 0x00010001, true⟩ ∧ regVal s tickPage 0x140 = 100000 ∧
      regField s tickPage 0x160 31 16 = field 0x00010001 31 16 ∧ field 0x00010001 31 16 ≠ 0 ∧ regBit s tickPage 0x160 0 = true := by decide
theorem meets_ComparatorMatch_3 : let s := matching ⟨0, 100000, 1, false⟩ [(tickPage, 0x160, 1), (tickPage, 0x140, 200000)]
    (s.time.cmpDue.find? fun x => x.n == 0) = some ⟨0, 100000, 1, false⟩ ∧ regVal s tickPage 0x140 ≠ 100000 := by decide
/-- R53: an armed comparator whose value is reached is found at the beginning of a tick. -/
theorem test_comparator_found : (cmpEval (withRegs running [(tickPage, 0x17C, 1), (tickPage, 0x15C, 100000)])).time.cmpDue.length = 1 := by decide
theorem meets_NextCompareAhead : 0 < 65535 ∧ 65535 < 2 ^ 16 ∧ ((0x7FFF0000#32 : Word) - 0).toNat + 65535 < 2 ^ 31 := by decide
theorem meets_TimePageCommands_1 : Accepted running (.host 0) tickPage 0x130 1 := by unfold Accepted; decide
theorem meets_TimePageCommands_2 : let s := withRegs running [(ptpPage, 0x104, 0x8001#32)]
    Accepted s (.host 0) ptpPage 0x100 (setBit 0x00F80000#32 0 true) ∧ ptpEnabled s = false := by unfold Accepted; decide
theorem meets_TimePageCommands_3 : Accepted following (.host 0) ptpPage 0x100 (setBit (regVal following ptpPage 0x100) 0 false) ∧
    ptpEnabled following = true := by unfold Accepted; decide
theorem meets_TimePageCommands_4 : tsqInUse following = true ∧ following.time.tsq.length < 64 ∧ following.time.tsqLate = [] ∧
    ({ following.time with tsqLate := [⟨0, 0, 0, 0, 0⟩] } : TimeSt).tsqLate ≠ [] := by decide
theorem meets_TimePageCommands_5 : Readable running (.host 0) ptpPage 0x120 ∧ isOwner running (.host 0) ptpPage 0x120 = true := by unfold Readable; decide
theorem meets_TimePageCommands_6 : Readable running (.host 15) tickPage 0x100 ∧ Readable running (.host 15) tickPage 0x108 := by unfold Readable; decide
theorem meets_TickPageNeverReset : rightOf running (.host 0) tickPage 0x008 = .full ∧ inReset running (pageOwner running tickPage) = false ∧
    (2#32 : Word) &&& ~~~3#32 = 0 ∧ bit 2#32 1 = true ∧ bit 0#32 0 = false ∧ reaches running (.host 0) = true := by decide
theorem meets_UnmappedAddresses : reaches running (.host 3) = true ∧ (0x3000#26).toNat % 4 = 0 ∧ pageAt (0x3000#26).toNat = none := by decide
theorem meets_ReservedRegisters : Readable running (.host 0) devPage 0xFFC ∧ regRow devPage 0xFFC = none ∧ isLatched devPage 0xFFC = false ∧
    rightOf running (.host 0) devPage 0xFFC = .full ∧ devRunning running = true ∧ unpowered running devPage = false := by unfold Readable; decide
theorem meets_ReservedRegisters_checks (v : Word) : (blockCheck running (.host 0) devPage 0xFFC v).all (· == none) = true ∧
    sensorDenied running devPage 0xFFC v = false := by constructor <;> rfl
theorem meets_GmEntryAndExit_1 : tbState following ≠ tbGm ∧ ∃ t, exec (.grandmasterRoleChange 2) following = .next t ∧ tbState t = tbGm :=
  ⟨by decide, _, rfl, by decide⟩
theorem meets_GmEntryAndExit_2 : tbState master = tbGm ∧ ∃ t, exec (.grandmasterRoleChange 1) master = .next t ∧ tbState t = tbLocked :=
  ⟨by decide, _, rfl, by decide⟩
theorem meets_HardwareSetBeatsClear : ∃ row, regRow devPage 0x010 = some row ∧ bit row.w1c 2 = true ∧ bit (row.rw ||| row.rwl) 2 = false ∧
    bit 4#32 2 = true ∧ bit (smGet 0 running.hwSet (regKey devPage 0x010)) 2 = false := ⟨_, rfl, by decide⟩

/-! ### Tallies -/

theorem meets_TallyEffects_1 : let s := inState laidOut ⟨.tally, 31⟩ tlReady
    Accepted s (.host 0) ⟨.tally, 31⟩ 0x100 (BitVec.ofNat 32 (511 * 65536 + 0xFFFF)) := by unfold Accepted; decide
theorem meets_TallyEffects_2 : let s := inState laidOut ⟨.tally, 0⟩ tlReady
    Accepted s (.host 0) ⟨.tally, 0⟩ 0x104 (BitVec.ofNat 32 512) := by unfold Accepted; decide
theorem meets_TallyEffects_3 : let s := withRegs { running with watchDue := [127] } [(⟨.tally, 31⟩, 0x11C, 0x80000000#32)]
    s.watchDue.contains (4 * 31 + 3) = true ∧ watchArmed s 31 3 = true := by decide
theorem meets_ReachedIsSignedDifference : (0 : Nat) < 2 ^ 31 - 1 ∧ 2 ^ 31 - 1 < 2 ^ 31 ∧ 2 ^ 31 ≤ 2 ^ 32 - 1 := by decide

/-! ### Hypotheses that can be met: the tiers -/

/-- The laid-out device with the tier blocks in service. -/
def served : State :=
  withRegs laidOut ([(⟨.gallery, 0⟩, 0x00C, 0x10#32), (⟨.gallery, 1⟩, 0x00C, 0x10#32), (⟨.keeper, 0⟩, 0x00C, 0x10#32), (⟨.keeper, 1⟩, 0x00C, 0x10#32),
    (⟨.hoist, 0⟩, 0x00C, 0x10#32), (⟨.hoist, 1⟩, 0x00C, 0x10#32), (⟨.drift, 0⟩, 0x00C, 0x10#32)])

/-- A page of PT0 with an entry. -/
def mapped (s : State) (vpn : Nat) (e : Pte) : State := setPte s 0 vpn e
def galleryPte : Pte := { noPte with v := true, w := true, gFrame := 3 }
def driftPte : Pte := { noPte with v := true, w := true, home := .drift, dFrame := 3 }

/-- A tier-map request of PT0. -/
def tmReq (op : Nat) (checked : Bool) : TmRun := ⟨op, 1, false, false, true, 0, 7, 1, 2, checked, 0, 0, .ok⟩
def withTm (s : State) (r : TmRun) : State := setTm s 0 r

/-- A command that runs on core M 0 for PT0, and a tag that it holds. -/
def anyOffer (desc : List Word) : Offer := ⟨desc, 0, 0, 0, 0, 0, false, 0⟩
def bareRun (o : Offer) (out : Option CmdOut) : CmdRun := ⟨o, 0, out, none, [], [], [], [], none, none, [], [], 0⟩
def runsOn (s : State) (k : CoreId) (i : Nat) : State := setCur s k i (bareRun (anyOffer []) none)
/-- The running device with a command in RUN. -/
def inRun (s : State) (k : CoreId) (i : Nat) : State := setStreamState (runsOn s k i) k i cRun
def tagged : State :=
  let s := mapped (runsOn served ⟨.m, 0⟩ 0) 7 galleryPte
  { s with mem := { s.mem with tags := [(0, ⟨.core ⟨.m, 0⟩ 0, true, false, 0, false, 7 * pageBytes, 64, .gallery, 3, 0, .ok⟩)] } }
/-- The same tag, granted in this tick. -/
def freshTag (s : State) : State :=
  { s with mem := { s.mem with tags := [(0, ⟨.core ⟨.m, 0⟩ 0, true, false, 0, false, 7 * pageBytes, 64, .gallery, 3, 100000, .ok⟩)] } }
/-- A write that waits for its page's switch. -/
def heldTag : State :=
  { tagged with mem := { tagged.mem with tags := [(0, ⟨.core ⟨.m, 0⟩ 0, true, true, 0, true, 7 * pageBytes, 64, .gallery, 3, 0, .ok⟩)] } }

/-- The tags of C-core 0 all in use, where no layout gives PT0 a share of the pool. -/
def exhausted : State :=
  let s := runsOn running ⟨.c, 0⟩ 0
  { s with mem := { s.mem with tags := (List.range 32).map fun i => (8768 + i, ⟨.core ⟨.c, 0⟩ 0, true, false, 0, false, 0, 64, .gallery, 0, 0, .ok⟩) } }
theorem meets_TagGrantedIsLowestFree : Machine.Inv running ∧ grantTag running ⟨.m, 0⟩ 0 = some 0 := by unfold Machine.Inv; decide
theorem meets_TagGrantedIsLowestFree_pool : let s := { exhausted with dev := laidOut.dev }
    Machine.Inv s ∧ grantTag s ⟨.c, 0⟩ 0 = some 10880 := by unfold Machine.Inv; decide +kernel
theorem meets_TierRequestEffects_1 : let s := inRun laidOut ⟨.m, 0⟩ 0
    (coreSt s ⟨.m, 0⟩ 0).cur = some (bareRun (anyOffer []) none) ∧ streamState s ⟨.m, 0⟩ 0 = cRun ∧ 7 * pageBytes % pageBytes + 64 ≤ pageBytes ∧
      grantTag s ⟨.m, 0⟩ 0 = some 0 := by decide
theorem meets_TierRequestEffects_2 : (coreSt exhausted ⟨.c, 0⟩ 0).cur.isSome = true ∧ grantTag exhausted ⟨.c, 0⟩ 0 = none := by decide +kernel
theorem meets_TierRequestEffects_3 : ∃ x c, smFind tagged.mem.tags 0 = some x ∧ x.holder = .core ⟨.m, 0⟩ 0 ∧ curOf tagged ⟨.m, 0⟩ 0 = some c ∧ c.fail = none ∧
    x.held = false ∧ x.live = true ∧ x.issue + tierDeadline tagged x.tier ≤ now tagged := ⟨_, _, rfl, rfl, rfl, rfl, rfl, rfl, by decide⟩
/-- A completion that is served, one that a block in INIT does not serve, and one past its deadline. -/
theorem meets_TierRequestEffects_5 : ∃ x, smFind (freshTag tagged).mem.tags 0 = some x ∧ x.held = false ∧ x.st = .ok ∧ pastDeadline (freshTag tagged) x = false ∧
    servedStatus (freshTag tagged) x = .ok := ⟨_, rfl, rfl, rfl, by decide, by decide +kernel⟩
theorem meets_TierRequestEffects_6 : let s := freshTag (inState tagged ⟨.gallery, 0⟩ 0)
    ∃ x, smFind s.mem.tags 0 = some x ∧ x.held = false ∧ x.st = .ok ∧ pastDeadline s x = false ∧ servedStatus s x = .timeout :=
  ⟨_, rfl, rfl, rfl, by decide, by decide +kernel⟩
theorem meets_TierRequestEffects_7 : ∃ x, smFind tagged.mem.tags 0 = some x ∧ x.held = false ∧ pastDeadline tagged x = true := ⟨_, rfl, rfl, by decide⟩
theorem meets_TierRequestEffects_8 : ∃ x, smFind heldTag.mem.tags 0 = some x ∧ x.held = true := ⟨_, rfl, rfl⟩
theorem meets_TierRequestEffects_4 : smFind running.mem.tags 5 = none := rfl
theorem meets_TierMapCommands_1 : [1, 2, 7].all (fun op => tmCheck (withTm served (tmReq op false)) 0 (tmReq op false) == .ok) = true := by decide
theorem meets_TierMapCommands_2 : [3, 5, 6].all (fun op => tmCheck (withTm (mapped served 7 galleryPte) (tmReq op false)) 0 (tmReq op false) == .ok) = true := by decide
theorem meets_TierMapCommands_3 : let s := withTm (mapped served 7 driftPte) (tmReq 4 false)
    tmOf s 0 = some (tmReq 4 false) ∧ tmCheck s 0 (tmReq 4 false) = .ok := by decide
theorem meets_TierMapCommands_4 :
    let l := { smallLayout with shares := [⟨1, true, 1, 0, 16, 64⟩] }
    let s := mapped { served with dev := { served.dev with layout := some l } } 9 noPte
    tmCheck s 0 { tmReq 8 false with arg := 0 } = .ok := by decide
theorem meets_TierMapCommands_5 : tmOf (withTm served { tmReq 5 true with done := 1 }) 0 = some { tmReq 5 true with done := 1 } ∧
    tmFinal (withTm served { tmReq 5 true with done := 1 }) 0 { tmReq 5 true with done := 1 } = some .ok := by decide
theorem meets_TierMapPages_1 : ∀ op ∈ [1, 2, 3, 5], tmOf (withTm served (tmReq op true)) 0 = some (tmReq op true) ∧ (tmReq op true).next < tmTotal (tmReq op true) := by decide
theorem meets_TierMapPages_2 : freeGallery (withTm served (tmReq 1 true)) 0 = some 0 := by decide
theorem meets_TierMapPages_3 : let s := withTm (mapped served 7 galleryPte) (tmReq 6 true)
    s.dev.power ≠ 4 ∧ pageReadable s 0 7 = .ok ∧ pgState s (keeperPageOf 2) ≠ 2 := by decide +kernel
theorem meets_TierMapPages_4 : let s := withTm (mapped served 7 driftPte) (tmReq 4 true)
    tmOf s 0 = some (tmReq 4 true) ∧ (pteOf s 0 7).mig = false ∧ (pteOf s 0 7).home ≠ .gallery ∧ (pteOf s 0 7).dv = false ∧ (pteOf s 0 7).sv = false ∧
      (pteOf s 0 7).shared = false ∧ findMove s 0 7 = none ∧ pgState s (hoistPage 0) ≠ 0 ∧ (freeGallery s 0).isSome = true ∧
      (moveTarget s 0 (pteOf s 0 7) .gallery (hoistPage 0)).isSome = true := by decide

/-- A stream of PT0 over two pages that lie in Drift, of one page a unit, and a move of the first of them. -/
def stream0 : Prefetcher :=
  ⟨0, 0, 0, .gallery, true, 7, 2, 1, 1, 0, 0, 0, 0, 1, 0, 0, 0, 0, 0, false, 0, none, [], 0, 0, []⟩
def streaming (x : Prefetcher) : State := setPf (mapped (mapped served 7 driftPte) 8 { driftPte with dFrame := 4 }) 0 x
def moving (d : Tier) (e : Pte) : State :=
  let s := mapped served 7 { e with mig := true }
  { s with mem := { s.mem with moves := [⟨0, 7, d, 9, .migrate, none, false, true, none⟩] } }
theorem meets_HoistEffects_1 : let s := streaming stream0
    pfOf s 0 = some stream0 ∧ devRunning s = true ∧ pgState s (pfPage 0) ≠ 0 ∧ (0 : Int) ≤ progress s 0 0 + 1 ∧ unitVpns s stream0 0 = [7] ∧
      (pteOf s 0 7).mig = false ∧ findMove s 0 7 = none ∧ (pteOf s 0 7).hold < 16383 ∧ mayFetch s 0 0 stream0 = true ∧
      (fetchPages 0 0 .gallery 0 s [7]).isSome = true := by decide
theorem meets_HoistEffects_2 : let s := { streaming stream0 with dev := running.dev }
    mayFetch s 0 0 stream0 = true ∧ unitVpns s stream0 0 = [7] ∧ (fetchPages 0 0 .gallery 0 s [7]).isSome = false := by decide
/-- A stream whose units a list gives: it waits for the list. -/
theorem meets_HoistEffects_7 : let x := { stream0 with kind := 2 }
    let s := { streaming x with tally := [(0, 1#32)] }
    x.kind = 2 ∧ (0 : Int) + 1 ≤ progress s x.list x.l0 := by decide
theorem meets_HoistEffects_3 : let s := { streaming { stream0 with fetched := 1 } with tally := [(0, 1#32)] }
    (0 : Int) + 1 ≤ progress s 0 0 := by decide
theorem meets_HoistEffects_4 : let s := withRegs (moving .drift galleryPte) ((List.range 4).map fun i => (⟨.drift, i⟩, 0x00C, 0x10#32))
    let m : Move := ⟨0, 7, .drift, 9, .migrate, none, false, true, none⟩
    findMove s 0 7 = some m ∧ s.atTick.contains (.moveEnd 0 7) = false ∧ s.mem.migWrites = [] ∧ (pteOf s 0 7).v = true ∧ moveStatus s m .ok = .ok := by
  decide +kernel
theorem meets_HoistEffects_5 : let s := moving .gallery driftPte
    (findMove s 0 7).any (fun m => !m.dead && m.tagged && m.dest == .gallery) = true ∧ (pteOf s 0 7).v = true ∧ s.mem.migWrites = [] ∧ s.mem.pf = [] := by decide
theorem meets_HoistEffects_6 :
    let t := withRegs served [(hoistW, 0x100, 1)]
    let s := { t with mem := { t.mem with watch := [(coreCode ⟨.m, 0⟩, ⟨0, 7, 1, 3⟩)] } }
    devRunning s = true ∧ strideOn s 0 = true ∧ s.mem.pf = [] ∧ (stridePfs (coreStack ⟨.m, 0⟩)).find? (fun i => (pfOf s i).isNone) = some 112 := by decide
theorem meets_TierBlockEffects_1 : regBit (withRegs served [(⟨.gallery, 1⟩, 0x108, 1)]) ⟨.gallery, stackNo .e⟩ 0x108 0 = true := by decide
def keeping (free : Nat) (w : BlockWear) : State :=
  { served with mem := { served.mem with keeperFree := [free, free], wear := smSet noWear [] (wearKey 0 8) w } }
def worn (reads erases : Nat) (reloc : Bool) : BlockWear := { noWear with reads := reads, erases := erases, reloc := reloc, used := 2304 }
theorem meets_TierBlockEffects_2 : Machine.Inv (keeping 100 noWear) ∧ (keeping 100 noWear).mem.keeperFree.getD (stackNo .w) 0 * 100 < 3 * keeperBlocks := by
  unfold Machine.Inv; decide
theorem meets_TierBlockEffects_3 : let s := keeping 100 (worn 1000000 0 false)
    let w := wearOf s 0 8
    w.reloc = false ∧ w.bad = false ∧ 0 < w.reads ∧ readThreshold s 0 w ≤ w.reads ∧ regField s ⟨.keeper, 0⟩ 0x114 23 0 < 2 ^ 24 - 1 := by decide
theorem meets_TierBlockEffects_4 : let s := keeping 100 (worn 9 0 true)
    Machine.Inv s ∧ (wearOf s 0 8).reloc = true ∧ erasing s 0 8 = false ∧ s.mem.eraseDue = [] ∧ (s.mem.units.any fun x => x.2.contains 8) = false ∧
      openBlock s (8 * 0 + 8 % 8) ≠ some 8 ∧ seamTags s = [] ∧ (wearOf s 0 8).retire = false ∧ (wearOf s 0 8).erases + 1 < 3000 := by
  unfold Machine.Inv; decide
/-- A Seam read in flight keeps the erase waiting. -/
theorem meets_TierBlockEffects_9 :
    let s := { keeping 100 (worn 9 0 true) with mem := { (keeping 100 (worn 9 0 true)).mem with tags := [(3, ⟨.core ⟨.m, 0⟩ 0, true, false, 0, false, 0, 64, .seam, 4, 0, .ok⟩)] } }
    Machine.Inv s ∧ seamTags s ≠ [] := by unfold Machine.Inv; decide
theorem meets_TierBlockEffects_10 : collects (keeping 100 noWear) 0 = true ∧ victims (keeping 100 noWear) 0 = [] ∧
    victims (keeping 100 (worn 9 0 false)) 0 = [8] ∧ 5 * keeperBlocks < (keeping 5000 noWear).mem.keeperFree.getD (stackNo .w) 0 * 100 := by decide
theorem meets_TierBlockEffects_5 : Accepted (inState served ⟨.drift, 0⟩ 1) (.host 0) ⟨.drift, 0⟩ 0x108 3 := by unfold Accepted; decide
theorem meets_TierBlockEffects_6 : Accepted (inState served ⟨.seam, 3⟩ 1) (.host 0) ⟨.seam, 3⟩ 0x108 1 := by unfold Accepted; decide
theorem meets_TierBlockEffects_7 : regField running ⟨.drift, 0⟩ 0x104 1 0 = 0 ∧ pgState running ⟨.gallery, 0⟩ = 0 ∧ pgState running ⟨.hoist, 1⟩ = 0 := by decide
theorem meets_TierBlockEffects_8 : pgState (inState served ⟨.drift, 0⟩ 1) ⟨.drift, 0⟩ = 1 ∧ pgState (inState served ⟨.seam, 3⟩ 1) ⟨.seam, 3⟩ ≠ 0 := by decide

/-! ### Hypotheses that can be met: the KV cache -/

/-- A pool of 16 logical blocks for one head and one layer, over eight pages of KV data of PT0. -/
def pooled (valid : Bool) : State :=
  let l := { smallLayout with parts := (smallPart 0 |> fun p => { p with kvArea := 64 }) :: (List.range 15).map smallPart }
  let s := { served with dev := { served.dev with layout := some l } }
  let t := (List.range 8).foldl (fun t i => mapped t (64 + i) { galleryPte with kv := true, gFrame := 64 + i }) s
  withRegs t [(partPage 0, 0x480, if valid then 0x80010000#32 else 0x00010000#32), (partPage 0, 0x484, 64), (partPage 0, 0x488, 8),
    (partPage 0, 0x48C, BitVec.ofNat 32 (15 * 2 ^ 21))]
def kvReq (op : Nat) (checked : Bool) : KvRun := ⟨op, 1, 0, 1, 2, 0, 0, 1, checked, 0, .ok⟩
def kvDoing (r : KvRun) (valid : Bool) : State :=
  let s := setRec (setSeqEntry (pooled valid) (seqKey 0 0 1 0 0 0) (mkEntry 5 0)) 0 0 5 ⟨1, 3, 0, 0, 1, 0⟩
  { s with kv := { s.kv with runs := [(0, r)] } }

theorem meets_KvEffects_1 : (kvRec (setRec running 0 0 5 ⟨2, 64, 3, 0, 0, 0⟩) 0 0 5).st = 2 := by decide
theorem meets_KvEffects_2 : let s := kvDoing (kvReq 1 true) true
    kvRunOf s 0 = some (kvReq 1 true) ∧ 0 < kvOpTotal s 0 (kvReq 1 true) ∧ inReset s 0 = false ∧ entIsEmpty (seqEntry s 0 0 1 0 0 0) = false := by decide
theorem meets_KvEffects_3 : let s := kvDoing { kvReq 2 true with next := 1 } true
    1 < kvOpTotal s 0 (kvReq 2 true) ∧ entIsEmpty (seqEntry s 0 0 1 0 0 1) = true ∧ entIsEmpty (seqEntry s 0 0 1 0 0 0) = false ∧
      (kvRec s 0 0 5).ref ≤ 1 := by decide
theorem meets_KvEffects_4 : kvOpCheck (kvDoing (kvReq 3 false) true) 0 (kvReq 3 false) = .ok := by decide
theorem meets_KvEffects_5 : kvOpFinal (kvDoing { kvReq 2 true with next := 16 } true) 0 { kvReq 2 true with next := 16 } = some .ok := by decide
theorem meets_KvEffects_6 : Accepted (pooled false) (.host 0) (partPage 0) 0x480 0x80010000#32 := by unfold Accepted; decide
theorem meets_KvEffects_7 : let d : KvDelta := ⟨0, 0, 0, 0, 64, 1, 0, 90000, 0, 90000⟩
    let s := { running with kv := { running.kv with theirs := [d] } }
    (s.kv.theirs ++ s.kv.mine).find? (fun d => decide (now s ≥ d.seen + 2000)) = some d := by decide
theorem meets_WriteBytesFrame : let s := mapped served 7 galleryPte
    let place (i : Nat) : Nat := homeAddr 0 (pteOf s 0 (vpnOf (7 * pageBytes + i))) + (7 * pageBytes + i) % pageBytes
    ∀ i, i < 2 → ∀ j, j < 2 → place i = place j → i = j := by decide

/-! ### Hypotheses that can be met: the sensors -/

theorem meets_StampAheadDiscarded : let x : Sample := ⟨2, 0, 100, 99, 0, 0, 0, 0⟩
    (x.arrival : Int) < x.tick := by decide
def port (st : Nat) : State := inState running (aphyPage 2) st
theorem meets_AphyEffects_1 : pgState (port apDown) (aphyPage 2) = apDown ∧ pgState (port apStalled) (aphyPage 2) = apStalled ∧
    isLooped (port apDown) (aphyPage 2) = false ∧ powered (port apDown) = true := by decide
theorem meets_AphyEffects_2 : pgState (port apUp) (aphyPage 2) = apUp ∧ pgState (port apStream) (aphyPage 2) = apStream := by decide
theorem meets_AphyEffects_3 : Accepted (port apUp) (.host 0) (aphyPage 2) 0x12C 1 := by unfold Accepted; decide
theorem meets_AphyEffects_4 : Accepted (port apStream) (.host 0) (aphyPage 2) 0x12C 2 ∧ Accepted (port apStalled) (.host 0) (aphyPage 2) 0x12C 2 := by
  unfold Accepted; decide
/-- A streaming port of 64 rows of 64 columns, with two buffers, both released or none. -/
def camera (rel : Bool) (f : Option FrameRx) : State :=
  let s := withRegs (port apStream) [(aphyPage 2, 0x100, BitVec.ofNat 32 (3 * 2 ^ 27 + 0x2C * 2 ^ 21 + 2 ^ 18)), (aphyPage 2, 0x104, 0x00400040#32),
    (aphyPage 2, 0x110, 2)]
  setPort s 2 { noPort with frame := f, rel0 := if rel then 0 else 4 }
theorem meets_AphyEffects_5 : let s := camera true none
    pgState s (aphyPage 2) = apStream ∧ 3 = regField s (aphyPage 2) 0x100 31 27 ∧ (portSt s 2).frame = none ∧
      released (slotRel s 2) (portSt s 2).rel0 (portSt s 2).k (regField s (aphyPage 2) 0x110 3 0) = true := by decide
theorem meets_AphyEffects_6 : let s := camera false none
    released (slotRel s 2) (portSt s 2).rel0 (portSt s 2).k (regField s (aphyPage 2) 0x110 3 0) = false := by decide
theorem meets_AphyEffects_7 : let f : FrameRx := ⟨1, 90000, 0, 0, 0, 0, 0, 0, []⟩
    let s := camera true (some f)
    (portSt s 2).frame = some f ∧ 0x2C = regField s (aphyPage 2) 0x100 26 21 ∧ f.lines < apRows s 2 := by decide
/-- A frame of the start-up self-check that repeats a line. -/
theorem meets_AphyEffects_8 : let s := setPort (camera true none) 2 { noPort with frame := some ⟨1, 90000, 0, 0, 0, 0, 0, 0, []⟩, check := true }
    pgState s (aphyPage 2) = apStream ∧ (portSt s 2).check = true ∧ devRunning s = true := by decide
/-- A lidar source of four packets to a sample, two packets into sample 0. -/
def lidar : State :=
  let s := withRegs (inState running (ethPage 1) portUp) [(ethPage 1, 0x600, 1), (ethPage 1, 0x604, 2368), (ethPage 1, 0x60C, 0), (ethPage 1, 0x610, 4), (ethPage 1, 0x618, 2)]
  setLidar s 1 ⟨0, 0, some 10, [0], some 90000, 0, 0, false, false⟩
/-- The same source before its sample's first packet; its buffers are released, or have none left. -/
def lidarIdle (k : Nat) : State := setLidar lidar 1 { noLidar with base := some 10, k := k }
theorem meets_LidarAndInstantEffects_1 : Accepted running (.host 0) (ethPage 1) 0x600 1 ∧ regBit running (ethPage 1) 0x600 0 = false ∧
    Accepted lidar (.host 0) (ethPage 1) 0x600 0 ∧ regBit lidar (ethPage 1) 0x600 0 = true := by unfold Accepted; decide
theorem meets_LidarAndInstantEffects_2 : let bs : List Byte := [0, 12]
    pgState lidar (ethPage 1) = portUp ∧ isLooped lidar (ethPage 1) = false ∧ 2368 = regField lidar (ethPage 1) 0x604 15 0 ∧ 0 < liBufs lidar 1 ∧
      regBit lidar (ethPage 1) 0x600 0 = true ∧ bs.length ≤ 2016 ∧
      ((beNat (payloadAt lidar bs (regField lidar (ethPage 1) 0x60C 15 0) 2) : Int) - 10) % 65536 = 2 ∧ 2 < liPkts lidar 1 ∧
      (lidarSt lidar 1).drop = false ∧ (nlAdd (lidarSt lidar 1).filled 2).length < liPkts lidar 1 := by decide
theorem meets_LidarAndInstantEffects_7 : let free (s : State) := released (slotRel s 17) (lidarSt s 1).rel0 (lidarSt s 1).k (liBufs s 1)
    free (lidarIdle 0) = true ∧ free (lidarIdle 2) = false ∧ (lidarSt (lidarIdle 2) 1).tick = none ∧ (lidarSt (lidarIdle 2) 1).drop = false ∧
      (nlAdd (lidarSt (lidarIdle 2) 1).filled 0).length < liPkts (lidarIdle 2) 1 ∧ (lidarIdle 2).mem.cells = lidar.mem.cells := by decide
theorem meets_LidarAndInstantEffects_8 : let s := setLidar lidar 1 ⟨0, 0, some 10, [0, 1, 3], some 90000, 0, 0, false, false⟩
    liPkts s 1 ≤ (nlAdd (lidarSt s 1).filled 2).length ∧ (lidarSt s 1).stop = false ∧ 2017 > 2016 := by decide
def instOn : State := withRegs running [(instPage 3, 0x600, 1), (instPage 3, 0x604, 38000)]
theorem meets_LidarAndInstantEffects_3 : Accepted running (.host 3) (partPage 3) 0x600 1 ∧ instEnabled running 3 = false := by unfold Accepted; decide
theorem meets_LidarAndInstantEffects_4 : Accepted instOn (.host 3) (partPage 3) 0x600 0 ∧ instEnabled instOn 3 = true := by unfold Accepted; decide
theorem meets_LidarAndInstantEffects_5 : instEnabled instOn 3 = true ∧ now instOn = instClose instOn 3 1 := by decide
theorem meets_LidarAndInstantEffects_6 : (instSt (setInst instOn 3 ⟨[], some ⟨1, [], 0⟩, false⟩) 3).table = some ⟨1, [], 0⟩ := by decide

/-! ### Hypotheses that can be met: the planner -/

/-- The sequencer with its grids in two Gallery pages of PT0, epoch 1 in buffer 1. -/
def planning (st : Nat) (q : SeqSt) : State :=
  let s := mapped (mapped (mapped served 10 { galleryPte with gFrame := 10 }) 11 { galleryPte with gFrame := 11 }) 12 { galleryPte with gFrame := 12 }
  let t := withRegs (writeBytes s 0 (11 * pageBytes) [1]) [(lk, 0x204, 0), (lk, 0x208, 0x03E82710#32), (lk, 0x20C, 10), (lk, 0x210, 11), (lk, 0x214, 0x00010002#32),
    (lk, 0x218, 0x00030004#32), (lk, 0x228, 12), (lk, 0x230, BitVec.ofNat 32 (16 * st))]
  { t with seq := q }
def seq0 : SeqSt := SeqSt.reset
def cycle0 : Cycle := ⟨5, 110000, 1, 1, 0, 0, 0, 0, 0, false, [], none, none⟩
def won : Traj := { Traj.none with outcome := 0, knots := [⟨0, 0, 0⟩] }
theorem meets_NoCycleBeforePublication_1 : (planning lkWaitGrid seq0).seq.active = none ∧ lkState (planning lkWaitGrid seq0) = lkWaitGrid ∧
    (planning lkWaitGrid seq0).seq.cycle = none := by decide
theorem meets_NoCycleBeforePublication_2 : Accepted (planning lkOff seq0) (.host 0) lk 0x200 1 ∧ lkState (planning lkOff seq0) = lkOff := by
  unfold Accepted; decide
theorem meets_PlannerEffects_1 : let s := planning lkWaitGrid seq0
    lkState s ≠ lkOff ∧ lkOwned s = true ∧ reached (tallyVal s (pubTally s)) s.seq.pubNext = true ∧
      bufEpoch s ((nextEpoch (regVal s lk 0x234)).toNat % 2) = some (nextEpoch (regVal s lk 0x234)) := by decide
theorem meets_PlannerEffects_2 : let s := withRegs (planning lkWaitGrid seq0) [(lk, 0x234, 3)]
    bufEpoch s ((nextEpoch (regVal s lk 0x234)).toNat % 2) ≠ some (nextEpoch (regVal s lk 0x234)) := by decide
theorem meets_PlannerEffects_3 : let s := planning lkCycling { seq0 with active := some 1 }
    lkState s = lkCycling ∧ lkOwned s = true ∧ s.seq.cycle = none ∧ lkPhase s ≤ now s ∧ (now s - lkPhase s) % 20000 = 0 := by decide
theorem meets_PlannerEffects_4 : let s := atNow (planning lkCycling { seq0 with active := some 1, cycle := some cycle0 }) 109000
    now s + lkBudget s = cycle0.dTick := by decide
theorem meets_PlannerEffects_5 : let s := atNow (planning lkCycling { seq0 with cycle := some { cycle0 with winner := some (some won) } }) 110000
    now s = cycle0.dTick ∧ bufEpoch s cycle0.buf = some cycle0.epoch := by decide
theorem meets_PlannerEffects_6 : let s := atNow (planning lkCycling { seq0 with cycle := some { cycle0 with epoch := 3 } }) 110000
    now s = cycle0.dTick ∧ bufEpoch s 1 ≠ some 3 := by decide
theorem meets_PlannerEffects_7 : let s := planning lkCycling { seq0 with cycle := some cycle0 }
    Accepted s (.host 0) lk 0x200 0 ∧ lkState s ≠ lkOff ∧ s.seq.cycle.isSome = true ∧ (planning lkCycling seq0).seq.cycle = none := by unfold Accepted; decide

/-! ### Hypotheses that can be met: Foxglove -/

/-- C-core 0 in RUN, and channel 3 with a period of 40 ticks that sends eight bytes on CAN unit 0. -/
def fox (st : Nat) : State :=
  let p := fxPage 3
  withRegs running [(⟨.c, 0⟩, 0x00C, BitVec.ofNat 32 (16 * ccRun)), (p, 0x00C, BitVec.ofNat 32 (16 * st)), (p, 0x10C, 1), (p, 0x148, 0xFFFFFF00#32), (p, 0x14C, 0x100),
    (p, 0x160, 0x10000008#32), (p, 0x174, 0x100)]
def foxLive (st : Nat) : State := setFx (fox st) 3 { noFx with safe := copyOf (fox st) 3 }
def rcOf (s : State) : State := withRegs s [(fxPage 3, 0x150, 0x00100004#32)]
theorem meets_ClearStateAndStart_1 : Accepted (rcOf (fox fxOff)) (.host 0) (fxPage 3) 0x100 5 ∧
    (fxCfg (rcOf (fox fxOff)) 3).rcBase + (fxCfg (rcOf (fox fxOff)) 3).rcLen ≤ 65536 ∧ 0 < (fxCfg (rcOf (fox fxOff)) 3).rcLen := by unfold Accepted; decide
theorem meets_ClearStateAndStart_2 : Accepted (fox fxOff) (.host 0) (fxPage 3) 0x100 1 := by unfold Accepted; decide
theorem meets_FoxgloveChannelEffects_1 : Accepted (fox fxRun) (.host 0) (fxPage 3) 0x100 2 := by unfold Accepted; decide
theorem meets_FoxgloveChannelEffects_2 : Accepted (fox fxArmed) (.host 0) (fxPage 3) 0x100 3 ∧ fxState (fox fxArmed) 3 = fxArmed ∧
    Accepted (fox fxRun) (.host 0) (fxPage 3) 0x100 3 ∧ fxState (fox fxRun) 3 = fxRun := by unfold Accepted; decide
theorem meets_FoxgloveChannelEffects_3 : Accepted (fox fxSafe) (.host 0) (fxPage 3) 0x100 4 := by unfold Accepted; decide
theorem meets_FoxgloveChannelEffects_4 : let s := { foxLive fxRun with regs := setReg (foxLive fxRun) ⟨.c, 0⟩ 0x00C 0 |>.regs }
    s.sec.boot.held = false ∧ onGrid s 3 (now s) = true ∧ fxLive s 3 = false := by decide
theorem meets_FoxgloveChannelEffects_5 : let s := foxLive fxArmed
    s.sec.boot.held = false ∧ onGrid s 3 (now s) = true ∧ fxLive s 3 = true ∧ fxState s 3 = fxArmed ∧ isStandby s = false ∧
      field (fxReg s 3 0x110) 31 28 = 0 ∧ field (fxReg s 3 0x124) 9 8 = 0 ∧ (fxCfg s 3).rcLen = 0 := by decide
theorem meets_FoxgloveChannelEffects_6 : Accepted (fox fxOff) (.host 0) ⟨.c, 0⟩ 0x10C 5 ∧ Readable (fox fxOff) (.host 0) ⟨.c, 0⟩ 0x10C ∧
    isOwner (fox fxOff) (.host 0) ⟨.c, 0⟩ 0x10C = true ∧ unpowered (fox fxOff) ⟨.c, 0⟩ = false := by unfold Accepted Readable; decide
theorem meets_ControlStepBounded : let c := fxCfg (fox fxRun) 3
    c.outMin ≤ c.outMax ∧ c.iMin ≤ c.iMax ∧ 0 ≤ c.rcLim := by decide
theorem meets_FoxgloveInputEffects_1 : let s := withRegs (atNow (foxLive fxRun) 99999) [(fxPage 3, 0x110, 0x10000000#32)]
    (fxState s 3 = fxArmed ∨ fxState s 3 = fxRun) ∧ fxLive s 3 = true ∧ field (fxReg s 3 0x110) 31 28 = 1 ∧
      onGrid s 3 (now s + regField s (fxPage 3) 0x174 15 8) = true := by decide
theorem meets_FoxgloveInputEffects_2 : (fxCh (setFx (foxLive fxRun) 3 { noFx with spi := true }) 3).spi = true := by decide
theorem meets_FoxgloveInputEffects_3 : let s := withRegs (inState (foxLive fxRun) ⟨.can, 1⟩ portUp) [(fxPage 3, 0x110, 0x21000000#32), (fxPage 3, 0x118, 0x7FF), (fxPage 3, 0x114, 0x123)]
    pgState s ⟨.can, 1⟩ = portUp ∧ isLooped s ⟨.can, 1⟩ = false ∧ (0x123#29 : BitVec 29).setWidth 32 &&& fxReg s 3 0x118 = fxReg s 3 0x114 &&& 0x1FFFFFFF#32 ∧
      (inField (fxReg s 3 0x110) [7]).isSome = true := by decide
theorem meets_FoxgloveInputEffects_4 : let s := withRegs (inState (foxLive fxRun) ⟨.eth, 13⟩ portUp) [(fxPage 3, 0x110, 0x31000000#32), (fxPage 3, 0x114, 0x88B50201#32)]
    pgState s ⟨.eth, 13⟩ = portUp ∧ isLooped s ⟨.eth, 13⟩ = false ∧ fxReg s 3 0x114 = BitVec.ofNat 32 (0x88B5 * 65536 + bytesNat [1, 2]) ∧
      (inField (fxReg s 3 0x110) [1, 2]).isSome = true := by decide
theorem meets_FoxgloveInputEffects_5 : pgState (fox fxRun) ⟨.c, 0⟩ = ccRun ∧ coresOn (fox fxRun) = true ∧ devRunning (fox fxRun) = true := by decide

/-! ### Hypotheses that can be met: Lamphouse, debug and attestation

The clauses about an image, a ticket, a token or a lifecycle command that is accepted have as hypotheses that a signature verifies under a key
whose hash is fused or in a manifest; the fused bytes are free values (log 10), so no term evaluates to such an image. -/

/-- A mailbox command of a partition without a result, and security state of that partition. -/
def mailing (s : State) (n op : Nat) (req : List Byte) (x : PartSec) : State := setSec s n { x with mb := some ⟨op, false, req, 1, 90000, none⟩ }
def waiting (op : Nat) (req : List Byte) : MbRun := ⟨op, false, req, 1, 90000, none⟩
def manifested : PartSec := { noSec with manifest := some [] }
def upd (n : Nat) : State := { running with sec := { running.sec with update := n, flash := { running.sec.flash with slots := [some [[], [], [], []], none] } } }
theorem meets_ImageEffects_3 : MbWaits (mailing (upd 1) 0 0x11 [] noSec) 0 0x11 (waiting 0x11 []) ∧ (mailing (upd 1) 0 0x11 [] noSec).sec.update = 1 := by
  unfold MbWaits; decide
theorem meets_ImageEffects_4 : MbWaits (mailing (upd 3) 0 0x12 [] noSec) 0 0x12 (waiting 0x12 []) ∧ (mailing (upd 3) 0 0x12 [] noSec).sec.update = 3 := by
  unfold MbWaits; decide
def pointBytes : List Byte := ecToBytes ecG
theorem meets_KeyEffects_1 : let s := mailing running 2 0x02 pointBytes manifested
    MbWaits s 2 0x02 (waiting 0x02 pointBytes) ∧ (keysOf s 2).state ≠ 2 ∧ (secOf s 2).manifest.isSome = true ∧ confidential s 2 = false ∧ pointBytes.length = 97 ∧
      ecOfBytes (sub pointBytes 0 97) = some (p384Gx, p384Gy) := by unfold MbWaits; decide +kernel
def ticket : List Byte := [0x50, 0, 0, 0, 2, 0, 0, 0] ++ pointBytes ++ List.replicate 407 0
def sealedOff : State :=
  let l := { smallLayout with parts := (List.range 16).map fun n => { smallPart n with confidential := true } }
  { running with dev := { running.dev with layout := some l } }
theorem meets_KeyEffects_2 : let s := mailing sealedOff 2 0x02 ticket manifested
    MbWaits s 2 0x02 (waiting 0x02 ticket) ∧ (keysOf s 2).state ≠ 2 ∧ (secOf s 2).manifest.isSome = true ∧ confidential s 2 = true ∧
      ticket.length = 512 ∧ atN ticket 0 4 = 0x50 ∧ zeros ticket 5 3 = true ∧ zeros ticket 105 7 = true ∧ zeros ticket 305 15 = true ∧ zeros ticket 416 96 = true ∧
      (ecOfBytes (sub ticket 8 97)).isSome = true ∧ ticketGood s 2 ticket = false := by unfold MbWaits; decide +kernel
theorem meets_KeyEffects_3 : let s := mailing running 2 0x03 [] manifested
    MbWaits s 2 0x03 (waiting 0x03 []) ∧ (keysOf s 2).state = 0 ∧ (keysOf s 2).gen ≠ 3 ∧ (keysOf s 2).dbgGen = false := by unfold MbWaits; decide
theorem meets_KeyEffects_4 : let s := mailing running 2 0x04 [] manifested
    MbWaits s 2 0x04 (waiting 0x04 []) ∧ (keysOf s 2).dbgGen = false ∧ (keysOf s 2).state ≠ 2 := by unfold MbWaits; decide
theorem meets_KeyEffects_5 : let s := mailing running 0 0x04 [] manifested
    MbWaits s 0 0x04 (waiting 0x04 []) ∧ (keysOf s 0).dbgGen = false ∧ (keysOf s 0).state ≠ 2 := by unfold MbWaits; decide
theorem meets_KeyEffects_6 : let s := setKeys running 2 ⟨1, 0, 2, false, 0, 0⟩
    (keysOf s 2).state = 2 ∧ inReset s 2 = false ∧ s.mem.eraseDue = [] := by decide
theorem meets_KeyEffects_7 : let s := setKeys running 2 ⟨1, 0, 1, false, 0, 0⟩
    (keysOf s 2).state = 1 ∧ (keysOf s 2).low < (keysOf s 2).gen ∧ s.mem.tags = [] := by decide
/-- A share of Gallery that ERASE zeroes. -/
theorem meets_KeyEffects_8 : laidOut.dev.layout = some smallLayout ∧ ∃ g, g ∈ galleryShare smallLayout 2 ∧ 0 < g.2 :=
  ⟨rfl, (galleryShare smallLayout 2).getD 0 (0, 0), by decide⟩

/-- A HOST_DMA request of 16 bytes at a page of PT0. -/
def dmaReq (dir : Byte) (inc : Byte) : List Byte :=
  [dir, 0, 0, 0, 0, 0, 0, 0, 0, 0x10, 0, 0, 0, 0, 0, 0, 0, 0, 7, 0, 0, 0, 0, 0, 16, 0, 0, 0, 5, 0, inc, 0]
theorem meets_MailboxEffects_1 : let q := dmaReq 0 1
    let s := mailing (mapped served 7 galleryPte) 0 0x06 q noSec
    MbWaits s 0 0x06 (waiting 0x06 q) ∧ q.length = 32 ∧ ownsTally s 0 (atN q 28 2) = true ∧ zeros q 1 3 = true ∧ atN q 28 2 < 16384 ∧ atN q 16 8 + 16 ≤ 2 ^ 44 ∧ at8 q 0 = 0 ∧ atN q 8 8 % 4096 = 0 ∧
      atN q 24 4 = 16 ∧ meetsSeam s 0 (atN q 16 8) 16 = false ∧ atN q 4 4 = (secOf s 0).dmaSeq.getD 0 0 ∧ (secOf s 0).dmaSeq.length = 2 := by
  unfold MbWaits; decide
theorem meets_MailboxEffects_2 : let q := dmaReq 1 0
    let s := mailing (mapped served 7 galleryPte) 0 0x06 q noSec
    MbWaits s 0 0x06 (waiting 0x06 q) ∧ q.length = 32 ∧ atN q 30 2 = 0 ∧ zeros q 1 3 = true ∧ atN q 28 2 < 16384 ∧ at8 q 0 = 1 ∧ atN q 8 8 % 4096 = 0 ∧ atN q 24 4 = 16 ∧ atN q 16 8 + 16 ≤ 2 ^ 44 ∧ atN q 4 4 = (secOf s 0).dmaSeq.getD 1 0 ∧
      confidential s 0 = false ∧ readRange s 0 (atN q 16 8) 16 = .ok := by unfold MbWaits; decide
theorem meets_MailboxEffects_3 : let q : List Byte := [0x00, 0x01, 0, 0, 0, 0, 0, 0, 0, 0, 0, 0]
    MbWaits (mailing running 2 0x05 q noSec) 2 0x05 (waiting 0x05 q) ∧ q.length = 12 ∧ nAt q 0 4 = 0x100 ∧ 0x100 % 4 = 0 := by unfold MbWaits; decide
theorem meets_MailboxEffects_4 : let s := mailing running 2 0x06 [] noSec
    (secOf s 2).mb = some (waiting 0x06 []) ∧ readsHost 0x06 = true ∧ 90000 + 1000 ≤ now s := by decide
theorem meets_MailboxEffects_5 : let r := { waiting 0x03 [] with result := some (.ok, []) }
    (secOf (setSec running 2 { noSec with mb := some r }) 2).mb = some r := by decide
/-- A manifest whose key of the debug signer is 0x11 throughout and whose limit of debug is D2, and a token of another key and another nonce. -/
def debuggable (level : Nat) : PartSec :=
  { noSec with manifest := some (List.replicate 384 (0 : Byte) |>.set 12 200 |> fun h => h ++ ([2, 2] ++ List.replicate 198 (0x11 : Byte))), dbg := level, nonce := [1] }
def token : List Byte := [0x60, 0, 0, 0, 2, 1] ++ List.replicate 314 0
theorem meets_DebugEffects_2 : MbWaits (mailing running 2 0x21 token (debuggable 0)) 2 0x21 (waiting 0x21 token) ∧
    tokenBad (mailing running 2 0x21 token (debuggable 0)) 2 token = some .integrity := by
  refine ⟨by unfold MbWaits; decide +kernel, ?_⟩
  unfold tokenBad
  simp only []
  rw [if_neg (by decide +kernel), if_neg (by decide +kernel), if_neg (by decide +kernel), if_neg (by decide +kernel), if_neg (by decide +kernel),
    if_pos (Or.inr (Or.inl (by decide +kernel)))]
theorem meets_DebugEffects_3 : ∀ d ∈ [dbgD1, dbgD2, dbgD3], let s := mailing running 2 0x21 (natBytes 4 0x62) { noSec with dbg := d }
    (secOf s 2).dbg = d ∧ (secOf s 2).dbg < 4 ∧ (secOf s 2).mb = some (waiting 0x21 (natBytes 4 0x62)) := by decide
theorem meets_DebugEffects_4 : let s := setSec running 2 { noSec with dbg := dbgD2, expiry := some 99999 }
    (secOf s 2).expiry = some 99999 ∧ 99999 ≤ now s := by decide
theorem meets_DebugEffects_5 : let s := atNow (setSec running 0 { noSec with armed := true, duration := 1, armedAt := 0 }) 1000000
    (secOf s 0).armed = true ∧ (secOf s 0).duration ≠ 0 ∧ (secOf s 0).armedAt + (secOf s 0).duration * 1000000 ≤ now s := by decide
theorem meets_DebugEffects_6 : let s := { setSec running 2 { noSec with dbg := dbgD2 } with tap := { running.tap with select := some 2 } }
    pageOk (partPage 2) = true ∧ reaches s (.jtag 2) = true ∧ judge s (.jtag 2) (partPage 2) 0x74C 0x80100005#32 false = none := by decide
theorem meets_AttestEffects_1 : ∀ k ∈ [1, 2], let s := withRegs running [(atPage 2, 0x100, BitVec.ofNat 32 (0x10000200 + k))]
    Accepted s (.host 2) (atPage 2) 0x104 1 ∧ regField s (atPage 2) 0x100 1 0 = k := by unfold Accepted; decide
theorem meets_AttestEffects_3 : running.supply.main = true ∧ (secOf running atTap).at' = none := by decide
theorem meets_AttestEffects_4 : let r : AtRun := ⟨1, 2, [], 99000, some 99001, some (99990, [1])⟩
    (secOf (setSec running 2 { noSec with at' := some r }) 2).at' = some r ∧ devRunning (setSec running 2 { noSec with at' := some r }) = true := by decide
theorem meets_AttestEffects_6 : (secOf running 2).at' = none ∧ (secOf running atTap).at' = none := by decide
theorem meets_AttestEffects_5 : let r : AtRun := ⟨1, 2, [], 99000, some 99001, some (99990, [])⟩
    (secOf (setSec running 2 { noSec with at' := some r }) 2).at' = some r := by decide

/-! ### Hypotheses that can be met: the commands of the cores -/

/-- A descriptor of level 1 with the rest of its word 0 and its other words. -/
def cmd (op rest : Nat) (ws : List Nat) : List Word := ((0x10000000 + op * 65536 + rest) :: ws ++ List.replicate (15 - ws.length) 0).map (BitVec.ofNat 32)
/-- The state with a stream that is idle and offered a descriptor. -/
def offers (s : State) (k : CoreId) (i : Nat) (d : List Word) : State :=
  setCore (withRegs s [(corePage k, 0x00C, BitVec.ofNat 32 (16 * cIdle)), (corePage k, 0x118, BitVec.ofNat 32 (16 * cIdle))]) k i ⟨some (anyOffer d), none⟩
/-- Whether the hypotheses of an accepted issue hold. -/
def issuesOn (s : State) (k : CoreId) (i op : Nat) (d : List Word) : Bool :=
  let t := offers s k i d
  devRunning t && ((coreSt t k i).offered == some (anyOffer d)) && (opOf d == op) && !(streamBusy (streamState t k i)) && (issueStatus t k i (anyOffer d) == .ok)

def m0 : CoreId := ⟨.m, 0⟩
def v0 : CoreId := ⟨.v, 0⟩
def a0 : CoreId := ⟨.a, 0⟩
def f0 : CoreId := ⟨.f, 0⟩
def t0 : CoreId := ⟨.t, 0⟩
def l0 : CoreId := ⟨.l, 0⟩
/-- Formats of word 1. -/
def fmts (a b k : Nat) : Nat := a * 2 ^ 28 + b * 2 ^ 24 + k * 2 ^ 20

theorem meets_CommandsIssue_nop : issuesOn running m0 0 0 (cmd 0 0 []) = true ∧ issuesOn running v0 0 0 (cmd 0 0 []) = true ∧ issuesOn running a0 0 0 (cmd 0 0 []) = true ∧
    issuesOn running a0 1 0 (cmd 0 0 []) = true ∧ issuesOn running f0 0 0 (cmd 0 0 []) = true ∧ issuesOn running t0 0 0 (cmd 0 0 []) = true ∧
    issuesOn running l0 0 0 (cmd 0 0 []) = true := by decide
/-- A 1 × 32 × 32 GEMM in E4M3 with FP32 out; a 3 × 3 convolution of 32 channels of a 4 × 4 output; its WINO3 form with MXE4M3 weights. -/
theorem meets_CommandsIssue_m : issuesOn running m0 0 1 (cmd 1 0 [fmts 0 0 0xC, 0x00200001, 32, 1, 0, 1, 2, 0, 0, 0x00020000, 0x00000100, 0]) = true ∧
    issuesOn running m0 0 2 (cmd 2 0 [fmts 0 0 0xC, 0x00040004, 0x00200020, 0x33, 0, 1, 2, 0, 0, 0x00800000, 0x00000200, 0]) = true ∧
    issuesOn running m0 0 3 (cmd 3 0 [fmts 0 2 0xC, 0x00040004, 0x00200020, 0, 0, 1, 2, 0, 0, 0x00800000, 0x00000400, 0]) = true := by decide
/-- The V-core opcodes on 4 × 32 elements: FP32 in and out, but for DEBAYER of UINT16. -/
theorem meets_CommandsIssue_v : issuesOn running v0 0 1 (cmd 1 0 [fmts 0xC 0 0xC, 0x00040020, 0, 0, 0, 0, 0, 0, 0x40]) = true ∧
    issuesOn running v0 0 2 (cmd 2 0 [fmts 0xC 0xC 0xC, 0x00040020, 0, 0, 0, 0, 0, 0x00800000, 0x40]) = true ∧
    issuesOn running v0 0 3 (cmd 3 0 [fmts 0xC 0 0xC, 0x00040020, 0, 0, 0, 0, 0, 0, 0x40]) = true ∧
    issuesOn running v0 0 4 (cmd 4 0 [fmts 0xC 0 0xC, 0x00040020, 0, 0, 0, 0, 0, 0, 0x00800040]) = true ∧
    issuesOn running v0 0 5 (cmd 5 0 [fmts 0xC 0 0xC, 0x00040020, 0, 0, 0, 0, 0, 0, 0x40]) = true ∧
    issuesOn running v0 0 6 (cmd 6 0 [fmts 0xC 0 0x8, 0x00040020, 0, 0, 0, 0, 0, 0, 0x40]) = true ∧
    issuesOn running v0 0 7 (cmd 7 0 [fmts 0xE 0 0xC, 0x00040020, 0, 0, 0, 0, 0, 0, 0x40]) = true ∧
    issuesOn running v0 0 8 (cmd 8 0 [fmts 0xC 0 0xC, 0x00040004, 0, 0, 0, 0, 0, 0, 0x01000040, 0, 4, 0x00040003]) = true ∧
    issuesOn running v0 0 9 (cmd 9 0 [fmts 0xC 0 0xC, 0x00040020, 0, 0, 0, 0, 0, 0, 0x01000040, 0, 0, 8]) = true := by decide +kernel

/-- The pool of PT0 with a length table of one token of sequence 1 at page 12. -/
def attending (pw : BitVec 4) : State :=
  let s := writeBytes (mapped (pooled true) 12 { galleryPte with gFrame := 12 }) 0 (12 * pageBytes) [1, 0, 1, 0]
  setRec (setSeqEntry { s with dev := { s.dev with power := pw } } (seqKey 0 0 1 0 0 0) (mkEntry 5 0)) 0 0 5 ⟨1, 3, 0, 0, 1, 0⟩
/-- ATTN with FP32 out, KV_APPEND, ATTN_MERGE of two parts, and ATTN_BWD in Maintenance, each of one token of head 0. -/
theorem meets_CommandsIssue_a : issuesOn (attending 0) a0 0 1 (cmd 1 0 [fmts 0 0 0xC, 0x00000100, 0x00010000, 3072, 0, 0, 0, 0, 0, 0, 0x00000100, 0]) = true ∧
    issuesOn (attending 0) a0 1 2 (cmd 2 0 [fmts 0 0 0, 0, 0x00010000, 3072, 0, 0, 0, 0, 0, 0, 0, 0]) = true ∧
    issuesOn (attending 0) a0 0 3 (cmd 3 0 [fmts 0 0 0xC, 0x00000102, 0x00010000, 3072, 0, 0, 0, 0, 0, 0, 0, 0]) = true ∧
    issuesOn (attending 5) a0 0 4 (cmd 4 0 [fmts 8 0 0, 0x00000100, 0x00010000, 3072, 0, 0, 0, 0, 0, 0, 0x00000100, 0]) = true := by decide +kernel
/-- LIFT of one entry, VOXEL of one point and CHAN, one row of the band and one channel. -/
theorem meets_CommandsIssue_f : issuesOn running f0 0 1 (cmd 1 6 [fmts 0 0 0xC, 0x00010001, 0x00010001, 1, 0, 0, 0, 0, 0]) = true ∧
    issuesOn running f0 0 2 (cmd 2 6 [fmts 0 0 0xC, 0x00010001, 1, 0, 0, 0, 0, 0, 0]) = true ∧ issuesOn running f0 0 3 (cmd 3 0 []) = true := by decide
theorem meets_CommandsIssue_t : issuesOn running t0 0 1 (cmd 1 0 [4, 9]) = true ∧ issuesOn running t0 0 2 (cmd 2 0 [4, 0, 2]) = true ∧
    issuesOn running t0 0 3 (cmd 3 0 [4, 0, 2]) = true ∧ issuesOn running t0 0 4 (cmd 4 0 [4]) = true ∧ issuesOn running t0 0 5 (cmd 5 0 [4]) = true ∧
    issuesOn running t0 0 6 (cmd 6 0 [0, 0x00020003]) = true := by decide +kernel
theorem meets_CommandsIssue_l : issuesOn running l0 0 1 (cmd 1 4 [1, 8]) = true ∧ issuesOn running l0 0 2 (cmd 2 0 [1, 0x00040000, 0, 0, 0, 0, 0, 0, 0, 2]) = true ∧
    issuesOn running l0 0 3 (cmd 3 0 [1, 0, 0, 0, 0, 0, 0, 0, 0, 2]) = true ∧ issuesOn running l0 0 4 (cmd 4 0 [1, 0x00040001, 0, 0, 0, 0, 0, 0, 0, 2]) = true := by decide
/-- A planning command of the cycle in progress, and one of another cycle. -/
theorem meets_CommandsIssue_plans : planLate (planning lkCycling { seq0 with active := some 1, cycle := some cycle0 }) 5 = false ∧
    planLate (planning lkCycling { seq0 with active := some 1, cycle := some cycle0 }) 6 = true := by decide
theorem meets_CommandsIssue_pins : let d := cmd 1 0 [fmts 0 0 0xC, 0x00000100, 0x00010000, 3072, 0, 0, 0, 0, 0, 0, 0x00000100, 0]
    let u := attending 0
    let r : CmdRun := { bareRun (anyOffer d) none with issue := 100000 }
    TableGood u r ∧ (pinPages 0 (aDesc d) u (pinList (aDesc d) (runTable u (withTable u r))) []).2.2 = none := by unfold TableGood; decide +kernel
theorem meets_CommandsIssue_rejected : issueStatus (offers running m0 0 (cmd 7 0 [])) m0 0 (anyOffer (cmd 7 0 [])) = .range ∧
    issueStatus (offers running m0 0 (cmd 0 1 [])) m0 0 (anyOffer (cmd 0 1 [])) = .reservedSet := by decide
/-- A wait that is not reached. -/
theorem meets_CommandsIssue_waits : let d := cmd 0 0x10 ([0, 0, 0, 0, 0, 0, 0, 0, 0, 0, 0, 0] ++ [5, 9, 0])
    issuesOn laidOut m0 0 0 d = true ∧ waitEn m0 d = true ∧ reached (tallyVal laidOut (waitTally d)) (waitThresh d) = false := by decide

/-- A command of a stream in a state. -/
def runs (s : State) (k : CoreId) (st : Nat) (r : CmdRun) : State := setCur (withRegs s [(corePage k, 0x00C, BitVec.ofNat 32 (16 * st))]) k 0 r
def run0 (d : List Word) : CmdRun := { bareRun (anyOffer d) none with issue := 99990 }
def out0 : CmdOut := noOut
theorem meets_CommandsRunAndEnd_1 : let d := cmd 0 0x10 ([0, 0, 0, 0, 0, 0, 0, 0, 0, 0, 0, 0] ++ [5, 0, 0])
    let s := runs laidOut m0 cWait (run0 d)
    (curOf s m0 0).isSome = true ∧ streamState s m0 0 = cWait ∧ reached (tallyVal s (waitTally d)) (waitThresh d) = true := by decide
/-- A job of PT0 with one channel from M-core 0 to M-core 1, two rows and two credits. -/
def chan0 : Channel := ⟨0, 1, 0, 1, 2, 0, 0, 40, 41, none⟩
def job0 : Job :=
  ⟨1, jRunning, false, 0, 0, true, true, true, false, 1, 1, 7, 0, 0, 0, 0, 0, 0, 0, 0, 42, false, true, false, [⟨m0, 0, false, false, 0, 0, 1, 0, 0, 0, true, false⟩],
    [(3, chan0)], .ok, 0xFFFF, false, true, true, false, false, false, 99000, 0, [], 0, 0⟩
def pushing (p : PushSt) : State :=
  let r := { run0 (cmd 1 0 []) with out := some { noOut with rows := [[1], [2]] }, push := [p] }
  setJob { runs laidOut m0 cRun r with tally := [(41, 2#32)] } 0 job0
theorem meets_CommandsRunAndEnd_2 : let s := pushing ⟨3, 0, 0⟩
    ∃ r c, curOf s m0 0 = some r ∧ chanOf s r.offer.job 3 = some c ∧ streamState s m0 0 = cRun ∧ r.fail = none ∧ 0 < pushEnd c (runOut s m0 0 r).rows.length ∧
      rowReady s m0 r 0 = true ∧ 1 ≤ creditOf s c ⟨3, 0, 0⟩ := ⟨_, _, rfl, rfl, by decide⟩
theorem meets_CommandsRunAndEnd_3 : let s := pushing ⟨3, 1, 1⟩
    ∃ r c, curOf s m0 0 = some r ∧ chanOf s r.offer.job 3 = some c ∧ r.push = [⟨3, 1, 1⟩] ∧ coreOfCode c.dst = some ⟨.m, 1⟩ ∧ shadowOf s ⟨.m, 1⟩ = none :=
  ⟨_, _, rfl, rfl, rfl, rfl, by decide⟩
/-- The consumer of the channel, and a row of the channel's length or of another. -/
def landing (row : List Byte) : State :=
  let r := { run0 (cmd 1 0 []) with out := some { noOut with rows := [row] }, push := [⟨3, 1, 1⟩] }
  setCur (setJob (runs laidOut m0 cRun r) 0 job0) ⟨.m, 1⟩ 0 { run0 (cmd 1 0 []) with win := [(3, 0, 0)] }
theorem meets_CommandsRunAndEnd_7 : (curOf (landing [1]) ⟨.m, 1⟩ 0).any (fun rq => rq.offer.job == 0 && rq.win.find? (fun x => x.1 == 3) == some (3, 0, 0)) = true ∧
    chanPitch chan0 = 64 ∧ roundUp ([1] : List Byte).length 64 = 64 ∧ roundUp (List.replicate 65 (1 : Byte)).length 64 ≠ 64 ∧
    (curOf (landing (List.replicate 65 1)) ⟨.m, 1⟩ 0).isSome = true := by decide
/-- A command that lacks a credit when its partition is reset. -/
theorem meets_CommandsRunAndEnd_8 :
    let s0 := pushing ⟨3, 0, 0⟩
    let s := { s0 with tally := [], dev := { s0.dev with inReset := [0] } }
    ∃ r, curOf s m0 0 = some r ∧ inReset s r.offer.part = true ∧ heldForPush s m0 0 r = true ∧ (0 : Nat) < (streamsOf m0).length :=
  ⟨_, rfl, by decide, by decide, by decide⟩
/-- A duplex stage on V-cores 0 and 1 whose shadow has ended, with another output or not yet. -/
def twice (ended : Option (EndClocks × CoreErr)) : State :=
  let r := { run0 (cmd 1 0 []) with out := some { noOut with rows := [[1]] } }
  let s := withRegs (runs laidOut v0 cRun { r with offer := { r.offer with role := 1 } }) [(fbPage 0, 0x200, 0x80002120#32)]
  setCur s ⟨.v, 1⟩ 0 { r with offer := { r.offer with role := 2 }, out := some { noOut with rows := [[2]] }, ended := ended }
theorem meets_CommandsRunAndEnd_9 : ∀ e ∈ [none, some (⟨0, 0, 0, 0⟩, CoreErr.none)], let s := twice e
    shadowOf s v0 = some ⟨.v, 1⟩ ∧ (curOf s v0 0).any (fun r => r.offer.role == 1 && mayEnd s v0 0 r && !(inReset s r.offer.part) && r.fail.isNone &&
      r.badRows.isEmpty && (curOf s ⟨.v, 1⟩ 0).any fun rq => rq.offer.role == 2 && sameCmd rq.offer r.offer && rq.ended == e && rq.fail.isNone &&
        outDigest (runOut s v0 0 r) != outDigest (runOut s ⟨.v, 1⟩ 0 rq)) = true := by decide +kernel
theorem meets_CommandsRunAndEnd_4 : let r := { run0 (cmd 0 0 []) with out := some noOut }
    let s := runs laidOut m0 cRun r
    curOf s m0 0 = some r ∧ streamState s m0 0 = cRun ∧ rowsDone s m0 0 r = true ∧ liveTags s m0 0 = false ∧ storesFree s 0 (runOut s m0 0 r) = true ∧
      appendDone s m0 r (runOut s m0 0 r) = true ∧ r.badRows = [] ∧ writesStatus s 0 (runOut s m0 0 r) = .ok ∧ (runOut s m0 0 r).append = [] ∧
      kickedDog s 0 0 0 = none := by decide
theorem meets_CommandsRunAndEnd_5 : let r := { run0 (cmd 0 0 []) with out := some noOut, fail := some .tierFault }
    curOf (runs laidOut m0 cRun r) m0 0 = some r ∧ streamState (runs laidOut m0 cRun r) m0 0 = cRun := by decide
theorem meets_CommandsRunAndEnd_6 : let r := { run0 (cmd 6 0 [0, 0x00020003]) with out := some { noOut with spent := true } }
    let s := runs laidOut t0 cRun r
    curOf s t0 0 = some r ∧ streamState s t0 0 = cRun ∧ opOf r.offer.desc = 6 ∧ (runOut s t0 0 r).spent = true := by decide

/-! ### Hypotheses that can be met: rings, jobs and the roster -/

/-- PT0 in its first session, with entry 255 admitted before entry 0. -/
def ringBase (st : Nat) : State :=
  withRegs (setSec { laidOut with jobs := [(0, rawJob 1 0), (255, { rawJob 0 0 with raw := false, state := st })] } 0
      { noSec with session := 1, sk := List.replicate 32 7 })
    [(sbPage 0, 0x100, 1), (sbPage 0, 0x104, 257), (sbPage 0, 0x108, 255)]
/-- A descriptor of a kind that names an entry. -/
def ringPlain (kind target : Nat) : List Byte :=
  natBytes 4 (0x10000000 + kind * 65536) ++ List.replicate 40 0 ++ natBytes 4 target ++ List.replicate 48 0
/-- Entry 0 as the producer sealed it. -/
def ringing (st kind target : Nat) : State :=
  let s := ringBase st
  let c := gcmSeal (sessionKey s 0 "RING") (List.replicate 12 5)
    ([BitVec.ofNat 8 0, 0, 0, 0] ++ wordBytes (descNumber s 0 0) ++ natBytes 4 (secOf s 0).session ++ natBytes 4 0) (ringPlain kind target)
  putRing s 0 0x1000 (c.1 ++ List.replicate 12 5 ++ natBytes 4 (secOf s 0).session ++ c.2)
def ringWords (kind target : Nat) : List Word := (List.range 24).map fun i => bytesWord (ringPlain kind target) i
theorem ringing_opens (st kind target : Nat) (h0 : (secOf (ringBase st) 0).session = 1) :
    openEntry (ringing st kind target) 0 0 = some (ringWords kind target) :=
  openEntry_sealed (ringBase st) 0 0 (ringPlain kind target) (List.replicate 12 5) (by simp [ringPlain, natBytes]) (by decide) (by simp [h0])
    (by simp [h0])
theorem ringing_base (st kind target : Nat) : ∃ x, ringing st kind target = { ringBase st with ring := x } := ⟨_, putRing_frame _ _ _ _⟩
theorem ring_frame (s : State) (x : SMap Byte) : jobOf { s with ring := x } = jobOf s ∧ devRunning { s with ring := x } = devRunning s ∧
    inReset { s with ring := x } = inReset s ∧ levelInForce { s with ring := x } = levelInForce s ∧ admitted { s with ring := x } = admitted s :=
  ⟨rfl, rfl, rfl, rfl, rfl⟩
theorem meets_JobEffects_2 : let s := ringing jRunning 1 0
    jobOf s 0 = some (rawJob 1 0) ∧ devRunning s = true ∧ inReset s 0 = false ∧ openEntry s 0 0 = some (ringWords 1 0) ∧ kindOf (ringWords 1 0) ≠ 2 := by
  obtain ⟨x, h⟩ := ringing_base jRunning 1 0
  obtain ⟨h1, h2, h3, -⟩ := ring_frame (ringBase jRunning) x
  refine ⟨?_, ?_, ?_, ringing_opens _ 1 0 (by decide), by decide⟩ <;> rw [h]
  · rw [h1]; decide
  · rw [h2]; decide
  · rw [h3]; decide
/-- A CANCEL of a job that runs, and of one that is pending. -/
theorem meets_JobEffects_4 : ∀ st ∈ [jRunning, jPending], let s := ringing st 2 255
    let w := ringWords 2 255
    openEntry s 0 0 = some w ∧ kindOf w = 2 ∧ cancelReserved w = false ∧ df w 0 31 28 = 1 ∧ df w 11 7 0 = 255 ∧ levelInForce s = 1 ∧
      admitted s 0 0 255 = true ∧ jobOf s 0 = some (rawJob 1 0) ∧ devRunning s = true ∧ inReset s 0 = false ∧
      (jobOf s 255).map (jobAsAdmitted s 0 255) = some { rawJob 0 0 with raw := false, state := st } ∧ st ≠ jEnding ∧ st ≠ jDone := by
  intro st m
  have o : (secOf (ringBase st) 0).session = 1 := by revert st; decide
  obtain ⟨x, h⟩ := ringing_base st 2 255
  obtain ⟨h1, h2, h3, h4, h5⟩ := ring_frame (ringBase st) x
  refine ⟨ringing_opens st 2 255 o, by decide, by decide, by decide, by decide, ?_, ?_, ?_, ?_, ?_, ?_, ?_, ?_⟩
  · rw [h, h4]; clear h h1 h2 h3 h4 h5 o; revert st; decide
  · rw [h, h5]; clear h h1 h2 h3 h4 h5 o; revert st; decide
  · rw [h, h1]; clear h h1 h2 h3 h4 h5 o; revert st; decide
  · rw [h, h2]; clear h h1 h2 h3 h4 h5 o; revert st; decide
  · rw [h, h3]; clear h h1 h2 h3 h4 h5 o; revert st; decide
  · rw [h, h1]
    have k : jobOf (ringBase st) 255 = some { rawJob 0 0 with raw := false, state := st } := by clear h h1 h2 h3 h4 h5 o; revert st; decide
    rw [k]; rfl
  · clear h h1 h2 h3 h4 h5 o; revert st; decide
  · clear h h1 h2 h3 h4 h5 o; revert st; decide
theorem meets_JobEffects_1 : let s := putRing (withRegs laidOut [(sbPage 0, 0x100, 1)]) 0 0 [3]
    devRunning s = true ∧ regBit s (sbPage 0) 0x100 0 = true ∧ inReset s 0 = false ∧ smGet 0 s.scanAt 0 ≠ now s + 1 ∧ scanTick s = true ∧
      ((ringWord s 0 0) - regVal s (sbPage 0) 0x108).toInt ≤ 256 ∧ min 16 (ringWord s 0 0 - regVal s (sbPage 0) 0x104).toInt.toNat = 3 := by decide
theorem meets_JobEffects_3 : let s := { laidOut with jobs := [(0, rawJob 0 0)] }
    jobOf s 0 = some (rawJob 0 0) ∧ (rawJob 0 0).raw = true ∧ openEntry s 0 0 = none := by decide
/-- A graph of one stage on M-core 0 in page 13, its command list in page 14, and the job that names it. -/
def graphed (st : Nat) (jobs : SMap Job) : State :=
  let s := mapped (mapped served 13 { galleryPte with gFrame := 13 }) 14 { galleryPte with gFrame := 14 }
  let a := 13 * pageBytes
  let b := 14 * pageBytes
  let m := { s.mem with cells := [(a, 1), (a + 3, 0x10), (a + 4, 1), (a + 69, 14), (a + 72, 1), (b + 3, 0x10)] }
  { withRegs { s with mem := m } [(corePage m0, 0x00C, BitVec.ofNat 32 (16 * st))] with jobs := jobs }
def stage0 : StageRt := ⟨m0, 0, false, false, 0, 14 * pageBytes, 1, 0, 0, 0, false, false⟩
def waits0 (st : Nat) : Job :=
  { job0 with state := st, graph := 13 * pageBytes, chanEn := false, chans := [], stages := [stage0], decided := false, started := false, sigEn := false, reserved := false
              batch := 1, worked := true, suspAt := 99000 }
theorem meets_JobEffects_5 : let s := graphed cIdle [(0, waits0 jPending)]
    (waits0 jPending).raw = false ∧ jobsLive s 0 = true ∧ behind s 0 (waits0 jPending) = false ∧ slotStarted s 0 0 = false ∧ (startWork s 0 0 (waits0 jPending)).2 = .ok := by
  decide
theorem meets_JobEffects_6 : let s := graphed cIdle [(0, waits0 jStarting)]
    (waits0 jStarting).worked = true ∧ behind s 0 (waits0 jStarting) = false ∧ slotStarted s 0 0 = false ∧
      coresFree (claimCores s (waits0 jStarting)) 0 (waits0 jStarting) = true ∧ jobsLive s 0 = true ∧
      outranked (claimCores s (waits0 jStarting)) 0 0 (waits0 jStarting) = false := by decide
theorem meets_JobEffects_7 : let s := setFb (graphed cIdle [(0, waits0 jRunning)]) m0 { noFb with checked := some 1000 }
    offerJob s m0 0 = some (0, waits0 jRunning, 0, stage0) ∧ offerable s m0 0 = true ∧ readRange s 0 (stage0.addr + 64 * stage0.next) 64 = .ok ∧
      timeAllows s 0 m0 (nominalTicks s m0 0 (readWords s 0 (stage0.addr + 64 * stage0.next) 16)) = true ∧ shadowOf s m0 = none ∧ quietEnd s m0 = none ∧
      breakHolds s 0 0 0 0 = false := by decide +kernel
theorem meets_JobEffects_8 : let s := graphed cIdle [(0, waits0 jSuspending)]
    ∀ k ∈ jobCores s (waits0 jSuspending), holds s 0 (waits0 jSuspending) k = false := by decide
theorem meets_JobEffects_9 : let s := graphed cIdle [(0, waits0 jSuspending)]
    (waits0 jSuspending).suspAt + 210 + min 0 (tierDeadline s .seam) ≤ now s ∧ (waits0 jSuspending).decided = false := by decide
def suspendedWith (w : Word) : Job := { waits0 jSuspended with snap := [(40, w)] }
theorem meets_JobEffects_10 : let s := graphed cIdle [(0, suspendedWith 0)]
    jobOf s 0 = some (suspendedWith 0) ∧ behind s 0 (suspendedWith 0) = false ∧ coresFree (claimCores s (suspendedWith 0)) 0 (suspendedWith 0) = true ∧
      outranked (claimCores s (suspendedWith 0)) 0 0 (suspendedWith 0) = false ∧ jobsLive s 0 = true := by
  decide
theorem meets_JobEffects_10_slot : slotStarted (graphed cIdle [(0, suspendedWith 0)]) 0 (waits0 jSuspended).slot = false := by decide
theorem meets_JobEffects_10_tally : tallyVal (graphed cIdle []) 40 = 0 ∧ tallyVal (graphed cIdle []) 40 ≠ 1 := by decide
theorem meets_JobEffects_11 : let j := { waits0 jEnding with decided := true, status := .ok, sigEn := true }
    let s := graphed cIdle [(0, j)]
    jobOf s 0 = some j ∧ jobOver s 0 j = true ∧ devRunning s = true ∧ inReset s 0 = false ∧ ownsTally s 0 j.doneTally = true := by decide
/-- A job that has failed, a command of which still waits for a Tally. -/
theorem meets_JobEffects_12 : let j := { waits0 jEnding with decided := true, status := .tierFault }
    let s := runs (graphed cIdle [(0, j)]) m0 cWait (run0 (cmd 0 0x10 []))
    jobOf s 0 = some j ∧ devRunning s = true ∧ runsJob s m0 0 0 = true ∧
      ∀ k ∈ allCores, ∀ i ∈ List.range 2, runsJob s k i 0 = true → streamState s k i = cWait := by decide +kernel

/-- A roster of one canary entry in force. -/
def rostered (st : Nat) : State :=
  { withRegs served [(roPage, 0x00C, BitVec.ofNat 32 (16 * st))] with roster := { served.roster with table := some [⟨1000, 200, 2, 0, 0, 0⟩] } }
theorem meets_RosterEffects_1 : Accepted (rostered roOff) (.host 0) roPage 0x110 1 := by unfold Accepted; decide
theorem meets_RosterEffects_1_bad : (roCheckTable laidOut).2 = some 0 := by decide +kernel
theorem meets_RosterEffects_2 : Accepted (rostered roOff) (.host 0) roPage 0x100 1 ∧ Accepted (rostered roArmed) (.host 0) roPage 0x100 0 ∧
    Accepted (rostered roRun) (.host 0) roPage 0x100 0 := by unfold Accepted; decide
theorem meets_RosterEffects_3 : Accepted (graphed cIdle [(0, waits0 jRunning)]) (.host 0) (sbPage 0) 0x110 0 := by unfold Accepted; decide
theorem meets_RosterEffects_4 : ∀ t ∈ [100000, 100001], let s := atNow (rostered roArmed) t
    roState s = roArmed ∧ devRunning s = true ∧ reachedAt s (roOrigin s) = true ∧ (((now s : Int) - roOrigin s) % frameTicks = 0 ↔ t = 100000) ∧ 0 < now s := by
  decide
theorem meets_RosterEffects_5 : ∀ b ∈ [true, false], let s0 := rostered roRun
    let s := { s0 with roster := { s0.roster with stop := b } }
    roState s = roRun ∧ devRunning s = true ∧ reachedAt s (s.roster.frame0 + frameTicks) = true ∧ s.roster.stop = b := by decide
/-- M-core 0 in group 2, shared by PT1. -/
def shared (st at' : Nat) (wins : SMap WinNow) (e : RoEntry) : State :=
  let l := { smallLayout with cores := .group 2 :: List.replicate 59 (.part 0 false), groups := [0, 0, 2] }
  let s := atNow { rostered st with dev := { served.dev with layout := some l } } at'
  { s with roster := { s.roster with table := some [e], wins := wins, frame0 := 100000 } }
def winEntry : RoEntry := ⟨500, 300, 1, 1, 2, 4⟩
theorem meets_RosterEffects_6 : let s := shared roOff 100800 [(2, ⟨1, 4, 100800⟩)] winEntry
    devRunning s = true ∧ s.roster.wins.filter (fun x => reachedAt s x.2.stop) = [(2, ⟨1, 4, 100800⟩)] ∧ roState s ≠ roRun ∧ groupCores s 2 = [m0] := by decide
theorem meets_RosterEffects_7 : let s := shared roRun 100500 [] winEntry
    devRunning s = true ∧ roState s = roRun ∧ s.roster.wins.filter (fun x => reachedAt s x.2.stop) = [] ∧ s.roster.late ≠ some (now s) ∧
      ((List.range (roEntries s).length).zip (roEntries s)).filter (fun x => reachedFirst s (s.roster.frame0 + x.2.start)) = [(0, winEntry)] ∧
      windowOf s 2 ≠ some ⟨1, 4, now s + 300⟩ := by decide
theorem meets_RosterEffects_8 : let s := shared roRun 101000 [] ⟨1000, 200, 2, 0, 0, 0⟩
    s.roster.wins.filter (fun x => reachedAt s x.2.stop) = [] ∧ s.roster.late ≠ some (now s) ∧
      ((List.range (roEntries s).length).zip (roEntries s)).filter (fun x => reachedFirst s (s.roster.frame0 + x.2.start)) = [(0, ⟨1000, 200, 2, 0, 0, 0⟩)] ∧
      s.roster.canaryEnd ≠ now s + 200 := by decide

/-! ### Hypotheses that can be met: Fireboss -/

theorem meets_TripEffects_1 : let s := withRegs running [(fbPage 0, 0x100, 0x101)]
    devRunning s = true ∧ regBit s (fbPage 0) 0x100 0 = true ∧ s.fb.lastPass + 20000 ≤ now s := by decide
theorem meets_TripEffects_2 : devRunning running = true := by decide
def dog0 : Dog := ⟨0, 0, 90000, 0, 0, false, false⟩
def guarded (action : Nat) : State :=
  let s := withRegs (graphed cIdle [(0, waits0 jRunning)]) [(wdPage 0, 0x40C, BitVec.ofNat 32 (action * 2 ^ 28 + 5 * 2 ^ 24)), (wdPage 0, 0x80C, 0x00640001#32)]
  setDog s (dogKey 0 3) dog0
theorem meets_TripEffects_5 : ∀ a ∈ [0, 1, 2], let s := guarded a
    dogOf s (dogKey (stackNo .w) 3) = some dog0 ∧ devRunning s = true ∧ field (wdCfg s (dogKey 0 3)) 31 30 ≠ 1 ∧
      reachedAt s (dogClose s (dogKey 0 3) dog0 + 1) = true ∧ dog0.out = false ∧ dog0.held = false ∧ field (wdCfg s (dogKey 0 3)) 29 28 = a ∧ field (wdCfg s (dogKey 0 3)) 27 24 = 5 := by decide
/-- A kick outside the window: the stage's command ends in this tick, before the window opens. -/
def kicksEarly : State :=
  let r := { run0 (cmd 0 0 []) with out := some noOut }
  let s := withRegs (runs (graphed cIdle [(0, waits0 jRunning)]) m0 cRun r) [(wdPage 0, 0x40C, 0x0500FFFF#32), (wdPage 0, 0x80C, 0xFFFFFFF0#32)]
  { setDog s (dogKey 0 3) dog0 with pending := [.commandEnd m0 0 ⟨0, 0, 0, 0⟩ .none] }
theorem meets_TripEffects_7 : let s := kicksEarly
    dogOf s (dogKey (stackNo .w) 3) = some dog0 ∧ devRunning s = true ∧ reachedAt s (dogClose s (dogKey 0 3) dog0 + 1) = false ∧
      (restOfTick s).any (fun c => earlyOf s c == some (dogKey 0 3)) = true := by decide +kernel
theorem meets_TripEffects_6 : m0 ∈ allCores ∧ devState booting = stBoot ∧ pgState booting (fbOfCore m0) = fbChecking ∧ isSuspect booting m0 = false ∧
    pgState booting (corePage m0) ≠ cSelftest ∧ booting.fb.bootFail = none := by decide
def checkedCore (x : CoreFb → CoreFb) : State := setFb (rostered roRun) m0 (x { fbOf running m0 with checked := some 1000 })
theorem meets_FirebossEffects_1 : pgState booting (fbPage (stackNo .e)) = fbChecking := by decide
theorem meets_FirebossEffects_2 : let s := atNow (checkedCore id) 60001000
    devRunning s = true ∧ (fbOf s m0).checked.isSome = true ∧ dueTick s m0 + duePeriod s m0 ≤ now s := by decide
theorem meets_FirebossEffects_3 : let s0 := withRegs (checkedCore fun x => { x with due := 1 }) [(corePage m0, 0x00C, BitVec.ofNat 32 (16 * cIdle))]
    let s := { s0 with fb := { s0.fb with quiet := [(0, [⟨0, 0, 200⟩])] }, roster := { s0.roster with frame0 := 100000 } }
    sliceNext s m0 = some 0 ∧ devRunning s = true ∧ sliceFits s m0 = true := by decide
theorem meets_FirebossEffects_4 : (0 : Nat) ≠ digSlice ∧ let s := checkedCore fun x => { x with slice := some (0, 99950, false) }
    (fbOf s m0).slice = some (0, 99950, false) ∧ devRunning s = true ∧ 99950 + 50 ≤ now s ∧ (fbOf s m0).pendMark = false ∧ markFatal s m0 = false := by decide
/-- A digest slice: one of more to come, and the last, with the core's own digest as the others' or not. -/
def digesting (m : Nat) (odd : Bool) : State := checkedCore fun x => { x with slice := some (digSlice, 99950, false), dig := some (m + 1, odd) }
theorem meets_FirebossEffects_10 : ∀ x ∈ [(1, false), (0, false), (0, true)], let s := digesting x.1 x.2
    m0 ∈ allCores ∧ (fbOf s m0).slice = some (digSlice, 99950, false) ∧ (fbOf s m0).dig = some (x.1 + 1, x.2) ∧ devRunning s = true ∧ 99950 + 50 ≤ now s ∧
      (fbOf s m0).pendMark = false ∧ isSuspect s m0 = false := by decide
theorem meets_FirebossEffects_6 : let s := atNow (checkedCore id) 130000000
    devRunning s = true ∧ (fbOf s m0).debt = false ∧ debtAge < coreAge s m0 := by decide
/-- A quiet table of no interval: its first word ends it. -/
def quieting (b : Byte) : State :=
  let s := mapped served 16 { galleryPte with gFrame := 16 }
  withRegs { s with mem := { s.mem with cells := [(16 * pageBytes, b)] } } [(fbPage 0, 0x00C, BitVec.ofNat 32 (16 * fbReady)), (fbPage 0, 0x11C, 16)]
theorem meets_FirebossEffects_7 : Accepted (quieting 0xFF) (.host 0) (fbPage 0) 0x120 1 ∧ regField (quieting 0xFF) (fbPage 0) 0x11C 27 0 * pageBytes = 16 * pageBytes ∧
    quietTable (quieting 0xFF) 0 (16 * pageBytes) 256 0 [] = some [] ∧ quietTable (quieting 1) 0 (16 * pageBytes) 256 0 [] = none := by unfold Accepted; decide
theorem meets_FirebossEffects_7_read : readRange (quieting 0xFF) 0 (16 * pageBytes) 2048 = .ok := by decide +kernel
theorem meets_DigestHypotheses : let s := withRegs (atNow (rostered roRun) 110000) [(fbPage 0, 0x100, 0x10101)]
    regBit s (fbPage 0) 0x100 16 = true ∧ roState s = roRun ∧ regField s (fbPage 0) 0x100 15 8 = 1 ∧ devRunning s = true ∧ (now s - roOrigin s) / 10000 % 1 = 0 ∧ s.fb.digFrame ≤ (now s - roOrigin s) / 10000 := by decide
/-- The canary's graph in page 13: a safety graph of one stage on a reserved core of PT0. -/
def canarying (job : Option Job) : State :=
  let l := { smallLayout with cores := .part 0 true :: List.replicate 59 (.part 0 false) }
  let g := graphed cIdle (match job with | some j => [(canaryKey, j)] | none => [])
  let s := { g with dev := { g.dev with layout := some l }, mem := { g.mem with cells := smSet 0 g.mem.cells (13 * pageBytes + 2) 1 } }
  let t := withRegs s [(fbPage 0, 0x124, 13), (fbPage 0, 0x128, 17), (fbPage 0, 0x12C, 0)]
  { t with fb := { t.fb with canDue := [99000] } }
theorem meets_FirebossEffects_8 : let s := canarying none
    s.fb.canDue = [99000] ∧ devRunning s = true ∧ jobOf s canaryKey = none ∧ (readGraph s 0 (canaryGraph s)).toOption.isSome = true ∧ canaryStatus s = .ok ∧
      ∀ k ∈ canaryCores s, ∀ i ∈ streamsOf k, streamState s k i = cIdle := by
  decide +kernel
theorem meets_FirebossEffects_9 : ∀ st ∈ [Status.ok, .tierFault], let j := { waits0 jEnding with decided := true, status := st }
    jobOf (canarying (some j)) canaryKey = some j ∧ jobOver (canarying (some j)) canaryKey j = true ∧ devRunning (canarying (some j)) = true := by decide

/-! ### Hypotheses that can be met: the pair -/

/-- A module of a pair: its position, the link's state, and a partition 0 whose manifest is also the mate's. -/
def manBytes : List Byte := List.replicate 12 0 ++ [160, 0, 0, 0] ++ List.replicate 16 1 ++ List.replicate 352 0 ++ List.replicate 100 0 ++ [1] ++ List.replicate 59 0
def paired (pos : Bool) (st : Nat) : State :=
  let s := withRegs served [(vlPage, 0x00C, BitVec.ofNat 32 (16 * st)), (vlPage, 0x100, 0x00010000#32)]
  { s with
    dev := { s.dev with order := 2, pairPos := pos }
    sec := { s.sec with parts := [(0, { noSec with manifest := some manBytes })] }
    vl := { s.vl with mateMan := List.replicate 16 1 } }
def withVl (s : State) (f : VlSt → VlSt) : State := { s with vl := f s.vl }
def receiving (s : State) (m : Msg) : State := withVl s fun x => { x with inbox := [m] }

theorem meets_LinkEffects_1 : isPair (paired false vlAuth) = true ∧ vlAuth ≤ linkState (paired false vlAuth) := by decide
theorem meets_LinkEffects_2 : let s := paired false vlAuth
    let bytes : List Byte := [1, 0, 0, 0, 0, 0, 4, 0, 0x21, 0xFF, 0, 0]
    s.vl.inbox = [] ∧ linkState s < vlAlign ∧ flitMsgs 251 (((bytes.drop 8).take 1000).take 4) = some [⟨2, 1, 255, []⟩] ∧
      bytesNat ((bytes.take 8 |>.drop 6).take 2) = 4 ∧ bytesNat (bytes.take 2) = (s.vl.rxSeq + 1) % 65536 ∧ ((bytes.take 8).getD 4 0).getLsbD 0 = false := by decide
theorem zeroKey_length : (sub (List.replicate 112 (0 : Byte)) 32 32).length = 32 := by decide +kernel
def flitArea : List Byte := [0x20, 0xFF, 0, 0] ++ List.replicate 996 0
theorem flitArea_length : flitArea.length = 1000 := by
  rw [flitArea, List.length_append, List.length_replicate]; rfl
/-- Under the keys a flit that its sender sealed opens to its message area. -/
theorem meets_LinkEffects_2_sealed : ∃ (s : State) (count : Nat) (bytes area : List Byte), vlAlign ≤ linkState s ∧
    gcmOpen (sub s.vl.keys 32 32) (natBytes 8 count ++ List.replicate 4 0) (bytes.take 8) ((bytes.drop 8).take 1000) ((bytes.drop 1008).take 16) = some area ∧
    flitMsgs 251 (area.take 4) = some [⟨2, 0, 255, []⟩] := by
  let s := withVl (paired false vlAlign) fun x => { x with keys := List.replicate 112 0 }
  let head : List Byte := [1, 0, 0, 0, 0, 0, 4, 0]
  let area := flitArea
  let key := sub s.vl.keys 32 32
  let x := gcmSeal key (natBytes 8 1 ++ List.replicate 4 0) head area
  have hk : key.length = 32 := zeroKey_length
  have ha : area.length = 1000 := flitArea_length
  have hc : x.1.length = 1000 := (gcmSeal_lengths key _ head area hk).1.trans ha
  have ht : x.2.length = 16 := (gcmSeal_lengths key _ head area hk).2
  refine ⟨s, 1, head ++ (x.1 ++ x.2), area, by decide, ?_, by decide⟩
  have h1 : (head ++ (x.1 ++ x.2)).take 8 = head := rfl
  have h2 : (head ++ (x.1 ++ x.2)).drop 8 = x.1 ++ x.2 := rfl
  have h3 : (head ++ (x.1 ++ x.2)).drop 1008 = x.2 := by
    rw [show 1008 = 8 + 1000 from rfl, ← List.drop_drop, h2, List.drop_left' hc]
  rw [h1, h2, h3, List.take_left' hc, List.take_of_length_le (Nat.le_of_eq ht)]
  exact gcmOpen_gcmSeal key _ head area hk
theorem meets_LinkEffects_3 : ∀ f : VlSt → VlSt, f ∈ [fun x => { x with naks := List.replicate 16 99500 }, fun x => { x with thrice := true }, fun x => { x with tagRun := 3 }] →
    let s := withVl (paired false vlPaired) f
    vlAuth ≤ linkState s ∧ (16 ≤ (s.vl.naks.filter fun t => decide (now s < t + 1000)).length ∨ s.vl.thrice = true ∨ 3 ≤ s.vl.tagRun) := by
  intro f hf
  simp only [List.mem_cons, List.not_mem_nil, or_false] at hf
  rcases hf with rfl | rfl | rfl <;> decide
theorem meets_LinkEffects_3_fec : (paired false vlPaired).vl.lastFec + 2 ≤ now (paired false vlPaired) := by decide
theorem meets_LinkEffects_4 : linkState (paired true vlTrain) = vlTrain := by decide
/-- A HELLO of position B, SEALED, with a nonce and a layout digest of zeros. -/
def helloMsg (len pos : Nat) : Msg := ⟨2, 1, 255, List.replicate 48 0 ++ [BitVec.ofNat 8 pos, BitVec.ofNat 8 lcSealed] ++ List.replicate (len - 50) 0⟩
theorem meets_LinkEffects_5 : let s := receiving (paired false vlAuth) (helloMsg 148 1)
    Front s 2 1 (helloMsg 148 1) ∧ linkState s = vlAuth ∧ s.vl.hello = [] ∧ (helloMsg 148 1).body.length = 148 ∧ at8 (helloMsg 148 1).body 48 ≠ s.dev.pairPos.toNat ∧
      at8 (helloMsg 148 1).body 49 = lcSealed := ⟨rfl, by decide +kernel⟩
theorem meets_LinkEffects_5_wrong : Front (receiving (paired false vlAuth) (helloMsg 148 0)) 2 1 (helloMsg 148 0) ∧
    at8 (helloMsg 148 0).body 48 = (paired false vlAuth).dev.pairPos.toNat ∧ (helloMsg 60 1).body.length ≠ 148 := ⟨rfl, by decide +kernel⟩
/-- Position A in AUTH after both HELLOs, the layouts alike or not. -/
def greeted (alike : Bool) : State :=
  withVl (paired false vlAuth) fun x => { x with ownHello := (helloMsg 148 0).body, hello := if alike then (helloMsg 148 1).body else (helloMsg 148 1).body.map (· + 1) }
theorem confirm_receiving (s : State) (m : Msg) (b : Bool) : confirmBytes s b = confirmBytes (receiving s m) b := rfl
def confirmMsg (alike : Bool) : Msg := ⟨2, 2, 255, confirmBytes (greeted alike) true⟩
theorem greeted_position (alike : Bool) (m : Msg) : (!(receiving (greeted alike) m).dev.pairPos) = true := rfl
theorem confirmMsg_right (alike : Bool) : (confirmMsg alike).body =
    confirmBytes (receiving (greeted alike) (confirmMsg alike)) (!(receiving (greeted alike) (confirmMsg alike)).dev.pairPos) := by
  rw [greeted_position]
  exact confirm_receiving (greeted alike) (confirmMsg alike) true
theorem meets_LinkEffects_6 : Front (receiving (greeted true) (confirmMsg true)) 2 2 (confirmMsg true) ∧ linkState (greeted true) = vlAuth ∧
    sub (greeted true).vl.hello 52 48 = sub (greeted true).vl.ownHello 52 48 := ⟨rfl, by decide +kernel, by decide +kernel⟩
theorem meets_LinkEffects_6_apart : linkState (greeted false) = vlAuth ∧ sub (greeted false).vl.hello 52 48 ≠ sub (greeted false).vl.ownHello 52 48 := by
  decide +kernel
theorem meets_LinkEffects_6_wrong : let m : Msg := ⟨2, 2, 255, []⟩
    Front (receiving (greeted true) m) 2 2 m ∧ m.body ≠ confirmBytes (receiving (greeted true) m) true := by
  refine ⟨rfl, fun h => ?_⟩
  have h' := congrArg List.length h
  rw [confirmBytes, hmac384_length] at h'
  cases h'
def alignMsg (step : Bool) : Msg := ⟨1, 0, 255, List.replicate 48 0 ++ [if step then 8 else 0, 0, 0, 0]⟩
def aligned (st near far : Nat) : State := withVl (receiving (paired false st) (alignMsg true)) fun x => { x with near := near, far := far, reached := true }
theorem meets_LinkEffects_7 : Front (aligned vlAlign 5 0) 1 0 (alignMsg true) ∧ linkState (aligned vlAlign 5 0) = vlAlign ∧ (50 : Int).natAbs ≤ 50 ∧
    (51 : Int).natAbs ≤ 1000000 ∧ ((alignMsg true).body.getD 48 0).getLsbD 3 = true ∧ (aligned vlAlign 5 0).dev.pairPos = false ∧
    (aligned vlAlign 98 0).vl.near + 1 < 100 ∧ 100 ≤ (aligned vlAlign 99 0).vl.near + 1 := ⟨rfl, by decide⟩
theorem meets_LinkEffects_7_far : linkState (aligned vlPaired 0 2) ≠ vlAlign ∧ 1000000 < (1000001 : Int).natAbs ∧ (-500 : Int).natAbs ≤ 500 ∧
    500 < (-501 : Int).natAbs ∧ 2 ≤ (aligned vlPaired 0 2).vl.far ∧ (aligned vlPaired 0 2).vl.reached = true := by decide
theorem meets_LinkEffects_8 : ∃ s m, Front s 2 0 m := ⟨receiving (paired true vlPaired) ⟨2, 0, 255, []⟩, ⟨2, 0, 255, []⟩, rfl⟩
theorem meets_LinkEffects_9 : ∃ s m, Front s 6 6 m ∧ vlAlign ≤ linkState s := ⟨receiving (paired true vlPaired) ⟨6, 6, 255, []⟩, ⟨6, 6, 255, []⟩, rfl, by decide⟩
theorem meets_LinkEffects_10 : Accepted (paired false vlOff) (.host 0) vlPage 0x100 0x00020001 ∧ Accepted (paired false vlPaired) (.host 0) vlPage 0x100 0x00010001 ∧
    Accepted (paired false vlPaired) (.host 0) vlPage 0x100 0x00010000 := by unfold Accepted; decide
theorem meets_LinkEffects_11 : Accepted (paired false vlPaired) (.host 0) vlPage 0x120 2 := by unfold Accepted; decide

theorem meets_LeadEffects_1 : let s := withVl (paired true vlTrain) fun x => { x with mateLed := true, lastBeat := some 99997 }
    MayTake s ∧ s.vl.mateLed = true ∧ s.vl.lastBeat = some 99997 ∧ 99997 + 3 ≤ now s := by unfold MayTake; decide
theorem meets_LeadEffects_2 : let s := withVl (paired true vlTrain) fun x => { x with mateLed := true, lastLife := some 90000 }
    MayTake s ∧ lifeLoss s = true := by unfold MayTake; decide
theorem meets_LeadEffects_3 : let s := withVl (paired false vlTrain) fun x => { x with runAt := some 99000 }
    let u := withVl (paired true vlTrain) fun x => { x with runAt := some 99000 }
    MayTake s ∧ s.vl.runAt = some 99000 ∧ 99000 + joinTmo s ≤ now s ∧ s.vl.passed = false ∧ s.dev.pairPos = false ∧ MayTake u ∧ lifeLoss u = true := by
  unfold MayTake; decide
theorem meets_LeadEffects_4 : let s := withVl (withRegs (paired false vlAlign) [(ptpPage, 0x100, 1)]) fun x => { x with passed := true, alignAt := some 99000 }
    isPair s = true ∧ s.vl.alignAt = some 99000 ∧ 99000 + joinTmo s ≤ now s ∧ ptpEnabled s = true ∧ s.time.stepDone = false ∧ s.time.setPend = false ∧
      s.time.lockPend = false ∧ BAct.timeStep 0 false ∉ s.atTick := by decide
/-- A token of an epoch with its flags: leading, yielding, unable. -/
def tokenMsg (epoch flags : Nat) : Msg := ⟨3, 0, 255, natBytes 4 epoch ++ [BitVec.ofNat 8 flags, 1, 0, 0] ++ natBytes 4 99999⟩
def tokened (lead : Bool) (epoch flags : Nat) : State := withVl (receiving (paired false vlPaired) (tokenMsg epoch flags)) fun x => { x with lead := lead, epoch := 7 }
theorem meets_LeadEffects_5 : Front (tokened false 8 1) 3 0 (tokenMsg 8 1) ∧ ((tokenMsg 8 1).body.getD 4 0).getLsbD 0 = true ∧ (tokened false 8 1).vl.lead = false ∧
    (tokened true 8 1).vl.lead = true ∧ (tokened true 8 1).vl.epoch.toNat < (BitVec.ofNat 32 (bytesNat ((tokenMsg 8 1).body.take 4))).toNat ∧
    (BitVec.ofNat 32 (bytesNat ((tokenMsg 6 1).body.take 4))).toNat < (tokened true 6 1).vl.epoch.toNat ∧ linkState (tokened true 8 1) = vlPaired :=
  ⟨rfl, by decide⟩
theorem meets_LeadEffects_5_yield : ((tokenMsg 7 2).body.getD 4 0).getLsbD 0 = false ∧ ((tokenMsg 7 2).body.getD 4 0).getLsbD 1 = true ∧
    isPair (tokened false 7 2) = true ∧ ableLead (tokened false 7 2) = true ∧ (tokened false 7 2).vl.lead = false := by decide
theorem meets_LeadEffects_5_equal : at8 ((tokenMsg 7 1).body.set 5 0) 5 = 0 ∧ BitVec.ofNat 32 (bytesNat ((tokenMsg 7 1).body.take 4)) = (tokened true 7 1).vl.epoch := by
  decide
theorem meets_LeadEffects_6 : Accepted (withVl (paired false vlPaired) fun x => { x with lead := true }) (.host 0) vlPage 0x120 1 := by unfold Accepted; decide
theorem meets_LeadEffects_7 : isPair (withVl (paired false vlOff) fun x => { x with lastLife := some 99900 }) = true := by decide
theorem meets_LeadEffects_8 : let s := paired false vlOff
    devRunning s = true ∧ powered s = true ∧ pgState s (fbPage 0) = fbReady ∧ pgState s (fbPage 1) = fbReady ∧ now s % 100 = 0 ∧ s.vl.lifeAt ≠ some (now s) := by decide

def msgOf (cls k : Nat) (body : List Byte) : Msg := ⟨cls, k, 0, body⟩
theorem meets_MirrorEffects_1 : let m := msgOf 4 0 [1, 2, 0, 0, 5, 0, 0, 0, 9]
    let s := receiving (paired false vlPaired) m
    let alike := withVl s fun x => { x with mine := [(m.body, 99000)] }
    let other := withVl s fun x => { x with mine := [([1, 2, 0, 0, 5, 0, 0, 0, 7], 99000)] }
    Front s 4 0 m ∧ mirrors s = true ∧ partAgrees s m.part = true ∧ s.vl.mine.find? (fun x => digestKey x.1 == digestKey m.body) = none ∧
      alike.vl.mine.find? (fun x => digestKey x.1 == digestKey m.body) = some (m.body, 99000) ∧
      (other.vl.mine.find? (fun x => digestKey x.1 == digestKey m.body)).isSome = true := ⟨rfl, by decide⟩
theorem meets_MirrorEffects_2 : let s := withVl (paired false vlPaired) fun x => { x with mine := [([1], 98000)] }
    (s.vl.theirs ++ s.vl.mine).find? (fun x => decide (now s ≥ x.2 + 2000)) = some ([1], 98000) := by decide
def delta (k : Nat) (body : List Byte) : State := receiving (paired false vlPaired) (msgOf 5 k body)
theorem delta_front (k : Nat) (body : List Byte) : DeltaFront (delta k body) k (msgOf 5 k body) := by
  refine ⟨by simp [Front, headMsg, delta, receiving, withVl, msgOf], ?_⟩
  show takesIn (delta 0 []) 0 = true
  decide
theorem meets_MirrorEffects_3 : DeltaFront (delta 1 [63]) 1 (msgOf 5 1 [63]) ∧ at8 (msgOf 5 1 [63]).body 0 < 64 := ⟨delta_front .., by decide⟩
theorem meets_MirrorEffects_4 : DeltaFront (delta 2 []) 2 (msgOf 5 2 []) ∧ DeltaFront (delta 3 []) 3 (msgOf 5 3 []) ∧ DeltaFront (delta 6 []) 6 (msgOf 5 6 []) :=
  ⟨delta_front .., delta_front .., delta_front ..⟩
theorem meets_MirrorEffects_6 : DeltaFront (delta 4 [1, 0, 5, 0]) 4 (msgOf 5 4 [1, 0, 5, 0]) ∧ at8 (msgOf 5 4 [1, 0, 5, 0]).body 0 < 2 ∧ (delta 4 [1, 0, 5, 0]).vl.trk.length = 2 ∧
    bytesNat (sub (msgOf 5 4 [1, 0, 5, 0]).body 4 4) = (trkOf (delta 4 [1, 0, 5, 0]) 1).seq ∧ bytesNat (((msgOf 5 4 [1, 0, 5, 0]).body.drop 2).take 2) < 512 ∧
    (trkOf (delta 4 [1, 0, 5, 0, 9]) 1).seq < bytesNat (sub (msgOf 5 4 [1, 0, 5, 0, 9]).body 4 4) := ⟨delta_front .., by decide⟩
theorem meets_MirrorEffects_6_late : bytesNat (sub (msgOf 5 4 [1, 0, 5, 0]).body 4 4) < (trkOf (setTrk (delta 4 [1, 0, 5, 0]) 1 ⟨2, none, [], 0⟩) 1).seq := by decide
theorem meets_MirrorEffects_7 : let s := setTrk (paired false vlPaired) 1 ⟨2, some 99800, [], 0⟩
    (trkOf s 1).wait = some 99800 ∧ 99800 + 200 ≤ now s ∧ s.vl.trk.length = 2 := by decide
def theirDelta (dg : Nat) : KvDelta := ⟨0, 0, 0, 0, 0, 0, 0, 0, dg, 99000⟩
theorem meets_MirrorEffects_8 : let s (dg : Nat) : State := { delta 5 [] with kv := { (delta 5 []).kv with mine := [theirDelta dg] } }
    DeltaFront (delta 5 []) 5 (msgOf 5 5 []) ∧ linkState (delta 5 []) = vlPaired ∧ (delta 5 []).kv.mine = [] ∧ ∀ dg ∈ [0, 1],
      (s dg).kv.mine.find? (sameDelta ⟨0, 0, 0, 0, 0, 0, 0, 0, 0, now (s dg)⟩) = some (theirDelta dg) := ⟨delta_front .., by decide⟩
theorem meets_MirrorEffects_10 : let s := receiving (paired false vlResync) (msgOf 5 7 [])
    Front s 5 7 (msgOf 5 7 []) ∧ isStandby s = true ∧ linkState s = vlResync := ⟨rfl, by decide⟩
/-- A pair whose PT0 holds slot 5 of a pool LIVE, with three tokens, as sequence 1's first page. -/
def pairPooled (m : Msg) (reqs : List (Nat × List Byte)) : State :=
  let s := withRegs (kvDoing (kvReq 1 true) true) [(vlPage, 0x00C, BitVec.ofNat 32 (16 * vlPaired))]
  let p := receiving (paired false vlPaired) m
  { s with dev := { s.dev with order := 2 }, sec := p.sec, vl := { p.vl with kvReqs := reqs } }
def pageReq : List Byte := [0, 0, 0, 0, 1, 0, 0, 0, 1]
theorem meets_MirrorEffects_11 : let m := msgOf 6 1 pageReq
    let s := pairPooled m []
    Front s 6 1 m ∧ mirrors s = true ∧ partAgrees s m.part = true ∧ reqPage s m.part m.body = some (0, 5, 1) := ⟨rfl, by decide⟩
def pageData : Msg := msgOf 6 2 ([0, 0, 0, 0, 0, 0, 0, 0, 128, 0, 0, 0] ++ List.replicate 128 0)
theorem meets_MirrorEffects_12 : let s := pairPooled pageData [(0, pageReq)]
    Front s 6 2 pageData ∧ mirrors s = true ∧ partAgrees s 0 = true ∧ (takeFragment s pageData).2 = some (List.replicate 128 0) ∧
      2 * fillBytes (poolCfg s 0 0) (min (at8 pageReq 8) 64) = 128 ∧ reqPage s 0 pageReq = some (0, 5, 1) ∧
      writeRange s 0 (kvRowAddr (poolCfg s 0 0) 5 0 false) 64 false true = .ok ∧ writeRange s 0 (kvRowAddr (poolCfg s 0 0) 5 0 true) 64 false true = .ok :=
  ⟨rfl, by decide +kernel⟩
theorem meets_MirrorEffects_13 : let m := msgOf 6 3 [1, 0]
    let s := receiving (paired false vlPaired) m
    Front s 6 3 m ∧ vlAlign ≤ linkState s ∧ (secOf s atMate).at' = none ∧ bytesNat (m.body.take 2) % 4 = 1 := ⟨rfl, by decide⟩
theorem meets_MirrorEffects_14 : let m := msgOf 6 4 [3]
    let n := msgOf 6 4 [0, 0, 0, 0, 0, 0, 0, 0, 1, 0, 0, 0, 7]
    Front (receiving (paired false vlPaired) m) 6 4 m ∧ m.body.length ≤ 1 ∧ (takeFragment (paired false vlPaired) n).2 = some [7] := ⟨rfl, by decide⟩
theorem meets_MirrorEffects_15 : let m := msgOf 6 5 (List.replicate 34 0)
    let s := receiving (paired false vlPaired) m
    Front s 6 5 m ∧ mirrors s = true ∧ partAgrees s 0 = true ∧ bytesNat (m.body.take 2) < atN (manBody s 0) 100 2 ∧
      (digEntry (manBody s 0) 0).digest = sub m.body 2 16 := ⟨rfl, by decide +kernel⟩
theorem meets_MirrorEffects_15_odd : let b := msgOf 6 5 (List.replicate 34 1)
    sub b.body 18 16 = sub b.body 2 16 ∧ (digEntry (manBody (paired false vlPaired) 0) 0).digest ≠ sub b.body 2 16 := by decide +kernel

/-! ### Hypotheses that can be met: resets, boot and power -/

theorem meets_ResetEffects_1 : let s := { running with dev := { running.dev with inReset := [3] } }
    inReset s 3 = true ∧ presetDone s 3 = true ∧ BAct.presetEnd 3 ∉ s.atTick ∧ BAct.presetBegin 3 ∉ s.atTick := by decide
def flashed (trial : Option Nat) (tried : Bool) : State :=
  { State.reset with sec := { SecSt.reset with flash := { FlashSt.reset with trial := trial, tried := tried } } }
theorem meets_ResetEffects_2 : (flashed (some 1) false).sec.boot.held = true ∧ (flashed (some 1) false).supply.main = true ∧
    (flashed (some 1) false).sec.flash.trial = some 1 ∧ (flashed (some 1) false).sec.flash.tried = false ∧ (flashed none false).sec.flash.trial = none ∧
    (flashed (some 1) true).sec.flash.tried = true := by decide
def bootAt (next failed : Nat) : State := { booting with sec := { booting.sec with boot := { booting.sec.boot with next := next, failed := failed } } }
/-- An image too short for its header, and an absent one, fail the check. -/
theorem meets_ResetEffects_3 : (bootAt 0 0).sec.boot.held = false ∧ devState (bootAt 0 0) = stBoot ∧ (bootAt 0 0).sec.boot.failed < 2 ∧ (bootAt 3 1).sec.boot.next < 4 ∧
    lifecycle (bootAt 0 0) ≠ lcScrapped ∧ (bootAt 0 0).sec.flash.slots.getD (bootAt 0 0).sec.boot.slot none = none ∧
    headerBad [0] 1 (compLimit 0) = true := by decide
theorem meets_ResetEffects_3_trial : let s := { bootAt 0 0 with sec := { (bootAt 0 0).sec with boot := { (bootAt 0 0).sec.boot with trialRun := true } } }
    s.sec.boot.held = false ∧ devState s = stBoot ∧ s.sec.boot.failed < 2 ∧ s.sec.boot.next < 4 ∧ lifecycle s ≠ lcScrapped ∧ s.sec.boot.trialRun = true := by decide
theorem meets_ResetEffects_4 : (bootAt 4 0).sec.boot.held = false ∧ devState (bootAt 4 0) = stBoot ∧ 4 ≤ (bootAt 4 0).sec.boot.next ∧ lifecycle (bootAt 4 0) ≠ lcScrapped ∧
    layoutImageBad (bootAt 4 0) ((bootAt 4 0).sec.flash.layout.getD []) ≠ none := by decide
theorem meets_ResetEffects_5 : running.supply.main = true ∧ running.sec.boot.held = false := by decide
theorem meets_ResetEffects_6 : MbWaits (mailing running 5 0x06 [] noSec) 5 0x06 (waiting 0x06 []) ∧ ∀ r, ¬ MbWaits running 5 0x06 r :=
  ⟨by unfold MbWaits; decide, fun _ h => by cases h.1⟩

/-- The device in another power state. -/
def inPower (p : BitVec 4) : State := { served with dev := { served.dev with power := p } }
theorem meets_PowerEffects_1 : ∀ p ∈ [0, 1, 2, 5], Accepted (inPower p) (.host 0) (partPage 0) 0x700 0 := by unfold Accepted; decide
theorem meets_PowerEffects_2 : ∀ p ∈ [0, 1], Accepted (inPower p) (.host 0) (partPage 0) 0x700 1 := by unfold Accepted; decide
theorem meets_PowerEffects_3 : ∀ p ∈ [0, 1, 2], Accepted (inPower p) (.host 0) (partPage 0) 0x700 2 := by unfold Accepted; decide +kernel
theorem meets_PowerEffects_4 : let s := withRegs (inPower 1) (allPages.filterMap fun p => if p.cls = .drift then some (p, 0x00C, 0x10#32) else none)
    let u := { s with dev := { s.dev with layout := some { smallLayout with stbyEn := true } } }
    Accepted u (.host 0) (partPage 0) 0x700 3 ∧ u.dev.power ≠ 3 := by unfold Accepted; decide +kernel
theorem meets_PowerEffects_5 : ∀ p ∈ [0, 5], Accepted (inPower p) (.host 0) (partPage 0) 0x700 5 := by unfold Accepted; decide +kernel
/-- A transition in progress from a power state. -/
def changing (from' : BitVec 4) (target : Nat) : State :=
  let s := inPower from'
  { s with sec := { s.sec with power := { s.sec.power with transit := some target } } }
theorem meets_PowerEffects_6 : (changing 0 3).sec.power.transit = some 3 ∧ (changing 2 0).sec.power.transit = some 0 ∧ powerUnder (changing 2 0) ≠ 3 ∧
    powerUnder (changing 3 0) = 3 ∧ devRunning (changing 3 0) = true ∧ BAct.power 0 ∉ (changing 3 0).atTick := by decide
def armedWake (p : BitVec 4) (under kept : Nat) : State :=
  let s := withRegs (inPower p) [(partPage 0, 0x708, 99999), (partPage 0, 0x70C, 3)]
  { s with sec := { s.sec with power := { s.sec.power with under := under, kept := kept } } }
theorem meets_PowerEffects_7 : ∀ s ∈ [armedWake 0 0 0, armedWake 2 0 0, armedWake 3 0 0, armedWake 4 2 0], regBit s (partPage 0) 0x70C 0 = true ∧
    reached (nowW s) (regVal s (partPage 0) 0x708) = true ∧ s.sec.boot.held = false ∧ vinWakes s = true ∧ s.sec.power.transit = none := by decide
theorem meets_PowerEffects_8 : (armedWake 3 0 0).dev.power = 3 ∧ regBit (armedWake 3 0 0) (partPage 0) 0x70C 1 = true ∧ vinWakes (armedWake 3 0 0) = true := by decide

/-- Brown-out since a tick, with its sources. -/
def browned (since : Nat) (sources : List Nat) (kept : Nat) : State :=
  let s := armedWake 4 2 kept
  { s with supply := { s.supply with brownAt := some since, sources := sources } }
theorem meets_SupplyEffects_1 : running.supply.main = true ∧ running.sec.boot.held = false ∧ running.dev.power ≠ 4 ∧ (browned 90000 [0] 0).dev.power = 4 ∧
    (browned 90000 [0] 0).supply.main = true := by decide
theorem meets_SupplyEffects_3 : (browned 99900 [0, 2] 0).supply.brownAt = some 99900 ∧ 99900 + 100 ≤ now (browned 99900 [0, 2] 0) ∧ nlDel [0, 2] 0 ≠ [] ∧ nlDel [2] 2 = [] ∧
    (browned 99900 [2] 0).mem.heldWrites = [] ∧ (browned 99900 [2] 0).sec.power.kept = 0 ∧ (browned 99900 [2] 1).sec.power.kept ≠ 0 ∧
    (browned 99900 [2] 1).sec.power.transit = none ∧ (browned 99900 [2] 1).sec.power.under = 2 := by decide
theorem meets_SupplyEffects_4 : let s := browned 90000 [0] 0
    s.supply.brownAt = some 90000 ∧ s.dev.power = 4 ∧ 90000 + 10000 ≤ now s ∧ s.supply.sources ≠ [] := by decide
theorem meets_SupplyEffects_5 : laidOut.supply.main = true ∧ laidOut.sec.boot.held = false ∧ devRunning laidOut = true ∧
    ∃ l, { laidOut with dev := { laidOut.dev with layout := some { smallLayout with tamperPin := true } } }.dev.layout = some l ∧ l.tamperPin = true :=
  ⟨by decide, by decide, by decide, _, rfl, rfl⟩
theorem meets_SupplyEffects_6_pin : powerUnder laidOut ≠ 3 ∧ powerUnder booting ≠ 3 := by decide
theorem meets_SupplyEffects_6 : booting.supply.main = true ∧ booting.sec.boot.held = false ∧ booting.dev.layout = none := by decide
theorem meets_SupplyEffects_8 : running.supply.main = true ∧ running.supply.drawAt = none := by decide
theorem meets_SupplyEffects_9 : let s := { running with supply := { running.supply with drawAt := some 97000 } }
    s.supply.drawAt = some 97000 ∧ s.supply.main = true ∧ 97000 + 3000 ≤ now s := by decide
theorem meets_SupplyEffects_10 : let s := { running with supply := { running.supply with main := false, lostAt := some 99000 } }
    s.supply.main = false ∧ s.supply.lostAt.isSome = true := by decide

/-! ### Hypotheses that can be met: ports -/

/-- Pages 3 (Gallery) and 4 (Seam) of PT0 behind its window. -/
def windowed (conf : Bool) : State :=
  let l := { smallLayout with parts := { smallPart 0 with confidential := conf } :: (smallLayout.parts.drop 1) }
  let s := mapped (mapped served 3 { galleryPte with gFrame := 3 }) 4 { galleryPte with home := .seam, sLpn := 2 }
  { s with dev := { s.dev with layout := some l } }
theorem meets_PortEffects_1 : let s := windowed false
    barOpen s = true ∧ confidential s 0 = false ∧ twStop s 0 (twAddr s 0 0x30008) = none ∧ readRange s 0 (twAddr s 0 0x30008) (sizeBytes .b4) = .ok := by decide +kernel
theorem meets_PortEffects_1_bad : (twStop (windowed false) 0 (twAddr (windowed false) 0 0x50008)).getD (readRange (windowed false) 0 (twAddr (windowed false) 0 0x50008) 4) ≠ .ok ∧
    confidential (windowed true) 0 = true ∧ barOpen (windowed true) = true := by decide +kernel
theorem meets_PortEffects_2 : let s := windowed false
    twStop s 0 (twAddr s 0 0x30008) = none ∧ writeRange s 0 (twAddr s 0 0x30008) 2 false false = .ok ∧ (pteOf s 0 (vpnOf (twAddr s 0 0x30008))).home ≠ .seam ∧
      writeRange s 0 (twAddr s 0 0x40000) 2 false false = .ok ∧ (pteOf s 0 (vpnOf (twAddr s 0 0x40000))).home = .seam ∧
      twAddr s 0 0x40000 % pageBytes = (smGet [] s.mem.tw (pteKey 0 (vpnOf (twAddr s 0 0x40000)))).length := by decide +kernel
theorem meets_PortEffects_1_seam : let s := windowed false
    twStop s 0 (twAddr s 0 0x40008) = none ∧ readRange s 0 (twAddr s 0 0x40008) (sizeBytes .b4) = .ok ∧ (pteOf s 0 (vpnOf (twAddr s 0 0x30008))).home ≠ .seam := by
  decide +kernel
theorem meets_PortEffects_2_mig : let s := mapped (windowed false) 3 { galleryPte with gFrame := 3, mig := true }
    twStop s 0 (twAddr s 0 0x30008) = none ∧ writeRange s 0 (twAddr s 0 0x30008) 2 false false = .ok ∧ (pteOf s 0 (vpnOf (twAddr s 0 0x30008))).mig = true ∧
      (pteOf (windowed false) 0 (vpnOf (twAddr s 0 0x30008))).mig = false := by decide +kernel
theorem meets_PortEffects_2_bad : (twStop (windowed false) 0 (twAddr (windowed false) 0 0x50008)).getD
    (writeRange (windowed false) 0 (twAddr (windowed false) 0 0x50008) 4 false false) ≠ .ok := by decide +kernel
theorem meets_PortEffects_3 : barOpen laidOut = true ∧ powerUnder laidOut ≠ 2 ∧ laidOut.dev.layout ≠ none ∧ ringWritable 0 = true ∧ ringWritable 0x8FFF = true ∧
    ringWritable 0x9000 = false := by decide
theorem meets_PortEffects_4 : (5000 : BitVec 29).toNat % 4096 + [(1 : Byte), 2].length ≤ 4096 ∧ 4096 < (4095 : BitVec 29).toNat % 4096 + [(1 : Byte), 2].length := by decide
def linked (p : Page) (st : Nat) : State := inState running p st
theorem meets_PortEffects_5 : isUnit ⟨.eth, 11⟩ = true ∧ isUnit ⟨.can, 7⟩ = true ∧ barOpen (linked ⟨.eth, 11⟩ portUp) = true ∧ isLooped (linked ⟨.eth, 11⟩ portUp) ⟨.eth, 11⟩ = false ∧
    pgState (linked ⟨.eth, 11⟩ portUp) ⟨.eth, 11⟩ = portUp ∧ pgState (linked ⟨.eth, 11⟩ portDown) ⟨.eth, 11⟩ = portDown ∧
    pgState (linked ⟨.eth, 11⟩ portFault) ⟨.eth, 11⟩ = portFault ∧ pgState (linked ⟨.can, 7⟩ portUp) ⟨.can, 7⟩ = portUp := by decide
theorem meets_PortEffects_5_pages : (⟨.eth, 11⟩ : Page) ∈ allPages ∧ (⟨.can, 7⟩ : Page) ∈ allPages ∧ 8 ≤ (⟨.eth, 11⟩ : Page).inst ∧
    (lidarSt running 1).tick = none := by decide +kernel
theorem meets_PortEffects_6 : pgState (linked ⟨.can, 7⟩ portFault) ⟨.can, 7⟩ = portFault := by decide
theorem meets_PortEffects_7 : running.supply.main = true ∧ running.sec.boot.held = false ∧ powerUnder running ≠ 3 := by decide

/-! ### Hypotheses that can be met: counters, loopbacks and the TAP -/

/-- Dumps into two slots from page 7 of PT0 on, every 1,000 ticks. -/
def dumping (st : Nat) (run : Option DumpRun) (host : Bool) : State :=
  let s := withRegs (mapped (mapped served 7 galleryPte) 8 { galleryPte with gFrame := 4 }) [(dumpPage, 0x00C, BitVec.ofNat 32 (16 * st)),
    (dumpPage, 0x100, if host then 0x103 else 0x101), (dumpPage, 0x108, 99000), (dumpPage, 0x10C, 1000), (dumpPage, 0x110, 7)]
  { s with cnt := { s.cnt with run := run, next := 100000 } }
theorem meets_CounterEffects_1 : pgState (dumping cdArmed none false) dumpPage = cdArmed ∧
    reached (nowW (dumping cdArmed none false)) (regVal (dumping cdArmed none false) dumpPage 0x108) = true ∧ pgState (dumping cdRun none false) dumpPage = cdRun ∧
    reachedAt (dumping cdRun none false) (dumping cdRun none false).cnt.next = true ∧ crMode (dumping cdRun none false) = false ∧
    (dumping cdRun (some ⟨99999, false, none⟩) false).cnt.run ≠ none := by decide
theorem meets_CounterEffects_2 : Accepted (dumping cdOff none false) (.host 0) dumpPage 0x11C 1 ∧
    Accepted (withRegs running [(dumpPage, 0x120, 0x00010000#32)]) (.host 0) dumpPage 0x11C 2 := by unfold Accepted; decide +kernel
theorem meets_CounterEffects_4 : let s := dumping cdRun (some ⟨99999, false, some []⟩) false
    s.cnt.run = some ⟨99999, false, some []⟩ ∧ cdHost s = false ∧
      writeRange s 0 ((regField s dumpPage 0x110 27 0 + s.cnt.seq % cdSlots s) * pageBytes) pageBytes false false = .ok ∧
      cdHost (dumping cdRun (some ⟨99999, false, some []⟩) true) = true := by decide +kernel
theorem meets_CounterEffects_5 : let s := { booting with supply := booting.supply }
    crMode (atNow s 1000) = true ∧ (atNow s 1000).sec.boot.held = false ∧ (atNow s 1000).cnt.swept + 1000 ≤ now (atNow s 1000) ∧ powerUnder (atNow s 1000) ≠ 3 := by decide
theorem meets_CounterEffects_5_snap : let s := { atNow booting 1000 with cnt := { CntSt.reset with snap := some 5 } }
    s.cnt.snap ≠ none ∧ s.cnt.run = none := by decide
theorem meets_CounterEffects_6 : Accepted running (.host 0) (partPage 0) 0x880 0x00010000 := by unfold Accepted; decide +kernel
def counter0 : Page × Nat := (counterAt 0).getD (devPage, 0)
/-- Unit 2 of PT1 armed on counter 0, that has counted past its threshold. -/
def thresholded : State :=
  let s := withRegs running [(partPage 1, 0x840, 0x80000000#32), (partPage 1, 0x844, 5)]
  ctrAdd s counter0.1 counter0.2 9
theorem meets_CounterEffects_7 : ∃ p slot, counterAt (field (ctSel thresholded 1 2) 11 0) = some (p, slot) ∧ bit (ctSel thresholded 1 2) 31 = true ∧
    smGet 0 thresholded.cnt.armAt (ctKey 1 2) < now thresholded ∧ countReached (ctrVal thresholded p slot).toNat (ctThreshold thresholded 1 2) = true :=
  ⟨counter0.1, counter0.2, by decide +kernel⟩
theorem meets_CounterEffects_8 : let s := { running with cnt := { running.cnt with hits := [(ctKey 1 2, 99998, 0, 0)] } }
    smFind s.cnt.hits (ctKey 1 2) = some (99998, 0, 0) ∧ (counterAt 0).isSome = true ∧ 99998 + 2 ≤ now s := by decide +kernel

/-- Ethernet unit 1 selected at depth L0. -/
def looping (active : Bool) : State :=
  let s := withRegs running [(testPage, 0x100, BitVec.ofNat 32 (clsCode .eth * 2 ^ 24 + 2 ^ 16)), (testPage, 0x108, 64)]
  if active then { s with loop := some ⟨⟨.eth, 1⟩, 0, 99000, none⟩ } else s
theorem meets_TestEffects_1 : Accepted (looping false) (.host 0) testPage 0x104 0x00050001 := by unfold Accepted; decide
theorem meets_TestEffects_2 : Accepted (looping true) (.host 0) testPage 0x104 0x00050000 ∧ (looping true).loop = some ⟨⟨.eth, 1⟩, 0, 99000, none⟩ := by
  unfold Accepted; decide
theorem meets_TestEffects_3 : (looping true).loop = some ⟨⟨.eth, 1⟩, 0, 99000, none⟩ ∧ 99000 ≤ now (looping true) := by decide
def tapped : State := setSec running 0 (debuggable dbgD3)
theorem meets_TestEffects_4 : wholeDevice tapped = true ∧ wholeDevice running = false := by decide
theorem meets_TestEffects_5 : pageOk devPage = true ∧ reaches tapped (.jtag 0) = true ∧ rightOf tapped (.jtag 0) devPage 0x014 ≠ .none ∧ isLatched devPage 0x014 = false ∧
    judge tapped (.jtag 0) devPage 0x014 0 false = none ∧ judge tapped (.jtag 0) devPage 0x014 0xFFFFFFFF false = some .reservedSet ∧
    rightOf running (.jtag 0) ⟨.m, 0⟩ 0x100 = .none ∧ foreignStream tapped (.jtag 0) devPage 0x014 = false := by decide +kernel
/-- A stream of PT1 read by the debugger of PT0. -/
theorem meets_TestEffects_6 : let s := setSec (streaming { stream0 with part := 1 }) 0 (debuggable dbgD3)
    reaches s (.jtag 0) = true ∧ rightOf s (.jtag 0) ⟨.hoist, 0⟩ 0x400 ≠ .none ∧ isLatched ⟨.hoist, 0⟩ 0x400 = false ∧
      foreignStream s (.jtag 0) ⟨.hoist, 0⟩ 0x400 = true := by decide +kernel

/-! ### What the spec's worked examples say -/

/-- The GEMM of the projection example of chapter 04 (R139): M = 1,024, N = 512, K = 4,096, MXFP8 by MXFP4; and with M = 16 and M = 1. -/
def projection (m : Nat) : MDesc := mDesc (cmd 1 0 [fmts 2 6 8, 512 * 65536 + m, 4096, 1])
theorem test_gemm_time : mInClocks (projection 1024) = 5312 ∧ mArrayClocks (projection 1024) = 8256 ∧ mOutClocks (projection 1024) = 1024 ∧
    mClocks (projection 1024) = 9376 := by decide +kernel
theorem test_gemm_time_small : mClocks (projection 16) = 2274 ∧ mClocks (projection 1) = 2213 := by decide +kernel
/-- The Winograd stripe of the example of chapter 04 (R141), and its direct convolution. -/
theorem test_wino3_time : let m := mDesc (cmd 3 0x8060 [fmts 0 2 0, 0x001E0032, 0x01000100, 0x500000])
    tilesH m * tilesW m = 104 ∧ mInClocks m = 2776 ∧ mArrayClocks m = 1256 ∧ mOutClocks m = 375 ∧ mClocks m = 3416 := by decide +kernel
theorem test_conv_time : let m := mDesc (cmd 2 0x60 [fmts 0 2 0, 0x001E0032, 0x01000100, 0x500033])
    mInClocks m = 994 ∧ mArrayClocks m = 7564 ∧ mClocks m = 8684 := by decide +kernel
/-- The LayerNorm of the example of chapter 05 (R203), with CT FP32 and with CT BF16. -/
theorem test_norm_time : vClocks (vDesc (cmd 4 0 [fmts 8 0 8, 0x04001000])) = 98448 ∧ vClocks (vDesc (cmd 4 1 [fmts 8 0 8, 0x04001000])) = 49296 := by
  decide +kernel
/-- The slots of lane 3 in the example of chapter 07 (R265, R266): D = 128 in FP8. -/
theorem test_pool_slots : let c : PoolCfg := ⟨true, 0, 64, 128, false, 0, 16, 1, 1⟩
    slotBytes c = 16384 ∧ slotsPerPage c = 4 ∧ (lanePages c 3).take 3 = [3, 11, 19] ∧ pageSlots c 3 = [12, 13, 14, 15] ∧ pageSlots c 11 = [44, 45, 46, 47] := by
  decide
/-- The step of channel 5 in the example of chapter 10 (R399 to R401, R407). -/
theorem test_foxglove_step : let c : FxCfg := ⟨0, 16384, 0, -1966080, 1966080, -2097152, 2097152, true, 500, 0, true, 64512, 8192, 2147483647, -524288, 1048576⟩
    fxStep c (fun i => if i = 160 then 98304 else 114688) 163840 30208 1949696 0 32768 =
      ⟨2097152, 1949696, 133632, 48960, true, true, false, false⟩ := by decide
theorem test_foxglove_gain : lutGain (fun i => if i = 160 then 98304 else 114688) 133632 (-524288) 1048576 = ⟨108544, false⟩ := by decide
theorem test_foxglove_field : fieldBytes 0x08004802 2097152 = ([0x20, 0x00], false) := by decide
/-- The rejections of the TICK page in the example of chapter 03 (R104, R93), one by one, each from the PG_REJECT that the last one left. -/
def lockedTick (rej : Word) : State := withRegs running [(tickPage, 0x00C, BitVec.ofNat 32 (16 * tbLocked)), (tickPage, 0x01C, rej)]
def ticked (r : Req) (off : Nat) (v : DWord) (rej : Word) : Option (Status × Word × DWord) :=
  match exec (.registerWrite r (BitVec.ofNat 26 (regKey tickPage off)) .b4 v) (lockedTick rej) with
  | .next t => some (t.reply.status, regVal t tickPage 0x01C, ctrVal t tickPage 0)
  | _ => none
theorem test_reject_owner : ticked (.host 3) 0x140 5 0 = some (.ownerDenied, 0x01020140#32, 1) := by decide +kernel
theorem test_reject_range : ticked (.host 0) 0x130 2 0x01020140 = some (.range, 0x02030130#32, 1) := by decide +kernel
theorem test_reject_state : ticked (.host 0) 0x130 1 0x02030130 = some (.stateIllegal, 0x03010130#32, 1) := by decide +kernel
theorem test_reject_reserved : ticked (.host 0) 0x130 5 0x03010130 = some (.reservedSet, 0x04040130#32, 1) := by decide +kernel
theorem test_clearing_read : (match exec (.clearingRead (.host 0) (BitVec.ofNat 26 (regKey tickPage 0x01C)) .b4) (lockedTick 0x04040130) with
    | .next t => some (t.reply, regVal t tickPage 0x01C)
    | _ => none) = some (⟨.ok, 0x04040130⟩, 0#32) := by decide +kernel
/-- The first lock of the follower in the example of chapter 02 (R64, R65, R68). -/
theorem test_first_lock : let s := applyTimeStep (withRegs (atNow booting 561005) [(tickPage, 0x00C, 0x10)]) 1712000039999561213 true
    boundaryNs s 561005 = 1712000040560566213#64 ∧ boundaryNs s 561006 = 1712000040560567213#64 ∧ s.time.stepDone = true := by decide
/-- The dip of the example of chapter 16 (R641, R537): Brown-out from the undervoltage on, its end 100 ticks after the input is back. -/
theorem test_undervoltage : (match exec .undervoltage (atNow running 9000020) with
    | .next t => some (t.supply.sources, t.dev.power, t.atTick, regBit t (partPage 0) 0x7D0 1)
    | _ => none) = some ([2], 4#4, [.duty 8], true) := by decide
theorem test_dip_ends : let s := { atNow running 9004100 with
      dev := { running.dev with power := 4 }, supply := { running.supply with sources := [2], brownAt := some 9000020 } }
    (match exec (.brownOutExit true) s with
    | .next t => some (t.supply.sources, t.dev.power)
    | _ => none) = some ([], 0#4) := by decide
/-- Counter numbers of the example of chapter 17 (R654). -/
theorem test_counter_numbers : counterAt 0 = some (devPage, 0) ∧ counterAt 3 = some (tickPage, 0) ∧ counterAt 4 = some (ptpPage, 0) ∧
    counterAt 5 = some (⟨.m, 0⟩, 0) ∧ counterAt 71 = some (⟨.m, 5⟩, 1) := by decide +kernel
/-- A Tally counts modulo 2^32 (R162), and a level above 1 is accepted as 1 (R101). -/
theorem test_tally_wraps : (match exec (.tlAdd (.host 0) 0 7 2 false) { inState laidOut ⟨.tally, 0⟩ 1 with tally := [(7, 0xFFFFFFFF#32)] } with
    | .next t => tallyVal t 7
    | _ => 0) = 1#32 := by decide
theorem test_level : (match exec (.devLevelWrite (.host 0) 9) booting with
    | .next t => some (t.reply.status, regVal t devPage 0x108)
    | _ => none) = some (.ok, 0x109#32) := by decide
/-- The cipher and the hash of R484 and R474 on the vectors of FIPS 197 (C.3) and FIPS 180-4 ("abc"). -/
theorem test_aes256 : aesBlock (aesKeys ((List.range 32).map (BitVec.ofNat 8))) ((List.range 16).map fun i => BitVec.ofNat 8 (17 * i)) =
    [0x8E, 0xA2, 0xB7, 0xCA, 0x51, 0x67, 0x45, 0xBF, 0xEA, 0xFC, 0x49, 0x90, 0x4B, 0x49, 0x60, 0x89] := by decide +kernel
theorem test_sha384 : (sha384 [0x61, 0x62, 0x63]).take 8 = [0xCB, 0x00, 0x75, 0x3F, 0x45, 0xA3, 0x5E, 0x8B] := by decide +kernel

end Sys2Proof.Tests
end

section
/-! PROOFS. What an accepted write leaves of a flag that a 1 clears, and the hardware set that beats the clear (R9, R11). -/

namespace Sys2Proof

/-! ### A bit of a word built from others -/

theorem bit_and (a b : Word) (n : Nat) : bit (a &&& b) n = (bit a n && bit b n) := BitVec.getLsbD_and

theorem bit_or (a b : Word) (n : Nat) : bit (a ||| b) n = (bit a n || bit b n) := BitVec.getLsbD_or

theorem bit_not (a : Word) {n : Nat} (h : n < 32) : bit (~~~a) n = !bit a n := by
  simp [bit, h]

theorem bit_bitMask_same {n : Nat} (h : n < 32) : bit (bitMask n) n = true := by
  simp [bit_bitMask, h]

end Sys2Proof

namespace Sys2Proof.Machine

/-! ### Flags that hardware sets -/

/-- The flags of a register are those of its row. -/
theorem w1cOf_eq {p : Page} {off : Nat} {row : RegRow} (hr : regRow p off = some row) : w1cOf p off = row.w1c := by
  rw [w1cOf, hr]

/-- Bits set in a register are noted for the tick where they are flags (R11). -/
theorem hwSet_orReg_same (s : State) (p : Page) (off : Nat) (v : Word) :
    smGet 0 (orReg s p off v).hwSet (regKey p off) = smGet 0 s.hwSet (regKey p off) ||| (v &&& w1cOf p off) := by
  simp [orReg, markSet]

/-- A flag written with 1 keeps its old value where hardware set it in this tick, and is cleared otherwise (R9, R11). -/
theorem bit_storedBits_flag (s : State) {p : Page} {off n : Nat} {row : RegRow} {v : Word} (hn : n < 32)
    (hw : bit row.w1c n = true) (hm : bit (row.rw ||| row.rwl) n = false) (hv : bit v n = true) :
    bit (storedBits s p off row v) n = (bit (regVal s p off) n && bit (smGet 0 s.hwSet (regKey p off)) n) := by
  simp only [storedBits]
  generalize row.rw ||| row.rwl = m at hm
  simp [bit_and, bit_or, bit_not _ hn, hw, hm, hv]

/-- Settles O23: `orReg` sets the flag and notes it for the tick, so the clear of `bit_storedBits_flag` spares it. -/
theorem hardwareSetBeatsClear : Obligations.HardwareSetBeatsClear := by
  intro s p off n row v hn hr hw hm hv
  constructor
  · have hset : bit (regVal (orReg s p off (bitMask n)) p off) n = true := by
      simp [regVal_orReg_same, bit_or, bit_bitMask_same hn]
    have hkept : bit (smGet 0 (orReg s p off (bitMask n)).hwSet (regKey p off)) n = true := by
      rw [hwSet_orReg_same, w1cOf_eq hr]
      simp [bit_or, bit_and, bit_bitMask_same hn, hw]
    rw [bit_storedBits_flag _ hn hw hm hv, hset, hkept, Bool.and_true]
  · intro hfree
    rw [bit_storedBits_flag s hn hw hm hv, hfree, Bool.and_false]

end Sys2Proof.Machine
end

section
/-! PROOFS. The invariant of the machine (R36): every operation of the model keeps the queue and the invariant. One lemma for each operation,
in the order of the model, each from the lemmas of the operations that it calls; the last is that of `exec`. -/

namespace Sys2Proof.Machine

/-! What a state `s`, reached from `r`, keeps: the queue of `r`, and the invariant if `r` meets it. `Kept` has a part for each field that
the invariant or the queue speaks of, so that an update of a state record splits into its parts by one lemma (`kept_mk`), and each store's
own update lemma closes its part. -/

def QueueKept (r : State) (q : List Instr) : Prop := q = r.pending
def DutyKept (r : State) (d : Nat) : Prop := Inv r → dutyIn d = true
def ActsKept (r : State) (l : List BAct) : Prop := Inv r → l.all actIn = true
def RegsKept (r : State) (m : SMap Word) : Prop := Inv r → smRising m = true
def CtrsKept (r : State) (m : SMap DWord) : Prop := Inv r → smWf 0 m = true
def TallyKept (r : State) (m : SMap Word) : Prop := Inv r → smWf 0 m = true
def CellsKept (r : State) (m : List Host.Cell) : Prop := Inv r → Memory.wf m = true
def TagsKept (r : State) (m : SMap TagRec) : Prop := Inv r → smRising m = true
def PairKept {α : Type} (r : State) (xs : List α) : Prop := Inv r → xs.length = 2

/-- What every operation of the model keeps. -/
structure Kept (r s : State) : Prop where
  queue : QueueKept r s.pending
  duty : DutyKept r s.gov.duty
  acts : ActsKept r s.atTick
  regs : RegsKept r s.regs
  ctrs : CtrsKept r s.ctrs
  tally : TallyKept r s.tally
  cells : CellsKept r s.mem.cells
  tags : TagsKept r s.mem.tags
  free : PairKept r s.mem.keeperFree
  spare : PairKept r s.mem.keeperSpare
  gc : PairKept r s.mem.keeperGc

variable {r s : State}

theorem Kept.inv (h : Kept r s) (hr : Inv r) : Inv s :=
  ⟨h.duty hr, h.acts hr, h.regs hr, h.ctrs hr, h.tally hr, h.cells hr, h.tags hr, h.free hr, h.spare hr, h.gc hr⟩

theorem kept_of_inv (hq : s.pending = r.pending) (hi : Inv r → Inv s) : Kept r s := by
  simp only [Inv, imp_and] at hi
  obtain ⟨hduty, hacts, hregs, hctrs, htally, hcells, htags, hfree, hspare, hgc⟩ := hi
  exact ⟨hq, hduty, hacts, hregs, hctrs, htally, hcells, htags, hfree, hspare, hgc⟩

theorem kept_refl (s : State) : Kept s s := kept_of_inv rfl id

/-- A state record written out keeps what its fields keep: `simp` proves an operation by this lemma. -/
@[simp] theorem kept_mk (pending : List Instr) (reply : Reply) (irqs : List Irq) (regs : SMap Word) (ctrs : SMap DWord) (latch hwSet : SMap Word)
    (rcTick : SMap (Word × Word)) (atTick : List BAct) (dev : DevSt) (time : TimeSt) (gov : GovSt) (tally : SMap Word) (watchDue : List Nat)
    (keys : SMap KeySt) (mem : MemSt) (kv : KvSt) (sens : SensSt) (tracks : TrackSt) (seq : SeqSt) (fx : FxSt) (sec : SecSt) (cores : SMap CoreSt)
    (face : SMap Byte) (jobs : SMap Job) (jobSeq : Nat) (ring : SMap Byte) (scanAt : SMap Nat) (fb : FbSt) (vl : VlSt) (supply : SupplySt)
    (loop : Option LoopSt) (tap : TapSt) (cnt : CntSt) (prodAt : SMap Nat) (roster : RosterSt) (free : Nat) :
    Kept r ⟨pending, reply, irqs, regs, ctrs, latch, hwSet, rcTick, atTick, dev, time, gov, tally, watchDue, keys, mem, kv, sens, tracks, seq, fx,
      sec, cores, face, jobs, jobSeq, ring, scanAt, fb, vl, supply, loop, tap, cnt, prodAt, roster, free⟩ ↔
      QueueKept r pending ∧ DutyKept r gov.duty ∧ ActsKept r atTick ∧ RegsKept r regs ∧ CtrsKept r ctrs ∧ TallyKept r tally ∧
        CellsKept r mem.cells ∧ TagsKept r mem.tags ∧ PairKept r mem.keeperFree ∧ PairKept r mem.keeperSpare ∧ PairKept r mem.keeperGc :=
  ⟨fun h => ⟨h.queue, h.duty, h.acts, h.regs, h.ctrs, h.tally, h.cells, h.tags, h.free, h.spare, h.gc⟩,
    fun ⟨hq, hd, ha, hr, hc, ht, hm, hg, hf, hs, hk⟩ => ⟨hq, hd, ha, hr, hc, ht, hm, hg, hf, hs, hk⟩⟩

/-! `simp` knows the parts of a state that is kept. -/

@[simp] theorem queueKept (h : Kept r s) : QueueKept r s.pending := h.queue
@[simp] theorem dutyKept (h : Kept r s) : DutyKept r s.gov.duty := h.duty
@[simp] theorem actsKept (h : Kept r s) : ActsKept r s.atTick := h.acts
@[simp] theorem regsKept (h : Kept r s) : RegsKept r s.regs := h.regs
@[simp] theorem ctrsKept (h : Kept r s) : CtrsKept r s.ctrs := h.ctrs
@[simp] theorem tallyKept (h : Kept r s) : TallyKept r s.tally := h.tally
@[simp] theorem cellsKept (h : Kept r s) : CellsKept r s.mem.cells := h.cells
@[simp] theorem tagsKept (h : Kept r s) : TagsKept r s.mem.tags := h.tags
@[simp] theorem freeKept (h : Kept r s) : PairKept r s.mem.keeperFree := h.free
@[simp] theorem spareKept (h : Kept r s) : PairKept r s.mem.keeperSpare := h.spare
@[simp] theorem gcKept (h : Kept r s) : PairKept r s.mem.keeperGc := h.gc

/-! ### What the stores' own updates keep -/

@[simp] theorem regsKept_smSet {d : Word} {m : SMap Word} {i : Nat} {x : Word} (h : RegsKept r m) : RegsKept r (smSet d m i x) :=
  fun hi => smRising_smSet _ _ _ _ (h hi)

@[simp] theorem regsKept_filter {m : SMap Word} {f : Nat × Word → Bool} (h : RegsKept r m) : RegsKept r (m.filter f) :=
  fun hi => smRising_filter _ _ (h hi)

@[simp] theorem ctrsKept_smSet {m : SMap DWord} {i : Nat} {x : DWord} (h : CtrsKept r m) : CtrsKept r (smSet 0#64 m i x) :=
  fun hi => smWf_smSet _ _ _ _ (h hi)

@[simp] theorem tallyKept_smSet {m : SMap Word} {i : Nat} {x : Word} (h : TallyKept r m) : TallyKept r (smSet 0#32 m i x) :=
  fun hi => smWf_smSet _ _ _ _ (h hi)

@[simp] theorem tallyKept_smClear {m : SMap Word} {lo hi : Nat} (h : TallyKept r m) : TallyKept r (smClear m lo hi) :=
  fun hi => smWf_smClear _ _ _ _ (h hi)

@[simp] theorem tagsKept_smPut {m : SMap TagRec} {i : Nat} {x : TagRec} (h : TagsKept r m) : TagsKept r (smPut m i x) :=
  fun hi => smRising_smPut _ _ _ (h hi)

@[simp] theorem tagsKept_smDel {m : SMap TagRec} {i : Nat} (h : TagsKept r m) : TagsKept r (smDel m i) :=
  fun hi => smRising_smDel _ _ (h hi)

@[simp] theorem tagsKept_filter {m : SMap TagRec} {f : Nat × TagRec → Bool} (h : TagsKept r m) : TagsKept r (m.filter f) :=
  fun hi => smRising_filter _ _ (h hi)

@[simp] theorem pairKept_setAt {α : Type} {xs : List α} {i : Nat} {x : α} (h : PairKept r xs) : PairKept r (setAt xs i x) :=
  fun hi => List.length_set.trans (h hi)

/-- An action appended for the next boundary sets a duty within the bounds, or sets none. -/
@[simp] theorem actsKept_concat {l : List BAct} {a : BAct} (h : ActsKept r l) (ha : ∀ d, a = .duty d → DutyKept r d) : ActsKept r (l ++ [a]) := by
  intro hi
  have hin : actIn a = true := by
    cases a with
    | duty d => exact ha d rfl hi
    | _ => rfl
  simpa [hin] using h hi

@[simp] theorem actsKept_filter {l : List BAct} {f : BAct → Bool} (h : ActsKept r l) : ActsKept r (l.filter f) :=
  fun hi => List.all_eq_true.2 fun a ha => List.all_eq_true.1 (h hi) a (List.mem_of_mem_filter ha)

/-! ### Choices, folds and outcomes -/

@[simp] theorem ite_kept {c : Prop} [Decidable c] {a b : State} : Kept r (if c then a else b) ↔ (c → Kept r a) ∧ (¬ c → Kept r b) := by
  split <;> simp [*]

@[simp] theorem foldl_kept {α : Type} {f : State → α → State} (hf : ∀ t x, Kept r t → Kept r (f t x)) : ∀ {xs : List α} {s : State}, Kept r s →
    Kept r (xs.foldl f s)
  | [], _, h => h
  | x :: xs, _, h => foldl_kept hf (xs := xs) (hf _ x h)

/-- What an outcome keeps. -/
def ResKept (r : State) (x : Res) : Prop := ∀ t, x = .next t → Kept r t

@[simp] theorem resKept_next : ResKept r (.next s) ↔ Kept r s := ⟨fun h => h s rfl, fun h t e => by cases e; exact h⟩
@[simp] theorem resKept_fault (f : Fault) : ResKept r (.fault f) := fun _ e => by cases e
@[simp] theorem resKept_refused (f : Refusal) : ResKept r (.refused f) := fun _ e => by cases e

@[simp] theorem ite_resKept {c : Prop} [Decidable c] {a b : Res} : ResKept r (if c then a else b) ↔ (c → ResKept r a) ∧ (¬ c → ResKept r b) := by
  split <;> simp [*]

@[simp] theorem dutyKept_of_in {d : Nat} (h : dutyIn d = true) : DutyKept r d := fun _ => h

@[simp] theorem cellsKept_nil : CellsKept r [] := fun _ => rfl
@[simp] theorem tagsKept_nil : TagsKept r [] := fun _ => rfl
@[simp] theorem actsKept_nil : ActsKept r [] := fun _ => rfl
@[simp] theorem ctrsKept_nil : CtrsKept r [] := fun _ => rfl
@[simp] theorem tallyKept_nil : TallyKept r [] := fun _ => rfl

@[simp] theorem cellsKept_cellSet {m : List Host.Cell} {a : Nat} {b : Byte} (h : CellsKept r m) : CellsKept r (cellSet m a b) :=
  fun hi => cellSet_wf _ _ _ (h hi)

@[simp] theorem cellsKept_smClear {m : List Host.Cell} {lo hi : Nat} (h : CellsKept r m) : CellsKept r (smClear m lo hi) :=
  fun hr => smClear_cells_wf _ _ _ (h hr)

@[simp] theorem cellsKept_filter {m : List Host.Cell} {f : Host.Cell → Bool} (h : CellsKept r m) : CellsKept r (m.filter f) :=
  fun hr => filter_cells_wf _ _ (h hr)

theorem tagsKept_map {m : SMap TagRec} {f : Nat × TagRec → Nat × TagRec} (hf : ∀ x, (f x).1 = x.1) (h : TagsKept r m) : TagsKept r (m.map f) := by
  intro hr
  have hk : (m.map f).map Prod.fst = m.map Prod.fst := by simp [hf, Function.comp_def]
  simpa [smRising, hk] using h hr

@[simp] theorem dutyKept_least : DutyKept r 8 := fun _ => rfl
@[simp] theorem dutyKept_full : DutyKept r 16 := fun _ => rfl

/-! ### The operations of the model

In a lemma below the operation's other arguments are bound automatically. A chain of operations needs `maxDischargeDepth`: the hypothesis of
each operation's lemma is the statement of the one before. -/

set_option autoImplicit true

/-! ### Kept: register operations -/

@[simp] theorem kept_setReg (h : Kept r s) : Kept r (setReg s p o v) := by simp [setReg, h]
@[simp] theorem kept_rcEvent (h : Kept r s) : Kept r (rcEvent s p o f2) := by simp [rcEvent, h]
@[simp] theorem kept_rcPut (h : Kept r s) : Kept r (rcPut s p o v) := by simp [rcPut, h]
@[simp] theorem kept_markSet (h : Kept r s) : Kept r (markSet s p o v) := by simp [markSet, h]
@[simp] theorem kept_orReg (h : Kept r s) : Kept r (orReg s p o v) := by simp [orReg, h]
@[simp] theorem kept_clearReg (h : Kept r s) : Kept r (clearReg s p o v) := by simp [clearReg, h]
@[simp] theorem kept_setRegField (h : Kept r s) : Kept r (setRegField s p o hi lo v) := by simp [setRegField, h]
@[simp] theorem kept_setPgState (h : Kept r s) : Kept r (setPgState s p st) := by simp [setPgState, h]
@[simp] theorem kept_setBusy (h : Kept r s) : Kept r (setBusy s p b) := by simp [setBusy, h]
@[simp] theorem kept_irq (h : Kept r s) : Kept r (irq s p v c) := by simp [irq, h]
@[simp] theorem kept_setFlag (h : Kept r s) : Kept r (setFlag s p n) := by simp [setFlag, h]
@[simp] theorem kept_ctrAdd (h : Kept r s) : Kept r (ctrAdd s p s2 n) := by simp [ctrAdd, h]
@[simp] theorem kept_recordReject (h : Kept r s) : Kept r (recordReject s p r2 o) := by simp [recordReject, h]

@[simp] theorem kept_atBoundary (h : Kept r s) (ha : ∀ d, a = .duty d → DutyKept r d) : Kept r (atBoundary s a) := by
  simpa [atBoundary, h] using actsKept_concat (actsKept h) ha

@[simp] theorem kept_answer (h : Kept r s) : Kept r (answer s st d) := by simp [answer, h]
@[simp] theorem kept_takeFree (h : Kept r s) : Kept r (takeFree s).2 := by simp [takeFree, h]
@[simp] theorem kept_spendFree (h : Kept r s) : Kept r (spendFree s n) := by simp [spendFree, h]
@[simp] theorem kept_tallyAdd (h : Kept r s) : Kept r (tallyAdd s i n) := by simp (maxDischargeDepth := 20) [tallyAdd, h]
@[simp] theorem kept_tallyClear (h : Kept r s) : Kept r (tallyClear s f2 c) := by simp (maxDischargeDepth := 20) [tallyClear, h]

/-! ### Kept: the Seam keepers -/

@[simp] theorem kept_setWear (h : Kept r s) : Kept r (setWear s k b w) := by simp [setWear, h]
@[simp] theorem kept_setFreeBlocks (h : Kept r s) : Kept r (setFreeBlocks s k n) := by simp [setFreeBlocks, h]
@[simp] theorem kept_setSpareBlocks (h : Kept r s) : Kept r (setSpareBlocks s k n) := by simp [setSpareBlocks, h]
@[simp] theorem kept_setOpen (h : Kept r s) : Kept r (setOpen s ch b) := by simp [setOpen, h]

@[simp] theorem kept_programUnit (h : Kept r s) : Kept r (programUnit s ch).2 := by
  unfold programUnit
  dsimp only
  (repeat' split) <;> simp (maxDischargeDepth := 20) [h]

@[simp] theorem kept_setUnits (h : Kept r s) : Kept r (setUnits s k bs) := by simp [setUnits, h]

@[simp] theorem kept_programPage (h : Kept r s) : Kept r (programPage s p l) := by
  have hx : Kept r ((fourChannels s (l % 2)).foldl (fun (acc : List Nat × State) c => (acc.1 ++ [(programUnit acc.2 c).1], (programUnit acc.2 c).2))
      ([], spendFree s 1)).2 :=
    List.foldlRecOn (motive := fun acc : List Nat × State => Kept r acc.2) _ _ (kept_spendFree h) fun _ hacc _ _ => kept_programUnit hacc
  exact kept_ctrAdd (kept_setUnits hx)

@[simp] theorem kept_countRead (h : Kept r s) : Kept r (countRead s k b b2 s2) := by simp (maxDischargeDepth := 20) [countRead, h]

@[simp] theorem kept_readUnit (h : Kept r s) : Kept r (readUnit s p l o b s2) := by
  unfold readUnit
  split <;> simp [h]

@[simp] theorem kept_setBlocksReloc (h : Kept r s) : Kept r (setBlocksReloc s k n) := by simp [setBlocksReloc, h]
@[simp] theorem kept_awaitReloc (h : Kept r s) : Kept r (awaitReloc s k b r2) := by simp [awaitReloc, h]
@[simp] theorem kept_retireBlock (h : Kept r s) : Kept r (retireBlock s k) := by simp (maxDischargeDepth := 20) [retireBlock, h]
@[simp] theorem kept_eraseBlock (h : Kept r s) : Kept r (eraseBlock s k b ok) := by simp (maxDischargeDepth := 20) [eraseBlock, h]

@[simp] theorem kept_programFailed (h : Kept r s) : Kept r (programFailed s ch) := by
  unfold programFailed
  dsimp only
  (repeat' split) <;> simp (maxDischargeDepth := 20) [h]

@[simp] theorem kept_moveUnits (h : Kept r s) : Kept r (moveUnits s k b) := by simp (maxDischargeDepth := 20) +contextual [moveUnits, h]
@[simp] theorem kept_settleErase (h : Kept r s) : Kept r (settleErase s) := by simp +contextual [settleErase, h]
@[simp] theorem kept_emptyBlock (h : Kept r s) : Kept r (emptyBlock s k b ok) := by simp (maxDischargeDepth := 20) [emptyBlock, h]
@[simp] theorem kept_relocEnd (h : Kept r s) : Kept r (relocEnd s k b ok) := by simp (maxDischargeDepth := 20) [relocEnd, h]

@[simp] theorem kept_collectOne (h : Kept r s) : Kept r (collectOne s k) := by
  unfold collectOne
  dsimp only
  (repeat' split) <;> simp (maxDischargeDepth := 20) [h]

@[simp] theorem kept_gcEnd (h : Kept r s) : Kept r (gcEnd s k n) := by simp +contextual [gcEnd, h]

/-! ### Kept: the memory tiers -/

@[simp] theorem kept_setPte (h : Kept r s) : Kept r (setPte s p v e) := by simp [setPte, h]
@[simp] theorem kept_setKeys (h : Kept r s) : Kept r (setKeys s n k) := by simp [setKeys, h]

@[simp] theorem kept_freeFrame (h : Kept r s) : Kept r (freeFrame s q f2) := by
  unfold freeFrame
  dsimp only
  (repeat' split) <;> simp [h]

@[simp] theorem kept_settleFreeing (h : Kept r s) : Kept r (settleFreeing s) := by simp +contextual [settleFreeing, h]
@[simp] theorem kept_readLoose (h : Kept r s) : Kept r (readLoose s p v q) := by simp [readLoose, h]

@[simp] theorem kept_pageWritten (h : Kept r s) : Kept r (pageWritten s p v) := by
  unfold pageWritten
  dsimp only
  (repeat' split) <;> simp [h]

@[simp] theorem kept_writeByte (h : Kept r s) : Kept r (writeByte s p a b) := by
  unfold writeByte; dsimp only; split <;> simp [tagBlock512, h]

@[simp] theorem kept_writeList (h : Kept r s) : Kept r (writeList s p a bs) := by
  induction bs generalizing s a with
  | nil => exact h
  | cons b bs ih => exact ih (kept_writeByte h)

@[simp] theorem kept_setCode (h : Kept r s) : Kept r (setCode s p a c) := by simp [setCode, h]
@[simp] theorem kept_clearCodes (h : Kept r s) : Kept r (clearCodes s p e) := by simp [clearCodes, h]
@[simp] theorem kept_writePage (h : Kept r s) : Kept r (writePage s p a bs) := by simp (maxDischargeDepth := 20) +contextual [writePage, h]
@[simp] theorem kept_writeBytes (h : Kept r s) : Kept r (writeBytes s p a bs) := by simp +contextual [writeBytes, h]
@[simp] theorem kept_spendBytes (h : Kept r s) : Kept r (spendBytes s n) := by simp [spendBytes, h]
@[simp] theorem kept_takeGallery (h : Kept r s) : Kept r (takeGallery s f2) := by simp [takeGallery, h]
@[simp] theorem kept_takeDrift (h : Kept r s) : Kept r (takeDrift s n f2 g) := by simp [takeDrift, h]
@[simp] theorem kept_takeCode (h : Kept r s) : Kept r (takeCode s n i) := by simp [takeCode, h]
@[simp] theorem kept_dropCode (h : Kept r s) : Kept r (dropCode s n e) := by simp [dropCode, h]

theorem keepers_foldl_tagBlock512 (f : Nat → Nat) (xs : List Nat) (m : MemSt) :
    ∃ g sa, xs.foldl (fun g i => tagBlock512 s n g (f i)) m = { m with gens := g, salts := sa } := by
  induction xs generalizing m with
  | nil => exact ⟨_, _, rfl⟩
  | cons x xs ih => exact ih (tagBlock512 s n m (f x))

@[simp] theorem kept_zeroPage (h : Kept r s) : Kept r (zeroPage s n t a) := by
  unfold zeroPage; dsimp only; split
  · simp [h]
  · obtain ⟨g, sa, e⟩ := keepers_foldl_tagBlock512 (s := s) (n := n) (fun i => a / 512 + i) (List.range 128)
      { s.mem with
        cells := smClear s.mem.cells a (a + pageBytes), gens := smClear s.mem.gens (a / 512) (a / 512 + 128)
        salts := smClear s.mem.salts (a / 512) (a / 512 + 128) }
    rw [e]
    simp [h]

@[simp] theorem kept_copyPage (h : Kept r s) : Kept r (copyPage s n t a d) := by
  have hz : Kept r (zeroPage s n t d) := kept_zeroPage h
  have hc : CellsKept r ((cellsAt s.mem.cells a d).foldl (fun m p => cellSet m p.1 p.2) (zeroPage s n t d).mem.cells) :=
    List.foldlRecOn _ _ (cellsKept hz) fun m hm p _ => cellsKept_cellSet hm
  unfold copyPage
  simp only [kept_mk]
  exact ⟨queueKept hz, dutyKept hz, actsKept hz, regsKept hz, ctrsKept hz, tallyKept hz, hc, tagsKept hz, freeKept hz, spareKept hz, gcKept hz⟩

/-! ### Kept: command streams -/

@[simp] theorem kept_setCore (h : Kept r s) : Kept r (setCore s k s2 c) := by simp [setCore, h]
@[simp] theorem kept_setCur (h : Kept r s) : Kept r (setCur s k s2 q) := by simp [setCur, h]

@[simp] theorem kept_failCmd (h : Kept r s) : Kept r (failCmd s k s2 st) := by
  unfold failCmd
  (repeat' split) <;> simp [h]

@[simp] theorem kept_failRequest (h : Kept r s) : Kept r (failRequest s k s2 t2 st) := by
  unfold failRequest
  split <;> simp [h]

@[simp] theorem kept_setStreamState (h : Kept r s) : Kept r (setStreamState s k s2 st) := by simp (maxDischargeDepth := 20) [setStreamState, h]

@[simp] theorem kept_setStreamOp (h : Kept r s) : Kept r (setStreamOp s k s2 op s3) := by
  unfold setStreamOp
  dsimp only
  (repeat' split) <;> simp [h]

@[simp] theorem kept_recordLast (h : Kept r s) : Kept r (recordLast s k s2 op f2 c st) := by simp (maxDischargeDepth := 20) [recordLast, h]
@[simp] theorem kept_clearFace (h : Kept r s) : Kept r (clearFace s k s2) := by simp [clearFace, h]
@[simp] theorem kept_dropPins (h : Kept r s) : Kept r (dropPins s p p2 p3) := by simp +contextual [dropPins, h]

@[simp] theorem kept_leaveTags (h : Kept r s) : Kept r (leaveTags s k i) := by
  have hf (x : Nat × TagRec) : (if x.2.holder == TagHolder.core k i then (x.1, { x.2 with live := false }) else x).1 = x.1 := by split <;> rfl
  simpa [leaveTags, h] using tagsKept_map hf (tagsKept h)

@[simp] theorem kept_kvPrefetchEnd (h : Kept r s) : Kept r (kvPrefetchEnd s k) := by
  unfold kvPrefetchEnd
  dsimp only
  (repeat' split) <;> simp +contextual [*]

@[simp] theorem kept_giveBack (h : Kept r s) : Kept r (giveBack s p p2 r2) := by simp +contextual [giveBack, h]
@[simp] theorem kept_quitStream (h : Kept r s) : Kept r (quitStream s k s2 q) := by simp (maxDischargeDepth := 20) [quitStream, h]

@[simp] theorem kept_abortCmd (h : Kept r s) : Kept r (abortCmd s k s2 st r2) := by
  unfold abortCmd
  dsimp only
  (repeat' split) <;> simp (maxDischargeDepth := 20) [h]

/-! ### Kept: the pair, as every block meets it -/

@[simp] theorem kept_queueMsg (h : Kept r s) : Kept r (queueMsg s m) := by simp (maxDischargeDepth := 20) [queueMsg, h]
@[simp] theorem kept_sendToken (h : Kept r s) : Kept r (sendToken s y) := by simp [sendToken, h]
@[simp] theorem kept_roleChange (h : Kept r s) : Kept r (roleChange s l c y) := by simp (maxDischargeDepth := 20) [roleChange, h]
@[simp] theorem kept_yieldLead (h : Kept r s) : Kept r (yieldLead s c) := by simp [yieldLead, h]
@[simp] theorem kept_yieldUnable (h : Kept r s) : Kept r (yieldUnable s) := by simp [yieldUnable, h]
@[simp] theorem kept_setEpoch (h : Kept r s) : Kept r (setEpoch s e) := by simp [setEpoch, h]
@[simp] theorem kept_sendDelta (h : Kept r s) : Kept r (sendDelta s s2 p bs) := by simp [sendDelta, h]
@[simp] theorem kept_compareDigest (h : Kept r s) : Kept r (compareDigest s m t2) := by simp [compareDigest, h]

@[simp] theorem kept_sendDigest (h : Kept r s) : Kept r (sendDigest s p bs) := by
  unfold sendDigest
  dsimp only
  (repeat' split) <;> simp (maxDischargeDepth := 20) [h]

@[simp] theorem kept_sendManifest (h : Kept r s) : Kept r (sendManifest s) := by simp [sendManifest, h]

/-! ### Kept: the error classes -/

@[simp] theorem kept_setFx (h : Kept r s) : Kept r (setFx s ch x) := by simp [setFx, h]
@[simp] theorem kept_fxToSafe (h : Kept r s) : Kept r (fxToSafe s ch c) := by simp (maxDischargeDepth := 20) [fxToSafe, h]
@[simp] theorem kept_fxAllSafe (h : Kept r s) : Kept r (fxAllSafe s c c2) := by simp +contextual [fxAllSafe, h]
@[simp] theorem kept_trip (h : Kept r s) : Kept r (trip s s2 c c2 p) := by simp (maxDischargeDepth := 20) [trip, h]

@[simp] theorem kept_enterHalt (h : Kept r s) : Kept r (enterHalt s c d p) := by
  unfold enterHalt
  extract_lets t u v w
  have hv : Kept r v := foldl_kept (fun x n hx => by split <;> simp [hx]) (by simp (maxDischargeDepth := 4) [u, t, h])
  have hw : Kept r w := kept_fxAllSafe hv
  simp [hw]

@[simp] theorem kept_fatalTrip (h : Kept r s) : Kept r (fatalTrip s s2 c p) := by simp [fatalTrip, h]
@[simp] theorem kept_deviceFatal (h : Kept r s) : Kept r (deviceFatal s p c) := by simp [deviceFatal, h]
@[simp] theorem kept_partitionFatal (h : Kept r s) : Kept r (partitionFatal s n p) := by simp [partitionFatal, h]

/-! ### Kept: moves of pages -/

@[simp] theorem kept_dropMove (h : Kept r s) : Kept r (dropMove s p v) := by simp [dropMove, h]
@[simp] theorem kept_setMove (h : Kept r s) : Kept r (setMove s m) := by simp [setMove, h]
@[simp] theorem kept_tagMove (h : Kept r s) : Kept r (tagMove s m) := by simp (maxDischargeDepth := 20) +contextual [tagMove, h]
@[simp] theorem kept_tagMoves (h : Kept r s) : Kept r (tagMoves s) := by simp +contextual [tagMoves, h]
@[simp] theorem kept_settleTags (h : Kept r s) : Kept r (settleTags s) := by simp [settleTags, h]
@[simp] theorem kept_releaseMoveTags (h : Kept r s) : Kept r (releaseMoveTags s p v) := by simp (maxDischargeDepth := 20) [releaseMoveTags, h]

@[simp] theorem kept_dropTo (h : Kept r s) : Kept r (dropTo s p v q) := by
  unfold dropTo
  dsimp only
  (repeat' split) <;> simp (maxDischargeDepth := 20) [h]

@[simp] theorem kept_dropToCopy (h : Kept r s) : Kept r (dropToCopy s n v hp) := by simp [dropToCopy, h]

@[simp] theorem kept_reclaimLoose (h : Kept r s) : Kept r (reclaimLoose s n hp) := by
  unfold reclaimLoose
  (repeat' split) <;> simp [h]

theorem kept_of_moveTarget (h : Kept r s) (e : moveTarget s p x t hp = some y) : Kept r y.2 := by
  unfold moveTarget at e
  split at e
  · obtain ⟨f, _, rfl⟩ := Option.map_eq_some_iff.1 e
    simp [h]
  · obtain ⟨f, _, rfl⟩ := Option.map_eq_some_iff.1 e
    simp [h]
  · split at e
    · cases e; exact h
    · obtain ⟨f, _, rfl⟩ := Option.map_eq_some_iff.1 e
      simp [h]

@[simp] theorem kept_startMove (h : Kept r s) : Kept r (startMove s p v q f2 w c) := by simp (maxDischargeDepth := 20) [startMove, h]

theorem kept_of_beginMove (h : Kept r s) (e : beginMove s p v t w c = some y) : Kept r y.2 := by
  unfold beginMove at e
  dsimp only at e
  split_ifs at e
  · cases e; exact h
  · cases e; simp [h]
  · obtain ⟨x, hx, rfl⟩ := Option.map_eq_some_iff.1 e
    simp [kept_of_moveTarget h hx]

@[simp] theorem kept_freeTarget (h : Kept r s) : Kept r (freeTarget s m) := by
  unfold freeTarget
  dsimp only
  (repeat' split) <;> simp [h]

@[simp] theorem kept_releaseHeldWrites (h : Kept r s) : Kept r (releaseHeldWrites s p v) := by
  unfold releaseHeldWrites
  refine foldl_kept (fun t x ht => by split <;> simp [ht]) ?_
  have hk (x : Nat × TagRec) : (if x.2.held ∧ x.2.part = p ∧ vpnOf x.2.addr = v then
        (x.1, { x.2 with held := false, tier := (pteOf s p v).home, frame := homeFrame (pteOf s p v), issue := now s })
      else x).1 = x.1 := by split <;> rfl
  simpa [h] using tagsKept_map hk (tagsKept h)

@[simp] theorem kept_switchMove (h : Kept r s) : Kept r (switchMove s m) := by
  unfold switchMove
  dsimp only
  (repeat' split) <;> simp (maxDischargeDepth := 20) [h]

@[simp] theorem kept_cancelMove (h : Kept r s) : Kept r (cancelMove s m) := by simp (maxDischargeDepth := 20) [cancelMove, h]

/-! ### Kept: tier requests, the tier map and Hoist -/

@[simp] theorem kept_watchRead (h : Kept r s) : Kept r (watchRead s k p v) := by simp [watchRead, h]
@[simp] theorem kept_releaseTag (h : Kept r s) : Kept r (releaseTag s q) := by simp (maxDischargeDepth := 20) [releaseTag, h]
@[simp] theorem kept_bankWait (h : Kept r s) : Kept r (bankWait s p) := by simp [bankWait, h]

@[simp] theorem kept_countWritten (h : Kept r s) : Kept r (countWritten s m p) := by
  unfold countWritten
  split <;> simp [h]

@[simp] theorem kept_countAccess (h : Kept r s) : Kept r (countAccess s q p f2 a l w p2) := by
  unfold countAccess
  dsimp only
  (repeat' split) <;> simp [h]

@[simp] theorem kept_countServed (h : Kept r s) : Kept r (countServed s q p) := by
  unfold countServed
  split <;> simp (maxDischargeDepth := 20) [h]

@[simp] theorem kept_tierOutcome (h : Kept r s) : Kept r (tierOutcome s q p o).2 := by
  unfold tierOutcome
  dsimp only
  (repeat' split) <;> simp (maxDischargeDepth := 20) [h]

@[simp] theorem kept_endRequest (h : Kept r s) : Kept r (endRequest s q q2 st) := by
  unfold endRequest
  dsimp only
  (repeat' split) <;> simp [h]

@[simp] theorem kept_timeOut (h : Kept r s) : Kept r (timeOut s t2 q) := by
  unfold timeOut
  split <;> simp [h]

@[simp] theorem kept_execTierRequestComplete (h : Kept r s) : ResKept r (execTierRequestComplete t2 p o s) := by
  unfold execTierRequestComplete
  split <;> simp [h]

@[simp] theorem kept_execTierRequestTimeout (h : Kept r s) : ResKept r (execTierRequestTimeout t2 s) := by
  unfold execTierRequestTimeout
  split <;> simp [h]

@[simp] theorem kept_setTm (h : Kept r s) : Kept r (setTm s p q) := by simp [setTm, h]
@[simp] theorem kept_tmGo (h : Kept r s) : Kept r (tmGo s p) := by simp [tmGo, h]

@[simp] theorem kept_tmMapNew (h : Kept r s) : Kept r (tmMapNew s p v q) := by
  unfold tmMapNew
  dsimp only
  (repeat' split) <;> simp (maxDischargeDepth := 20) [h]

@[simp] theorem kept_unmapPage (h : Kept r s) : Kept r (unmapPage s p v) := by
  unfold unmapPage
  split <;> simp (maxDischargeDepth := 20) [h]

@[simp] theorem kept_writeBack (h : Kept r s) : Kept r (writeBack s p v l) := by simp (maxDischargeDepth := 20) [writeBack, h]
@[simp] theorem kept_tmAdvance (h : Kept r s) : Kept r (tmAdvance s p q) := by simp [tmAdvance, h]

@[simp] theorem kept_tmMove (h : Kept r s) : Kept r (tmMove s p v q c) := by
  unfold tmMove
  split
  · split <;> simp [h]
  · next u e =>
    have hu : Kept r u := kept_of_beginMove h e
    dsimp only
    split <;> simp [hu]
  · next u e => simp [kept_of_beginMove h e]

@[simp] theorem kept_tmPage (h : Kept r s) : Kept r (tmPage s p q) := by
  unfold tmPage
  dsimp only
  (repeat' split) <;> simp [h]

@[simp] theorem kept_tmStep (h : Kept r s) : Kept r (tmStep s p n) := by
  induction n generalizing s with
  | zero => exact h
  | succ n ih =>
    unfold tmStep
    split
    · exact h
    · split
      · exact ih (kept_tmPage h)
      · exact h

@[simp] theorem kept_tmRefuse (h : Kept r s) : Kept r (tmRefuse s p q st) := by simp [tmRefuse, h]

@[simp] theorem kept_tmRow (h : Kept r s) : ResKept r (tmRow op p p2 s) := by
  unfold tmRow
  split <;> simp [h]

@[simp] theorem kept_execMapNew (h : Kept r s) : ResKept r (execMapNew p p2 s) := by simp [execMapNew, h]
@[simp] theorem kept_execMapSeam (h : Kept r s) : ResKept r (execMapSeam p p2 s) := by simp [execMapSeam, h]
@[simp] theorem kept_execUnmap (h : Kept r s) : ResKept r (execUnmap p p2 s) := by simp [execUnmap, h]
@[simp] theorem kept_execMigrate (h : Kept r s) : ResKept r (execMigrate p p2 s) := by simp [execMigrate, h]
@[simp] theorem kept_execProtect (h : Kept r s) : ResKept r (execProtect p p2 s) := by simp [execProtect, h]
@[simp] theorem kept_execWriteback (h : Kept r s) : ResKept r (execWriteback p p2 s) := by simp [execWriteback, h]

@[simp] theorem kept_execQuery (h : Kept r s) : ResKept r (execQuery p s) := by
  unfold execQuery
  split <;> simp [h]

@[simp] theorem kept_tmQuery (h : Kept r s) : Kept r (tmQuery s p) := by
  unfold tmQuery
  dsimp only
  (repeat' split) <;> simp (maxDischargeDepth := 20) +contextual [*]

@[simp] theorem kept_execMapShare (h : Kept r s) : ResKept r (execMapShare p s) := by simp [execMapShare, h]

@[simp] theorem kept_execTierMapComplete (h : Kept r s) : ResKept r (execTierMapComplete p s) := by
  unfold execTierMapComplete
  split <;> simp [h]

@[simp] theorem kept_tmDone (h : Kept r s) : Kept r (tmDone s p) := by
  unfold tmDone
  dsimp only
  (repeat' split) <;> simp (maxDischargeDepth := 20) [h]

@[simp] theorem kept_setPf (h : Kept r s) : Kept r (setPf s pf x) := by simp [setPf, h]
@[simp] theorem kept_addHold (h : Kept r s) : Kept r (addHold s n v up) := by simp [addHold, h]

@[simp] theorem kept_readyUnits (h : Kept r s) : Kept r (readyUnits s p n) := by
  induction n generalizing s with
  | zero => exact h
  | succ n ih =>
    unfold readyUnits
    split
    · exact h
    · dsimp only
      split
      · exact ih (by simp [h])
      · exact h

@[simp] theorem kept_fetchFailed (h : Kept r s) : Kept r (fetchFailed s pf st) := by
  unfold fetchFailed
  split <;> simp (maxDischargeDepth := 20) [h]

theorem kept_of_fetchPages (h : Kept r s) (e : fetchPages pf j t n s vs = some u) : Kept r u := by
  induction vs generalizing s with
  | nil => cases e; exact h
  | cons v vs ih =>
    unfold fetchPages at e
    split at e
    · exact ih (kept_fetchFailed h) e
    · split at e
      · cases e
      · next w hw => exact ih (kept_addHold (kept_of_beginMove h hw)) e

@[simp] theorem kept_execHoistFetch (h : Kept r s) : ResKept r (execHoistFetch pf s) := by
  unfold execHoistFetch
  split <;> simp [h]

@[simp] theorem kept_hoistFetch (h : Kept r s) : Kept r (hoistFetch s p) := by
  unfold hoistFetch
  split
  · exact h
  · split
    · exact h
    · split
      · simp [h]
      · next u e =>
        have hu : Kept r u := kept_of_fetchPages h e
        dsimp only
        split <;> simp (maxDischargeDepth := 4) [hu]

@[simp] theorem kept_execHoistRelease (h : Kept r s) : ResKept r (execHoistRelease pf s) := by
  unfold execHoistRelease
  dsimp only
  (repeat' split) <;> simp +contextual [*]

@[simp] theorem kept_pageRelease (h : Kept r s) : Kept r (pageRelease s pf n v) := by simp [pageRelease, h]

@[simp] theorem kept_moveDone (h : Kept r s) : Kept r (moveDone s m st) := by
  unfold moveDone
  dsimp only
  (repeat' split) <;> simp [h]

@[simp] theorem kept_moveFailed (h : Kept r s) : Kept r (moveFailed s m st) := by simp (maxDischargeDepth := 20) [moveFailed, h]

@[simp] theorem kept_execHoistMoveComplete (h : Kept r s) : ResKept r (execHoistMoveComplete p v st s) := by
  unfold execHoistMoveComplete
  dsimp only
  (repeat' split) <;> simp (maxDischargeDepth := 20) +contextual [*]

@[simp] theorem kept_strideFetch (h : Kept r s) : Kept r (strideFetch s p n vs) := by
  unfold strideFetch
  extract_lets all q
  have hq : Kept r q.2 := by
    refine List.foldlRecOn (motive := fun acc : List Nat × State => Kept r acc.2) _ _ h fun acc hacc v _ => ?_
    dsimp only
    split
    · exact hacc
    · split
      · next e => exact kept_of_beginMove hacc e
      · exact hacc
  split <;> simp [hq]

@[simp] theorem kept_moveEnd (h : Kept r s) : Kept r (moveEnd s p v) := by
  unfold moveEnd
  dsimp only
  (repeat' split) <;> simp (maxDischargeDepth := 20) +contextual [*]

@[simp] theorem kept_execStrideDetect (h : Kept r s) : ResKept r (execStrideDetect k s) := by
  unfold execStrideDetect
  split <;> simp (maxDischargeDepth := 20) [h]

@[simp] theorem kept_strideFollow (h : Kept r s) : Kept r (strideFollow s k v) := by
  unfold strideFollow
  dsimp only
  (repeat' split) <;> simp (maxDischargeDepth := 20) [h]

@[simp] theorem kept_execTierTagGrant (h : Kept r s) : ResKept r (execTierTagGrant k s2 a l w s) := by
  unfold execTierTagGrant
  dsimp only
  (repeat' split) <;> simp (maxDischargeDepth := 20) [h]

@[simp] theorem kept_execGalleryScrub (h : Kept r s) : ResKept r (execGalleryScrub h2 f2 l e s) := by
  unfold execGalleryScrub
  dsimp only
  (repeat' split) <;> simp (maxDischargeDepth := 20) [h]

@[simp] theorem kept_execGarbageCollection (h : Kept r s) : ResKept r (execGarbageCollection q f2 s) := by simp [execGarbageCollection, h]
@[simp] theorem kept_execReadDisturbRelocate (h : Kept r s) : ResKept r (execReadDisturbRelocate q b s) := by simp [execReadDisturbRelocate, h]
@[simp] theorem kept_execRelocationComplete (h : Kept r s) : ResKept r (execRelocationComplete q b ok s) := by simp [execRelocationComplete, h]

@[simp] theorem kept_execTrainingComplete (h : Kept r s) : ResKept r (execTrainingComplete p ch p2 s) := by
  unfold execTrainingComplete
  split <;> simp [h]

@[simp] theorem kept_driftRetrain (h : Kept r s) : Kept r (driftRetrain s k c) := by simp (maxDischargeDepth := 20) [driftRetrain, h]

@[simp] theorem kept_execTierChannelLost (h : Kept r s) : ResKept r (execTierChannelLost p ch s) := by
  unfold execTierChannelLost
  split <;> simp [h]

@[simp] theorem kept_tierAct (h : Kept r s) : Kept r (tierAct s p o v) := by
  unfold tierAct
  split <;> simp [h]

/-! ### Kept: the KV cache -/

@[simp] theorem kept_setRec (h : Kept r s) : Kept r (setRec s p p2 k q) := by simp [setRec, h]
@[simp] theorem kept_setSeqEntry (h : Kept r s) : Kept r (setSeqEntry s k e) := by simp [setSeqEntry, h]
@[simp] theorem kept_takeSlot (h : Kept r s) : Kept r (takeSlot s p p2 k) := by simp [takeSlot, h]

@[simp] theorem kept_swapUp (h : Kept r s) : Kept r (swapUp s p q l) := by
  unfold swapUp
  dsimp only
  split
  · split
    · next e => exact kept_of_beginMove h e
    · exact h
  · exact h

@[simp] theorem kept_swapCheck (h : Kept r s) : Kept r (swapCheck s p q l) := by
  unfold swapCheck
  dsimp only
  split
  · exact h
  · split
    · exact h
    · split
      · exact h
      · next e => exact kept_swapUp (kept_of_beginMove h e)
      · next e => exact kept_of_beginMove h e

@[simp] theorem kept_swapAfter (h : Kept r s) : Kept r (swapAfter s m) := by
  unfold swapAfter
  dsimp only
  (repeat' split) <;> simp [h]

@[simp] theorem kept_pinPages (h : Kept r s) : Kept r (pinPages p a s xs ys).1 := by
  induction xs generalizing s ys with
  | nil => exact h
  | cons x xs ih =>
    obtain ⟨q, b, o⟩ := x
    unfold pinPages
    dsimp only
    split
    · exact h
    · split
      · exact h
      · split
        · simp [h]
        · exact ih (by simp [h])

@[simp] theorem kept_unpin (h : Kept r s) : Kept r (unpin s p p2 p3) := by simp +contextual [unpin, h]

@[simp] theorem kept_kvPrefetch (h : Kept r s) : Kept r (kvPrefetch s k p a p2) := by
  unfold kvPrefetch
  dsimp only
  (repeat' split) <;> simp [h]

theorem kept_of_appendRow (h : Kept r s) (e : appendRow s p a c x bs = .ok u) : Kept r u := by
  unfold appendRow at e
  extract_lets rb n src st wr ks vs v w at e
  split_ifs at e
  cases e
  have hv : Kept r v := by unfold v; split <;> simp [h]
  exact kept_atBoundary (kept_writeBytes (kept_writeBytes hv)) (by simp)

@[simp] theorem kept_lowerRef (h : Kept r s) : Kept r (lowerRef s p p2 k) := by simp [lowerRef, h]

@[simp] theorem kept_kvSwitch (h : Kept r s) : Kept r (kvSwitch s p p2 l h2 r2) := by
  unfold kvSwitch
  dsimp only
  (repeat' split) <;> simp (maxDischargeDepth := 20) [h]

@[simp] theorem kept_freeSlot (h : Kept r s) : Kept r (freeSlot s p p2 k) := by simp [freeSlot, h]
@[simp] theorem kept_execKvReclaim (h : Kept r s) : ResKept r (execKvReclaim p p2 s2 s) := by simp [execKvReclaim, h]
@[simp] theorem kept_kvReclaim (h : Kept r s) : Kept r (kvReclaim s p p2 k) := by simp [kvReclaim, h]
@[simp] theorem kept_appendView (h : Kept r s) : Kept r (appendView s p a) := by simp +contextual [appendView, h]

theorem kept_of_appendOne (h : Kept r x.st) : Kept r (appendOne p a l g d x n).st := by
  unfold appendOne
  dsimp only
  split
  · exact h
  · split
    · exact h
    · split
      · exact h
      · split
        · exact h
        · next y _ _ =>
          have ht : Kept r (if y.fresh then atBoundary (takeSlot x.st p a.pool y.slot) (.kvSwap p a.pool l) else x.st) := by simp [h]
          split
          · next u e => exact kept_of_appendRow ht e
          · exact ite_kept.2 ⟨fun _ => kept_giveBack ht, fun _ => ht⟩

@[simp] theorem kept_setKvRun (h : Kept r s) : Kept r (setKvRun s p q) := by simp [setKvRun, h]
@[simp] theorem kept_kvGo (h : Kept r s) : Kept r (kvGo s p) := by simp [kvGo, h]
@[simp] theorem kept_kvOpEntry (h : Kept r s) : Kept r (kvOpEntry s p q) := by simp [kvOpEntry, h]

@[simp] theorem kept_kvOpSteps (h : Kept r s) : Kept r (kvOpSteps s p n) := by
  induction n generalizing s with
  | zero => exact h
  | succ n ih =>
    unfold kvOpSteps
    split
    · exact h
    · split
      · exact ih (kept_kvOpEntry h)
      · exact h

@[simp] theorem kept_kvOpRow (h : Kept r s) : ResKept r (kvOpRow op p n s) := by
  unfold kvOpRow
  split <;> simp [h]

@[simp] theorem kept_execFork (h : Kept r s) : ResKept r (execFork p e s) := by simp [execFork, h]
@[simp] theorem kept_execFree (h : Kept r s) : ResKept r (execFree p e s) := by simp [execFree, h]

@[simp] theorem kept_execKvQuery (h : Kept r s) : ResKept r (execKvQuery p s) := by
  unfold execKvQuery
  split <;> simp (maxDischargeDepth := 20) [h]

@[simp] theorem kept_execKvOpComplete (h : Kept r s) : ResKept r (execKvOpComplete p s) := by
  unfold execKvOpComplete
  dsimp only
  (repeat' split) <;> simp (maxDischargeDepth := 20) [h]

@[simp] theorem kept_clearSeqTable (h : Kept r s) : Kept r (clearSeqTable s p p2) := by simp [clearSeqTable, h]

@[simp] theorem kept_kvAct (h : Kept r s) : Kept r (kvAct s p o v o2) := by
  unfold kvAct
  (repeat' split) <;> simp [h]

@[simp] theorem kept_kvReset (h : Kept r s) : Kept r (kvReset s p) := by
  unfold kvReset
  extract_lets t
  have ht : Kept r t := foldl_kept (fun u i hu => kept_clearSeqTable (foldl_kept (fun w x hw => by split <;> simp [hw]) hu)) h
  simp [ht]

@[simp] theorem kept_execKvDeltaLate (h : Kept r s) : ResKept r (execKvDeltaLate s) := by
  unfold execKvDeltaLate
  split <;> simp [h]

/-! ### Kept: loopbacks -/

@[simp] theorem kept_unitAfterLoop (h : Kept r s) : Kept r (unitAfterLoop s p) := by
  unfold unitAfterLoop
  split <;> simp [h]

@[simp] theorem kept_loopEnd (h : Kept r s) : Kept r (loopEnd s h2) := by
  unfold loopEnd
  split <;> simp (maxDischargeDepth := 20) [h]

@[simp] theorem kept_loopUnitReset (h : Kept r s) : Kept r (loopUnitReset s p) := by simp [loopUnitReset, h]

/-! ### Kept: device time -/

@[simp] theorem kept_advanceInst (h : Kept r s) : Kept r (advanceInst s) := by simp [advanceInst, h]
@[simp] theorem kept_cmpArmed (h : Kept r s) : Kept r (cmpArmed s n) := by simp [cmpArmed, h]
@[simp] theorem kept_timeSetAccept (h : Kept r s) : Kept r (timeSetAccept s) := by simp [timeSetAccept, h]

@[simp] theorem kept_timeAct (h : Kept r s) : Kept r (timeAct s p o v o2) := by
  unfold timeAct
  split <;> simp [h]

@[simp] theorem kept_gmLost (h : Kept r s) : Kept r (gmLost s) := by simp [gmLost, h]
@[simp] theorem kept_enterGm (h : Kept r s) : Kept r (enterGm s) := by simp (maxDischargeDepth := 20) [enterGm, h]
@[simp] theorem kept_applyTimeStep (h : Kept r s) : Kept r (applyTimeStep s o f2) := by simp (maxDischargeDepth := 20) [applyTimeStep, h]

@[simp] theorem kept_applyPtpStop (h : Kept r s) : Kept r (applyPtpStop s) := by
  unfold applyPtpStop
  dsimp only
  (repeat' split) <;> simp (maxDischargeDepth := 20) [h]

@[simp] theorem kept_servo (h : Kept r s) : Kept r (servo s o) := by simp [servo, h]
@[simp] theorem kept_enterHold (h : Kept r s) : Kept r (enterHold s) := by simp (maxDischargeDepth := 20) [enterHold, h]
@[simp] theorem kept_lockedMeasure (h : Kept r s) : Kept r (lockedMeasure s o) := by simp [lockedMeasure, h]
@[simp] theorem kept_acquireMeasure (h : Kept r s) : Kept r (acquireMeasure s o d) := by simp [acquireMeasure, h]
@[simp] theorem kept_syncMeasure (h : Kept r s) : Kept r (syncMeasure s o d) := by simp (maxDischargeDepth := 20) [syncMeasure, h]
@[simp] theorem kept_execSyncReceived (h : Kept r s) : ResKept r (execSyncReceived o d s) := by simp [execSyncReceived, h]
@[simp] theorem kept_execSyncReceiptTimeout (h : Kept r s) : ResKept r (execSyncReceiptTimeout s) := by simp [execSyncReceiptTimeout, h]
@[simp] theorem kept_execPdelayFail (h : Kept r s) : ResKept r (execPdelayFail p s) := by simp [execPdelayFail, h]
@[simp] theorem kept_execGrandmasterRoleChange (h : Kept r s) : ResKept r (execGrandmasterRoleChange r2 s) := by simp [execGrandmasterRoleChange, h]
@[simp] theorem kept_cmpEval (h : Kept r s) : Kept r (cmpEval s) := by simp [cmpEval, h]
@[simp] theorem kept_cmpNext (h : Kept r s) : Kept r (cmpNext s d) := by simp [cmpNext, h]

@[simp] theorem kept_execTickCmpMatch (h : Kept r s) : ResKept r (execTickCmpMatch n s) := by
  unfold execTickCmpMatch
  split <;> simp (maxDischargeDepth := 20) [h]

@[simp] theorem kept_execTsqPush (h : Kept r s) : ResKept r (execTsqPush f2 p m ns f3 s) := by simp [execTsqPush, h]
@[simp] theorem kept_tsqSettle (h : Kept r s) : Kept r (tsqSettle s) := by simp [tsqSettle, h]
@[simp] theorem kept_tsqPopHead (h : Kept r s) : Kept r (tsqPopHead s) := by simp [tsqPopHead, h]

/-! ### Kept: the sensor front end -/

@[simp] theorem kept_setPort (h : Kept r s) : Kept r (setPort s p x) := by simp [setPort, h]
@[simp] theorem kept_setLidar (h : Kept r s) : Kept r (setLidar s i x) := by simp [setLidar, h]
@[simp] theorem kept_setInst (h : Kept r s) : Kept r (setInst s p x) := by simp [setInst, h]

@[simp] theorem kept_logLock (h : Kept r s) : Kept r (logLock s) := by
  unfold logLock
  split <;> simp [h]

@[simp] theorem kept_sensorWrite (h : Kept r s) : Kept r (sensorWrite s p a bs) := by simp [sensorWrite, h]
@[simp] theorem kept_sensorSpoil (h : Kept r s) : Kept r (sensorSpoil s p a n) := by simp [sensorSpoil, h]
@[simp] theorem kept_countSample (h : Kept r s) : Kept r (countSample s s2 n) := by simp [countSample, h]
@[simp] theorem kept_offerSample (h : Kept r s) : Kept r (offerSample s p x) := by simp [offerSample, h]
theorem kept_of_closeSlot (h : Kept r x.1) : Kept r (closeSlot p n k m x).1 := kept_ctrAdd (kept_ctrAdd h)

@[simp] theorem kept_execInstantClose (h : Kept r s) : ResKept r (execInstantClose p s) := by
  unfold execInstantClose
  have hx (n : Nat) (m : List Sample) : Kept r ((List.range 24).foldl (fun x k => closeSlot p n k m x) (s, [], 0)).1 :=
    List.foldlRecOn (motive := fun x : State × List InstEntry × Nat => Kept r x.1) _ _ h fun _ hx _ _ => kept_of_closeSlot hx
  simp [h, hx]

@[simp] theorem kept_execInstantTableWrite (h : Kept r s) : ResKept r (execInstantTableWrite p s) := by
  unfold execInstantTableWrite
  dsimp only
  (repeat' split) <;> simp (maxDischargeDepth := 20) [h]

@[simp] theorem kept_spoilRows (h : Kept r s) : Kept r (spoilRows s p f2 k) := by simp +contextual [spoilRows, h]
@[simp] theorem kept_deliverFrame (h : Kept r s) : Kept r (deliverFrame s p f2 m b) := by simp (maxDischargeDepth := 20) [deliverFrame, h]

@[simp] theorem kept_execFrameStart (h : Kept r s) : ResKept r (execFrameStart p vc fn s) := by
  unfold execFrameStart
  split <;> simp (maxDischargeDepth := 20) [h]

@[simp] theorem kept_execLineReceived (h : Kept r s) : ResKept r (execLineReceived p vc dt d c e s) := by
  unfold execLineReceived
  dsimp only
  (repeat' split) <;> simp (maxDischargeDepth := 20) [h]

@[simp] theorem kept_execFrameEnd (h : Kept r s) : ResKept r (execFrameEnd p vc f2 s) := by
  unfold execFrameEnd
  split <;> simp (maxDischargeDepth := 20) [h]

@[simp] theorem kept_execAphyLinkTrained (h : Kept r s) : ResKept r (execAphyLinkTrained p g s) := by simp [execAphyLinkTrained, h]

@[simp] theorem kept_execAphyLinkLost (h : Kept r s) : ResKept r (execAphyLinkLost p s) := by
  unfold execAphyLinkLost
  dsimp only
  (repeat' split) <;> simp (maxDischargeDepth := 20) [h]

@[simp] theorem kept_streamStart (h : Kept r s) : Kept r (streamStart s p) := by simp (maxDischargeDepth := 20) [streamStart, h]
@[simp] theorem kept_streamStop (h : Kept r s) : Kept r (streamStop s p) := by simp (maxDischargeDepth := 20) [streamStop, h]
@[simp] theorem kept_spoilSlots (h : Kept r s) : Kept r (spoilSlots s i x) := by simp +contextual [spoilSlots, h]
@[simp] theorem kept_lidarStopped (h : Kept r s) : Kept r (lidarStopped s i) := by simp [lidarStopped, h]

@[simp] theorem kept_lidarComplete (h : Kept r s) : Kept r (lidarComplete s i m) := by
  unfold lidarComplete
  dsimp only
  (repeat' split) <;> simp (maxDischargeDepth := 20) [h]

@[simp] theorem kept_lidarPlace (h : Kept r s) : Kept r (lidarPlace s i p n b) := by simp (maxDischargeDepth := 20) [lidarPlace, h]

@[simp] theorem kept_execLidarPacket (h : Kept r s) : ResKept r (execLidarPacket s2 p p2 c l s) := by
  simp (maxDischargeDepth := 20) [execLidarPacket, h]

@[simp] theorem kept_sensorAct (h : Kept r s) : Kept r (sensorAct s p o v o2) := by
  unfold sensorAct
  split <;> simp [h]

/-! ### Kept: the planning sequencer -/

@[simp] theorem kept_setLkState (h : Kept r s) : Kept r (setLkState s n) := by simp [setLkState, h]
@[simp] theorem kept_setSeq (h : Kept r s) : Kept r (setSeq s q) := by simp [setSeq, h]
@[simp] theorem kept_takeMate (h : Kept r s) : Kept r (takeMate s) := by simp [takeMate, h]

@[simp] theorem kept_execGridPublication (h : Kept r s) : ResKept r (execGridPublication s) := by
  simp (maxDischargeDepth := 20) [execGridPublication, h]

@[simp] theorem kept_execCycleStart (h : Kept r s) : ResKept r (execCycleStart s) := by
  unfold execCycleStart
  split <;> simp (maxDischargeDepth := 20) [h]

@[simp] theorem kept_execCheckWindowOpen (h : Kept r s) : ResKept r (execCheckWindowOpen s) := by
  unfold execCheckWindowOpen
  split <;> simp [h]

@[simp] theorem kept_releaseBuf (h : Kept r s) : Kept r (releaseBuf s b) := by simp [releaseBuf, h]

@[simp] theorem kept_execCommit (h : Kept r s) : ResKept r (execCommit s) := by
  unfold execCommit
  split <;> simp (maxDischargeDepth := 20) [h]

@[simp] theorem kept_postPlan (h : Kept r s) : Kept r (postPlan s c p) := by
  unfold postPlan
  split <;> simp [h]

@[simp] theorem kept_lkEnable (h : Kept r s) : Kept r (lkEnable s) := by simp (maxDischargeDepth := 20) [lkEnable, h]
@[simp] theorem kept_lkDisable (h : Kept r s) : Kept r (lkDisable s) := by simp [lkDisable, h]
@[simp] theorem kept_plannerAct (h : Kept r s) : Kept r (plannerAct s p o v) := by simp [plannerAct, h]
@[simp] theorem kept_plannerReset (h : Kept r s) : Kept r (plannerReset s) := by simp [plannerReset, h]

/-! ### Kept: jobs, as every block meets them -/

@[simp] theorem kept_putRing (h : Kept r s) : Kept r (putRing s p o bs) := by
  induction bs generalizing s o with
  | nil => exact h
  | cons b bs ih => exact ih (by simp [h])

@[simp] theorem kept_setJob (h : Kept r s) : Kept r (setJob s k j) := by simp [setJob, h]
@[simp] theorem kept_sbCount (h : Kept r s) : Kept r (sbCount s k s2) := by simp [sbCount, h]
@[simp] theorem kept_dropOffers (h : Kept r s) : Kept r (dropOffers s k) := by simp [dropOffers, h]

@[simp] theorem kept_failJob (h : Kept r s) : Kept r (failJob s k s2 st) := by
  unfold failJob
  split <;> simp [h]

@[simp] theorem kept_setDog (h : Kept r s) : Kept r (setDog s d x) := by simp [setDog, h]
@[simp] theorem kept_setWdBit (h : Kept r s) : Kept r (setWdBit s d n b) := by simp [setWdBit, h]
@[simp] theorem kept_armDog (h : Kept r s) : Kept r (armDog s k s2 x) := by simp (maxDischargeDepth := 20) [armDog, h]
@[simp] theorem kept_disarmDogs (h : Kept r s) : Kept r (disarmDogs s k) := by simp (maxDischargeDepth := 20) +contextual [disarmDogs, h]

@[simp] theorem kept_holdDog (h : Kept r s) : Kept r (holdDog s d b) := by
  unfold holdDog
  split <;> simp (maxDischargeDepth := 20) [h]

@[simp] theorem kept_holdDogs (h : Kept r s) : Kept r (holdDogs s k b) := by simp +contextual [holdDogs, h]

@[simp] theorem kept_endStageWaits (h : Kept r s) : Kept r (endStageWaits s k g) := by
  unfold endStageWaits
  split
  · exact h
  · refine foldl_kept (fun t c ht => ?_) h
    split
    · split
      · simp [ht]
      · split
        · split <;> simp [ht]
        · exact ht
    · exact ht

@[simp] theorem kept_expireDog (h : Kept r s) : Kept r (expireDog s d e) := by
  unfold expireDog
  dsimp only
  (repeat' split) <;> simp (maxDischargeDepth := 20) [h]

@[simp] theorem kept_kickDog (h : Kept r s) : Kept r (kickDog s d) := by
  unfold kickDog
  dsimp only
  (repeat' split) <;> simp (maxDischargeDepth := 20) [h]

@[simp] theorem kept_writeRecord (h : Kept r s) : Kept r (writeRecord s p e j st f2 s2 s3 s4) := by simp [writeRecord, h]

@[simp] theorem kept_retireStep (h : Kept r s) : Kept r (retireStep p n s) := by
  induction n generalizing s with
  | zero => exact h
  | succ n ih =>
    unfold retireStep
    dsimp only
    split
    · exact h
    · split
      · split
        · exact ih (by simp [h])
        · exact h
      · exact h

@[simp] theorem kept_retireRing (h : Kept r s) : Kept r (retireRing s p) := by simp [retireRing, h]

@[simp] theorem kept_endStreams (h : Kept r s) : Kept r (endStreams s k) :=
  foldl_kept (fun t x ht => by
    have hu : Kept r (((List.range x.2.fetched).drop x.2.released).foldl
        (fun t j => (unitVpns t x.2 j).foldl (fun t v => atBoundary t (.pageRelease x.1 x.2.part v)) t) t) :=
      foldl_kept (fun _ _ hv => foldl_kept (fun _ _ hw => by simp [hw]) hv) ht
    simp [hu]) h

@[simp] theorem kept_endJob (h : Kept r s) : Kept r (endJob s k) := by
  unfold endJob
  split <;> simp (maxDischargeDepth := 20) [h]

/-! ### Kept: tracks -/

@[simp] theorem kept_setTrk (h : Kept r s) : Kept r (setTrk s c x) := by simp [setTrk, h]
@[simp] theorem kept_clearTracks (h : Kept r s) : Kept r (clearTracks s c) := by simp [clearTracks, h]

/-! ### Kept: the partition layout -/

@[simp] theorem kept_applyLayout (h : Kept r s) : Kept r (applyLayout s l) :=
  foldl_kept (fun t p ht => by split <;> simp [ht]) (by simp [h])

/-! ### Kept: Lamphouse's mailbox -/

@[simp] theorem kept_setSec (h : Kept r s) : Kept r (setSec s n x) := by simp [setSec, h]
@[simp] theorem kept_setFlash (h : Kept r s) : Kept r (setFlash s f2) := by simp [setFlash, h]
@[simp] theorem kept_drawNonce (h : Kept r s) : Kept r (drawNonce s n) := by simp [drawNonce, h]
@[simp] theorem kept_setReason (h : Kept r s) : Kept r (setReason s c d t2) := by simp [setReason, h]
@[simp] theorem kept_reasonOf (h : Kept r s) : Kept r (reasonOf s n c d t2) := by simp [reasonOf, h]
@[simp] theorem kept_authFail (h : Kept r s) : Kept r (authFail s n) := by simp [authFail, h]

@[simp] theorem kept_mbGo (h : Kept r s) : Kept r (mbGo s n) := by
  unfold mbGo
  dsimp only
  (repeat' split) <;> simp (maxDischargeDepth := 20) [h]

@[simp] theorem kept_mbStep {f : State → MbRun → State × Status × List Byte}
    (hf : ∀ t m, Kept r t → Kept r (f t m).1) (h : Kept r s) : Kept r (mbStep s n o f) := by
  unfold mbStep; split
  · exact h
  · simp [h, hf]

@[simp] theorem kept_mbPost (h : Kept r s) : Kept r (mbPost s n) := by
  unfold mbPost
  dsimp only
  (repeat' split) <;> simp (maxDischargeDepth := 20) +contextual [*]

@[simp] theorem kept_execMailboxComplete (h : Kept r s) : ResKept r (execMailboxComplete p s) := by simp [execMailboxComplete, h]

@[simp] theorem kept_execHostReadTimeout (h : Kept r s) : ResKept r (execHostReadTimeout p s) := by
  unfold execHostReadTimeout
  dsimp only
  (repeat' split) <;> simp [h]

@[simp] theorem kept_execLoadManifest (h : Kept r s) : ResKept r (execLoadManifest p i s) := by
  refine resKept_next.2 (kept_mbStep (fun t m ht => ?_) h)
  dsimp only
  (repeat' split) <;> simp [ht]

@[simp] theorem kept_newSession (h : Kept r s) : Kept r (newSession s n) := by simp [newSession, h]

@[simp] theorem kept_execKeyRelease (h : Kept r s) : ResKept r (execKeyRelease p s) := by
  refine resKept_next.2 (kept_mbStep (fun t m ht => ?_) h)
  dsimp only
  (repeat' split) <;> simp (maxDischargeDepth := 6) [ht]

@[simp] theorem kept_execRotate (h : Kept r s) : ResKept r (execRotate p s) := by
  refine resKept_next.2 (kept_mbStep (fun t m ht => ?_) h)
  dsimp only
  (repeat' split) <;> simp [ht]

@[simp] theorem kept_rotateAt (h : Kept r s) : Kept r (rotateAt s n) := by simp [rotateAt, h]

@[simp] theorem kept_trimSeam (h : Kept r s) : Kept r (trimSeam s n) := by
  simp only [trimSeam, kept_mk]
  simp [h]

@[simp] theorem kept_eraseSeam (h : Kept r s) : Kept r (eraseSeam s n) := by simp +contextual [eraseSeam, h]

@[simp] theorem kept_zeroGallery (h : Kept r s) : Kept r (zeroGallery s n) := by
  unfold zeroGallery
  split
  · exact h
  · exact foldl_kept (fun t g ht => by simp [ht]) h

@[simp] theorem kept_execErase (h : Kept r s) : ResKept r (execErase p s) := by
  refine resKept_next.2 (kept_mbStep (fun t m ht => ?_) h)
  dsimp only
  (repeat' split) <;> simp (maxDischargeDepth := 6) [ht]

@[simp] theorem kept_execEraseComplete (h : Kept r s) : ResKept r (execEraseComplete p s) := by simp [execEraseComplete, h]

@[simp] theorem kept_execGenerationRetire (h : Kept r s) : ResKept r (execGenerationRetire p p2 l s) := by
  simp (maxDischargeDepth := 20) [execGenerationRetire, h]

@[simp] theorem kept_retireAt (h : Kept r s) : Kept r (retireAt s n) := by simp [retireAt, h]

theorem kept_of_dmaIn (h : Kept r x.st) : Kept r (dmaIn n q l d c k b x i).st := by
  unfold dmaIn
  split
  · exact h
  · dsimp only
    (repeat' split) <;> simp [h]

theorem kept_of_dmaOut (h : Kept r x.st) : Kept r (dmaOut n q l d o c k x i).st := by
  unfold dmaOut
  dsimp only
  split
  · exact h
  · split
    · exact h
    · simp [h]

@[simp] theorem kept_execHostDma (h : Kept r s) : ResKept r (execHostDma p d s) := by
  refine resKept_next.2 (kept_mbStep (fun t m ht => ?_) h)
  extract_lets n q dir seq host dev len tal inc conf x u recs y v
  have hu : Kept r u := kept_setSec ht
  have hy : Kept r y.st := by
    unfold y
    split
    · split
      · exact hu
      · exact List.foldlRecOn (motive := fun y : Dma => Kept r y.st) _ _ hu fun _ hy _ _ => kept_of_dmaIn hy
    · exact List.foldlRecOn (motive := fun y : Dma => Kept r y.st) _ _ hu fun _ hy _ _ => kept_of_dmaOut hy
  have hv : Kept r v := kept_ctrAdd hy
  (repeat' split) <;> simp [ht, hv]

@[simp] theorem kept_execUpdateStage (h : Kept r s) : ResKept r (execUpdateStage b s) := by
  refine resKept_next.2 (kept_mbStep (fun t m ht => ?_) h)
  dsimp only
  (repeat' split) <;> simp (maxDischargeDepth := 6) [ht]

@[simp] theorem kept_execUpdateActivate (h : Kept r s) : ResKept r (execUpdateActivate s) := by
  refine resKept_next.2 (kept_mbStep (fun t m ht => ?_) h)
  dsimp only
  (repeat' split) <;> simp [ht]

@[simp] theorem kept_execUpdateCommit (h : Kept r s) : ResKept r (execUpdateCommit s) := by
  refine resKept_next.2 (kept_mbStep (fun t m ht => ?_) h)
  dsimp only
  (repeat' split) <;> simp [ht]

@[simp] theorem kept_execLayoutWrite (h : Kept r s) : ResKept r (execLayoutWrite i s) := by
  refine resKept_next.2 (kept_mbStep (fun t m ht => ?_) h)
  dsimp only
  (repeat' split) <;> simp [ht]

@[simp] theorem kept_execLifecycle (h : Kept r s) : ResKept r (execLifecycle s) := by
  refine resKept_next.2 (kept_mbStep (fun t m ht => ?_) h)
  dsimp only
  (repeat' split) <;> simp [ht]

@[simp] theorem kept_mailboxAct (h : Kept r s) : Kept r (mailboxAct s p o v) := by simp [mailboxAct, h]

/-! ### Kept: debug levels and attestation -/

@[simp] theorem kept_releaseHolds (h : Kept r s) : Kept r (releaseHolds s n) := by simp [releaseHolds, h]
@[simp] theorem kept_beginReset (h : Kept r s) : Kept r (beginReset s n) := by simp [beginReset, h]
@[simp] theorem kept_setLevel (h : Kept r s) : Kept r (setLevel s n l d) := by simp [setLevel, h]
@[simp] theorem kept_leaveDebug (h : Kept r s) : Kept r (leaveDebug s n) := by simp (maxDischargeDepth := 20) [leaveDebug, h]
@[simp] theorem kept_leaveD3 (h : Kept r s) : Kept r (leaveD3 s) := by simp +contextual [leaveD3, h]
@[simp] theorem kept_unlock (h : Kept r s) : Kept r (unlock s n l d) := by simp +contextual [unlock, h]

@[simp] theorem kept_execDebugUnlock (h : Kept r s) : ResKept r (execDebugUnlock p s) := by
  refine resKept_next.2 (kept_mbStep (fun t m ht => ?_) h)
  dsimp only
  (repeat' split) <;> simp [ht]

@[simp] theorem kept_execRelock (h : Kept r s) : ResKept r (execRelock p s) := by
  refine resKept_next.2 ?_
  split
  · split
    · exact h
    · refine kept_mbStep (fun t m ht => ?_) h
      dsimp only
      (repeat' split) <;> simp [ht]
  · exact h

@[simp] theorem kept_execDebugExpiry (h : Kept r s) : ResKept r (execDebugExpiry p s) := by
  unfold execDebugExpiry
  split <;> simp [h]

@[simp] theorem kept_execD2ArmedLapse (h : Kept r s) : ResKept r (execD2ArmedLapse s) := by simp [execD2ArmedLapse, h]
@[simp] theorem kept_enterD2 (h : Kept r s) : Kept r (enterD2 s n) := by simp [enterD2, h]
@[simp] theorem kept_exitD2 (h : Kept r s) : Kept r (exitD2 s n) := by simp [exitD2, h]
@[simp] theorem kept_debugResetDone (h : Kept r s) : Kept r (debugResetDone s n) := by simp [debugResetDone, h]
@[simp] theorem kept_traceEvent (h : Kept r s) : Kept r (traceEvent s n c s2 c2 o st e s3 j) := by simp [traceEvent, h]
@[simp] theorem kept_debugAct (h : Kept r s) : Kept r (debugAct s p o v o2) := by simp [debugAct, h]
@[simp] theorem kept_atEnqueue (h : Kept r s) : Kept r (atEnqueue s n r2) := by simp (maxDischargeDepth := 20) [atEnqueue, h]

@[simp] theorem kept_atBegin (h : Kept r s) : Kept r (atBegin s) := by
  unfold atBegin
  dsimp only
  (repeat' split) <;> simp [h]

@[simp] theorem kept_atGo (h : Kept r s) : Kept r (atGo s n) := by simp [atGo, h]

@[simp] theorem kept_atSnapshot (h : Kept r s) : Kept r (atSnapshot s n) := by
  unfold atSnapshot
  split <;> simp [h]

@[simp] theorem kept_atTickEnd (h : Kept r s) : Kept r (atTickEnd s) := by
  unfold atTickEnd
  (repeat' split) <;> simp [h]

@[simp] theorem kept_atSpoil (h : Kept r s) : Kept r (atSpoil s s2) := by
  unfold atSpoil
  refine foldl_kept (fun t x ht => ?_) h
  dsimp only
  (repeat' split) <;> simp [ht]

@[simp] theorem kept_bulkFragments (h : Kept r s) : Kept r (bulkFragments s s2 p d) := by simp +contextual [bulkFragments, h]

@[simp] theorem kept_atDeliver (h : Kept r s) : Kept r (atDeliver s n st t k) := by
  unfold atDeliver
  extract_lets pg u v
  have hu : Kept r u := foldl_kept (fun _ _ ht => kept_setReg ht) h
  have hv : Kept r v := kept_setReg (kept_setReg hu)
  simp [hv]

@[simp] theorem kept_atDeliverMate (h : Kept r s) : Kept r (atDeliverMate s st r2) := by simp [atDeliverMate, h]

@[simp] theorem kept_atFinish (h : Kept r s) : Kept r (atFinish s n st r2 s2) := by
  unfold atFinish
  dsimp only
  (repeat' split) <;> simp (maxDischargeDepth := 20) [h]

@[simp] theorem kept_execAttestComplete (h : Kept r s) : ResKept r (execAttestComplete p s2 s) := by
  unfold execAttestComplete
  dsimp only
  (repeat' split) <;> simp (maxDischargeDepth := 20) [h]

@[simp] theorem kept_attestAct (h : Kept r s) : Kept r (attestAct s p o v) := by simp [attestAct, h]

/-! ### Kept: commands on the cores, to RUN -/

@[simp] theorem kept_stopRun (h : Kept r s) : Kept r (stopRun s k s2 q st o) := by simp [stopRun, h]
@[simp] theorem kept_computeRun (h : Kept r s) : Kept r (computeRun s k s2 q) := by simp [computeRun, h]

@[simp] theorem kept_pinRun (h : Kept r s) : Kept r (pinRun s k q a es) := by
  unfold pinRun
  dsimp only
  (repeat' split) <;> simp (maxDischargeDepth := 20) [h]

@[simp] theorem kept_appendStep (h : Kept r s) : Kept r (appendStep s k) := by
  unfold appendStep
  split
  · exact h
  · next c _ =>
    dsimp only
    split
    · exact h
    · split
      · exact h
      · next o _ _ =>
        have hx : Kept r (((appendRows (runTable s c)).drop o.append.length).foldl
            (appendOne c.offer.part (aDesc c.offer.desc) ((aDesc c.offer.desc).head % 8)
              (fun i => (List.range (i + 1)).all fun j => rowPresent s c 0 j && !(c.badRows.contains (0, j))) (appendRowBytes s k c))
            ⟨s, o.append, none, false⟩).st :=
          List.foldlRecOn (motive := fun x : AppendSt => Kept r x.st) _ _ h fun _ hx _ _ => kept_of_appendOne hx
        split
        · exact kept_setCur hx
        · refine kept_setCur ?_
          split
          · exact kept_setFlag hx
          · exact hx

@[simp] theorem kept_appendRun (h : Kept r s) : Kept r (appendRun s k q) := by simp (maxDischargeDepth := 20) [appendRun, h]
@[simp] theorem kept_resumeAppends (h : Kept r s) : Kept r (resumeAppends s) := by simp +contextual [resumeAppends, h]
@[simp] theorem kept_beginA (h : Kept r s) : Kept r (beginA s k s2 q) := by simp [beginA, h]

@[simp] theorem kept_beginRun (h : Kept r s) : Kept r (beginRun s k s2) := by
  unfold beginRun
  dsimp only
  (repeat' split) <;> simp [h]

@[simp] theorem kept_openWindows (h : Kept r s) : Kept r (openWindows s o ms) := by
  unfold openWindows
  split
  · exact h
  · exact foldl_kept (fun t w ht => by split <;> simp [ht]) h

@[simp] theorem kept_markIssued (h : Kept r s) : Kept r (markIssued s o) := by
  unfold markIssued
  split <;> simp [h]

@[simp] theorem kept_traceCmd (h : Kept r s) : Kept r (traceCmd s k o st e) := by simp [traceCmd, h]

@[simp] theorem kept_acceptCmd (h : Kept r s) : Kept r (acceptCmd s k s2 o) := by
  unfold acceptCmd
  split <;> simp (maxDischargeDepth := 20) [h]

@[simp] theorem kept_rejectCmd (h : Kept r s) : Kept r (rejectCmd s k s2 o st) := by simp (maxDischargeDepth := 20) [rejectCmd, h]

@[simp] theorem kept_issueOffer (h : Kept r s) : Kept r (issueOffer s k s2 o) := by
  unfold issueOffer
  (repeat' split) <;> simp [h]

@[simp] theorem kept_issueRow (h : Kept r s) : ResKept r (issueRow k is op s) := by
  refine resKept_next.2 (foldl_kept (fun t i ht => ?_) h)
  split
  · split <;> simp [ht]
  · exact ht

@[simp] theorem kept_execMNop (h : Kept r s) : ResKept r (execMNop c s) := by simp [execMNop, h]
@[simp] theorem kept_execGemm (h : Kept r s) : ResKept r (execGemm c s) := by simp [execGemm, h]
@[simp] theorem kept_execConv (h : Kept r s) : ResKept r (execConv c s) := by simp [execConv, h]
@[simp] theorem kept_execWino3 (h : Kept r s) : ResKept r (execWino3 c s) := by simp [execWino3, h]
@[simp] theorem kept_execVNop (h : Kept r s) : ResKept r (execVNop c s) := by simp [execVNop, h]
@[simp] theorem kept_execMap (h : Kept r s) : ResKept r (execMap c s) := by simp [execMap, h]
@[simp] theorem kept_execBinary (h : Kept r s) : ResKept r (execBinary c s) := by simp [execBinary, h]
@[simp] theorem kept_execReduce (h : Kept r s) : ResKept r (execReduce c s) := by simp [execReduce, h]
@[simp] theorem kept_execNorm (h : Kept r s) : ResKept r (execNorm c s) := by simp [execNorm, h]
@[simp] theorem kept_execSoftmax (h : Kept r s) : ResKept r (execSoftmax c s) := by simp [execSoftmax, h]
@[simp] theorem kept_execConvert (h : Kept r s) : ResKept r (execConvert c s) := by simp [execConvert, h]
@[simp] theorem kept_execDebayer (h : Kept r s) : ResKept r (execDebayer c s) := by simp [execDebayer, h]
@[simp] theorem kept_execResample (h : Kept r s) : ResKept r (execResample c s) := by simp [execResample, h]
@[simp] theorem kept_execGather (h : Kept r s) : ResKept r (execGather c s) := by simp [execGather, h]
@[simp] theorem kept_execANop (h : Kept r s) : ResKept r (execANop c s2 s) := by simp [execANop, h]
@[simp] theorem kept_execAttn (h : Kept r s) : ResKept r (execAttn c s) := by simp [execAttn, h]
@[simp] theorem kept_execKvAppend (h : Kept r s) : ResKept r (execKvAppend c s) := by simp [execKvAppend, h]
@[simp] theorem kept_execAttnMerge (h : Kept r s) : ResKept r (execAttnMerge c s) := by simp [execAttnMerge, h]
@[simp] theorem kept_execAttnBwd (h : Kept r s) : ResKept r (execAttnBwd c s) := by simp [execAttnBwd, h]
@[simp] theorem kept_execFNop (h : Kept r s) : ResKept r (execFNop c s) := by simp [execFNop, h]
@[simp] theorem kept_execLift (h : Kept r s) : ResKept r (execLift c s) := by simp [execLift, h]
@[simp] theorem kept_execVoxel (h : Kept r s) : ResKept r (execVoxel c s) := by simp [execVoxel, h]
@[simp] theorem kept_execChan (h : Kept r s) : ResKept r (execChan c s) := by simp [execChan, h]
@[simp] theorem kept_execTNop (h : Kept r s) : ResKept r (execTNop c s) := by simp [execTNop, h]
@[simp] theorem kept_execPredict (h : Kept r s) : ResKept r (execPredict c s) := by simp [execPredict, h]
@[simp] theorem kept_execUpdate (h : Kept r s) : ResKept r (execUpdate c s) := by simp [execUpdate, h]
@[simp] theorem kept_execBirth (h : Kept r s) : ResKept r (execBirth c s) := by simp [execBirth, h]
@[simp] theorem kept_execTrkRead (h : Kept r s) : ResKept r (execTrkRead c s) := by simp [execTrkRead, h]
@[simp] theorem kept_execTrkWrite (h : Kept r s) : ResKept r (execTrkWrite c s) := by simp [execTrkWrite, h]
@[simp] theorem kept_execAssign (h : Kept r s) : ResKept r (execAssign c s) := by simp [execAssign, h]
@[simp] theorem kept_execLNop (h : Kept r s) : ResKept r (execLNop c s) := by simp [execLNop, h]
@[simp] theorem kept_execWave (h : Kept r s) : ResKept r (execWave c s) := by simp [execWave, h]
@[simp] theorem kept_execCheck (h : Kept r s) : ResKept r (execCheck c s) := by simp [execCheck, h]
@[simp] theorem kept_execStop (h : Kept r s) : ResKept r (execStop c s) := by simp [execStop, h]
@[simp] theorem kept_execSelect (h : Kept r s) : ResKept r (execSelect c s) := by simp [execSelect, h]

@[simp] theorem kept_execTallyWaitRelease (h : Kept r s) : ResKept r (execTallyWaitRelease k s2 s) := by
  unfold execTallyWaitRelease
  split <;> simp [h]

@[simp] theorem kept_execRowPush (h : Kept r s) : ResKept r (execRowPush k s2 c s) := by
  unfold execRowPush
  dsimp only
  (repeat' split) <;> simp [h]

@[simp] theorem kept_putFace (h : Kept r s) : Kept r (putFace s k bs) := by
  induction bs generalizing s k with
  | nil => exact h
  | cons b bs ih => exact ih (by simp [h])

@[simp] theorem kept_landRow (h : Kept r s) : Kept r (landRow s j c c2 r2 r3 k) := by
  unfold landRow
  refine foldl_kept (fun t x ht => ?_) h
  dsimp only
  (repeat' split) <;> simp [ht]

@[simp] theorem kept_execRowLanded (h : Kept r s) : ResKept r (execRowLanded k i c s) := by
  refine resKept_next.2 ?_
  split
  · exact h
  · split
    · split
      · exact h
      · exact foldl_kept (fun _ _ ht => kept_appendStep ht) (kept_tallyAdd (foldl_kept (fun _ _ ht => kept_landRow ht) (kept_setCur h)))
    · exact h

/-! ### Kept: the end of a command -/

@[simp] theorem kept_diagReg (h : Kept r s) : Kept r (diagReg s k k2 s2) := by simp [diagReg, h]

@[simp] theorem kept_countSlot (h : Kept r s) : Kept r (countSlot s k s2 n) := by
  unfold countSlot
  split <;> simp [h]

@[simp] theorem kept_hwError (h : Kept r s) : Kept r (hwError s k s2 p e) := by
  unfold hwError
  dsimp only
  (repeat' split) <;> simp (maxDischargeDepth := 20) [h]

@[simp] theorem kept_writeOut (h : Kept r s) : Kept r (writeOut s p o) := by simp (maxDischargeDepth := 20) +contextual [writeOut, h]
@[simp] theorem kept_spoilOut (h : Kept r s) : Kept r (spoilOut s p o) := by simp (maxDischargeDepth := 20) +contextual [spoilOut, h]
@[simp] theorem kept_putTrack (h : Kept r s) : Kept r (putTrack s c x) := by simp [putTrack, h]
@[simp] theorem kept_kvJudge (h : Kept r s) : Kept r (kvJudge s m t2) := by simp (maxDischargeDepth := 20) [kvJudge, h]

@[simp] theorem kept_kvOwnDelta (h : Kept r s) : Kept r (kvOwnDelta s d) := by
  unfold kvOwnDelta
  dsimp only
  (repeat' split) <;> simp (maxDischargeDepth := 20) [h]

@[simp] theorem kept_kvDeltas (h : Kept r s) : Kept r (kvDeltas s q r2) := by simp +contextual [kvDeltas, h]

@[simp] theorem kept_takeTrack (h : Kept r s) : Kept r (takeTrack s c b) := by
  unfold takeTrack
  extract_lets i w t
  have ht : Kept r t := by simp (maxDischargeDepth := 4) [t, h]
  simp [ht]

@[simp] theorem kept_takeTracks (h : Kept r s) : Kept r (takeTracks s c) := by simp +contextual [takeTracks, h]
@[simp] theorem kept_trackDeltas (h : Kept r s) : Kept r (trackDeltas s c p o) := by simp (maxDischargeDepth := 20) +contextual [trackDeltas, h]
@[simp] theorem kept_countOk (h : Kept r s) : Kept r (countOk s k s2 o) := by simp +contextual [countOk, h]
@[simp] theorem kept_countBad (h : Kept r s) : Kept r (countBad s k o w) := by simp (maxDischargeDepth := 20) +contextual [countBad, h]

@[simp] theorem kept_countClocks (h : Kept r s) : Kept r (countClocks s k s2 c) := by
  unfold countClocks
  split <;> simp [h]

@[simp] theorem kept_jobAfter (h : Kept r s) : Kept r (jobAfter s q st) := by
  unfold jobAfter
  dsimp only
  (repeat' split) <;> simp [h]

@[simp] theorem kept_recordEnd (h : Kept r s) : Kept r (recordEnd s k s2 q o c st w) := by simp (maxDischargeDepth := 20) [recordEnd, h]

@[simp] theorem kept_earlyKick (h : Kept r s) : Kept r (earlyKick s q st) := by
  unfold earlyKick
  (repeat' split) <;> simp [h]

@[simp] theorem kept_bornBy (h : Kept r s) : Kept r (bornBy s k n) := by simp [bornBy, h]

@[simp] theorem kept_completeOk (h : Kept r s) : Kept r (completeOk s k q o) := by
  unfold completeOk
  dsimp only
  (repeat' split) <;> simp (maxDischargeDepth := 20) +contextual [*]

@[simp] theorem kept_completeBad (h : Kept r s) : Kept r (completeBad s k q o) := by
  unfold completeBad
  dsimp only
  (repeat' split) <;> simp (maxDischargeDepth := 20) +contextual [*]

@[simp] theorem kept_finishCmd (h : Kept r s) : Kept r (finishCmd s k s2 q c s3) := by
  unfold finishCmd
  dsimp only
  (repeat' split) <;> simp (maxDischargeDepth := 20) [h]

@[simp] theorem kept_setFb (h : Kept r s) : Kept r (setFb s k x) := by simp [setFb, h]
@[simp] theorem kept_endShadow (h : Kept r s) : Kept r (endShadow s k q c st) := by simp [endShadow, h]
@[simp] theorem kept_duplexEnd (h : Kept r s) : Kept r (duplexEnd s p q rp rq cp cq) := by simp (maxDischargeDepth := 20) [duplexEnd, h]
@[simp] theorem kept_endAlone (h : Kept r s) : Kept r (endAlone s k q c st) := by simp [endAlone, h]

@[simp] theorem kept_duplexStep (h : Kept r s) : Kept r (duplexStep s k q c e) := by
  unfold duplexStep
  (repeat' split) <;> simp [h]

@[simp] theorem kept_execCommandEnd (h : Kept r s) : ResKept r (execCommandEnd k s2 c e s) := by
  unfold execCommandEnd
  dsimp only
  (repeat' split) <;> simp (maxDischargeDepth := 20) [h]

@[simp] theorem kept_execAssignTimeout (h : Kept r s) : ResKept r (execAssignTimeout c s) := by
  unfold execAssignTimeout
  dsimp only
  (repeat' split) <;> simp [h]

/-! ### Kept: counters and dumps -/

@[simp] theorem kept_clearCounter (h : Kept r s) : Kept r (clearCounter s p s2) := by simp [clearCounter, h]
@[simp] theorem kept_clearRange (h : Kept r s) : Kept r (clearRange s w) := by simp +contextual [clearRange, h]
@[simp] theorem kept_skipDump (h : Kept r s) : Kept r (skipDump s) := by simp (maxDischargeDepth := 20) [skipDump, h]
@[simp] theorem kept_startDump (h : Kept r s) : Kept r (startDump s s2) := by simp [startDump, h]
@[simp] theorem kept_execDumpTrigger (h : Kept r s) : ResKept r (execDumpTrigger s) := by simp (maxDischargeDepth := 20) [execDumpTrigger, h]

@[simp] theorem kept_latchDump (h : Kept r s) : Kept r (latchDump s) := by
  unfold latchDump
  split <;> simp [h]

@[simp] theorem kept_snapDue (h : Kept r s) : Kept r (snapDue s) := by
  unfold snapDue
  split <;> simp [h]

@[simp] theorem kept_dumpStopped (h : Kept r s) : Kept r (dumpStopped s) := by simp [dumpStopped, h]

@[simp] theorem kept_execDumpComplete (h : Kept r s) : ResKept r (execDumpComplete st s) := by
  unfold execDumpComplete
  split <;> simp (maxDischargeDepth := 20) [h]

@[simp] theorem kept_execCrSweep (h : Kept r s) : ResKept r (execCrSweep s2 s) := by
  unfold execCrSweep
  dsimp only
  (repeat' split) <;> simp (maxDischargeDepth := 20) [h]

@[simp] theorem kept_cdEnable (h : Kept r s) : Kept r (cdEnable s en) := by simp (maxDischargeDepth := 20) [cdEnable, h]

@[simp] theorem kept_execThresholdHit (h : Kept r s) : ResKept r (execThresholdHit p u s) := by
  unfold execThresholdHit
  dsimp only
  (repeat' split) <;> simp [h]

@[simp] theorem kept_execThresholdSample (h : Kept r s) : ResKept r (execThresholdSample p u s) := by
  unfold execThresholdSample
  dsimp only
  (repeat' split) <;> simp (maxDischargeDepth := 20) [h]

@[simp] theorem kept_countAct (h : Kept r s) : Kept r (countAct s p o v o2) := by
  unfold countAct
  dsimp only
  (repeat' split) <;> simp [h]

/-! ### Kept: Foxglove -/

@[simp] theorem kept_sendFrame (h : Kept r s) : Kept r (sendFrame s f2) := by simp (maxDischargeDepth := 20) [sendFrame, h]
@[simp] theorem kept_releaseSafe (h : Kept r s) : Kept r (releaseSafe s ch s2) := by simp [releaseSafe, h]
@[simp] theorem kept_releaseComputed (h : Kept r s) : Kept r (releaseComputed s ch st) := by simp [releaseComputed, h]

@[simp] theorem kept_fxLatch (h : Kept r s) : Kept r (fxLatch s ch).1 := by
  unfold fxLatch
  dsimp only
  (repeat' split) <;> simp (maxDischargeDepth := 20) [h]

@[simp] theorem kept_adoptRecord (h : Kept r s) : Kept r (adoptRecord s c).1 := by
  unfold adoptRecord
  dsimp only
  (repeat' split) <;> simp (maxDischargeDepth := 20) [h]

@[simp] theorem kept_fxReference (h : Kept r s) : Kept r (fxReference s ch n).1 := by
  unfold fxReference
  dsimp only
  (repeat' split) <;> simp [h]

@[simp] theorem kept_setPool (h : Kept r s) : Kept r (setPool s ch k v) := by simp [setPool, h]

@[simp] theorem kept_fxTakeMirror (h : Kept r s) : Kept r (fxTakeMirror s ch n) := by
  unfold fxTakeMirror
  dsimp only
  (repeat' split) <;> simp (maxDischargeDepth := 20) [h]

@[simp] theorem kept_fxCompute (h : Kept r s) : Kept r (fxCompute s ch n) := by
  unfold fxCompute
  dsimp only
  (repeat' split) <;> simp (maxDischargeDepth := 20) [h]

@[simp] theorem kept_fxChecked (h : Kept r s) : Kept r (fxChecked s ch n e) := by
  unfold fxChecked
  split <;> simp (maxDischargeDepth := 20) [h]

@[simp] theorem kept_fxSample (h : Kept r s) : Kept r (fxSample s ch n e) := by simp (maxDischargeDepth := 20) [fxSample, h]

@[simp] theorem kept_fxTick (h : Kept r s) : Kept r (fxTick s ch t2 e) := by
  unfold fxTick
  dsimp only
  (repeat' split) <;> simp (maxDischargeDepth := 20) [h]

@[simp] theorem kept_execChannelTick (h : Kept r s) : ResKept r (execChannelTick ch t2 e s) := by simp [execChannelTick, h]
@[simp] theorem kept_execSpiTransactionStart (h : Kept r s) : ResKept r (execSpiTransactionStart ch s) := by simp [execSpiTransactionStart, h]
@[simp] theorem kept_execSpiResponseComplete (h : Kept r s) : ResKept r (execSpiResponseComplete ch d s) := by simp [execSpiResponseComplete, h]
@[simp] theorem kept_fxReceive (h : Kept r s) : Kept r (fxReceive s s2 u ok m p) := by simp +contextual [fxReceive, h]
@[simp] theorem kept_countFrame (h : Kept r s) : Kept r (countFrame s p ok) := by simp [countFrame, h]

@[simp] theorem kept_execCanFrameReceived (h : Kept r s) : ResKept r (execCanFrameReceived c q p c2 s) := by
  unfold execCanFrameReceived
  (repeat' split) <;> simp [h]

@[simp] theorem kept_execT1sFrameReceived (h : Kept r s) : ResKept r (execT1sFrameReceived p e p2 f2 s) := by simp [execT1sFrameReceived, h]
@[simp] theorem kept_ccSuspectEnter (h : Kept r s) : Kept r (ccSuspectEnter s c) := by simp [ccSuspectEnter, h]
@[simp] theorem kept_fxClear (h : Kept r s) : Kept r (fxClear s ch) := by simp [fxClear, h]
@[simp] theorem kept_rcAdvance (h : Kept r s) : Kept r (rcAdvance s p) := by simp [rcAdvance, h]

@[simp] theorem kept_fxAct (h : Kept r s) : Kept r (fxAct s p o v) := by
  unfold fxAct
  dsimp only
  (repeat' split) <;> simp (maxDischargeDepth := 20) [h]

@[simp] theorem kept_ccReset (h : Kept r s) : Kept r (ccReset s c) := by simp [ccReset, h]

/-! ### Kept: submission rings and jobs -/

@[simp] theorem kept_admitOne (h : Kept r s) : Kept r (admitOne s p) := by simp (maxDischargeDepth := 20) [admitOne, h]

@[simp] theorem kept_admitSome (h : Kept r s) : Kept r (admitSome p n s) := by
  induction n generalizing s with
  | zero => exact h
  | succ n ih => exact ih (kept_admitOne h)

@[simp] theorem kept_execRingScan (h : Kept r s) : ResKept r (execRingScan p s) := by simp (maxDischargeDepth := 20) [execRingScan, h]

@[simp] theorem kept_finishEntry (h : Kept r s) : Kept r (finishEntry s p e j st) := by
  unfold finishEntry
  split <;> simp (maxDischargeDepth := 20) [h]

@[simp] theorem kept_execJobRun (h : Kept r s) : ResKept r (execJobRun p e s) := by
  unfold execJobRun
  (repeat' split) <;> simp (maxDischargeDepth := 20) [h]

@[simp] theorem kept_cancelJob (h : Kept r s) : Kept r (cancelJob s p s2 t2).1 := by
  unfold cancelJob
  dsimp only
  (repeat' split) <;> simp [h]

@[simp] theorem kept_execJobCancel (h : Kept r s) : ResKept r (execJobCancel p e s) := by
  unfold execJobCancel
  dsimp only
  (repeat' split) <;> simp (maxDischargeDepth := 20) [h]

theorem kept_of_takeStreams (h : Kept r s) (e : takeStreams s p key k ws = some u) : Kept r u := by
  induction ws generalizing s with
  | nil => cases e; exact h
  | cons w ws ih =>
    unfold takeStreams at e
    split at e
    · cases e
    · exact ih (kept_setPf h) e

@[simp] theorem kept_startWork (h : Kept r s) : Kept r (startWork s p key j).1 := by
  unfold startWork
  extract_lets rs ch ws t
  have ht : Kept r t := by simp [t, h]
  split
  · exact h
  · split
    · extract_lets st stages k
      split
      · exact h
      · split
        · exact h
        · next e => exact kept_setJob (kept_of_takeStreams ht e)
    · exact h
    · exact h

@[simp] theorem kept_execJobStartWork (h : Kept r s) : ResKept r (execJobStartWork p e s) := by
  unfold execJobStartWork
  split <;> simp [h]

@[simp] theorem kept_withdrawCmds (h : Kept r s) : Kept r (withdrawCmds s k j) := by
  unfold withdrawCmds
  refine foldl_kept (fun t x ht => ?_) h
  dsimp only
  (repeat' split) <;> simp [ht]

@[simp] theorem kept_suspendJob (h : Kept r s) : Kept r (suspendJob s k) := by
  unfold suspendJob
  split <;> simp (maxDischargeDepth := 20) [h]

@[simp] theorem kept_claimCores (h : Kept r s) : Kept r (claimCores s j) := by simp (maxDischargeDepth := 20) +contextual [claimCores, h]
@[simp] theorem kept_startJob (h : Kept r s) : Kept r (startJob s k j) := by simp (maxDischargeDepth := 20) +contextual [startJob, h]

@[simp] theorem kept_execJobStart (h : Kept r s) : ResKept r (execJobStart p e s) := by
  unfold execJobStart
  split <;> simp [h]

@[simp] theorem kept_execSuspensionComplete (h : Kept r s) : ResKept r (execSuspensionComplete p e s) := by
  unfold execSuspensionComplete
  dsimp only
  (repeat' split) <;> simp [h]

@[simp] theorem kept_execSuspensionTimeout (h : Kept r s) : ResKept r (execSuspensionTimeout p e s2 s) := by
  unfold execSuspensionTimeout
  dsimp only
  (repeat' split) <;> simp [h]

@[simp] theorem kept_execJobResume (h : Kept r s) : ResKept r (execJobResume p e s) := by
  unfold execJobResume
  dsimp only
  (repeat' split) <;> simp (maxDischargeDepth := 20) [h]

@[simp] theorem kept_countQuiet (h : Kept r s) : Kept r (countQuiet s k s2) := by simp [countQuiet, h]

@[simp] theorem kept_putOffer (h : Kept r s) : Kept r (putOffer s k s2 o) := by
  unfold putOffer
  dsimp only
  (repeat' split) <;> simp (maxDischargeDepth := 20) [h]

@[simp] theorem kept_offerCmd (h : Kept r s) : Kept r (offerCmd s k s2 k2 j i x) := by
  unfold offerCmd
  dsimp only
  (repeat' split) <;> simp [h]

@[simp] theorem kept_execCommandOffer (h : Kept r s) : ResKept r (execCommandOffer k s2 s) := by
  unfold execCommandOffer
  split <;> simp [h]

@[simp] theorem kept_endJobWaits (h : Kept r s) : Kept r (endJobWaits s k j) := by simp +contextual [endJobWaits, h]
@[simp] theorem kept_endSilently (h : Kept r s) : Kept r (endSilently s k) := by simp (maxDischargeDepth := 20) [endSilently, h]

@[simp] theorem kept_execJobEnd (h : Kept r s) : ResKept r (execJobEnd p e s) := by
  unfold execJobEnd
  dsimp only
  (repeat' split) <;> simp [h]

@[simp] theorem kept_jobsResetBegin (h : Kept r s) : Kept r (jobsResetBegin s n) := by
  unfold jobsResetBegin
  refine foldl_kept (fun t x ht => ?_) h
  dsimp only
  (repeat' split) <;> simp [ht]

@[simp] theorem kept_jobsResetEnd (h : Kept r s) : Kept r (jobsResetEnd s n) := by simp (maxDischargeDepth := 20) +contextual [jobsResetEnd, h]

/-! ### Kept: the roster -/

@[simp] theorem kept_roLoad (h : Kept r s) : Kept r (roLoad s) := by
  unfold roLoad
  extract_lets x t
  have ht : Kept r t := by simp [t, h]
  split
  · simp (maxDischargeDepth := 6) [h]
  · simp [ht]

@[simp] theorem kept_setRoState (h : Kept r s) : Kept r (setRoState s n) := by simp [setRoState, h]
@[simp] theorem kept_roEnable (h : Kept r s) : Kept r (roEnable s en) := by simp (maxDischargeDepth := 20) [roEnable, h]

@[simp] theorem kept_quietSwitch (h : Kept r s) : Kept r (quietSwitch s q) := by
  unfold quietSwitch
  split <;> simp [h]

@[simp] theorem kept_beginFrame (h : Kept r s) : Kept r (beginFrame s s2) := by simp (maxDischargeDepth := 20) [beginFrame, h]
@[simp] theorem kept_execRosterOriginReached (h : Kept r s) : ResKept r (execRosterOriginReached s) := by simp [execRosterOriginReached, h]
@[simp] theorem kept_execMajorFrameBoundary (h : Kept r s) : ResKept r (execMajorFrameBoundary s) := by simp [execMajorFrameBoundary, h]
@[simp] theorem kept_rebase (h : Kept r s) : Kept r (rebase s p) := by simp [rebase, h]
@[simp] theorem kept_giveCore (h : Kept r s) : Kept r (giveCore s k p l) := by simp (maxDischargeDepth := 20) [giveCore, h]
@[simp] theorem kept_endWindow (h : Kept r s) : Kept r (endWindow s g) := by simp (maxDischargeDepth := 20) +contextual [endWindow, h]
@[simp] theorem kept_windowPast (h : Kept r s) : Kept r (windowPast s c) := by simp [windowPast, h]
@[simp] theorem kept_beginWindow (h : Kept r s) : Kept r (beginWindow s e s2) := by simp (maxDischargeDepth := 20) +contextual [beginWindow, h]
@[simp] theorem kept_beginEntry (h : Kept r s) : Kept r (beginEntry s i e) := by simp (maxDischargeDepth := 20) [beginEntry, h]

@[simp] theorem kept_execRosterBoundary (h : Kept r s) : ResKept r (execRosterBoundary s) := by
  simp (maxDischargeDepth := 20) +contextual [execRosterBoundary, h]

@[simp] theorem kept_roAct (h : Kept r s) : Kept r (roAct s p o v) := by simp [roAct, h]

/-! ### Kept: Fireboss -/

@[simp] theorem kept_diagCore (h : Kept r s) : Kept r (diagCore s k k2 s2) := by simp [diagCore, h]

@[simp] theorem kept_endMarked (h : Kept r s) : Kept r (endMarked s k s2) := by
  unfold endMarked
  split <;> simp (maxDischargeDepth := 20) [h]

@[simp] theorem kept_judgeMark (h : Kept r s) : Kept r (judgeMark s k) := by simp [judgeMark, h]
@[simp] theorem kept_markNow (h : Kept r s) : Kept r (markNow s k) := by simp (maxDischargeDepth := 20) +contextual [markNow, h]
@[simp] theorem kept_markCore (h : Kept r s) : Kept r (markCore s k) := by simp [markCore, h]

@[simp] theorem kept_bootJudge (h : Kept r s) : Kept r (bootJudge s) := by
  unfold bootJudge
  dsimp only
  (repeat' split) <;> simp (maxDischargeDepth := 20) +contextual [*]

@[simp] theorem kept_lockstepMiss (h : Kept r s) : Kept r (lockstepMiss s c) := by simp (maxDischargeDepth := 20) [lockstepMiss, h]
@[simp] theorem kept_execStartupChecks (h : Kept r s) : ResKept r (execStartupChecks q s) := by simp +contextual [execStartupChecks, h]
@[simp] theorem kept_checksDone (h : Kept r s) : Kept r (checksDone s q) := by simp [checksDone, h]

@[simp] theorem kept_execStartupCheckResult (h : Kept r s) : ResKept r (execStartupCheckResult c p s) := by
  unfold execStartupCheckResult
  dsimp only
  (repeat' split) <;> simp (maxDischargeDepth := 20) [h]

@[simp] theorem kept_execWatchdogExpiry (h : Kept r s) : ResKept r (execWatchdogExpiry q n s) := by
  unfold execWatchdogExpiry
  dsimp only
  (repeat' split) <;> simp [h]

@[simp] theorem kept_canaryOut (h : Kept r s) : Kept r (canaryOut s o st) := by simp [canaryOut, h]
@[simp] theorem kept_canaryFailed (h : Kept r s) : Kept r (canaryFailed s st) := by simp (maxDischargeDepth := 20) [canaryFailed, h]

@[simp] theorem kept_execCanaryStart (h : Kept r s) : ResKept r (execCanaryStart s) := by
  refine resKept_next.2 ?_
  split
  · exact h
  · split
    · exact h
    · extract_lets _ t _ _ j
      have ht : Kept r t := by simp [t, h]
      split
      · exact kept_canaryFailed (by simp [ht])
      · split
        · exact h
        · split
          · exact h
          · extract_lets k u
            have hu : Kept r u := kept_setJob (by simp [ht])
            simp [hu]

@[simp] theorem kept_execCanaryCompare (h : Kept r s) : ResKept r (execCanaryCompare s) := by
  unfold execCanaryCompare
  dsimp only
  (repeat' split) <;> simp (maxDischargeDepth := 20) [h]

@[simp] theorem kept_execCanaryMissing (h : Kept r s) : ResKept r (execCanaryMissing s) := by simp [execCanaryMissing, h]
@[simp] theorem kept_execSliceDuePoint (h : Kept r s) : ResKept r (execSliceDuePoint k s) := by simp [execSliceDuePoint, h]
@[simp] theorem kept_passDuePoints (h : Kept r s) : Kept r (passDuePoints s) := by simp +contextual [passDuePoints, h]

@[simp] theorem kept_execSelftestSliceStart (h : Kept r s) : ResKept r (execSelftestSliceStart k s) := by
  unfold execSelftestSliceStart
  dsimp only
  (repeat' split) <;> simp +contextual [*]

@[simp] theorem kept_digOdd (h : Kept r s) : Kept r (digOdd s) := by simp [digOdd, h]
@[simp] theorem kept_leaveSlice (h : Kept r s) : Kept r (leaveSlice s k st) := by simp +contextual [leaveSlice, h]
@[simp] theorem kept_slicePassed (h : Kept r s) : Kept r (slicePassed s k i s2) := by simp (maxDischargeDepth := 20) [slicePassed, h]
@[simp] theorem kept_digestSliceEnd (h : Kept r s) : Kept r (digestSliceEnd s k) := by simp (maxDischargeDepth := 20) [digestSliceEnd, h]

@[simp] theorem kept_execSelftestSliceEnd (h : Kept r s) : ResKept r (execSelftestSliceEnd k p s) := by
  unfold execSelftestSliceEnd
  split <;> simp (maxDischargeDepth := 20) [h]

@[simp] theorem kept_execCoverageDebt (h : Kept r s) : ResKept r (execCoverageDebt k s) := by simp [execCoverageDebt, h]
@[simp] theorem kept_quietStatus (h : Kept r s) : Kept r (quietStatus s q st) := by simp [quietStatus, h]

@[simp] theorem kept_loadQuiet (h : Kept r s) : Kept r (loadQuiet s q) := by
  unfold loadQuiet
  dsimp only
  (repeat' split) <;> simp [h]

@[simp] theorem kept_digReload (h : Kept r s) : Kept r (digReload s n e) := by simp +contextual [digReload, h]

@[simp] theorem kept_digMove (h : Kept r s) : Kept r (digMove s n v) := by
  unfold digMove
  dsimp only
  split
  · exact h
  · split
    · next e => exact kept_of_beginMove (kept_dropTo h) e
    · exact kept_dropTo h

@[simp] theorem kept_digBegin (h : Kept r s) : Kept r (digBegin s k p o) := by simp [digBegin, h]
@[simp] theorem kept_digJudge (h : Kept r s) : Kept r (digJudge s n i e o) := by simp (maxDischargeDepth := 20) +contextual [digJudge, h]

@[simp] theorem kept_digPart (h : Kept r s) : Kept r (digPart o s n) := by
  unfold digPart
  dsimp only
  (repeat' split) <;> simp (maxDischargeDepth := 20) [h]

@[simp] theorem kept_execDigestRound (h : Kept r s) : ResKept r (execDigestRound o s) := by
  simp (maxDischargeDepth := 20) +contextual [execDigestRound, h]

@[simp] theorem kept_bothSilent (h : Kept r s) : Kept r (bothSilent s) := by simp [bothSilent, h]

@[simp] theorem kept_execStackHeartbeatLoss (h : Kept r s) : ResKept r (execStackHeartbeatLoss c h2 s) := by
  simp (maxDischargeDepth := 20) [execStackHeartbeatLoss, h]

@[simp] theorem kept_execBothStacksSilent (h : Kept r s) : ResKept r (execBothStacksSilent s) := by simp [execBothStacksSilent, h]

@[simp] theorem kept_execFirebossLockstepMismatch (h : Kept r s) : ResKept r (execFirebossLockstepMismatch q s) := by
  simp [execFirebossLockstepMismatch, h]

@[simp] theorem kept_fbAct (h : Kept r s) : Kept r (fbAct s p o v o2) := by simp [fbAct, h]

/-! ### Kept: the Tally pages -/

@[simp] theorem kept_evalWatches (h : Kept r s) : Kept r (evalWatches s) := by simp [evalWatches, h]

@[simp] theorem kept_execTallyWatchHit (h : Kept r s) : ResKept r (execTallyWatchHit p n s) := by
  simp (maxDischargeDepth := 20) [execTallyWatchHit, h]

@[simp] theorem kept_tallyParity (h : Kept r s) : Kept r (tallyParity s k) := by simp (maxDischargeDepth := 20) [tallyParity, h]
@[simp] theorem kept_tlAct (h : Kept r s) : Kept r (tlAct s p o v) := by simp [tlAct, h]
@[simp] theorem kept_tlReset (h : Kept r s) : Kept r (tlReset s k) := by simp +contextual [tlReset, h]

/-! ### Kept: the Vuvon link -/

@[simp] theorem kept_setVl (h : Kept r s) : Kept r (setVl s x) := by simp [setVl, h]
@[simp] theorem kept_ceaseFollow (h : Kept r s) : Kept r (ceaseFollow s) := by simp [ceaseFollow, h]
@[simp] theorem kept_linkTo (h : Kept r s) : Kept r (linkTo s st) := by simp [linkTo, h]
@[simp] theorem kept_linkDrop (h : Kept r s) : Kept r (linkDrop s st) := by simp [linkDrop, h]
@[simp] theorem kept_linkAuthFail (h : Kept r s) : Kept r (linkAuthFail s) := by simp [linkAuthFail, h]
@[simp] theorem kept_unalignable (h : Kept r s) : Kept r (unalignable s) := by simp [unalignable, h]
@[simp] theorem kept_snapTracks (h : Kept r s) : Kept r (snapTracks s c) := by simp +contextual [snapTracks, h]
@[simp] theorem kept_snapPool (h : Kept r s) : Kept r (snapPool s c) := by simp +contextual [snapPool, h]
@[simp] theorem kept_snapshot (h : Kept r s) : Kept r (snapshot s) := by simp (maxDischargeDepth := 20) +contextual [snapshot, h]
@[simp] theorem kept_enterResync (h : Kept r s) : Kept r (enterResync s) := by simp [enterResync, h]
@[simp] theorem kept_takeover (h : Kept r s) : Kept r (takeover s c) := by simp (maxDischargeDepth := 20) [takeover, h]
@[simp] theorem kept_execHeartbeatLoss (h : Kept r s) : ResKept r (execHeartbeatLoss s) := by simp [execHeartbeatLoss, h]
@[simp] theorem kept_execLifeInEdge (h : Kept r s) : ResKept r (execLifeInEdge s) := by simp [execLifeInEdge, h]
@[simp] theorem kept_execLifeInLoss (h : Kept r s) : ResKept r (execLifeInLoss s) := by simp [execLifeInLoss, h]
@[simp] theorem kept_pairSource (h : Kept r s) : Kept r (pairSource s) := by simp [pairSource, h]
@[simp] theorem kept_execJoinTimeout (h : Kept r s) : ResKept r (execJoinTimeout s) := by simp [execJoinTimeout, h]
@[simp] theorem kept_execLifeOutToggle (h : Kept r s) : ResKept r (execLifeOutToggle s) := by simp [execLifeOutToggle, h]
@[simp] theorem kept_countNak (h : Kept r s) : Kept r (countNak s) := by simp [countNak, h]
@[simp] theorem kept_refuseFlit (h : Kept r s) : Kept r (refuseFlit s t2) := by simp (maxDischargeDepth := 20) [refuseFlit, h]
@[simp] theorem kept_takeAck (h : Kept r s) : Kept r (takeAck s a n) := by simp [takeAck, h]

@[simp] theorem kept_takeFlit (h : Kept r s) : Kept r (takeFlit s s2 h2 a) := by
  unfold takeFlit
  dsimp only
  (repeat' split) <;> simp (maxDischargeDepth := 20) [h]

@[simp] theorem kept_execFlitReceived (h : Kept r s) : ResKept r (execFlitReceived c f2 b s) := by
  unfold execFlitReceived
  dsimp only
  (repeat' split) <;> simp (maxDischargeDepth := 20) [h]

@[simp] theorem kept_execLinkDown (h : Kept r s) : ResKept r (execLinkDown s) := by simp (maxDischargeDepth := 20) [execLinkDown, h]

@[simp] theorem kept_drainLink (h : Kept r s) : Kept r (drainLink s) := by
  unfold drainLink
  split
  · exact h
  · extract_lets
    refine ite_kept.2 ⟨fun _ => kept_linkTo ?_, fun _ => ?_⟩ <;> exact kept_ctrAdd (kept_ctrAdd (kept_setVl h))

@[simp] theorem kept_execLinkTrained (h : Kept r s) : ResKept r (execLinkTrained s) := by simp (maxDischargeDepth := 20) [execLinkTrained, h]
@[simp] theorem kept_dropMsg (h : Kept r s) : Kept r (dropMsg s m) := by simp [dropMsg, h]

@[simp] theorem kept_onMsg_of {f : State → Msg → State} (hf : ∀ t m, Kept r t → Kept r (f t m)) (h : Kept r s) : Kept r (onMsg s c d f) := by
  unfold onMsg; split
  · exact hf _ _ (by simp [h])
  · exact h

@[simp] theorem kept_beatNow (h : Kept r s) : Kept r (beatNow s) := by simp [beatNow, h]
@[simp] theorem kept_execHello (h : Kept r s) : ResKept r (execHello s) := by simp (maxDischargeDepth := 20) +contextual [execHello, h]
@[simp] theorem kept_enterAlign (h : Kept r s) : Kept r (enterAlign s f2) := by simp (maxDischargeDepth := 20) [enterAlign, h]
@[simp] theorem kept_execConfirm (h : Kept r s) : ResKept r (execConfirm s) := by simp (maxDischargeDepth := 20) +contextual [execConfirm, h]
@[simp] theorem kept_alignTime (h : Kept r s) : Kept r (alignTime s o m o2 r2) := by simp [alignTime, h]
@[simp] theorem kept_alignLink (h : Kept r s) : Kept r (alignLink s o a b r2) := by simp (maxDischargeDepth := 20) [alignLink, h]
@[simp] theorem kept_execTickAlign (h : Kept r s) : ResKept r (execTickAlign o s) := by simp (maxDischargeDepth := 20) +contextual [execTickAlign, h]
@[simp] theorem kept_execBeat (h : Kept r s) : ResKept r (execBeat s) := by simp (maxDischargeDepth := 20) +contextual [execBeat, h]
@[simp] theorem kept_adoptEpoch (h : Kept r s) : Kept r (adoptEpoch s e) := by simp [adoptEpoch, h]

@[simp] theorem kept_execLeadToken (h : Kept r s) : ResKept r (execLeadToken s) := by
  refine resKept_next.2 (kept_onMsg_of (fun t m ht => ?_) h)
  extract_lets e f leads yields mateA was role u _ v w x
  have hv : Kept r v := by simp [u, v, ht]
  have hw : Kept r w := by simp [w, hv]
  have hx : Kept r x := by simp [x, hw]
  simp [hv, hw, hx]

@[simp] theorem kept_execInputDigest (h : Kept r s) : ResKept r (execInputDigest s) := by
  refine resKept_next.2 (kept_onMsg_of (fun t m ht => ?_) h)
  dsimp only
  (repeat' split) <;> simp [ht]

@[simp] theorem kept_execInputDigestLate (h : Kept r s) : ResKept r (execInputDigestLate s) := by
  unfold execInputDigestLate
  split <;> simp [h]

@[simp] theorem kept_onDelta {f : State → Msg → State} (hf : ∀ t m, Kept r t → Kept r (f t m)) (h : Kept r s) : Kept r (onDelta s c f) := by
  unfold onDelta; refine kept_onMsg_of (fun t m ht => ?_) h; simp [hf, ht]

@[simp] theorem kept_execFoxgloveDelta (h : Kept r s) : ResKept r (execFoxgloveDelta s) := by
  unfold execFoxgloveDelta
  simp +contextual [*]

@[simp] theorem kept_execTrajectoryDelta (h : Kept r s) : ResKept r (execTrajectoryDelta s) := by
  unfold execTrajectoryDelta
  simp +contextual [*]

@[simp] theorem kept_execHeldStopDelta (h : Kept r s) : ResKept r (execHeldStopDelta s) := by
  unfold execHeldStopDelta
  simp +contextual [*]

@[simp] theorem kept_execTrackDelta (h : Kept r s) : ResKept r (execTrackDelta s) := by
  unfold execTrackDelta
  simp +contextual [*]

@[simp] theorem kept_execTrackDeltaTimeout (h : Kept r s) : ResKept r (execTrackDeltaTimeout c s) := by simp [execTrackDeltaTimeout, h]

@[simp] theorem kept_execKvDelta (h : Kept r s) : ResKept r (execKvDelta s) := by
  refine resKept_next.2 (kept_onDelta (fun t m ht => ?_) h)
  dsimp only
  (repeat' split) <;> simp [ht]

@[simp] theorem kept_execRcMemoryDelta (h : Kept r s) : ResKept r (execRcMemoryDelta s) := by
  unfold execRcMemoryDelta
  simp +contextual [*]

@[simp] theorem kept_execResyncEnd (h : Kept r s) : ResKept r (execResyncEnd s) := by
  unfold execResyncEnd
  simp +contextual [*]

@[simp] theorem kept_takeFragment (h : Kept r s) : Kept r (takeFragment s m).1 := by
  unfold takeFragment; dsimp only; (repeat' split) <;> simp [h]

theorem kept_of_takeFragment (h : Kept r s) (e : takeFragment s m = (t, d)) : Kept r t := by
  have ht : Kept r (takeFragment s m).1 := kept_takeFragment h
  rwa [e] at ht

@[simp] theorem kept_execKvReq (h : Kept r s) : ResKept r (execKvReq s) := by
  refine resKept_next.2 (kept_onMsg_of (fun t m ht => ?_) h)
  dsimp only
  (repeat' split) <;> simp [ht]

@[simp] theorem kept_putKvRows (h : Kept r s) : Kept r (putKvRows s p r2 d) := by
  unfold putKvRows
  split <;> simp (maxDischargeDepth := 20) [h]

@[simp] theorem kept_execKvData (h : Kept r s) : ResKept r (execKvData s) := by
  refine resKept_next.2 (kept_onMsg_of (fun t m ht => ?_) h)
  dsimp only
  split
  · exact ht
  · split
    · next e => exact kept_of_takeFragment ht e
    · next e =>
      have hu := kept_of_takeFragment ht e
      split
      · exact kept_putKvRows (kept_setVl hu)
      · exact hu

@[simp] theorem kept_execAttReq (h : Kept r s) : ResKept r (execAttReq s) := by
  unfold execAttReq
  simp +contextual [*]

@[simp] theorem kept_execAttRpt (h : Kept r s) : ResKept r (execAttRpt s) := by
  refine resKept_next.2 (kept_onMsg_of (fun t m ht => ?_) h)
  dsimp only
  split
  · exact kept_setVl ht
  · split
    · next e => exact kept_setVl (kept_of_takeFragment ht e)
    · next e => exact kept_of_takeFragment ht e

@[simp] theorem kept_execDigest (h : Kept r s) : ResKept r (execDigest s) := by
  refine resKept_next.2 (kept_onMsg_of (fun t m ht => ?_) h)
  extract_lets theirs u body i v
  have hu : Kept r u := by simp [u, ht]
  split
  · exact ht
  · split
    · exact hu
    · exact kept_setVl (kept_setFlag hu)

@[simp] theorem kept_execManifest (h : Kept r s) : ResKept r (execManifest s) := by
  unfold execManifest
  simp +contextual [*]

@[simp] theorem kept_tickMsgs (h : Kept r s) : Kept r (tickMsgs s) := by simp (maxDischargeDepth := 20) [tickMsgs, h]
@[simp] theorem kept_missBeat (h : Kept r s) : Kept r (missBeat s) := by simp [missBeat, h]
@[simp] theorem kept_writeEpoch (h : Kept r s) : Kept r (writeEpoch s) := by simp [writeEpoch, h]
@[simp] theorem kept_vlTickEnd (h : Kept r s) : Kept r (vlTickEnd s) := by simp [vlTickEnd, h]
@[simp] theorem kept_vlTick (h : Kept r s) : Kept r (vlTick s) := by simp [vlTick, h]

@[simp] theorem kept_vlAct (h : Kept r s) : Kept r (vlAct s p o v o2) := by
  unfold vlAct
  (repeat' split) <;> simp [h]

/-! ### Kept: resets and boot -/

@[simp] theorem kept_resetBlock (h : Kept r s) : Kept r (resetBlock s p k) := by simp [resetBlock, h]
@[simp] theorem kept_resetHeader (h : Kept r s) : Kept r (resetHeader s p e) := by simp (maxDischargeDepth := 20) [resetHeader, h]

@[simp] theorem kept_resetCorePage (h : Kept r s) : Kept r (resetCorePage s k e) := by
  unfold resetCorePage
  dsimp only
  (repeat' split) <;> simp (maxDischargeDepth := 20) +contextual [*]

@[simp] theorem kept_resetPage (h : Kept r s) : Kept r (resetPage s p e) := by
  unfold resetPage
  dsimp only
  (repeat' split) <;> simp (maxDischargeDepth := 20) [h]

@[simp] theorem kept_endForReset (h : Kept r s) : Kept r (endForReset s n x) := by
  unfold endForReset
  split <;> simp [h]

@[simp] theorem kept_stopRequests (h : Kept r s) : Kept r (stopRequests s n) := by
  unfold stopRequests
  dsimp only
  (repeat' split) <;> simp (maxDischargeDepth := 20) [h]

@[simp] theorem kept_presetBegin (h : Kept r s) : Kept r (presetBegin s n) := by simp (maxDischargeDepth := 20) +contextual [presetBegin, h]
@[simp] theorem kept_execPartialResetComplete (h : Kept r s) : ResKept r (execPartialResetComplete p s) := by simp [execPartialResetComplete, h]
@[simp] theorem kept_unmapAll (h : Kept r s) : Kept r (unmapAll s n) := by simp (maxDischargeDepth := 20) +contextual [unmapAll, h]
@[simp] theorem kept_presetEnd (h : Kept r s) : Kept r (presetEnd s n) := by simp (maxDischargeDepth := 20) +contextual [presetEnd, h]

@[simp] theorem kept_eraseTiers (h : Kept r s) : Kept r (eraseTiers s) := by
  unfold eraseTiers
  refine foldl_kept (fun t k ht => foldl_kept (fun u x hu => ?_) ht) (by simp [h])
  split
  · exact hu
  · exact kept_eraseBlock hu

@[simp] theorem kept_lifeChange (h : Kept r s) : Kept r (lifeChange s) := by
  unfold lifeChange
  dsimp only
  (repeat' split) <;> simp [h]

@[simp] theorem kept_deviceReset (h : Kept r s) : Kept r (deviceReset s) := by
  have hl : Kept r (lifeChange s) := kept_lifeChange h
  unfold deviceReset
  simp [State.reset, GovSt.reset, MemSt.reset, keptMem, keptRegs, hl]

@[simp] theorem kept_powerOff (h : Kept r s) : Kept r (powerOff s) := by
  have hd : Kept r (deviceReset s) := kept_deviceReset h
  unfold powerOff
  simp [MemSt.reset, keptMem, hd]

@[simp] theorem kept_execResetRelease (h : Kept r s) : ResKept r (execResetRelease s) := by
  unfold execResetRelease
  dsimp only
  (repeat' split) <;> simp [h]

@[simp] theorem kept_slotFails (h : Kept r s) : Kept r (slotFails s) := by simp [slotFails, h]

@[simp] theorem kept_execBootSlotCheck (h : Kept r s) : ResKept r (execBootSlotCheck i s) := by
  unfold execBootSlotCheck
  dsimp only
  (repeat' split) <;> simp [h]

@[simp] theorem kept_mapShares (h : Kept r s) : Kept r (mapShares s l) := by
  unfold mapShares
  refine foldl_kept (fun t x ht => ?_) h
  split
  · exact ht
  · refine foldl_kept (fun u i hu => ?_) ht
    split <;> simp [hu]

@[simp] theorem kept_bootErase (h : Kept r s) : Kept r (bootErase s l) := by simp (maxDischargeDepth := 20) +contextual [bootErase, h]

@[simp] theorem kept_bootD2 (h : Kept r s) : Kept r (bootD2 s) := by
  unfold bootD2
  split <;> simp (maxDischargeDepth := 20) [h]

@[simp] theorem kept_enterRun (h : Kept r s) : Kept r (enterRun s l d) := by simp (maxDischargeDepth := 20) +contextual [enterRun, h]

@[simp] theorem kept_execBootLayoutLoad (h : Kept r s) : ResKept r (execBootLayoutLoad s) := by
  unfold execBootLayoutLoad
  dsimp only
  (repeat' split) <;> simp (maxDischargeDepth := 20) [h]

/-! ### Kept: power states, Brown-out and tamper -/

@[simp] theorem kept_setPower (h : Kept r s) : Kept r (setPower s x) := by simp [setPower, h]
@[simp] theorem kept_pwStatus (h : Kept r s) : Kept r (pwStatus s st) := by simp [pwStatus, h]
@[simp] theorem kept_wakeBegin (h : Kept r s) : Kept r (wakeBegin s s2) := by simp (maxDischargeDepth := 20) +contextual [wakeBegin, h]
@[simp] theorem kept_powerTo (h : Kept r s) : Kept r (powerTo s p) := by simp [powerTo, h]
@[simp] theorem kept_returnCores (h : Kept r s) : Kept r (returnCores s) := by simp +contextual [returnCores, h]
@[simp] theorem kept_aphyDown (h : Kept r s) : Kept r (aphyDown s) := by simp +contextual [aphyDown, h]
@[simp] theorem kept_unitsDown (h : Kept r s) : Kept r (unitsDown s) := by simp +contextual [unitsDown, h]
@[simp] theorem kept_spisUp (h : Kept r s) : Kept r (spisUp s) := by simp +contextual [spisUp, h]
@[simp] theorem kept_enterRetain (h : Kept r s) : Kept r (enterRetain s) := by simp [enterRetain, h]
@[simp] theorem kept_enterStandby (h : Kept r s) : Kept r (enterStandby s) := by simp (maxDischargeDepth := 20) [enterStandby, h]

@[simp] theorem kept_clearUnassigned (h : Kept r s) : Kept r (clearUnassigned s) := by
  unfold clearUnassigned
  split <;> simp [h]

@[simp] theorem kept_lostFrame (h : Kept r s) : Kept r (lostFrame s f) := by
  unfold lostFrame
  extract_lets m t
  have ht : Kept r t := by simp [t, m, h]
  split <;> simp [ht]

@[simp] theorem kept_wakeEnd (h : Kept r s) : Kept r (wakeEnd s d b r2) := by simp (maxDischargeDepth := 20) +contextual [wakeEnd, h]

@[simp] theorem kept_execPowerTransitionComplete (h : Kept r s) : ResKept r (execPowerTransitionComplete s2 d b r2 s) := by
  unfold execPowerTransitionComplete
  dsimp only
  (repeat' split) <;> simp [h]

@[simp] theorem kept_powerStep (h : Kept r s) : Kept r (powerStep s p) := by simp [powerStep, h]
@[simp] theorem kept_pwCmd (h : Kept r s) : Kept r (pwCmd s q) := by simp [pwCmd, h]
@[simp] theorem kept_pwAct (h : Kept r s) : Kept r (pwAct s p o v o2) := by simp [pwAct, h]
@[simp] theorem kept_wakeBy (h : Kept r s) : Kept r (wakeBy s s2) := by simp [wakeBy, h]
@[simp] theorem kept_execWakeCompare (h : Kept r s) : ResKept r (execWakeCompare s) := by simp [execWakeCompare, h]
@[simp] theorem kept_execHostLinkWake (h : Kept r s) : ResKept r (execHostLinkWake s) := by simp [execHostLinkWake, h]

@[simp] theorem kept_brownOut (h : Kept r s) : Kept r (brownOut s n) := by
  unfold brownOut
  extract_lets _ t _ u _ g _
  have ht : Kept r t := by simp [t, h]
  have hu : Kept r u := kept_setPower ht
  split
  · exact h
  · split
    · exact ht
    · refine kept_atBoundary (by simp [g, hu]) fun d e => ?_
      cases e
      simp

@[simp] theorem kept_execPwrFailNAssert (h : Kept r s) : ResKept r (execPwrFailNAssert s) := by simp [execPwrFailNAssert, h]
@[simp] theorem kept_execUndervoltage (h : Kept r s) : ResKept r (execUndervoltage s) := by simp [execUndervoltage, h]
@[simp] theorem kept_releaseHeld (h : Kept r s) : Kept r (releaseHeld s) := by simp +contextual [releaseHeld, h]

@[simp] theorem kept_execBrownOutExit (h : Kept r s) : ResKept r (execBrownOutExit u s) := by
  unfold execBrownOutExit
  split <;> simp (maxDischargeDepth := 20) [h]

@[simp] theorem kept_execBrownOutReset (h : Kept r s) : ResKept r (execBrownOutReset s) := by
  unfold execBrownOutReset
  split <;> simp [h]

@[simp] theorem kept_tamperCount (h : Kept r s) : Kept r (tamperCount s) := by simp [tamperCount, h]

@[simp] theorem kept_tamperEvent (h : Kept r s) : Kept r (tamperEvent s n) := by
  unfold tamperEvent
  extract_lets t u f v m w
  have ht : Kept r t := foldl_kept (fun u n hu => kept_setFlag (kept_setSec (kept_releaseHolds hu))) h
  have hv : Kept r v := kept_setFlash (kept_tamperCount ht)
  have hw : Kept r w := by simp [w, m, hv]
  exact kept_deviceFatal (kept_settleTags hw)

@[simp] theorem kept_execTamper (h : Kept r s) : ResKept r (execTamper s2 s) := by
  unfold execTamper
  (repeat' split) <;> simp [h]

/-! ### Kept: the connectors -/

@[simp] theorem kept_execResetNAssert (h : Kept r s) : ResKept r (execResetNAssert s) := by simp [execResetNAssert, h]
@[simp] theorem kept_execPowerGoodLost (h : Kept r s) : ResKept r (execPowerGoodLost s) := by simp [execPowerGoodLost, h]
@[simp] theorem kept_execHoldupStoreDraw (h : Kept r s) : ResKept r (execHoldupStoreDraw s) := by simp [execHoldupStoreDraw, h]

@[simp] theorem kept_execHoldupExhausted (h : Kept r s) : ResKept r (execHoldupExhausted s) := by
  unfold execHoldupExhausted
  split <;> simp [h]

@[simp] theorem kept_execPowerLoss (h : Kept r s) : ResKept r (execPowerLoss s) := by simp [execPowerLoss, h]
@[simp] theorem kept_execAlwaysOnHoldExpiry (h : Kept r s) : ResKept r (execAlwaysOnHoldExpiry s) := by simp [execAlwaysOnHoldExpiry, h]
@[simp] theorem kept_execPowerUp (h : Kept r s) : ResKept r (execPowerUp s) := by simp [execPowerUp, h]

@[simp] theorem kept_endHostDma (h : Kept r s) : Kept r (endHostDma s n) := by
  unfold endHostDma
  split <;> simp [h]

@[simp] theorem kept_execPerstNAssert (h : Kept r s) : ResKept r (execPerstNAssert s) := by
  simp (maxDischargeDepth := 20) +contextual [execPerstNAssert, h]

@[simp] theorem kept_execFunctionLevelReset (h : Kept r s) : ResKept r (execFunctionLevelReset p s) := by simp [execFunctionLevelReset, h]
@[simp] theorem kept_execPcieLinkChange (h : Kept r s) : ResKept r (execPcieLinkChange up w s2 v s) := by simp [execPcieLinkChange, h]
@[simp] theorem kept_execPcieLtssmLoopback (h : Kept r s) : ResKept r (execPcieLtssmLoopback s) := by simp [execPcieLtssmLoopback, h]
@[simp] theorem kept_twFail (h : Kept r s) : Kept r (twFail s n o st) := by simp [twFail, h]
@[simp] theorem kept_execTierWindowRead (h : Kept r s) : ResKept r (execTierWindowRead p o s2 s) := by simp [execTierWindowRead, h]
@[simp] theorem kept_twDrop (h : Kept r s) : Kept r (twDrop s n a) := by simp [twDrop, h]
@[simp] theorem kept_twSeam (h : Kept r s) : Kept r (twSeam s n a o b) := by simp [twSeam, h]

@[simp] theorem kept_execTierWindowWrite (h : Kept r s) : ResKept r (execTierWindowWrite p o b s) := by
  simp (maxDischargeDepth := 20) [execTierWindowWrite, h]

@[simp] theorem kept_execBar2RingWrite (h : Kept r s) : ResKept r (execBar2RingWrite p o b s) := by
  simp (maxDischargeDepth := 20) +contextual [execBar2RingWrite, h]

@[simp] theorem kept_cutLidar (h : Kept r s) : Kept r (cutLidar s p) := by simp [cutLidar, h]

@[simp] theorem kept_portChange (h : Kept r s) : Kept r (portChange s p c) := by
  unfold portChange
  split <;> simp (maxDischargeDepth := 20) [h]

@[simp] theorem kept_execPortLinkChange (h : Kept r s) : ResKept r (execPortLinkChange u c d s) := by
  unfold execPortLinkChange
  dsimp only
  (repeat' split) <;> simp [h]

@[simp] theorem kept_execCanBusOffRecovery (h : Kept r s) : ResKept r (execCanBusOffRecovery c s) := by simp [execCanBusOffRecovery, h]
@[simp] theorem kept_portEnable (h : Kept r s) : Kept r (portEnable s p en) := by simp [portEnable, h]

/-! ### Kept: loopbacks as they are entered, the TAP -/

@[simp] theorem kept_lbStart (h : Kept r s) : Kept r (lbStart s v) := by
  unfold lbStart
  dsimp only
  (repeat' split) <;> simp (maxDischargeDepth := 20) [h]

@[simp] theorem kept_lbAct (h : Kept r s) : Kept r (lbAct s p o v o2) := by simp [lbAct, h]

@[simp] theorem kept_withLoopCount (h : Kept r s) : Kept r (withLoopCount s c) := by
  unfold withLoopCount
  split <;> simp [h]

@[simp] theorem kept_execLoopbackLimit (h : Kept r s) : ResKept r (execLoopbackLimit c s) := by
  unfold execLoopbackLimit
  split <;> simp [h]

@[simp] theorem kept_setTap (h : Kept r s) : Kept r (setTap s x) := by simp [setTap, h]
@[simp] theorem kept_execTapReset (h : Kept r s) : ResKept r (execTapReset s) := by simp [execTapReset, h]
@[simp] theorem kept_execSamplePreload (h : Kept r s) : ResKept r (execSamplePreload l s2 s) := by simp [execSamplePreload, h]
@[simp] theorem kept_scanInstr (h : Kept r s) : Kept r (scanInstr s ir f2) := by simp [scanInstr, h]
@[simp] theorem kept_execExtest (h : Kept r s) : ResKept r (execExtest l s2 s) := by simp [execExtest, h]
@[simp] theorem kept_execClamp (h : Kept r s) : ResKept r (execClamp s) := by simp [execClamp, h]
@[simp] theorem kept_execHighz (h : Kept r s) : ResKept r (execHighz s) := by simp [execHighz, h]
@[simp] theorem kept_execJtagSelect (h : Kept r s) : ResKept r (execJtagSelect v s) := by simp [execJtagSelect, h]
@[simp] theorem kept_execAttest (h : Kept r s) : ResKept r (execAttest n s) := by simp [execAttest, h]

/-! ### Kept: register accesses -/

@[simp] theorem kept_latchAll (h : Kept r s) : Kept r (latchAll s q p o) := by simp [latchAll, h]

@[simp] theorem kept_readEffect (h : Kept r s) : Kept r (readEffect s p o) := by
  unfold readEffect
  dsimp only
  (repeat' split) <;> simp [h]

@[simp] theorem kept_denyRead (h : Kept r s) : Kept r (denyRead s q a) := by simp [denyRead, h]

@[simp] theorem kept_read32 (h : Kept r s) : Kept r (read32 s q a ba).1 := by
  unfold read32
  dsimp only
  (repeat' split) <;> simp [h]

@[simp] theorem kept_busRead (h : Kept r s) : Kept r (busRead s q a z) := by
  unfold busRead
  dsimp only
  (repeat' split) <;> simp (maxDischargeDepth := 20) [h]

@[simp] theorem kept_enableAct (h : Kept r s) : Kept r (enableAct s p en) := by
  unfold enableAct
  dsimp only
  (repeat' split) <;> simp (maxDischargeDepth := 20) +contextual [*]

@[simp] theorem kept_ctrlAct (h : Kept r s) : Kept r (ctrlAct s p v) := by simp [ctrlAct, h]

@[simp] theorem kept_deviceAct (h : Kept r s) : Kept r (deviceAct s o v) := by
  unfold deviceAct
  split <;> simp [h]

@[simp] theorem kept_blockAct (h : Kept r s) : Kept r (blockAct s p o v o2) := by
  unfold blockAct
  split <;> simp (maxDischargeDepth := 20) [h]

@[simp] theorem kept_accept (h : Kept r s) : Kept r (accept s p o v) := by
  unfold accept
  dsimp only
  (repeat' split) <;> simp +contextual [*]

@[simp] theorem kept_unmappedWrite (h : Kept r s) : Kept r (unmappedWrite s q a) := by simp (maxDischargeDepth := 20) [unmappedWrite, h]
@[simp] theorem kept_rejectWrite (h : Kept r s) : Kept r (rejectWrite s p o st) := by simp [rejectWrite, h]

@[simp] theorem kept_write32 (h : Kept r s) : Kept r (write32 s q a ba v n).1 := by
  unfold write32
  dsimp only
  (repeat' split) <;> simp [h]

@[simp] theorem kept_busWrite (h : Kept r s) : Kept r (busWrite s q a z v) := by simp (maxDischargeDepth := 20) [busWrite, h]
@[simp] theorem kept_regWrite (h : Kept r s) : Kept r (regWrite s q p o v) := by simp [regWrite, h]
@[simp] theorem kept_execTimeSet (h : Kept r s) : ResKept r (execTimeSet q s) := by simp [execTimeSet, h]
@[simp] theorem kept_execPtpEnable (h : Kept r s) : ResKept r (execPtpEnable q v s) := by simp [execPtpEnable, h]
@[simp] theorem kept_execPtpDisable (h : Kept r s) : ResKept r (execPtpDisable q s) := by simp [execPtpDisable, h]
@[simp] theorem kept_execTsqPop (h : Kept r s) : ResKept r (execTsqPop q s) := by simp [execTsqPop, h]
@[simp] theorem kept_execTickNowLoRead (h : Kept r s) : ResKept r (execTickNowLoRead q s) := by simp [execTickNowLoRead, h]
@[simp] theorem kept_execTimeNsLoRead (h : Kept r s) : ResKept r (execTimeNsLoRead q s) := by simp [execTimeNsLoRead, h]
@[simp] theorem kept_execCounterLowWordRead (h : Kept r s) : ResKept r (execCounterLowWordRead q p s2 s) := by simp [execCounterLowWordRead, h]
@[simp] theorem kept_execClearingRead (h : Kept r s) : ResKept r (execClearingRead q a s2 s) := by simp [execClearingRead, h]
@[simp] theorem kept_execDeniedRead (h : Kept r s) : ResKept r (execDeniedRead q a s2 s) := by simp [execDeniedRead, h]
@[simp] theorem kept_execRegisterWrite (h : Kept r s) : ResKept r (execRegisterWrite q a s2 v s) := by simp [execRegisterWrite, h]
@[simp] theorem kept_execUnmappedWrite (h : Kept r s) : ResKept r (execUnmappedWrite q a v s) := by simp [execUnmappedWrite, h]
@[simp] theorem kept_execSoftReset (h : Kept r s) : ResKept r (execSoftReset q p e s) := by simp [execSoftReset, h]
@[simp] theorem kept_execPgCtrlEnable (h : Kept r s) : ResKept r (execPgCtrlEnable q p e s) := by simp [execPgCtrlEnable, h]
@[simp] theorem kept_execErrorInject (h : Kept r s) : ResKept r (execErrorInject q p b s) := by simp [execErrorInject, h]
@[simp] theorem kept_execPageLock (h : Kept r s) : ResKept r (execPageLock q p s) := by simp [execPageLock, h]
@[simp] theorem kept_execDevLevelWrite (h : Kept r s) : ResKept r (execDevLevelWrite q l s) := by simp [execDevLevelWrite, h]
@[simp] theorem kept_execDevPreset (h : Kept r s) : ResKept r (execDevPreset q p s) := by simp [execDevPreset, h]
@[simp] theorem kept_execTlAdd (h : Kept r s) : ResKept r (execTlAdd q p i i2 p2 s) := by simp [execTlAdd, h]
@[simp] theorem kept_execTlClear (h : Kept r s) : ResKept r (execTlClear q p f2 c s) := by simp [execTlClear, h]
@[simp] theorem kept_execDrRetrain (h : Kept r s) : ResKept r (execDrRetrain q k ch s) := by simp [execDrRetrain, h]
@[simp] theorem kept_execScRetrain (h : Kept r s) : ResKept r (execScRetrain q c s) := by simp [execScRetrain, h]
@[simp] theorem kept_execKvPoolValidWrite (h : Kept r s) : ResKept r (execKvPoolValidWrite q p p2 v s) := by simp [execKvPoolValidWrite, h]
@[simp] theorem kept_execStreamStart (h : Kept r s) : ResKept r (execStreamStart q p s) := by simp [execStreamStart, h]
@[simp] theorem kept_execStreamStop (h : Kept r s) : ResKept r (execStreamStop q p s) := by simp [execStreamStop, h]
@[simp] theorem kept_execLiCtrlEnable (h : Kept r s) : ResKept r (execLiCtrlEnable q s2 e s) := by simp [execLiCtrlEnable, h]
@[simp] theorem kept_execIrCtrlWrite (h : Kept r s) : ResKept r (execIrCtrlWrite q p e s) := by simp [execIrCtrlWrite, h]
@[simp] theorem kept_execLkCtrlEnable (h : Kept r s) : ResKept r (execLkCtrlEnable q e s) := by simp [execLkCtrlEnable, h]
@[simp] theorem kept_execStart (h : Kept r s) : ResKept r (execStart q ch s) := by simp [execStart, h]
@[simp] theorem kept_execFxStop (h : Kept r s) : ResKept r (execFxStop q ch s) := by simp [execFxStop, h]
@[simp] theorem kept_execForceSafe (h : Kept r s) : ResKept r (execForceSafe q ch s) := by simp [execForceSafe, h]
@[simp] theorem kept_execResume (h : Kept r s) : ResKept r (execResume q ch s) := by simp [execResume, h]
@[simp] theorem kept_execClearState (h : Kept r s) : ResKept r (execClearState q ch s) := by simp [execClearState, h]

@[simp] theorem kept_execCcRcDataAccess (h : Kept r s) : ResKept r (execCcRcDataAccess q c w s) := by
  unfold execCcRcDataAccess
  split <;> simp [h]

@[simp] theorem kept_execCCoreLockstepMismatch (h : Kept r s) : ResKept r (execCCoreLockstepMismatch c s) := by simp [execCCoreLockstepMismatch, h]
@[simp] theorem kept_execRosterLoad (h : Kept r s) : ResKept r (execRosterLoad q s) := by simp [execRosterLoad, h]
@[simp] theorem kept_execRosterEnable (h : Kept r s) : ResKept r (execRosterEnable q en s) := by simp [execRosterEnable, h]
@[simp] theorem kept_execSbQuery (h : Kept r s) : ResKept r (execSbQuery q p w s) := by simp [execSbQuery, h]
@[simp] theorem kept_sealedOp (h : Kept r s) : Kept r (sealedOp s n op).1 := by simp [sealedOp, h]

@[simp] theorem kept_sealedOpsRun (h : Kept r s) : Kept r (sealedOpsRun s n k bs).1 := by
  induction k generalizing s bs with
  | zero => exact h
  | succ k ih => exact ih (kept_sealedOp h)

@[simp] theorem kept_execSealedAccess (h : Kept r s) : ResKept r (execSealedAccess p s) := by
  refine resKept_next.2 (kept_mbStep (fun t m ht => ?_) h)
  dsimp only
  split
  · exact ht
  · exact kept_sealedOpsRun ht

@[simp] theorem kept_execAttestPartition (h : Kept r s) : ResKept r (execAttestPartition q p s) := by simp [execAttestPartition, h]
@[simp] theorem kept_execAttestDevice (h : Kept r s) : ResKept r (execAttestDevice q p s) := by simp [execAttestDevice, h]
@[simp] theorem kept_execDbgBreakWrite (h : Kept r s) : ResKept r (execDbgBreakWrite p v s) := by simp [execDbgBreakWrite, h]
@[simp] theorem kept_execPwCmdActive (h : Kept r s) : ResKept r (execPwCmdActive q s) := by simp [execPwCmdActive, h]
@[simp] theorem kept_execPwCmdIdle (h : Kept r s) : ResKept r (execPwCmdIdle q s) := by simp [execPwCmdIdle, h]
@[simp] theorem kept_execPwCmdRetain (h : Kept r s) : ResKept r (execPwCmdRetain q s) := by simp [execPwCmdRetain, h]
@[simp] theorem kept_execPwCmdStandby (h : Kept r s) : ResKept r (execPwCmdStandby q s) := by simp [execPwCmdStandby, h]
@[simp] theorem kept_execPwCmdDepot (h : Kept r s) : ResKept r (execPwCmdDepot q s) := by simp [execPwCmdDepot, h]
@[simp] theorem kept_execLoadQuiet (h : Kept r s) : ResKept r (execLoadQuiet q q2 s) := by simp [execLoadQuiet, h]
@[simp] theorem kept_execVlCtrlEn (h : Kept r s) : ResKept r (execVlCtrlEn q w s) := by simp [execVlCtrlEn, h]
@[simp] theorem kept_execYield (h : Kept r s) : ResKept r (execYield q s) := by simp [execYield, h]
@[simp] theorem kept_execRetrain (h : Kept r s) : ResKept r (execRetrain q s) := by simp [execRetrain, h]
@[simp] theorem kept_execSnap (h : Kept r s) : ResKept r (execSnap q s) := by simp [execSnap, h]
@[simp] theorem kept_execClear (h : Kept r s) : ResKept r (execClear q s) := by simp [execClear, h]
@[simp] theorem kept_execCtClear (h : Kept r s) : ResKept r (execCtClear q p w s) := by simp [execCtClear, h]
@[simp] theorem kept_execLoopbackStart (h : Kept r s) : ResKept r (execLoopbackStart q l s) := by simp [execLoopbackStart, h]
@[simp] theorem kept_execLoopbackStop (h : Kept r s) : ResKept r (execLoopbackStop q l c s) := by simp (maxDischargeDepth := 20) [execLoopbackStop, h]
@[simp] theorem kept_execDevid (h : Kept r s) : ResKept r (execDevid s) := by simp [execDevid, h]
@[simp] theorem kept_execAccess (h : Kept r s) : ResKept r (execAccess w s) := by simp [execAccess, h]

/-! ### Kept: error injection -/

@[simp] theorem kept_injectCore (h : Kept r s) : Kept r (injectCore s k n) := by
  unfold injectCore
  dsimp only
  (repeat' split) <;> simp [h]

@[simp] theorem kept_injectChannel (h : Kept r s) : Kept r (injectChannel s ch n) := by
  unfold injectChannel
  split <;> simp (maxDischargeDepth := 20) [h]

@[simp] theorem kept_injectTier (h : Kept r s) : Kept r (injectTier s p n) := by
  unfold injectTier
  split <;> simp (maxDischargeDepth := 20) [h]

@[simp] theorem kept_bankParity (h : Kept r s) : Kept r (bankParity s n) := by
  unfold bankParity
  split <;> simp (maxDischargeDepth := 20) [h]

@[simp] theorem kept_injectError (h : Kept r s) : Kept r (injectError s p n) := by
  unfold injectError
  dsimp only
  (repeat' split) <;> simp (maxDischargeDepth := 20) [h]

/-! ### Kept: the tick boundary and the governor -/

@[simp] theorem kept_sampleSensors (h : Kept r s) : Kept r (sampleSensors s j3 v tj d) := by simp [sampleSensors, h]

@[simp] theorem kept_execGovernorLowerDuty (h : Kept r s) : ResKept r (execGovernorLowerDuty s) := by
  refine resKept_next.2 (ite_kept.2 ⟨fun hc => kept_atBoundary h fun d e => ?_, fun _ => h⟩)
  cases e
  intro hr
  have hd := dutyKept h hr
  simp only [dutyIn, decide_eq_true_eq] at hd ⊢
  omega

@[simp] theorem kept_execGovernorRaiseDuty (h : Kept r s) : ResKept r (execGovernorRaiseDuty s) := by
  refine resKept_next.2 (ite_kept.2 ⟨fun hc => kept_atBoundary (by simp [h]) fun d e => ?_, fun _ => h⟩)
  cases e
  intro hr
  have hd := dutyKept h hr
  simp only [dutyIn, decide_eq_true_eq] at hd ⊢
  omega

@[simp] theorem kept_execThermalCeilingUpdate (h : Kept r s) : ResKept r (execThermalCeilingUpdate s) := by simp [execThermalCeilingUpdate, h]
@[simp] theorem kept_execThermalTrip (h : Kept r s) : ResKept r (execThermalTrip s) := by simp [execThermalTrip, h]
@[simp] theorem kept_softResetAt (h : Kept r s) : Kept r (softResetAt s p e) := by simp (maxDischargeDepth := 20) [softResetAt, h]

theorem mem_insertBy {α : Type} {f : α → Nat} {x y : α} {l : List α} : y ∈ insertBy f x l ↔ y = x ∨ y ∈ l := by
  induction l with
  | nil => simp [insertBy]
  | cons z zs ih =>
    unfold insertBy
    split
    · simp
    · simp [ih, or_left_comm]

theorem mem_sortBy {α : Type} {f : α → Nat} {y : α} {l : List α} : y ∈ sortBy f l ↔ y ∈ l := by
  have hm (acc : List α) : y ∈ l.foldl (fun acc x => insertBy f x acc) acc ↔ y ∈ l ∨ y ∈ acc := by
    induction l generalizing acc with
    | nil => simp
    | cons x xs ih => simp [ih, mem_insertBy, or_assoc, or_left_comm]
  simpa [sortBy] using hm []

theorem dutyKept_of_mem {l : List BAct} {d : Nat} (hl : ActsKept r l) (hd : BAct.duty d ∈ l) : DutyKept r d :=
  fun hr => List.all_eq_true.1 (hl hr) _ hd

theorem kept_applyAct (h : Kept r s) (ha : ∀ d, a = .duty d → DutyKept r d) : Kept r (applyAct s a) := by
  cases a with
  | duty d => simp [applyAct, h, ha d rfl]
  | moveEnd p v =>
    unfold applyAct
    dsimp only
    split <;> simp (maxDischargeDepth := 4) [h]
  | _ => simp [applyAct, h]

@[simp] theorem kept_tickEnd (h : Kept r s) : Kept r (tickEnd s) := by simp (maxDischargeDepth := 20) [tickEnd, h]

@[simp] theorem kept_tickAdvance (h : Kept r s) : Kept r (tickAdvance s) := by
  simp [tickAdvance, h]

@[simp] theorem kept_tickBegin (h : Kept r s) : Kept r (tickBegin s) := by simp (maxDischargeDepth := 20) [tickBegin, h]

theorem kept_applyActs (h : Kept r s) (hl : ActsKept r l) : Kept r (applyActs s l) :=
  List.foldlRecOn _ _ h fun _ ht _ ha => kept_applyAct ht fun _ e => dutyKept_of_mem hl (e ▸ mem_sortBy.1 ha)

@[simp] theorem kept_execTickBoundary (h : Kept r s) : ResKept r (execTickBoundary j v tj d m s) := by
  unfold execTickBoundary
  refine resKept_next.2 ?_
  split
  · simp [h]
  · extract_lets t u w
    have ht : Kept r t := kept_tickEnd (by simp [h])
    have hu : Kept r u := kept_tickBegin (kept_applyActs (kept_tickAdvance ht) (actsKept ht))
    have hw : Kept r w := kept_sampleSensors hu
    simp [hw]

/-! ### Kept: every command -/

@[simp] theorem kept_exec (h : Kept r s) : ResKept r (exec i s) := by
  unfold exec
  (repeat' split) <;> simp [h]

/-! ### The obligations -/

theorem inv_of_step {t : State} (h : Inv s) (e : step s = .next t) : Inv t := by
  unfold step at e
  split at e
  · cases e; exact h
  · next c rest _ =>
    have hr : Inv { s with pending := rest } := h
    exact (kept_exec (kept_refl _) t e).inv hr

/-- Settles O3: each arm of `exec` keeps the invariant (`kept_exec`), so a step does. -/
theorem stepKeepsInvariant : Obligations.StepKeepsInvariant := fun _ _ h e => inv_of_step h e

/-- Settles O4: the reset state's stores are empty or canonical by evaluation. -/
theorem resetMeetsInvariant : Obligations.ResetMeetsInvariant := by
  unfold Obligations.ResetMeetsInvariant Inv
  decide

end Sys2Proof.Machine
end

section
/-! PROOFS. What a halt (R550) and the releases before it spare: commands that end, channels that go to SAFE, a lead that yields, a trip, and
Seam blocks whose erase is due. One lemma for each operation, from the updates that it makes; then what a halted device shows. -/

namespace Sys2Proof.Machine

/-! ### Addresses of registers and counters -/

theorem pageBase_mod (p : Page) : pageBase p % 0x1000 = 0 := by
  obtain ⟨k, i⟩ := p
  cases k <;> simp [pageBase, clsBase]

theorem regKey_mod {p : Page} {off : Nat} (ho : off < 0x1000) : regKey p off % 0x1000 = off := by
  have := pageBase_mod p
  unfold regKey
  omega

theorem ctrKey_mod {p : Page} {slot : Nat} (hs : slot < 24) : ctrKey p slot % 0x1000 = 0x40 + 8 * slot := by
  have := pageBase_mod p
  unfold ctrKey
  omega

/-- No page has an error flag at reset. -/
theorem regReset_flags (p : Page) : regReset p 0x010 = 0 := by
  simp [regReset, regRow, headerRows, rowHas]

/-! ### What a halt spares -/

/-- The registers, the counters and the stores of a state that a halt may have changed, beside those of the state `r` before: the registers
at the addresses `A` stand, error flags are only set, counter slot 8 of every page stands (no step of a halt counts there), Lamphouse
keeps all but its record of trips, the governor and the memory's bytes stand, and what is empty stays empty. -/
structure SparedParts (A : Nat → Prop) (r : State) (rg : SMap Word) (ct : SMap DWord) (sc : SecSt) (gv : GovSt) (cl : List Host.Cell)
    (tg : SMap TagRec) (fc : SMap Byte) : Prop where
  regs : ∀ d a, A a → smGet d rg a = smGet d r.regs a
  flags : ∀ a n, a % 0x1000 = 0x010 → bit (smGet 0 r.regs a) n = true → bit (smGet 0 rg a) n = true
  ctrs : ∀ a, a % 0x1000 = 0x080 → smGet 0 ct a = smGet 0 r.ctrs a
  sec : sc = { r.sec with flash := { r.sec.flash with trips := sc.flash.trips } }
  gov : gv = r.gov
  cells : cl = r.mem.cells
  tags : r.mem.tags = [] → tg = []
  face : r.face = [] → fc = []

def Spared (A : Nat → Prop) (r s : State) : Prop := SparedParts A r s.regs s.ctrs s.sec s.gov s.mem.cells s.mem.tags s.face

/-- Every register of a page lies outside the addresses `A`. -/
def PageOut (A : Nat → Prop) (p : Page) : Prop := ∀ off, off < 0x1000 → ¬ A (regKey p off)

variable {A : Nat → Prop} {r s : State}

theorem spared_refl (A : Nat → Prop) (s : State) : Spared A s s :=
  ⟨fun _ _ _ => rfl, fun _ _ _ h => h, fun _ _ => rfl, rfl, rfl, rfl, id, id⟩

theorem spared_trans {t : State} (h : Spared A r s) (k : Spared A s t) : Spared A r t :=
  ⟨fun d a ha => (k.regs d a ha).trans (h.regs d a ha), fun a n ha hf => k.flags a n ha (h.flags a n ha hf),
    fun a ha => (k.ctrs a ha).trans (h.ctrs a ha), by rw [k.sec, h.sec], k.gov.trans h.gov, k.cells.trans h.cells,
    fun e => k.tags (h.tags e), fun e => k.face (h.face e)⟩

theorem spared_mono {B : Nat → Prop} (hAB : ∀ a, B a → A a) (h : Spared A r s) : Spared B r s :=
  ⟨fun d a ha => h.regs d a (hAB a ha), h.flags, h.ctrs, h.sec, h.gov, h.cells, h.tags, h.face⟩

theorem foldl_spared {α : Type} {f : State → α → State} (hf : ∀ t x, Spared A r t → Spared A r (f t x)) {xs : List α} (h : Spared A r s) :
    Spared A r (xs.foldl f s) :=
  List.foldlRecOn _ _ h fun t ht x _ => hf t x ht

@[simp] theorem ite_spared {c : Prop} [Decidable c] {a b : State} :
    Spared A r (if c then a else b) ↔ (c → Spared A r a) ∧ (¬ c → Spared A r b) := by
  split <;> simp [*]

/-! What stands, in the model's own terms. -/

theorem regVal_of_spared (h : Spared A r s) {p : Page} {off : Nat} (ha : A (regKey p off)) : regVal s p off = regVal r p off := h.regs _ _ ha

theorem pgState_of_spared (h : Spared A r s) {p : Page} (ha : A (regKey p 0x00C)) : pgState s p = pgState r p := by
  simp only [pgState, regField, regVal_of_spared h ha]

theorem flagged_of_spared (h : Spared A r s) {p : Page} {n : Nat} (hf : Flagged r p n) : Flagged s p n := by
  simp only [Flagged, regBit, regVal, regReset_flags] at hf ⊢
  exact h.flags _ n (regKey_mod (by decide)) hf

theorem ctrVal_of_spared (h : Spared A r s) (p : Page) : ctrVal s p 8 = ctrVal r p 8 := h.ctrs _ (ctrKey_mod (by decide))

/-! ### The plain updates -/

@[simp] theorem spared_setReg (h : Spared A r s) {p : Page} {off : Nat} {v : Word} (hp : PageOut A p) (ho : off < 0x1000) (hf : off ≠ 0x010) :
    Spared A r (setReg s p off v) := by
  refine ⟨fun d a ha => ?_, fun a n ha hb => ?_, h.ctrs, h.sec, h.gov, h.cells, h.tags, h.face⟩
  · rw [← h.regs d a ha]
    exact smGet_smSet_ne _ _ _ _ fun e => hp off ho (e ▸ ha)
  · rw [show smGet 0 (setReg s p off v).regs a = smGet 0 s.regs a from
      smGet_smSet_ne _ _ _ _ fun e => hf (by rw [← ha, ← e, regKey_mod ho])]
    exact h.flags a n ha hb

@[simp] theorem spared_setRegField (h : Spared A r s) {p : Page} {off hi lo v : Nat} (hp : PageOut A p) (ho : off < 0x1000) (hf : off ≠ 0x010) :
    Spared A r (setRegField s p off hi lo v) := spared_setReg h hp ho hf

@[simp] theorem spared_rcEvent (h : Spared A r s) {p : Page} {off : Nat} {f : Word → Word} (hp : PageOut A p) (ho : off < 0x1000) (hf : off ≠ 0x010) :
    Spared A r (rcEvent s p off f) := spared_setReg h hp ho hf

@[simp] theorem spared_orReg (h : Spared A r s) {p : Page} {off : Nat} {v : Word} (hp : PageOut A p) (ho : off < 0x1000) (hf : off ≠ 0x010) :
    Spared A r (orReg s p off v) := spared_setReg h hp ho hf

@[simp] theorem spared_setBusy (h : Spared A r s) {p : Page} {b : Bool} (hp : PageOut A p) : Spared A r (setBusy s p b) :=
  spared_setReg h hp (by decide) (by decide)

@[simp] theorem spared_setPgState (h : Spared A r s) {p : Page} {st : Nat} (hp : PageOut A p) : Spared A r (setPgState s p st) := by
  simp [setPgState, h, hp]

@[simp] theorem spared_setFlag (h : Spared A r s) {p : Page} {n : Nat} (hp : PageOut A p) : Spared A r (setFlag s p n) := by
  have ho : Spared A r (orReg s p 0x010 (bitMask n)) := by
    refine ⟨fun d a ha => ?_, fun a m ha hb => ?_, h.ctrs, h.sec, h.gov, h.cells, h.tags, h.face⟩
    · rw [← h.regs d a ha]
      exact smGet_smSet_ne _ _ _ _ fun e => hp 0x010 (by decide) (e ▸ ha)
    · have hb := h.flags a m ha hb
      simp only [orReg, markSet_regs, setReg, regVal, regReset_flags, smGet_smSet]
      split
      · next e =>
        rw [e, bit_or, Bool.or_eq_true]
        exact .inl hb
      · exact hb
  simp only [setFlag, ite_spared]
  exact ⟨fun _ => ho, fun _ => ho⟩

@[simp] theorem spared_ctrAdd (h : Spared A r s) {p : Page} {slot n : Nat} (hs : slot < 24) (h8 : slot ≠ 8) : Spared A r (ctrAdd s p slot n) := by
  have hc : Spared A r { s with ctrs := smSet 0 s.ctrs (ctrKey p slot) (ctrBump (ctrVal s p slot) n) } := by
    refine ⟨h.regs, h.flags, fun a ha => ?_, h.sec, h.gov, h.cells, h.tags, h.face⟩
    rw [← h.ctrs a ha]
    have := ctrKey_mod (p := p) hs
    exact smGet_smSet_ne _ _ _ _ fun e => h8 (by omega)
  simp only [ctrAdd, ite_spared]
  exact ⟨fun _ => h, fun _ => ⟨fun _ => hc, fun _ => hc⟩⟩

/-! ### Commands that end -/

@[simp] theorem spared_recordLast (h : Spared A r s) {k : CoreId} {i op flags clocks : Nat} {st : Status} (hp : PageOut A (corePage k)) :
    Spared A r (recordLast s k i op flags clocks st) := by
  simp (maxDischargeDepth := 4) [recordLast, h, hp]

@[simp] theorem spared_setStreamState (h : Spared A r s) {k : CoreId} {i st : Nat} (hp : PageOut A (corePage k)) :
    Spared A r (setStreamState s k i st) := by
  simp (maxDischargeDepth := 4) [setStreamState, h, hp]

@[simp] theorem spared_setStreamOp (h : Spared A r s) {k : CoreId} {i op sub : Nat} (hp : PageOut A (corePage k)) :
    Spared A r (setStreamOp s k i op sub) := by
  unfold setStreamOp
  dsimp only
  split
  · simp [h, hp]
  · split <;> simp [h, hp]

@[simp] theorem spared_atBoundary (h : Spared A r s) {a : BAct} : Spared A r (atBoundary s a) := h

@[simp] theorem spared_dropPins (h : Spared A r s) {p pool : Nat} {pins : List (Nat × Nat)} : Spared A r (dropPins s p pool pins) := by
  unfold dropPins
  refine foldl_spared (fun t x ht => ?_) h
  exact ht

@[simp] theorem spared_clearFace (h : Spared A r s) {k : CoreId} {i : Nat} : Spared A r (clearFace s k i) :=
  ⟨h.regs, h.flags, h.ctrs, h.sec, h.gov, h.cells, h.tags, fun e => by simp [clearFace, h.face e, smClear]⟩

@[simp] theorem spared_leaveTags (h : Spared A r s) {k : CoreId} {i : Nat} : Spared A r (leaveTags s k i) :=
  ⟨h.regs, h.flags, h.ctrs, h.sec, h.gov, h.cells, fun e => by simp [leaveTags, h.tags e], h.face⟩

@[simp] theorem spared_kvPrefetchEnd (h : Spared A r s) {k : CoreId} : Spared A r (kvPrefetchEnd s k) := by
  unfold kvPrefetchEnd
  split
  · exact h
  · exact foldl_spared (f := fun t v => atBoundary t (.pageRelease _ _ v)) (fun _ _ ht => ht) h

@[simp] theorem spared_giveBack (h : Spared A r s) {p pool : Nat} {rows : List KvRow} : Spared A r (giveBack s p pool rows) :=
  foldl_spared (fun _ _ ht => by simp [ht]) h

@[simp] theorem spared_setCore (h : Spared A r s) {k : CoreId} {i : Nat} {c : CoreSt} : Spared A r (setCore s k i c) := h

@[simp] theorem spared_quitStream (h : Spared A r s) {k : CoreId} {i : Nat} {c : CmdRun} (hp : PageOut A (corePage k)) :
    Spared A r (quitStream s k i c) := by
  have hq : Spared A r (leaveTags (clearFace (dropPins s c.offer.part (field (c.offer.desc.getD 0 0) 8 7) c.pins) k i) k i) :=
    spared_leaveTags (spared_clearFace (spared_dropPins h))
  have hu := spared_setStreamOp (i := i) (op := 0) (sub := 0) (spared_setStreamState (i := i) (st := cIdle) 
    (spared_setCore (k := k) (i := i) (c := noCore) hq) hp) hp
  simp only [quitStream, ite_spared]
  exact ⟨fun _ => spared_kvPrefetchEnd hu, fun _ => hu⟩

@[simp] theorem spared_abortCmd (h : Spared A r s) {k : CoreId} {i : Nat} {st : Status} {record : Bool} (hp : PageOut A (corePage k)) :
    Spared A r (abortCmd s k i st record) := by
  unfold abortCmd
  split
  · exact h
  · extract_lets w t u
    have ht : Spared A r t := by
      have hf : failSlot k < 24 ∧ failSlot k ≠ 8 := by unfold failSlot; split <;> decide
      simp only [t, ite_spared]
      exact ⟨fun _ => spared_ctrAdd (spared_recordLast h hp) hf.1 hf.2, fun _ => h⟩
    refine spared_quitStream ?_ hp
    unfold u
    split
    · exact spared_giveBack ht
    · exact ht

/-! ### Channels, the mate and Fireboss -/

@[simp] theorem spared_fxToSafe (h : Spared A r s) {ch cause : Nat} (hp : PageOut A (fxPage ch)) : Spared A r (fxToSafe s ch cause) := by
  simp only [fxToSafe, ite_spared]
  refine ⟨fun _ => ?_, fun _ => h⟩
  exact spared_ctrAdd (slot := 12) (spared_setRegField (spared_setPgState h hp) hp (by decide) (by decide)) (by decide) (by decide)

@[simp] theorem spared_queueMsg (h : Spared A r s) {m : Msg} (hp : PageOut A vlPage) : Spared A r (queueMsg s m) := by
  simp only [queueMsg, ite_spared]
  refine ⟨fun _ => ?_, fun _ => h⟩
  exact spared_rcEvent (spared_setFlag (spared_ctrAdd h (by decide) (by decide)) hp) hp (by decide) (by decide)

@[simp] theorem spared_yieldUnable (h : Spared A r s) (hp : PageOut A vlPage) : Spared A r (yieldUnable s) := by
  have hr (t : State) (ht : Spared A r t) : Spared A r (sendToken t true) := by
    simp only [sendToken, ite_spared]
    exact ⟨fun _ => ht, fun _ => spared_queueMsg ht hp⟩
  simp only [yieldUnable, ite_spared]
  refine ⟨fun _ => ?_, fun _ => h⟩
  refine spared_ctrAdd (hr _ ?_) (by decide) (by decide)
  exact spared_ctrAdd (spared_setReg (spared_setReg (show Spared A r { s with vl := { s.vl with lead := false } } from h) hp (by decide)
    (by decide)) hp (by decide) (by decide)) (by decide) (by decide)

@[simp] theorem spared_trip (h : Spared A r s) {stack cause cls : Nat} {p : Page} (hp : PageOut A (fbPage stack)) :
    Spared A r (trip s stack cause cls p) := by
  simp (maxDischargeDepth := 4) [trip, h, hp]

/-! ### Seam blocks whose erase is due -/

theorem spared_retireBlock (h : Spared A r s) {k : Nat} (hp : PageOut A (keeperPage k)) : Spared A r (retireBlock s k) := by
  have hu : Spared A r (ctrAdd (setSpareBlocks s k (spareBlocks s k - 1)) (keeperPage k) 5 1) :=
    spared_ctrAdd (show Spared A r (setSpareBlocks s k _) from h) (by decide) (by decide)
  simp [retireBlock, hu, hp]

theorem spared_eraseBlock (h : Spared A r s) {k b : Nat} {ok : Bool} (hk : PageOut A (keeperPage k)) (hb : PageOut A (blockPage k b)) :
    Spared A r (eraseBlock s k b ok) := by
  unfold eraseBlock
  extract_lets w p t _ u v
  have ht : Spared A r t := by
    unfold t
    split
    · exact spared_ctrAdd h (by decide) (by decide)
    · exact spared_setFlag h hb
  have hv : Spared A r v := spared_setRegField (show Spared A r u from ht) hb (by decide) (by decide)
  split
  · exact ht
  · refine spared_retireBlock ?_ hk
    split <;> exact hv

/-! ### Frames and erases that await their tags -/

theorem spared_freeFrame (h : Spared A r s) {t : Tier} {f : Nat} : Spared A r (freeFrame s t f) := by
  unfold freeFrame
  split
  · exact h
  · cases t <;> exact h

theorem spared_settleFreeing (h : Spared A r s) : Spared A r (settleFreeing s) := by
  unfold settleFreeing
  refine foldl_spared (fun _ _ ht => spared_freeFrame ht) ?_
  exact h

/-- An erase that was due writes registers of its keeper and of its channel alone. -/
theorem spared_settleTags (h : Spared A r s) (hk : ∀ k, PageOut A (keeperPage k)) (hb : ∀ k b, PageOut A (blockPage k b)) :
    Spared A r (settleTags s) := by
  unfold settleTags settleErase
  refine foldl_spared (fun _ _ ht => spared_eraseBlock ht (hk _) (hb _ _)) ?_
  exact spared_settleFreeing h

/-! ### The halt -/

/-- The addresses of DEVICE's page, and of DEVICE's and Fireboss's pages. -/
def deviceAddr (a : Nat) : Prop := a < 0x1000
def haltAddr (a : Nat) : Prop := a < 0x1000 ∨ 0x700000 ≤ a ∧ a < 0x780000

theorem pageOut_none (p : Page) : PageOut (fun _ => False) p := fun _ _ h => h

theorem pageOut_deviceAddr {p : Page} (hp : 0x1000 ≤ pageBase p) : PageOut deviceAddr p := fun off _ h => by
  unfold deviceAddr regKey at h
  omega

theorem pageOut_haltAddr {p : Page} (h0 : 0x1000 ≤ pageBase p) (hp : pageBase p + 0x1000 ≤ 0x700000 ∨ 0x780000 ≤ pageBase p) :
    PageOut haltAddr p :=
  fun off ho h => by
    unfold haltAddr regKey at h
    omega

theorem corePage_range : ∀ k ∈ allCores, 0x1000 ≤ pageBase (corePage k) ∧ pageBase (corePage k) + 0x1000 ≤ 0x700000 := by decide

theorem core_of_streamOfKey {n : Nat} {x : CoreId × Nat} (h : streamOfKey n = some x) : x.1 ∈ allCores := by
  obtain ⟨k, hk, rfl⟩ := Option.map_eq_some_iff.1 h
  exact List.mem_of_find?_eq_some hk

/-- A halt as far as its pages: DEVICE in HALT with its flag, both Fireboss TRIPPED. -/
def haltPages (s : State) : State :=
  setPgState (setPgState (setFlag (setPgState s devPage stHalt) devPage 2) (fbPage 0) fbTripped) (fbPage 1) fbTripped

theorem sec_trips_congr {x y : SecSt} (h : x = { y with flash := { y.flash with trips := x.flash.trips } }) (l : List (Nat × Nat × Nat)) :
    { x with flash := { x.flash with trips := l } } = { y with flash := { y.flash with trips := l } } := by
  rw [h]

theorem spared_enterHalt_of {cause cls : Nat} {p : Page} (h : Spared A r (haltPages s)) (hc : ∀ k ∈ allCores, PageOut A (corePage k))
    (hf : ∀ ch < 64, PageOut A (fxPage ch)) (hv : PageOut A vlPage) : Spared A r (enterHalt s cause cls p) := by
  unfold enterHalt
  extract_lets t u v w
  have hu : Spared A r v := by
    refine foldl_spared (fun x n hx => ?_) h
    split
    · next e => exact spared_abortCmd hx (hc _ (core_of_streamOfKey e))
    · exact hx
  have hw : Spared A r w :=
    List.foldlRecOn _ _ hu fun x hx ch hch => spared_fxToSafe hx (hf ch (List.mem_range.1 hch))
  refine spared_yieldUnable ?_ hv
  exact ⟨hw.regs, hw.flags, hw.ctrs, sec_trips_congr hw.sec _, hw.gov, hw.cells, hw.tags, hw.face⟩

theorem spared_haltPages (h : Spared (fun _ => False) r s) : Spared (fun _ => False) r (haltPages s) :=
  spared_setPgState (spared_setPgState (spared_setFlag (spared_setPgState h (pageOut_none _)) (pageOut_none _)) (pageOut_none _)) (pageOut_none _)

theorem spared_enterHalt (h : Spared (fun _ => False) r s) {cause cls : Nat} {p : Page} : Spared (fun _ => False) r (enterHalt s cause cls p) :=
  spared_enterHalt_of (spared_haltPages h) (fun _ _ => pageOut_none _) (fun _ _ => pageOut_none _) (pageOut_none _)

/-- The rest of a halt leaves the pages of DEVICE and of Fireboss as `haltPages` has them. -/
theorem spared_enterHalt_pages (s : State) {cause cls : Nat} {p : Page} : Spared haltAddr (haltPages s) (enterHalt s cause cls p) := by
  refine spared_enterHalt_of (spared_refl _ _) (fun k hk => ?_) (fun ch hch => ?_) (pageOut_haltAddr (by decide) (by decide))
  · exact pageOut_haltAddr (corePage_range k hk).1 (.inl (corePage_range k hk).2)
  · refine pageOut_haltAddr ?_ (.inl ?_) <;> simp only [fxPage, pageBase, clsBase] <;> omega

/-- What HALT looks like (R550). -/
structure ShowsHalt (t : State) : Prop where
  device : devState t = stHalt
  west : pgState t (fbPage 0) = fbTripped
  east : pgState t (fbPage 1) = fbTripped
  flag : Flagged t devPage 2

/-- The state of one page says nothing of another page's. -/
theorem pgState_setPgState_ne (s : State) {p q : Page} {st : Nat} (hp : pageOk p = true) (hq : pageOk q = true) (h : p ≠ q) :
    pgState (setPgState s p st) q = pgState s q :=
  pgState_of_spared (A := (· = regKey q 0x00C)) (spared_setPgState (spared_refl _ s) fun _ ho => regKey_ne hp hq ho (by decide) (.inl h)) rfl

theorem pgState_setFlag (s : State) {p : Page} {n : Nat} : pgState (setFlag s p n) p = pgState s p := by
  simp only [pgState, regField]
  rw [regVal_setFlag_ne _ _ _ (by simp [regKey])]

theorem showsHalt_haltPages (s : State) : ShowsHalt (haltPages s) where
  device := by
    unfold haltPages devState
    rw [pgState_setPgState_ne _ (by decide) (by decide) (by decide), pgState_setPgState_ne _ (by decide) (by decide) (by decide),
      pgState_setFlag, pgState_setPgState]
    rfl
  west := by
    unfold haltPages
    rw [pgState_setPgState_ne _ (by decide) (by decide) (by decide), pgState_setPgState]
    rfl
  east := pgState_setPgState _ _ _
  flag :=
    flagged_of_spared (spared_setPgState (spared_setPgState (spared_refl (fun _ => False) _) (pageOut_none _)) (pageOut_none _))
      (flagged_setFlag _ _ _ (by decide))

theorem showsHalt_enterHalt (s : State) {cause cls : Nat} {p : Page} : ShowsHalt (enterHalt s cause cls p) := by
  have h := spared_enterHalt_pages s (cause := cause) (cls := cls) (p := p)
  obtain ⟨hd, hw, he, hf⟩ := showsHalt_haltPages s
  exact ⟨(pgState_of_spared h (.inl (by decide))).trans hd, (pgState_of_spared h (.inr (by decide))).trans hw,
    (pgState_of_spared h (.inr (by decide))).trans he, flagged_of_spared h hf⟩

/-- A device-fatal error of a running device: the trip is recorded, and the device halts. -/
theorem deviceFatal_running (h : devRunning s = true) (p : Page) (cause : Nat) :
    deviceFatal s p cause = enterHalt (trip s (actingStack s p) (if cause = 0 then 1 else cause) 4 p) (if cause = 0 then 1 else cause) 4 p := by
  have hb : devState s ≠ stBoot := by
    rw [devRunning, beq_iff_eq] at h
    simp [h, stRun, stBoot]
  simp [deviceFatal, fatalTrip, hb, h]

theorem showsHalt_deviceFatal (h : devRunning s = true) (p : Page) (cause : Nat) : ShowsHalt (deviceFatal s p cause) := by
  rw [deviceFatal_running h]
  exact showsHalt_enterHalt _

theorem spared_deviceFatal (h : devRunning s = true) (p : Page) (cause : Nat) : Spared (fun _ => False) s (deviceFatal s p cause) := by
  rw [deviceFatal_running h]
  exact spared_enterHalt (spared_trip (spared_refl _ _) (pageOut_none _))

end Sys2Proof.Machine
end

section
/-! PROOFS. The governor and the thermal limits (R36, R648). -/

namespace Sys2Proof.Machine

variable {s : State}

theorem exec_governorLowerDuty_over (hg : governs s = true) (ht : now s % 100 = 0)
    (hw : s.gov.ceiling * 10 * s.gov.window.length < s.gov.window.sum * 8) (hd : 8 < s.gov.duty) :
    exec .governorLowerDuty s = .next { s with atTick := s.atTick ++ [.duty (s.gov.duty - 1)] } := by
  simp [exec, execGovernorLowerDuty, hg, ht, hw, hd, atBoundary]

theorem exec_governorRaiseDuty_below (hg : governs s = true) (hb : 1000 ≤ s.gov.below) (hu : 1000 ≤ s.gov.sinceUp) (hd : s.gov.duty < 16) :
    exec .governorRaiseDuty s = .next { s with atTick := s.atTick ++ [.duty (s.gov.duty + 1)], gov := { s.gov with sinceUp := 0 } } := by
  simp [exec, execGovernorRaiseDuty, hg, hb, hu, hd, atBoundary]

theorem thermalCeiling_of_le {tj : Int} (h : tj ≤ 1520) : thermalCeiling tj = 3840 := if_pos h

theorem thermalCeiling_of_lt {tj : Int} (h : 1520 < tj) : thermalCeiling tj < 3840 := by
  simp only [thermalCeiling, if_neg (Int.not_le.2 h)]
  omega

/-- THERMAL_CEILING_UPDATE at a multiple of 1,000 ticks (R648, R649). -/
def ceilingSet (s : State) : State :=
  let t := { s with gov := { s.gov with ceiling := thermalCeiling s.gov.tj } }
  if thermalCeiling s.gov.tj < 3840 then orReg t (partPage 0) 0x7D0 4 else t

theorem exec_thermalCeilingUpdate_due (ht : now s % 1000 = 0) (hb : s.sec.boot.held = false) (hm : s.supply.main = true) :
    exec .thermalCeilingUpdate s = .next (ceilingSet s) := by
  simp [exec, execThermalCeilingUpdate, ht, hb, hm, ceilingSet]

theorem ceilingSet_gov (s : State) : (ceilingSet s).gov = { s.gov with ceiling := thermalCeiling s.gov.tj } := by
  unfold ceilingSet
  dsimp only
  split <;> rfl

theorem regsBut_orReg {t : State} (h : t.regs = s.regs) (p : Page) (off : Nat) (v : Word) : RegsBut [regKey p off] s (orReg t p off v) := by
  intro q o hk
  rw [regVal_orReg_ne _ _ _ _ fun e => hk (List.mem_singleton.2 e.symm), regVal_congr h]

theorem regBit_orReg {t : State} {p : Page} {off n : Nat} {v : Word} (h : bit v n = true) : regBit (orReg t p off v) p off n = true := by
  rw [regBit, regVal_orReg_same, bit_or, h, Bool.or_true]

theorem ceilingSet_frame (s : State) : RegsBut [regKey (partPage 0) 0x7D0] s (ceilingSet s) ∧
    ceilingSet s = { withBlock (ceilingSet s) s with gov := { s.gov with ceiling := (ceilingSet s).gov.ceiling } } := by
  unfold ceilingSet
  dsimp only
  split
  · exact ⟨regsBut_orReg rfl _ _ _, rfl⟩
  · exact ⟨fun _ _ _ => rfl, rfl⟩

theorem ceilingSet_shows (h : 1520 < s.gov.tj) : regBit (ceilingSet s) (partPage 0) 0x7D0 2 = true := by
  simp only [ceilingSet, if_pos (thermalCeiling_of_lt h)]
  exact regBit_orReg (by decide)

theorem exec_thermalTrip_due (hh : s.gov.hotRun = 1000) (hb : s.sec.boot.held = false) (hm : s.supply.main = true) :
    exec .thermalTrip s = .next (deviceFatal { s with gov := { s.gov with hotRun := 1001 } } devPage 1) := by
  simp [exec, execThermalTrip, hh, hb, hm]

/-- Settles O12: each command's own equation, and for the trip what every halt shows. -/
theorem governorEffects : Obligations.GovernorEffects := by
  refine ⟨fun s hg ht hw hd => exec_governorLowerDuty_over hg ht hw hd, fun s hg hb hu hd => ?_, fun _ _ => rfl, fun s ht hb hm => ?_,
    fun s hh hb hm hr => ?_⟩
  · exact ⟨_, exec_governorRaiseDuty_below hg hb hu hd, rfl, rfl, rfl, rfl⟩
  · have hc := ceilingSet_gov s
    obtain ⟨hregs, hframe⟩ := ceilingSet_frame s
    exact ⟨_, exec_thermalCeilingUpdate_due ht hb hm, by rw [hc], fun h => by rw [hc]; exact thermalCeiling_of_le h,
      fun h => ⟨by rw [hc]; exact thermalCeiling_of_lt h, ceilingSet_shows h⟩, hregs, hframe⟩
  · have hr' : devRunning { s with gov := { s.gov with hotRun := 1001 } } = true := hr
    obtain ⟨hdev, hwest, heast, hflag⟩ := showsHalt_deviceFatal hr' devPage 1
    exact ⟨_, exec_thermalTrip_due hh hb hm, hdev, hwest, heast, hflag, by rw [(spared_deviceFatal hr' devPage 1).gov]⟩

end Sys2Proof.Machine
end

section
/-! PROOFS. What a device reset leaves (R43, R410, R469, R644): the lifecycle change, what the always-on domain keeps, and the bytes of the
tiers. Before it, what erases, writes of pages and messages to the mate leave of the rest of the device. -/

namespace Sys2Proof.Machine

/-! ### What Seam erases and writes of pages leave alone -/

/-- The device's own state, Lamphouse's, the supply's, the governor's, and the writes held through Brown-out: no operation of the memory
tiers and no message to the mate writes these. -/
def boardOf (s : State) : DevSt × SecSt × SupplySt × GovSt × List (Nat × List Byte) := (s.dev, s.sec, s.supply, s.gov, s.mem.heldWrites)

/-- What each step of a fold leaves, the fold leaves. -/
theorem foldl_leaves {α β : Type} (g : State → β) {f : State → α → State} (hf : ∀ t x, g (f t x) = g t) (xs : List α) (s : State) :
    g (xs.foldl f s) = g s :=
  List.foldlRecOn (motive := fun t => g t = g s) _ _ rfl fun t ht x _ => (hf t x).trans ht

theorem boardOf_foldl {α : Type} {f : State → α → State} (hf : ∀ t x, boardOf (f t x) = boardOf t) (xs : List α) (s : State) :
    boardOf (xs.foldl f s) = boardOf s :=
  foldl_leaves boardOf hf xs s

@[simp] theorem boardOf_setRegField (s : State) (p : Page) (off hi lo v : Nat) : boardOf (setRegField s p off hi lo v) = boardOf s := rfl
@[simp] theorem boardOf_setReg (s : State) (p : Page) (off : Nat) (v : Word) : boardOf (setReg s p off v) = boardOf s := rfl
@[simp] theorem boardOf_rcEvent (s : State) (p : Page) (off : Nat) (f : Word → Word) : boardOf (rcEvent s p off f) = boardOf s := rfl
@[simp] theorem boardOf_ctrAdd (s : State) (p : Page) (i n : Nat) : boardOf (ctrAdd s p i n) = boardOf s := by simp [boardOf]
@[simp] theorem boardOf_setFlag (s : State) (p : Page) (n : Nat) : boardOf (setFlag s p n) = boardOf s := by simp [boardOf]
@[simp] theorem boardOf_setPgState (s : State) (p : Page) (st : Nat) : boardOf (setPgState s p st) = boardOf s := by simp [boardOf]
@[simp] theorem boardOf_spendFree (s : State) (n : Nat) : boardOf (spendFree s n) = boardOf s := rfl
@[simp] theorem boardOf_setWear (s : State) (k b : Nat) (w : BlockWear) : boardOf (setWear s k b w) = boardOf s := rfl
@[simp] theorem boardOf_setOpen (s : State) (ch : Nat) (b : Option Nat) : boardOf (setOpen s ch b) = boardOf s := rfl
@[simp] theorem boardOf_setUnits (s : State) (key : Nat) (bs : List Nat) : boardOf (setUnits s key bs) = boardOf s := rfl
@[simp] theorem boardOf_setFreeBlocks (s : State) (k n : Nat) : boardOf (setFreeBlocks s k n) = boardOf s := rfl
@[simp] theorem boardOf_setSpareBlocks (s : State) (k n : Nat) : boardOf (setSpareBlocks s k n) = boardOf s := rfl
@[simp] theorem boardOf_setPte (s : State) (n v : Nat) (e : Pte) : boardOf (setPte s n v e) = boardOf s := rfl

@[simp] theorem boardOf_retireBlock (s : State) (k : Nat) : boardOf (retireBlock s k) = boardOf s := by
  unfold retireBlock
  dsimp only
  split_ifs <;> simp

@[simp] theorem boardOf_eraseBlock (s : State) (k b : Nat) (ok : Bool) : boardOf (eraseBlock s k b ok) = boardOf s := by
  unfold eraseBlock
  dsimp only
  split_ifs <;> simp

@[simp] theorem boardOf_eraseTiers (s : State) : boardOf (eraseTiers s) = boardOf s := by
  unfold eraseTiers
  refine boardOf_foldl (fun u k => boardOf_foldl (fun v x => ?_) _ u) _ _
  split_ifs <;> simp

@[simp] theorem boardOf_programUnit (s : State) (ch : Nat) : boardOf (programUnit s ch).2 = boardOf s := by
  unfold programUnit
  dsimp only
  rw [boardOf_ctrAdd, boardOf_setWear]
  split
  · rfl
  · split <;> rfl

@[simp] theorem boardOf_programPage (s : State) (n lpn : Nat) : boardOf (programPage s n lpn) = boardOf s := by
  unfold programPage
  dsimp only
  rw [boardOf_ctrAdd, boardOf_setUnits]
  exact List.foldlRecOn (motive := fun acc : List Nat × State => boardOf acc.2 = boardOf s) _ _ rfl
    fun acc hacc c _ => (boardOf_programUnit acc.2 c).trans hacc

@[simp] theorem boardOf_freeFrame (s : State) (t : Tier) (f : Nat) : boardOf (freeFrame s t f) = boardOf s := by
  unfold freeFrame
  split
  · rfl
  · cases t <;> rfl

@[simp] theorem boardOf_pageWritten (s : State) (n v : Nat) : boardOf (pageWritten s n v) = boardOf s := by
  unfold pageWritten
  dsimp only
  split
  · split_ifs <;> simp
  · rfl
  · simp

@[simp] theorem boardOf_writeByte (s : State) (n a : Nat) (b : Byte) : boardOf (writeByte s n a b) = boardOf s := by
  unfold writeByte
  dsimp only
  split <;> rfl

@[simp] theorem boardOf_writeList (s : State) (n a : Nat) (bs : List Byte) : boardOf (writeList s n a bs) = boardOf s := by
  induction bs generalizing s a with
  | nil => rfl
  | cons b bs ih => rw [writeList, ih, boardOf_writeByte]

@[simp] theorem boardOf_setCode (s : State) (n a c : Nat) : boardOf (setCode s n a c) = boardOf s := by
  unfold setCode
  dsimp only
  split <;> rfl

@[simp] theorem boardOf_writePage (s : State) (n a : Nat) (bs : List Byte) : boardOf (writePage s n a bs) = boardOf s := by
  unfold writePage
  split_ifs
  · rfl
  · rfl
  · rw [boardOf_foldl fun _ _ => boardOf_setCode _ _ _ _, boardOf_pageWritten, boardOf_writeList]

@[simp] theorem boardOf_writeBytes (s : State) (n a : Nat) (bs : List Byte) : boardOf (writeBytes s n a bs) = boardOf s :=
  boardOf_foldl (fun _ _ => boardOf_writePage _ _ _ _) _ _

@[simp] theorem boardOf_queueMsg (s : State) (m : Msg) : boardOf (queueMsg s m) = boardOf s := by
  unfold queueMsg
  dsimp only
  split
  · simp
  · rfl

@[simp] theorem boardOf_yieldUnable (s : State) : boardOf (yieldUnable s) = boardOf s := by
  unfold yieldUnable yieldLead roleChange sendToken
  dsimp only
  split
  · split <;> simp <;> rfl
  · rfl

@[simp] theorem queueMsg_mem (s : State) (m : Msg) : (queueMsg s m).mem = s.mem := by
  unfold queueMsg
  dsimp only
  split <;> simp

@[simp] theorem yieldUnable_mem (s : State) : (yieldUnable s).mem = s.mem := by
  unfold yieldUnable yieldLead roleChange sendToken
  dsimp only
  split
  · split <;> simp
  · rfl

variable {s : State}

/-! ### Maps filtered by their keys -/

theorem smGet_filter {α : Type} (d : α) (m : SMap α) (q : Nat → Bool) (i : Nat) :
    smGet d (m.filter fun x => q x.1) i = if q i then smGet d m i else d := by
  induction m with
  | nil => simp
  | cons x m ih =>
    obtain ⟨k, v⟩ := x
    by_cases hk : q k = true
    · rw [List.filter_cons_of_pos (by exact hk), smGet_cons, smGet_cons, ih]
      by_cases hi : k = i
      · simp [← hi, hk]
      · simp [hi]
    · rw [List.filter_cons_of_neg (by exact hk), ih, smGet_cons]
      by_cases hi : k = i
      · simp [← hi, hk]
      · simp [hi]

/-! ### A lifecycle change at a reset (R469) -/

/-- Whether a reset enters SERVICE, and whether it erases Drift and Seam. -/
def entersService (s : State) : Bool := decide (s.sec.flash.lifeNext = some lcService)
def wipesTiers (s : State) : Bool := entersService s || decide (s.sec.flash.lifeNext = some lcSealed ∧ lifecycle s = lcService)

/-- What a lifecycle change makes of the persistent state. -/
def lifeFlash (s : State) : FlashSt :=
  { s.sec.flash with
    epoch := if entersService s then min (s.sec.flash.epoch + 1) 3 else s.sec.flash.epoch
    layout := if entersService s then none else s.sec.flash.layout
    kill := s.sec.flash.kill || decide (s.sec.flash.lifeNext = some lcScrapped) }

/-- Outside SERVICE's entry and SCRAPPED the persistent state stands. -/
theorem lifeFlash_same (h : entersService s = false) (hk : s.sec.flash.lifeNext ≠ some lcScrapped) : lifeFlash s = s.sec.flash := by
  simp [lifeFlash, h, hk]

theorem setFlash_lifeFlash_same (h : entersService s = false) (hk : s.sec.flash.lifeNext ≠ some lcScrapped) : setFlash s (lifeFlash s) = s := by
  rw [lifeFlash_same h hk]
  rfl

theorem lifeChange_eq (s : State) :
    lifeChange s = if wipesTiers s then eraseTiers (setFlash s (lifeFlash s)) else setFlash s (lifeFlash s) := by
  unfold lifeChange
  dsimp only
  split
  · next e =>
    have hs : entersService s = false := by simp [entersService, e]
    rw [setFlash_lifeFlash_same hs (by simp [e])]
    simp [wipesTiers, hs, e]
  · next b e =>
    by_cases hb : b = lcService
    · have hs : entersService s = true := by simp [entersService, e, hb]
      have hf : lifeFlash s = { s.sec.flash with epoch := min (s.sec.flash.epoch + 1) 3, layout := none } := by
        simp [lifeFlash, hs, e, hb, lcService, lcScrapped]
      simp [wipesTiers, hs, hb, hf]
    · have hs : entersService s = false := by simp [entersService, e, hb]
      by_cases hw : b = lcSealed ∧ lifecycle s = lcService
      · rw [setFlash_lifeFlash_same hs (by simp [e, hw.1, lcSealed, lcScrapped])]
        simp [wipesTiers, e, hw, lcSealed, lcService]
      · have hn : wipesTiers s = false := by simpa [wipesTiers, hs, e] using hw
        by_cases hk : b = lcScrapped
        · have hf : lifeFlash s = { s.sec.flash with kill := true } := by simp [lifeFlash, hs, e, hk]
          simp [hn, hf, hk, lcScrapped, lcService, lcSealed]
        · rw [setFlash_lifeFlash_same hs (by simp [e, hk])]
          simp [hn, hb, hw, hk]

theorem boardOf_lifeChange (s : State) : boardOf (lifeChange s) = boardOf (setFlash s (lifeFlash s)) := by
  rw [lifeChange_eq]
  split <;> simp

theorem lifeChange_dev (s : State) : (lifeChange s).dev = s.dev := congrArg (·.1) (boardOf_lifeChange s)
theorem lifeChange_flash (s : State) : (lifeChange s).sec.flash = lifeFlash s := congrArg (·.2.1.flash) (boardOf_lifeChange s)
theorem lifeChange_supply (s : State) : (lifeChange s).supply = s.supply := congrArg (·.2.2.1) (boardOf_lifeChange s)

theorem lifeChange_cells (s : State) : (lifeChange s).mem.cells = if wipesTiers s then [] else s.mem.cells := by
  rw [lifeChange_eq]
  split
  · exact eraseTiers_cells _
  · rfl

/-- An erase of the tiers writes registers of the keepers and of the Seam channels alone. -/
theorem regs_eraseTiers (A : Nat → Prop) (hk : ∀ k < 2, PageOut A (keeperPage k)) (hb : ∀ k < 2, ∀ b, PageOut A (blockPage k b))
    (s : State) {a : Nat} (ha : A a) (d : Word) : smGet d (eraseTiers s).regs a = smGet d s.regs a := by
  unfold eraseTiers
  extract_lets m t
  have ht : Spared A t t := spared_refl A t
  have h : Spared A t ((List.range 2).foldl (fun u k => (smRange u.mem.wear (wearKey k 0) (wearKey (k + 1) 0)).foldl
      (fun v x => if x.2.used = 0 ∨ x.2.bad then v else eraseBlock v k (x.1 - wearKey k 0) true) u) t) := by
    refine List.foldlRecOn (motive := Spared A t) _ _ ht fun u hu k hr => foldl_spared (fun v x hv => ?_) hu
    split
    · exact hv
    · exact spared_eraseBlock hv (hk k (List.mem_range.1 hr)) (hb k (List.mem_range.1 hr) _)
  exact h.regs d a ha

/-- The addresses of the channel pages. -/
def channelAddr (a : Nat) : Prop := 0x1A0000 ≤ a ∧ a < 0x1E0000

theorem channelAddr_regKey {p : Page} {off : Nat} (hp : pageOk p = true) (ho : off < 0x1000) (hc : p.cls = .fxch) : channelAddr (regKey p off) := by
  obtain ⟨k, i⟩ := p
  obtain rfl : k = .fxch := hc
  have hi : i < 64 := of_decide_eq_true hp
  simp only [channelAddr, regKey, pageBase, clsBase]
  omega

theorem pageOut_channelAddr {p : Page} (hp : 0x1E0000 ≤ pageBase p) : PageOut channelAddr p := fun off _ h => by
  unfold channelAddr regKey at h
  omega

/-- A lifecycle change writes no register of a channel. -/
theorem lifeChange_channel (s : State) {p : Page} {off : Nat} (hp : pageOk p = true) (ho : off < 0x1000) (hc : p.cls = .fxch) :
    regVal (lifeChange s) p off = regVal s p off := by
  have ha := channelAddr_regKey hp ho hc
  rw [lifeChange_eq]
  split
  · refine regs_eraseTiers channelAddr (fun k _ => ?_) (fun k _ b => ?_) _ ha _
    · exact pageOut_channelAddr (by simp only [keeperPage, pageBase, clsBase]; omega)
    · exact pageOut_channelAddr (by simp only [blockPage, pageBase, clsBase]; omega)
  · rfl

/-! ### Device reset (R43, R410, R644) -/

/-- Whether an address holds a safe store, which the always-on domain keeps. -/
def isSafeAddr (a : Nat) : Bool :=
  match pageAt a with
  | some p => p.cls == .fxch && isSafeStore (pageOff a)
  | none => false

theorem keptRegs_eq (s : State) : keptRegs s = s.regs.filter fun x => isSafeAddr x.1 := rfl

theorem isSafeAddr_regKey {p : Page} {off : Nat} (hp : pageOk p = true) (ho : off < 0x1000) :
    isSafeAddr (regKey p off) = (p.cls == .fxch && isSafeStore off) := by
  simp only [isSafeAddr, pageAt_regKey hp ho, pageOff_regKey ho]

theorem deviceReset_reg (s : State) {p : Page} {off : Nat} (hp : pageOk p = true) (ho : off < 0x1000) :
    regVal (deviceReset s) p off = if p.cls = .fxch ∧ isSafeStore off = true then regVal s p off else regReset p off := by
  have hr : regVal (deviceReset s) p off = smGet (regReset p off) (keptRegs (lifeChange s)) (regKey p off) := rfl
  rw [hr, keptRegs_eq, smGet_filter, isSafeAddr_regKey hp ho]
  by_cases hc : p.cls = .fxch
  · simp only [hc, beq_self_eq_true, Bool.true_and, true_and]
    rw [← lifeChange_channel s hp ho hc]
    rfl
  · simp [hc]

/-- The bytes that a reset keeps of a state. -/
theorem keptMem_byte (s : State) (drift : Bool) (a : Nat) :
    cellGet (keptMem s drift).cells a = if (if drift then driftBase else seamBase) ≤ a then memByte s a else unlisted := by
  have h := smGet_filter unlisted s.mem.cells (fun k => decide ((if drift then driftBase else seamBase) ≤ k)) a
  simp only [decide_eq_true_eq] at h
  exact h

/-- The memory of a reset device; without power Drift is lost too. -/
def resetMem (s : State) (drift : Bool) : MemSt := if drift then (deviceReset s).mem else keptMem (deviceReset s) false

theorem resetMem_byte (s : State) (drift : Bool) (a : Nat) :
    cellGet (resetMem s drift).cells a =
      if wipesTiers s = false ∧ (if drift then driftBase else seamBase) ≤ a then memByte s a else unlisted := by
  have hb : driftBase ≤ seamBase := by decide
  have hl (b : Nat) : memByte (lifeChange s) b = if wipesTiers s then unlisted else memByte s b := by
    rw [memByte, lifeChange_cells]
    split <;> rfl
  have hd (b : Nat) : memByte (deviceReset s) b = if driftBase ≤ b then memByte (lifeChange s) b else unlisted := keptMem_byte _ true b
  cases drift
  · have hk : cellGet (resetMem s false).cells a = if seamBase ≤ a then memByte (deviceReset s) a else unlisted := keptMem_byte _ false a
    rw [hk, hd, hl]
    by_cases ha : seamBase ≤ a
    · cases wipesTiers s <;> simp [ha, hb.trans ha]
    · simp [ha]
  · rw [show cellGet (resetMem s true).cells a = memByte (deviceReset s) a from rfl, hd, hl]
    by_cases ha : driftBase ≤ a <;> cases wipesTiers s <;> simp [ha]

/-- A device reset, with power or without. -/
theorem resetFrom_resetMem (s : State) (drift : Bool) : ResetFrom s { deviceReset s with mem := resetMem s drift } drift := by
  have hq : (deviceReset s).pending = s.pending := (kept_deviceReset (kept_refl s)).queue
  have hf : (deviceReset s).sec.flash = { (lifeChange s).sec.flash with lifeNext := none, d2Back := false } := rfl
  have hd : (deviceReset s).dev.lifecycle = BitVec.ofNat 4 ((lifeChange s).sec.flash.lifeNext.getD (lifeChange s).dev.lifecycle.toNat) := rfl
  have he : (deviceReset s).vl.epoch = (lifeChange s).sec.flash.pairEpoch := rfl
  rw [lifeChange_flash] at hf hd he
  rw [lifeChange_dev] at hd
  exact ⟨rfl, rfl, rfl, rfl, rfl, rfl, rfl, rfl, rfl, rfl, rfl, rfl, hq, he, rfl, rfl, hf, hd, fun p off hp ho => deviceReset_reg s hp ho,
    resetMem_byte s drift⟩

theorem resetFrom_deviceReset (s : State) : ResetFrom s (deviceReset s) true := resetFrom_resetMem s true

theorem resetFrom_powerOff (s : State) : ResetFrom s (powerOff s) false := resetFrom_resetMem s false

theorem deviceReset_main (s : State) : (deviceReset s).supply.main = s.supply.main := by
  show (lifeChange s).supply.main = _
  rw [lifeChange_supply]

end Sys2Proof.Machine
end

section
/-! PROOFS. The supply, Brown-out and tamper (R506, R537, R542, R641 to R646). -/

namespace Sys2Proof.Machine

variable {s u : State}

/-! ### Brown-out (R542, R641 to R644) -/

theorem brownOut_again (n : Nat) (hm : s.supply.main = true) (hb : s.sec.boot.held = false) (hp : s.dev.power = 4) :
    brownOut s n = { s with supply := { s.supply with sources := nlAdd s.supply.sources n } } := by
  simp [brownOut, hm, hb, hp]

theorem brownOut_enters (n : Nat) (hm : s.supply.main = true) (hb : s.sec.boot.held = false) (hp : s.dev.power ≠ 4) :
    brownOut s n = { s with
      supply := { s.supply with sources := nlAdd s.supply.sources n, brownAt := some (now s) }
      sec := { s.sec with power := { s.sec.power with under := s.dev.power.toNat } }
      dev := { s.dev with power := 4 }, gov := { s.gov with held := true }, atTick := s.atTick ++ [.duty 8] } := by
  simp only [brownOut, hm, hb, if_neg hp]
  rfl

theorem mem_nlAdd_self (l : List Nat) (n : Nat) : n ∈ nlAdd l n := by
  induction l with
  | nil => simp [nlAdd]
  | cons x l ih =>
    unfold nlAdd
    split_ifs <;> simp_all

theorem brownOut_facts (n : Nat) (hm : s.supply.main = true) (hb : s.sec.boot.held = false) :
    n ∈ (brownOut s n).supply.sources ∧ (brownOut s n).dev.power = 4 ∧ (brownOut s n).mem = s.mem ∧ (brownOut s n).regs = s.regs ∧
      (s.dev.power ≠ 4 → (brownOut s n).supply.brownAt = some (now s) ∧ (brownOut s n).atTick = s.atTick ++ [.duty 8] ∧
        (brownOut s n).gov.held = true) := by
  by_cases hp : s.dev.power = 4
  · rw [brownOut_again n hm hb hp]
    exact ⟨mem_nlAdd_self _ _, hp, rfl, rfl, fun h => absurd hp h⟩
  · rw [brownOut_enters n hm hb hp]
    exact ⟨mem_nlAdd_self _ _, rfl, rfl, rfl, fun _ => ⟨rfl, rfl, rfl⟩⟩

theorem exec_undervoltage (hm : s.supply.main = true) (hb : s.sec.boot.held = false) :
    exec .undervoltage s = .next (orReg (brownOut s 2) (partPage 0) 0x7D0 2) := by
  simp [exec, execUndervoltage, hm, hb]

/-- The writes that were held proceed, and none is held after. -/
theorem boardOf_releaseHeld (s : State) : boardOf (releaseHeld s) = boardOf { s with mem := { s.mem with heldWrites := [] } } := by
  unfold releaseHeld
  refine boardOf_foldl (fun t x => ?_) _ _
  dsimp only
  split <;> simp

theorem releaseHeld_none (h : s.mem.heldWrites = []) : releaseHeld s = s := by
  unfold releaseHeld
  rw [h, List.foldl_nil, ← h]

@[simp] theorem boardOf_setFb (s : State) (k : CoreId) (x : CoreFb) : boardOf (setFb s k x) = boardOf s := rfl
@[simp] theorem setFb_mem (s : State) (k : CoreId) (x : CoreFb) : (setFb s k x).mem = s.mem := rfl

/-- A wake begins: the board stands but for the transition in progress, and the memory stands. -/
theorem boardOf_wakeBegin (s : State) (src : Nat) :
    boardOf (wakeBegin s src) = boardOf (setPower s { s.sec.power with transit := some pwActive, src := src }) := by
  unfold wakeBegin
  refine (boardOf_foldl (fun v k => boardOf_setFb v k _) _ _).trans (boardOf_foldl (fun v h => ?_) _ _)
  split <;> simp

theorem wakeBegin_mem (s : State) (src : Nat) : (wakeBegin s src).mem = s.mem := by
  unfold wakeBegin
  refine (foldl_leaves State.mem (fun v k => setFb_mem v k _) _ _).trans (foldl_leaves State.mem (fun v h => ?_) _ _)
  split <;> simp

/-- The end of Brown-out: the governor resumes, and the held writes have proceeded. -/
def unbrowned (s : State) : State :=
  releaseHeld { s with supply := { s.supply with sources := [], brownAt := none, drawAt := none }, gov := { s.gov with held := false } }

/-- The state that Brown-out interrupted. -/
def restored (s : State) : State :=
  setPower (powerTo { unbrowned s with dev := { (unbrowned s).dev with power := 0 } } s.sec.power.under) { s.sec.power with under := 0, kept := 0 }

theorem powerTo_of_ne {p : Nat} (h : s.dev.power ≠ 4) :
    powerTo s p = yieldUnable { s with dev := { s.dev with power := BitVec.ofNat 4 p } } := if_neg h

theorem boardOf_unbrowned (s : State) : boardOf (unbrowned s) =
    (s.dev, s.sec, { s.supply with sources := [], brownAt := none, drawAt := none }, { s.gov with held := false }, []) := boardOf_releaseHeld _

theorem boardOf_setPower (s : State) (x : PowerSt) : boardOf (setPower s x) = ((boardOf s).1, { (boardOf s).2.1 with power := x }, (boardOf s).2.2) :=
  rfl

theorem restored_eq (s : State) : restored s = setPower
    (yieldUnable { unbrowned s with dev := { (unbrowned s).dev with power := BitVec.ofNat 4 s.sec.power.under } })
    { s.sec.power with under := 0, kept := 0 } := by
  unfold restored
  rw [powerTo_of_ne (show (0 : BitVec 4) ≠ 4 by decide)]

theorem boardOf_yieldUnable_power (u : State) (p : BitVec 4) :
    boardOf (yieldUnable { u with dev := { u.dev with power := p } }) = ({ (boardOf u).1 with power := p }, (boardOf u).2) := boardOf_yieldUnable _

theorem boardOf_restored (s : State) : boardOf (restored s) = ({ s.dev with power := BitVec.ofNat 4 s.sec.power.under },
    { s.sec with power := { s.sec.power with under := 0, kept := 0 } },
    { s.supply with sources := [], brownAt := none, drawAt := none }, { s.gov with held := false }, []) := by
  rw [restored_eq, boardOf_setPower, boardOf_yieldUnable_power, boardOf_unbrowned]

theorem unbrowned_mem (h : s.mem.heldWrites = []) : (unbrowned s).mem = s.mem := by
  unfold unbrowned
  rw [releaseHeld_none (by exact h)]

theorem restored_mem (h : s.mem.heldWrites = []) : (restored s).mem = s.mem := by
  rw [restored_eq]
  exact (yieldUnable_mem _).trans (unbrowned_mem h)

theorem exec_brownOutExit {b : Nat} {under : Bool} (hb : s.supply.brownAt = some b) (hp : s.dev.power = 4) (ht : b + 100 ≤ now s) :
    exec (.brownOutExit under) s = .next (
      if nlDel s.supply.sources (if under then 2 else 0) = [] then
        if s.sec.power.kept ≠ 0 ∧ s.sec.power.transit.isNone ∧ !(powered (restored s)) then wakeBegin (restored s) s.sec.power.kept else restored s
      else { s with supply := { s.supply with sources := nlDel s.supply.sources (if under then 2 else 0) } }) := by
  have hc : ¬ (s.dev.power ≠ 4 ∨ now s < b + 100) := by
    rintro (h | h)
    · exact h hp
    · omega
  simp only [exec, execBrownOutExit, hb, if_neg hc]
  by_cases hl : nlDel s.supply.sources (if under then 2 else 0) = []
  · simp only [hl, List.isEmpty_nil, if_true]
    rfl
  · simp [hl]

theorem powered_restored (h : s.sec.power.under = 2 ∨ s.sec.power.under = 3) : powered (restored s) = false := by
  have hd : (restored s).dev = { s.dev with power := BitVec.ofNat 4 s.sec.power.under } := congrArg (·.1) (boardOf_restored s)
  rcases h with h | h <;> simp [powered, powerUnder, hd, h]

/-- The two ways out of Brown-out: with a source left, only that one is gone; with none left the interrupted state is back. -/
theorem brownOutExit_effects {b : Nat} (under : Bool) (hb : s.supply.brownAt = some b) (hp : s.dev.power = 4) (ht : b + 100 ≤ now s) :
    let left := nlDel s.supply.sources (if under then 2 else 0)
    let x := s.sec.power
    ∃ t, exec (.brownOutExit under) s = .next t ∧
      (left ≠ [] → t = { s with supply := { s.supply with sources := left } }) ∧
      (left = [] → t.dev.power = BitVec.ofNat 4 x.under ∧ t.supply.brownAt = none ∧ t.gov.held = false ∧ t.mem.heldWrites = [] ∧
        (s.mem.heldWrites = [] → t.mem = s.mem) ∧ (x.kept = 0 → t.sec.power = { x with under := 0, kept := 0 }) ∧
        (x.kept ≠ 0 → x.transit = none → x.under = 2 ∨ x.under = 3 → t.sec.power.transit = some 0 ∧ t.sec.power.src = x.kept)) := by
  intro left x
  refine ⟨_, exec_brownOutExit hb hp ht, fun hl => if_neg hl, fun hl => ?_⟩
  rw [if_pos hl]
  have hr := boardOf_restored s
  simp only [boardOf, Prod.mk.injEq] at hr
  obtain ⟨hdev, hsec, hsup, hgov, hheld⟩ := hr
  split
  · next hk =>
    have hw := boardOf_wakeBegin (restored s) s.sec.power.kept
    simp only [boardOf, Prod.mk.injEq] at hw
    obtain ⟨wdev, wsec, wsup, wgov, wheld⟩ := hw
    refine ⟨by rw [wdev]; exact congrArg DevSt.power hdev, by rw [wsup]; exact congrArg SupplySt.brownAt hsup,
      by rw [wgov]; exact congrArg GovSt.held hgov, wheld.trans hheld, fun h => (wakeBegin_mem _ _).trans (restored_mem h),
      fun h => absurd h hk.1, fun _ _ _ => by rw [wsec]; exact ⟨rfl, rfl⟩⟩
  · next hk =>
    refine ⟨congrArg DevSt.power hdev, congrArg SupplySt.brownAt hsup, congrArg GovSt.held hgov, hheld, restored_mem,
      fun h => by rw [hsec], fun h ht hu => absurd ⟨h, by rw [ht]; rfl, by rw [powered_restored hu]; rfl⟩ hk⟩

/-! ### Tamper (R506) -/

/-- What a tamper event does to one partition: its unlock and its session end, and its mailbox shows the event. -/
def tamperPart (u : State) (n : Nat) : State :=
  setFlag (setSec (releaseHolds u n) n
    { secOf u n with session := 0, sk := [], dbg := dbgD0, expiry := none, armed := false, retArmed := false }) (mbPage n) 4

/-- A partition as a tamper event leaves it. -/
structure PartErased (t : State) (n : Nat) : Prop where
  session : (secOf t n).session = 0
  sk : (secOf t n).sk = []
  dbg : (secOf t n).dbg = dbgD0
  armed : (secOf t n).armed = false
  flag : Flagged t (mbPage n) 4

theorem secOf_tamperPart (u : State) (n m : Nat) : secOf (tamperPart u n) m =
    if n = m then { secOf u n with session := 0, sk := [], dbg := dbgD0, expiry := none, armed := false, retArmed := false } else secOf u m := by
  simp only [tamperPart, secOf, setFlag_sec, setSec, releaseHolds, clearReg_sec, smGet_smSet]

theorem flagged_tamperPart {p : Page} {n k : Nat} (h : Flagged u p k) : Flagged (tamperPart u n) p k := by
  have hr : Flagged (releaseHolds u n) p k :=
    flagged_of_spared (spared_setReg (spared_refl (fun _ => False) u) (pageOut_none _) (by decide) (by decide)) h
  exact flagged_of_spared (r := setSec (releaseHolds u n) n _) (spared_setFlag (spared_refl (fun _ => False) _) (pageOut_none _)) hr

theorem partErased_tamperPart_same (u : State) (n : Nat) : PartErased (tamperPart u n) n := by
  have h := secOf_tamperPart u n n
  rw [if_pos rfl] at h
  exact ⟨by rw [h], by rw [h], by rw [h], by rw [h], flagged_setFlag _ _ _ (by decide)⟩

theorem partErased_tamperPart {m : Nat} (n : Nat) (h : PartErased u m) : PartErased (tamperPart u n) m := by
  by_cases e : n = m
  · exact e ▸ partErased_tamperPart_same u n
  · have hs := secOf_tamperPart u n m
    rw [if_neg e] at hs
    exact ⟨hs ▸ h.session, hs ▸ h.sk, hs ▸ h.dbg, hs ▸ h.armed, flagged_tamperPart h.flag⟩

theorem partErased_foldl {n : Nat} {ns : List Nat} (h : n ∈ ns) (u : State) : PartErased (ns.foldl tamperPart u) n := by
  induction ns generalizing u with
  | nil => cases h
  | cons k ns ih =>
    rcases List.mem_cons.1 h with rfl | h
    · rw [List.foldl_cons]
      exact List.foldlRecOn (motive := fun t => PartErased t n) _ _ (partErased_tamperPart_same u n) fun t ht m _ => partErased_tamperPart m ht
    · exact ih h _

theorem deviceAddr_state : deviceAddr (regKey devPage 0x00C) := by
  unfold deviceAddr
  decide

/-- Every partition after a tamper event. -/
def tamperParts (s : State) : State := (List.range 16).foldl tamperPart s

theorem tamperParts_frame (s : State) : (tamperParts s).mem = s.mem ∧ (tamperParts s).dev = s.dev ∧ (tamperParts s).ctrs = s.ctrs ∧
    (tamperParts s).sec = { s.sec with parts := (tamperParts s).sec.parts } ∧ pgState (tamperParts s) devPage = pgState s devPage := by
  refine List.foldlRecOn (motive := fun t : State => t.mem = s.mem ∧ t.dev = s.dev ∧ t.ctrs = s.ctrs ∧
    t.sec = { s.sec with parts := t.sec.parts } ∧ pgState t devPage = pgState s devPage) _ _ ⟨rfl, rfl, rfl, rfl, rfl⟩ fun t ht n hn => ?_
  obtain ⟨hmem, hdev, hctr, hsec, hst⟩ := ht
  have hn := List.mem_range.1 hn
  refine ⟨by simp [tamperPart, setSec, releaseHolds, hmem], by simp [tamperPart, setSec, releaseHolds, hdev],
    by simp [tamperPart, setSec, releaseHolds, hctr], ?_, ?_⟩
  · simp only [tamperPart, setFlag_sec, setSec, releaseHolds, clearReg_sec]
    rw [hsec]
  · rw [← hst]
    have hpart : PageOut deviceAddr (partPage n) := pageOut_deviceAddr (by simp only [partPage, pageBase, clsBase]; omega)
    have hmb : PageOut deviceAddr (mbPage n) := pageOut_deviceAddr (by simp only [mbPage, pageBase, clsBase]; omega)
    have h1 : Spared deviceAddr t (releaseHolds t n) := spared_setReg (spared_refl _ t) hpart (by decide) (by decide)
    have h2 : Spared deviceAddr (setSec (releaseHolds t n) n _) (tamperPart t n) := spared_setFlag (spared_refl _ _) hmb
    exact (pgState_of_spared h2 deviceAddr_state).trans (pgState_of_spared h1 deviceAddr_state)

/-- A tamper event recorded: no tier request is in flight, and Gallery and every Face are zero. -/
def tamperRecord (u : State) (x : Nat × Nat × Nat) : State :=
  let v := setFlash u { u.sec.flash with tampers := u.sec.flash.tampers ++ [x], d2Armed := none, d2Back := false }
  { v with mem := { v.mem with tags := [], galBad := [], cells := v.mem.cells.filter fun c => decide (driftBase ≤ c.1) }, face := [] }

theorem tamperRecord_regs (u : State) (x : Nat × Nat × Nat) : (tamperRecord u x).regs = u.regs := rfl
theorem tamperRecord_ctrs (u : State) (x : Nat × Nat × Nat) : (tamperRecord u x).ctrs = u.ctrs := rfl
theorem tamperRecord_parts (u : State) (x : Nat × Nat × Nat) : (tamperRecord u x).sec.parts = u.sec.parts := rfl
theorem tamperRecord_tampers (u : State) (x : Nat × Nat × Nat) : (tamperRecord u x).sec.flash.tampers = u.sec.flash.tampers ++ [x] := rfl

theorem memByte_tamperRecord (u : State) (x : Nat × Nat × Nat) (a : Nat) :
    memByte (tamperRecord u x) a = if a < driftBase then unlisted else memByte u a := by
  have hb : memByte (tamperRecord u x) a = if decide (driftBase ≤ a) then memByte u a else unlisted :=
    smGet_filter unlisted u.mem.cells (fun k => decide (driftBase ≤ k)) a
  rw [hb]
  by_cases ha : a < driftBase
  · simp [ha]
  · simp [ha, Nat.not_lt.1 ha]

/-- The state in which a tamper event halts the device: the partitions are erased, and the event is counted and recorded. -/
def tampered (s : State) (source : Nat) : State := tamperRecord (tamperCount (tamperParts s)) (source, now s, lifecycle s)

theorem tamperEvent_eq (s : State) (source : Nat) : tamperEvent s source = deviceFatal (settleTags (tampered s source)) (mbPage 0) 1 := rfl

theorem tamperCount_frame (s : State) : (tamperCount s).mem = s.mem ∧ (tamperCount s).sec = s.sec ∧ (tamperCount s).regs = s.regs := by
  unfold tamperCount
  split <;> simp

theorem counted_tamperCount (h : powerUnder s ≠ pwStandby) : Counted s (tamperCount s) (mbPage 0) 8 1 := by
  rw [tamperCount, if_neg h]
  exact ctrVal_ctrAdd_same _ _ _ (by decide)

/-- What a tamper event leaves, whether or not the device has halted yet. -/
structure TamperedFrom (s t : State) (source : Nat) : Prop where
  counted : powerUnder s ≠ 3 → Counted s t (mbPage 0) 8 1
  face : t.face = []
  tags : t.mem.tags = []
  tampers : t.sec.flash.tampers = s.sec.flash.tampers ++ [(source, now s, lifecycle s)]
  armed : t.sec.flash.d2Armed = none
  parts : ∀ n, n < 16 → PartErased t n
  bytes : ∀ a, memByte t a = if a < driftBase then unlisted else memByte s a

theorem powerUnder_tamperParts (s : State) : powerUnder (tamperParts s) = powerUnder s := by
  obtain ⟨-, pdev, -, psec, -⟩ := tamperParts_frame s
  unfold powerUnder
  rw [pdev, psec]

theorem tampered_regs (s : State) (source : Nat) : (tampered s source).regs = (tamperParts s).regs := by
  rw [tampered, tamperRecord_regs]
  exact (tamperCount_frame _).2.2

theorem devState_tampered (s : State) (source : Nat) : devState (tampered s source) = devState s := by
  obtain ⟨-, -, -, -, pst⟩ := tamperParts_frame s
  rw [devState, devState, ← pst]
  simp only [pgState, regField, regVal_congr (tampered_regs s source)]

theorem counted_tampered (source : Nat) (h : powerUnder s ≠ 3) : Counted s (tampered s source) (mbPage 0) 8 1 := by
  have hc : Counted (tamperParts s) (tamperCount (tamperParts s)) (mbPage 0) 8 1 := counted_tamperCount (by rw [powerUnder_tamperParts]; exact h)
  obtain ⟨-, -, pctr, -, -⟩ := tamperParts_frame s
  simpa only [Counted, ctrVal, pctr, tampered, tamperRecord_ctrs] using hc

theorem tampered_tampers (s : State) (source : Nat) :
    (tampered s source).sec.flash.tampers = s.sec.flash.tampers ++ [(source, now s, lifecycle s)] := by
  rw [tampered, tamperRecord_tampers, (tamperCount_frame _).2.1, (tamperParts_frame s).2.2.2.1]

theorem partErased_tampered {n : Nat} (source : Nat) (hn : n < 16) : PartErased (tampered s source) n := by
  obtain ⟨hsession, hsk, hdbg, harmed, hflag⟩ := partErased_foldl (List.mem_range.2 hn) s
  have hs : secOf (tampered s source) n = secOf ((List.range 16).foldl tamperPart s) n := by
    rw [secOf, tampered, tamperRecord_parts, (tamperCount_frame _).2.1]
    rfl
  have hr : (tampered s source).regs = ((List.range 16).foldl tamperPart s).regs := tampered_regs s source
  simp only [Flagged, regBit, ← regVal_congr hr] at hflag
  rw [← hs] at hsession hsk hdbg harmed
  exact ⟨hsession, hsk, hdbg, harmed, hflag⟩

theorem memByte_tampered (s : State) (source a : Nat) :
    memByte (tampered s source) a = if a < driftBase then unlisted else memByte s a := by
  rw [tampered, memByte_tamperRecord, memByte, (tamperCount_frame _).1, (tamperParts_frame s).1, memByte]

theorem tamperedFrom_tampered (s : State) (source : Nat) : TamperedFrom s (tampered s source) source :=
  ⟨counted_tampered source, rfl, rfl, tampered_tampers s source, rfl, fun _ hn => partErased_tampered source hn, memByte_tampered s source⟩

/-- What the erases that were due and the halt leave of it. -/
theorem tamperedFrom_of_spared {t v : State} {source : Nat} (h : TamperedFrom s t source) (k : Spared (fun _ => False) t v) :
    TamperedFrom s v source := by
  have hs (n : Nat) : secOf v n = secOf t n := by rw [secOf, k.sec, secOf]
  refine ⟨fun hp => ?_, k.face h.face, k.tags h.tags, ?_, ?_, fun n hn => ?_, fun a => ?_⟩
  · exact (ctrVal_of_spared k _).trans (h.counted hp)
  · rw [k.sec]
    exact h.tampers
  · rw [k.sec]
    exact h.armed
  · have hp := h.parts n hn
    exact ⟨hs n ▸ hp.session, hs n ▸ hp.sk, hs n ▸ hp.dbg, hs n ▸ hp.armed, flagged_of_spared k hp.flag⟩
  · rw [memByte, k.cells]
    exact h.bytes a

theorem tamperEvent_effects (h : devRunning s = true) (source : Nat) :
    devState (tamperEvent s source) = stHalt ∧ TamperedFrom s (tamperEvent s source) source := by
  have hk : Spared deviceAddr (tampered s source) (settleTags (tampered s source)) :=
    spared_settleTags (spared_refl _ _) (fun k => pageOut_deviceAddr (by simp only [keeperPage, pageBase, clsBase]; omega))
      fun k b => pageOut_deviceAddr (by simp only [blockPage, pageBase, clsBase]; omega)
  have hr : devRunning (settleTags (tampered s source)) = true := by
    rw [devRunning, show devState (settleTags (tampered s source)) = devState s from
      (pgState_of_spared hk deviceAddr_state).trans (devState_tampered s source)]
    exact h
  have hf := spared_trans (spared_mono (fun _ h => h.elim) hk) (spared_deviceFatal hr (mbPage 0) 1)
  rw [tamperEvent_eq]
  exact ⟨(showsHalt_deviceFatal hr _ _).device, tamperedFrom_of_spared (tamperedFrom_tampered s source) hf⟩

theorem exec_tamper (hm : s.supply.main = true) (hb : s.sec.boot.held = false) {source : Fin 8}
    (h : source ≠ 0 ∨ ∃ l, s.dev.layout = some l ∧ l.tamperPin = true) : exec (.tamper source) s = .next (tamperEvent s source) := by
  have hc : ¬ (!s.supply.main ∨ s.sec.boot.held) := by simp [hm, hb]
  simp only [exec, execTamper, if_neg hc]
  by_cases hz : source = 0
  · obtain ⟨l, hl, hpin⟩ := h.resolve_left (not_not_intro hz)
    subst hz
    simp [hl, hpin]
  · rw [if_neg hz]

theorem exec_tamper_noLayout (hm : s.supply.main = true) (hb : s.sec.boot.held = false) (hl : s.dev.layout = none) :
    exec (.tamper 0) s = .next (tamperCount s) := by
  simp [exec, execTamper, hm, hb, hl]

/-- A tamper event that is only counted. -/
theorem tamperCount_effects (s : State) : (powerUnder s ≠ 3 → Counted s (tamperCount s) (mbPage 0) 8 1) ∧
    CtrsBut [ctrKey (mbPage 0) 8] s (tamperCount s) ∧ RegsBut [] s (tamperCount s) ∧ OnlyBlock s (tamperCount s) := by
  refine ⟨counted_tamperCount, ?_, fun p off _ => regVal_congr (tamperCount_frame s).2.2 p off, ?_⟩
  all_goals
    unfold tamperCount
    split
  · exact fun _ _ => rfl
  · exact fun k hk => ctrs_ctrAdd_ne _ _ _ _ _ fun e => hk (List.mem_singleton.2 e.symm)
  · exact onlyBlock_refl _
  · exact onlyBlock_ctrAdd _ _ _ _

/-! ### The supply (R537, R641 to R646) -/

theorem pwrFailNAssert_effects (hm : s.supply.main = true) (hb : s.sec.boot.held = false) :
    ∃ t, exec .pwrFailNAssert s = .next t ∧ 0 ∈ t.supply.sources ∧
      (s.dev.power = 4 → t = { s with supply := { s.supply with sources := t.supply.sources } }) ∧
      (s.dev.power ≠ 4 → t.dev.power = 4 ∧ t.sec.power.under = s.dev.power.toNat ∧ t.supply.brownAt = some (now s) ∧ t.gov.held = true ∧
        t.atTick = s.atTick ++ [.duty 8] ∧
        t = { s with
          dev := { s.dev with power := 4 }, sec := { s.sec with power := t.sec.power }, supply := t.supply, gov := { s.gov with held := true },
          atTick := t.atTick }) := by
  by_cases hp : s.dev.power = 4
  · exact ⟨_, rfl, (brownOut_facts 0 hm hb).1, fun _ => by rw [brownOut_again 0 hm hb hp], fun h => absurd hp h⟩
  · refine ⟨_, rfl, (brownOut_facts 0 hm hb).1, fun h => absurd h hp, fun _ => ?_⟩
    rw [brownOut_enters 0 hm hb hp]
    exact ⟨rfl, rfl, rfl, rfl, rfl, rfl⟩

theorem undervoltage_effects (hm : s.supply.main = true) (hb : s.sec.boot.held = false) :
    ∃ t, exec .undervoltage s = .next t ∧ 2 ∈ t.supply.sources ∧ regBit t (partPage 0) 0x7D0 1 = true ∧
      RegsBut [regKey (partPage 0) 0x7D0] s t ∧ t.dev.power = 4 ∧
      (s.dev.power ≠ 4 → t.supply.brownAt = some (now s) ∧ t.atTick = s.atTick ++ [.duty 8] ∧ t.gov.held = true) ∧
      t.mem = s.mem := by
  obtain ⟨hsrc, hpow, hmem, hregs, hnew⟩ := brownOut_facts 2 hm hb
  exact ⟨_, exec_undervoltage hm hb, hsrc, regBit_orReg (by decide), regsBut_orReg hregs _ _ _, hpow, hnew, hmem⟩

theorem exec_brownOutReset {b : Nat} (hb : s.supply.brownAt = some b) (hp : s.dev.power = 4) (ht : b + 10000 ≤ now s) (hs : s.supply.sources ≠ []) :
    exec .brownOutReset s = .next (deviceReset s) := by
  simp [exec, execBrownOutReset, hb, hp, ht, hs]

theorem exec_powerGoodLost (hm : s.supply.main = true) : exec .powerGoodLost s = .next (deviceReset s) := by
  simp [exec, execPowerGoodLost, hm]

theorem exec_holdupStoreDraw (hm : s.supply.main = true) (hd : s.supply.drawAt = none) :
    exec .holdupStoreDraw s = .next (orReg { s with supply := { s.supply with drawAt := some (now s) } } (partPage 0) 0x7D0 8) := by
  simp [exec, execHoldupStoreDraw, hm, hd]

theorem exec_holdupExhausted {d : Nat} (hd : s.supply.drawAt = some d) (hm : s.supply.main = true) (ht : d + 3000 ≤ now s) :
    exec .holdupExhausted s = .next (powerOff s) := by
  simp [exec, execHoldupExhausted, hd, hm, ht]

theorem exec_powerUp (hm : s.supply.main = false) : exec .powerUp s = .next { deviceReset s with
    supply := { SupplySt.reset with resetN := s.supply.resetN, vin := s.supply.vin, die := s.supply.die }, tap := TapSt.reset } := by
  simp [exec, execPowerUp, hm]

theorem exec_powerLoss (hm : s.supply.main = true) : exec .powerLoss s = .next
    { powerOff s with supply := { (powerOff s).supply with lostAt := some (s.supply.lostAt.getD (now s)) } } := by
  simp [exec, execPowerLoss, hm]

theorem powerOff_main (s : State) : (powerOff s).supply.main = false := rfl

/-- Without the main domains no safe output conducts, PAIR_LEAD does not, and LIFE_OUT is low. -/
theorem pins_of_off {t : State} (h : t.supply.main = false) :
    (∀ pin, safeOutConducts t pin = false) ∧ pairLeadConducts t = false ∧ lifeOutHigh t = false := by
  simp [safeOutConducts, pairLeadConducts, lifeOutHigh, h]

/-- Whether an address lies on no channel page. -/
def offChannels (a : Nat) : Bool :=
  match pageAt a with
  | some p => p.cls != .fxch
  | none => true

theorem exec_alwaysOnHoldExpiry (hl : s.supply.lostAt.isSome = true) (hm : s.supply.main = false) :
    exec .alwaysOnHoldExpiry s = .next { s with
      supply := { s.supply with always := false }, fx := { s.fx with chans := [] }, regs := s.regs.filter fun x => offChannels x.1 } := by
  simp only [exec, execAlwaysOnHoldExpiry, hl, hm]
  rfl

theorem smGet_offChannels (s : State) {p : Page} {off : Nat} (hp : pageOk p = true) (ho : off < 0x1000) :
    smGet (regReset p off) (s.regs.filter fun x => offChannels x.1) (regKey p off) = if p.cls = .fxch then regReset p off else regVal s p off := by
  rw [smGet_filter]
  simp only [offChannels, pageAt_regKey hp ho, bne_iff_ne, ne_eq, ite_not]
  rfl

/-- Settles O57: each command's own equation, with what a reset leaves (`resetFrom_resetMem`), the two ways out of Brown-out
(`brownOutExit_effects`), and what a tamper event leaves through the halt (`tamperEvent_effects`). -/
theorem supplyEffects : Obligations.SupplyEffects := by
  refine ⟨fun s => pwrFailNAssert_effects, fun s => undervoltage_effects, fun s under b => brownOutExit_effects under, fun s b hb hp ht hs => ?_,
    fun s source hm hb hr h => ?_, fun s hm hb hl => ?_, fun s hm => ?_, fun s hm hd => ?_, fun s d hd hm ht => ?_, fun s hm => ?_, fun s hm => ?_,
    fun s hl hm => ?_⟩
  · exact ⟨_, exec_brownOutReset hb hp ht hs, resetFrom_deviceReset s, deviceReset_main s, rfl⟩
  · obtain ⟨hhalt, hcount, hface, htags, htampers, harmed, hparts, hbytes⟩ := tamperEvent_effects hr source.val
    exact ⟨_, exec_tamper hm hb h, hhalt, hcount, hface, htags, htampers, harmed,
      fun n hn => ⟨(hparts n hn).session, (hparts n hn).sk, (hparts n hn).dbg, (hparts n hn).armed, (hparts n hn).flag⟩, hbytes⟩
  · exact ⟨_, exec_tamper_noLayout hm hb hl, tamperCount_effects s⟩
  · exact ⟨_, exec_powerGoodLost hm, resetFrom_deviceReset s, (deviceReset_main s).trans hm⟩
  · exact ⟨_, exec_holdupStoreDraw hm hd, regBit_orReg (by decide), regsBut_orReg rfl _ _ _, rfl⟩
  · exact ⟨_, exec_holdupExhausted hd hm ht, resetFrom_powerOff s, powerOff_main s⟩
  · exact ⟨_, exec_powerUp hm, resetFrom_deviceReset s, rfl, rfl, rfl⟩
  · obtain ⟨hsafe, hlead, hlife⟩ := pins_of_off (t := { powerOff s with
      supply := { (powerOff s).supply with lostAt := some (s.supply.lostAt.getD (now s)) } }) rfl
    exact ⟨_, exec_powerLoss hm, resetFrom_powerOff s, rfl, hsafe, hlead, hlife, rfl⟩
  · exact ⟨_, exec_alwaysOnHoldExpiry hl hm, rfl, fun p off hp ho => smGet_offChannels s hp ho, rfl⟩

end Sys2Proof.Machine
end

section
/-! PROOFS. The queue of waiting commands (R47, R50, R51): a step carries out its front, every well-formed command completes, none writes it,
and two arrivals of one tick commute. What ranks a command looks at the state and never at the queue. -/

namespace Sys2Proof.Machine

/-! ### The step -/

/-- Settles O1: both halves are the two arms of `step`. -/
theorem stepRunsFrontCommand : Obligations.StepRunsFrontCommand := by
  refine ⟨fun _ _ _ => rfl, fun s h => ?_⟩
  rw [step, h]

/-- A bus write of the lengths that the spec allows is no malformed command (log 64). -/
theorem bytesOk_fits {off : Nat} {bytes : List Byte} (h : bytesOk off bytes = true) :
    ¬ (bytes.isEmpty ∨ bytes.length > 512 ∨ off % 4096 + bytes.length > 4096) := by
  have hlen := of_decide_eq_true h
  rw [List.isEmpty_iff_length_eq_zero]
  omega

/-- Two commands alone can stop, each at the check of its bytes; every other one answers a next state on its face. -/
theorem exec_completes {c : Instr} (s : State) (h : c.wf = true) : ∃ t, exec c s = .next t := by
  cases c with
  | tierWindowWrite p off bytes => exact ⟨_, if_neg (bytesOk_fits h)⟩
  | bar2RingWrite p off bytes => exact ⟨_, if_neg (bytesOk_fits h)⟩
  | _ => exact ⟨_, rfl⟩

/-! ### What a command's place is read from

Each reading of a state below is the same whatever waits in the queue. Most are so by their definitions alone; the plan of an append goes
through its rows, and an outcome of a tier request through its cases. -/

section
variable {s t : State} {q : List Instr}

theorem appendPlan_queue (p : Nat) (a : ADesc) (lane : Nat) (rows : List (Nat × Nat × Nat)) (acc : List KvRow)
    (h : t = { s with pending := q }) : appendPlan p a lane t rows acc = appendPlan p a lane s rows acc := by
  induction rows generalizing s t acc with
  | nil => rfl
  | cons x rows ih =>
    subst h
    have hf : findSlot { s with pending := q } = findSlot s := rfl
    have hk : kvRec { s with pending := q } = kvRec s := rfl
    unfold appendPlan
    dsimp only
    rw [hf, hk]
    split_ifs
    · rfl
    · split
      · rfl
      · exact ih _ rfl
    · rfl
    · rfl
    · split
      · rfl
      · exact ih _ rfl
    · exact ih _ rfl

theorem nominalClocks_queue (k : CoreId) (p : Nat) (d : List Word) :
    nominalClocks { s with pending := q } k p d = nominalClocks s k p d := by
  have hc : aCopied { s with pending := q } = aCopied s := by
    funext p a es
    unfold aCopied
    rw [appendPlan_queue _ _ _ _ _ rfl]
    rfl
  have ht : goodTable { s with pending := q } = goodTable s := rfl
  obtain ⟨cls, i⟩ := k
  cases cls with
  | a =>
    simp only [nominalClocks, hc, ht]
    rfl
  | _ => rfl

theorem runOut_queue (k : CoreId) (i : Nat) (r : CmdRun) : runOut { s with pending := q } k i r = runOut s k i r := by
  unfold runOut computeOut
  rw [nominalClocks_queue]
  rfl

theorem mayEnd_queue (k : CoreId) (i : Nat) (r : CmdRun) : mayEnd { s with pending := q } k i r = mayEnd s k i r := by
  unfold mayEnd rowsDone
  simp only [runOut_queue]
  rfl

theorem earlyOf_queue (s : State) (q : List Instr) (c : Instr) : earlyOf { s with pending := q } c = earlyOf s c := by
  cases c with
  | commandEnd k i clk err =>
    simp only [earlyOf, runOut_queue, mayEnd_queue]
    rfl
  | _ => rfl

theorem tierOutcome_queue (r : TagRec) (p : Nat) (o : TierOutcome) :
    (tierOutcome { s with pending := q } r p o).1 = (tierOutcome s r p o).1 := by
  have hm : macFails { s with pending := q } r = macFails s r := rfl
  have hf : outcomeFits { s with pending := q } r o = outcomeFits s r o := rfl
  have ht : tagMoveOf { s with pending := q } r = tagMoveOf s r := rfl
  unfold tierOutcome
  rw [hm, hf]
  generalize (if macFails s r then TierOutcome.macFail else if outcomeFits s r o then o else .clean) = met
  cases met with
  | macFail => cases r.tier <;> rfl
  | progFail =>
    dsimp only
    rw [ht]
    cases tagMoveOf s r <;> rfl
  | _ => rfl

theorem eventRank_queue (s : State) (q : List Instr) (c : Instr) : eventRank { s with pending := q } c = eventRank s c := by
  cases c with
  | tierRequestComplete tag port o =>
    simp only [eventRank, tierFails, tierOutcome_queue]
    rfl
  | _ => rfl

theorem placeRank_queue (s : State) (q : List Instr) (c : Instr) : placeRank { s with pending := q } c = placeRank s c := by
  have ht : tripOf { s with pending := q } c = tripOf s c := rfl
  rw [placeRank, placeRank, ht, eventRank_queue]

/-! ### Arrivals -/

theorem arriveRev_pass {r : Instr → Nat} {c x : Instr} (xs : List Instr) (hx : endsTick x = false) (h : r c < r x) :
    arriveRev r c (x :: xs) = x :: arriveRev r c xs := by
  simp [arriveRev, hx, h]

theorem arriveRev_stop {r : Instr → Nat} {c x : Instr} (xs : List Instr) (h : ¬ (endsTick x = false ∧ r c < r x)) :
    arriveRev r c (x :: xs) = c :: x :: xs := by
  rw [arriveRev, if_neg (by simpa using h)]

/-- Two commands of different places: whichever comes second passes the other or stays before it, as their places say. -/
theorem arriveRev_front {r : Instr → Nat} {c d : Instr} (hc : endsTick c = false) (hd : endsTick d = false) (hr : r c ≠ r d) (xs : List Instr) :
    arriveRev r d (c :: xs) = c :: arriveRev r d xs ∧ arriveRev r c (d :: xs) = c :: d :: xs ∨
      arriveRev r d (c :: xs) = d :: c :: xs ∧ arriveRev r c (d :: xs) = d :: arriveRev r c xs := by
  rcases Nat.lt_or_gt_of_ne hr with h | h
  · exact .inr ⟨arriveRev_stop _ fun e => absurd e.2 (Nat.not_lt.2 h.le), arriveRev_pass _ hd h⟩
  · exact .inl ⟨arriveRev_pass _ hc h, arriveRev_stop _ fun e => absurd e.2 (Nat.not_lt.2 h.le)⟩

theorem arriveRev_comm {r : Instr → Nat} {c d : Instr} (hc : endsTick c = false) (hd : endsTick d = false) (hr : r c ≠ r d) (l : List Instr) :
    arriveRev r d (arriveRev r c l) = arriveRev r c (arriveRev r d l) := by
  induction l with
  | nil => rcases arriveRev_front hc hd hr [] with ⟨h, k⟩ | ⟨h, k⟩ <;> simp [arriveRev, h, k]
  | cons x xs ih =>
    have far {y z : Instr} (hy : endsTick x = false ∧ r y < r x) (hz : ¬ (endsTick x = false ∧ r z < r x)) : r y < r z :=
      hy.2.trans_le (Nat.not_lt.1 fun h => hz ⟨hy.1, h⟩)
    by_cases pc : endsTick x = false ∧ r c < r x <;> by_cases pd : endsTick x = false ∧ r d < r x
    · rw [arriveRev_pass xs pc.1 pc.2, arriveRev_pass xs pd.1 pd.2, arriveRev_pass _ pd.1 pd.2, arriveRev_pass _ pc.1 pc.2, ih]
    · rw [arriveRev_pass xs pc.1 pc.2, arriveRev_stop xs pd, arriveRev_stop _ pd, arriveRev_pass _ hd (far pc pd), arriveRev_pass xs pc.1 pc.2]
    · rw [arriveRev_pass xs pd.1 pd.2, arriveRev_stop xs pc, arriveRev_stop _ pc, arriveRev_pass _ hc (far pd pc), arriveRev_pass xs pd.1 pd.2]
    · rw [arriveRev_stop xs pc, arriveRev_stop xs pd]
      rcases arriveRev_front hc hd hr (x :: xs) with ⟨h, k⟩ | ⟨h, k⟩
      · rw [h, k, arriveRev_stop xs pd]
      · rw [h, k, arriveRev_stop xs pc]

/-- A command that brings no expiry takes its own place alone. -/
theorem arrive_eq {c : Instr} (h : earlyOf s c = none) :
    s.arrive c = { s with pending := (arriveRev (placeRank s) c s.pending.reverse).reverse } := by
  simp [State.arrive, revealed, h]

theorem post_two {c d : Instr} (hc : earlyOf s c = none) (hd : earlyOf s d = none) :
    s.post [c, d] = { s with pending := (arriveRev (placeRank s) d (arriveRev (placeRank s) c s.pending.reverse)).reverse } := by
  simp only [State.post, List.foldl_cons, List.foldl_nil, arrive_eq hc]
  rw [arrive_eq ((earlyOf_queue _ _ _).trans hd)]
  simp only [List.reverse_reverse, funext (placeRank_queue s _)]

end

/-- Settles O2: `exec_completes`; the queue's part of `kept_exec`; and two arrivals commute (`arriveRev_comm`), for a place in the queue is
read from the rest of the state. -/
theorem commandsLeaveQueue : Obligations.CommandsLeaveQueue := by
  refine ⟨fun c s h => exec_completes s h, fun c s t e => (kept_exec (kept_refl s) t e).queue, fun c d s hc hd ec ed hr => ?_⟩
  rw [post_two ec ed, post_two ed ec, arriveRev_comm hc hd hr]

end Sys2Proof.Machine
end

section
/-! PROOFS. Device time (chapter 02): when a value is reached, what a comparator goes on to and its match, and network time. -/

namespace Sys2Proof.Machine

/-! ### The signed difference (R52, R53) -/

/-- The signed difference to a threshold ahead is negative up to 2³¹ ahead, that distance included. -/
theorem reached_ahead (v : Word) {k : Nat} (hk : 0 < k) (h : k < 2 ^ 32) : reached v (v + BitVec.ofNat 32 k) = decide (2 ^ 31 < k) := by
  have hv : (v - (v + BitVec.ofNat 32 k)).toNat = 2 ^ 32 - k := by
    simp only [BitVec.toNat_sub, BitVec.toNat_add, BitVec.toNat_ofNat]
    have := v.isLt
    omega
  rw [reached, BitVec.msb_eq_decide, hv, ← decide_not, decide_eq_decide]
  omega

/-- Refutes O18: a threshold exactly 2³¹ ahead of the value 0 has the difference -2³¹, and is not reached. -/
theorem not_reachedIsSignedDifference : ¬ Obligations.ReachedIsSignedDifference := by
  intro h
  obtain ⟨-, -, hfar⟩ := h 0 0
  exact absurd (hfar (2 ^ 31) le_rfl (by decide)) (by decide)

/-! ### A periodic comparator (R55) -/

/-- The next value lies a whole number of periods after the old one, and after the present tick by what is left of its period. -/
theorem nextCompare_eq (t c : Word) {period : Nat} (h0 : 0 < period) (hp : period < 2 ^ 16) (h : (t - c).toNat + period < 2 ^ 31) :
    nextCompare t c (BitVec.ofNat 32 period) = t + BitVec.ofNat 32 (period - (t - c).toNat % period) ∧
      (nextCompare t c (BitVec.ofNat 32 period) - c).toNat = period * ((t - c).toNat / period + 1) := by
  have hd := Nat.div_add_mod (t - c).toNat period
  have hm := Nat.mod_lt (t - c).toNat h0
  have hs : period * ((t - c).toNat / period + 1) = period * ((t - c).toNat / period) + period := Nat.mul_succ _ _
  have hpn : (BitVec.ofNat 32 period).toNat = period := by
    rw [BitVec.toNat_ofNat]
    omega
  have htc : (t - c).toNat = (2 ^ 32 - c.toNat + t.toNat) % 2 ^ 32 := BitVec.toNat_sub ..
  have hc := c.isLt
  have ht := t.isLt
  rw [nextCompare, hpn, hs]
  generalize period * ((t - c).toNat / period) = whole at *
  generalize (t - c).toNat % period = past at *
  constructor
  · apply BitVec.eq_of_toNat_eq
    simp only [BitVec.toNat_add, BitVec.toNat_ofNat]
    omega
  · simp only [BitVec.toNat_sub, BitVec.toNat_add, BitVec.toNat_ofNat]
    omega

/-- Settles O15: the distances of `nextCompare_eq`, and a value so near ahead is not reached (`reached_ahead`). -/
theorem nextCompareAhead : Obligations.NextCompareAhead := by
  intro t c period h0 hp h
  obtain ⟨hnext, hwhole⟩ := nextCompare_eq t c h0 hp h
  have hm := Nat.mod_lt (t - c).toNat h0
  have hd : (nextCompare t c (BitVec.ofNat 32 period) - t).toNat = period - (t - c).toNat % period := by
    rw [hnext]
    simp only [BitVec.toNat_sub, BitVec.toNat_add, BitVec.toNat_ofNat]
    have := t.isLt
    omega
  refine ⟨?_, ?_, ?_, ?_⟩
  · rw [hd]
    omega
  · rw [hd]
    omega
  · rw [hnext, reached_ahead t (by omega) (by omega), decide_eq_false (by omega)]
  · rw [hwhole, Nat.mul_mod_right]

end Sys2Proof.Machine
end

section
/-! PROOFS. What a command leaves of the registers, said once for each operation on them. -/

namespace Sys2Proof

/-- Bits below a field leave it. -/
theorem field_or_below (w m : Word) {hi lo : Nat} (h : m.toNat < 2 ^ lo) : field (w ||| m) hi lo = field w hi lo := by
  apply Nat.eq_of_testBit_eq
  intro i
  have hm : m.getLsbD (lo + i) = false :=
    Nat.testBit_lt_two_pow (h.trans_le (Nat.pow_le_pow_right (by decide) (Nat.le_add_right lo i)))
  simp [testBit_field, hm]

theorem bit_setField (w : Word) (hi lo v n : Nat) :
    bit (setField w hi lo v) n = if n < 32 ∧ lo ≤ n ∧ n < lo + (hi + 1 - lo) then v.testBit (n - lo) else bit w n := getLsbD_setField w hi lo v n

theorem bit_setBit_same (w : Word) {n : Nat} (b : Bool) (h : n < 32) : bit (setBit w n b) n = b := by
  cases b <;> simp [setBit, bit_setField, h]

end Sys2Proof

namespace Sys2Proof.Machine

section
variable {ks : List Nat} {s t u : State} {p : Page} {off : Nat}

theorem regsBut_refl (ks : List Nat) (s : State) : RegsBut ks s s := fun _ _ _ => rfl

theorem regsBut_congr (h : RegsBut ks s t) (e : u.regs = t.regs) : RegsBut ks s u :=
  fun q o hk => (regVal_congr e q o).trans (h q o hk)

theorem regsBut_trans (h : RegsBut ks s t) (k : RegsBut ks t u) : RegsBut ks s u :=
  fun q o hk => (k q o hk).trans (h q o hk)

theorem regsBut_setReg (h : RegsBut ks s t) (hk : regKey p off ∈ ks) (v : Word) : RegsBut ks s (setReg t p off v) :=
  fun q o hq => (regVal_setReg_ne t p q v fun e => hq (e ▸ hk)).trans (h q o hq)

theorem regsBut_setRegField (h : RegsBut ks s t) (hk : regKey p off ∈ ks) (hi lo v : Nat) : RegsBut ks s (setRegField t p off hi lo v) :=
  regsBut_setReg h hk _

theorem regsBut_clearReg (h : RegsBut ks s t) (hk : regKey p off ∈ ks) (v : Word) : RegsBut ks s (clearReg t p off v) := regsBut_setReg h hk _

theorem regsBut_orReg_mem (h : RegsBut ks s t) (hk : regKey p off ∈ ks) (v : Word) : RegsBut ks s (orReg t p off v) := regsBut_setReg h hk _

theorem regsBut_rcEvent (h : RegsBut ks s t) (hk : regKey p off ∈ ks) (f : Word → Word) : RegsBut ks s (rcEvent t p off f) := regsBut_setReg h hk _

theorem regsBut_setPgState (h : RegsBut ks s t) (h1 : regKey p 0x00C ∈ ks) (h2 : regKey p 0x028 ∈ ks) (st : Nat) :
    RegsBut ks s (setPgState t p st) := by
  unfold setPgState
  split
  · exact h
  · exact regsBut_setReg (regsBut_setRegField h h1 _ _ _) h2 _

theorem regsBut_setFlag (h : RegsBut ks s t) (hk : regKey p 0x010 ∈ ks) (n : Nat) : RegsBut ks s (setFlag t p n) := by
  unfold setFlag
  dsimp only
  split <;> exact regsBut_orReg_mem h hk _

theorem regsBut_ctrAdd (h : RegsBut ks s t) (slot n : Nat) : RegsBut ks s (ctrAdd t p slot n) := regsBut_congr h (ctrAdd_regs t p slot n)

/-- What is read of a register that stands. -/
theorem regBit_of_regsBut (h : RegsBut ks s t) (hk : regKey p off ∉ ks) (n : Nat) : regBit t p off n = regBit s p off n := by
  rw [regBit, regBit, h p off hk]

end

end Sys2Proof.Machine
end

section
/-! PROOFS. The comparators of the TICK page (R52 to R55). -/

namespace Sys2Proof.Machine

variable {s : State} {n : Nat} {d : CmpDue}

/-! ### What is noted as a tick begins -/

theorem cmpReached_n (h : cmpReached s n = some d) : d.n = n := by
  unfold cmpReached at h
  split at h
  · cases h
    rfl
  · cases h

/-- What is noted under a number is what that comparator gives. -/
theorem find_filterMap_cmpReached (l : List Nat) :
    ((l.filterMap (cmpReached s)).find? fun x => x.n == n) = if n ∈ l then cmpReached s n else none := by
  induction l with
  | nil => rfl
  | cons m l ih =>
    cases h : cmpReached s m with
    | none =>
      rw [List.filterMap_cons_none h, ih]
      by_cases e : n = m
      · subst e
        simp [h]
      · simp [e]
    | some x =>
      rw [List.filterMap_cons_some h, List.find?_cons, cmpReached_n h]
      by_cases e : n = m
      · subst e
        simp [h]
      · rw [beq_false_of_ne (Ne.symm e), ih]
        simp [e]

theorem cmpEval_find (hn : n < 8) : ((cmpEval s).time.cmpDue.find? fun x => x.n == n) = cmpReached s n := by
  have h := find_filterMap_cmpReached (s := s) (n := n) (List.range 8)
  rwa [if_pos (List.mem_range.2 hn)] at h

/-! ### The match -/

/-- The control register and the compare register of a comparator. -/
def cmpCtl (n : Nat) : Nat := 0x160 + 4 * n
def cmpVal (n : Nat) : Nat := 0x140 + 4 * n

/-- A comparator taken from those noted: MATCHED, and LATE where it was owed. -/
def cmpNoted (s : State) (n : Nat) (d : CmpDue) : State :=
  orReg { s with time := { s.time with cmpDue := s.time.cmpDue.filter fun x => x.n != n } } tickPage (cmpCtl n) (if d.late then 0x6 else 0x2)

/-- No write of the tick has changed the comparator since it was noted. -/
def CmpSame (s : State) (n : Nat) (d : CmpDue) : Prop :=
  regVal s tickPage (cmpVal n) = d.c ∧ regField s tickPage (cmpCtl n) 31 16 = field d.ctl 31 16 ∧ regBit s tickPage (cmpCtl n) 0 = true

/-- PT0 is told of a match, unless its mask has the comparator. -/
def cmpTold (s : State) (n : Nat) : State := if regBit s devPage 0x124 n then s else irq s 0 2 (.compare n)

theorem exec_tickCmpMatch {n : Fin 8} (h : (s.time.cmpDue.find? fun x => x.n == n.val) = some d) :
    exec (.tickCmpMatch n) s = .next (cmpTold (cmpNext (cmpNoted s n d) d) n) := by
  simp only [exec, execTickCmpMatch, h]
  rfl

theorem cmpNext_of_not_same (hd : d.n = n) (h : ¬ CmpSame s n d) : cmpNext s d = s := by
  subst hd
  rw [cmpNext, if_pos]
  by_contra hc
  simp only [ne_eq, Bool.not_eq_true', not_or, not_not, Bool.not_eq_false] at hc
  exact h hc

theorem cmpNext_of_same (hd : d.n = n) (h : CmpSame s n d) :
    cmpNext s d =
      if field d.ctl 31 16 = 0 then
        clearReg { s with time := { s.time with cmpLate := cmpArmed.setLate s.time.cmpLate n false } } tickPage (cmpCtl n) 1
      else
        setReg { s with time := { s.time with cmpLate := cmpArmed.setLate s.time.cmpLate n false } } tickPage (cmpVal n)
          (nextCompare (nowW s) d.c (BitVec.ofNat 32 (field d.ctl 31 16))) := by
  subst hd
  obtain ⟨hval, hper, harm⟩ := h
  have hs : ¬ (regVal s tickPage (0x140 + 4 * d.n) ≠ d.c ∨ regField s tickPage (0x160 + 4 * d.n) 31 16 ≠ field d.ctl 31 16 ∨
      !(regBit s tickPage (0x160 + 4 * d.n) 0)) := by
    rintro (e | e | e)
    · exact e hval
    · exact e hper
    · rw [show regBit s tickPage (0x160 + 4 * d.n) 0 = true from harm] at e
      cases e
  simp only [cmpNext, if_neg hs]
  rfl

theorem regVal_cmpNoted_ctl : regVal (cmpNoted s n d) tickPage (cmpCtl n) = regVal s tickPage (cmpCtl n) ||| (if d.late then 0x6 else 0x2) :=
  regVal_orReg_same _ _ _ _

theorem regVal_cmpNoted_val : regVal (cmpNoted s n d) tickPage (cmpVal n) = regVal s tickPage (cmpVal n) :=
  regVal_orReg_ne _ _ _ _ fun e => by
    have := (regKey_inj tickPage).1 e
    unfold cmpCtl cmpVal at this
    omega

/-- The flags stand below the period and above ARM. -/
theorem cmpSame_cmpNoted : CmpSame (cmpNoted s n d) n d ↔ CmpSame s n d := by
  have hf : regField (cmpNoted s n d) tickPage (cmpCtl n) 31 16 = regField s tickPage (cmpCtl n) 31 16 := by
    rw [regField, regVal_cmpNoted_ctl]
    exact field_or_below _ _ (by cases d.late <;> decide)
  have ha : regBit (cmpNoted s n d) tickPage (cmpCtl n) 0 = regBit s tickPage (cmpCtl n) 0 := by
    rw [regBit, regVal_cmpNoted_ctl, bit_or]
    cases d.late <;> simp [regBit, bit]
  rw [CmpSame, CmpSame, regVal_cmpNoted_val, hf, ha]

/-- The comparator's two registers and its place among those noted, after its match and before PT0 is told. -/
structure CmpMatched (s w : State) (n : Nat) (d : CmpDue) : Prop where
  matched : regBit w tickPage (cmpCtl n) 1 = true
  late : d.late = true → regBit w tickPage (cmpCtl n) 2 = true
  once : CmpSame s n d → field d.ctl 31 16 = 0 → regBit w tickPage (cmpCtl n) 0 = false ∧ regVal w tickPage (cmpVal n) = d.c
  again : CmpSame s n d → field d.ctl 31 16 ≠ 0 → regBit w tickPage (cmpCtl n) 0 = true ∧
    regVal w tickPage (cmpVal n) = nextCompare (nowW s) d.c (BitVec.ofNat 32 (field d.ctl 31 16))
  other : ¬ CmpSame s n d → regBit w tickPage (cmpCtl n) 0 = regBit s tickPage (cmpCtl n) 0 ∧ regVal w tickPage (cmpVal n) = regVal s tickPage (cmpVal n)
  due : (w.time.cmpDue.find? fun x => x.n == n) = none
  irqs : w.irqs = s.irqs
  regs : RegsBut [regKey tickPage (cmpCtl n), regKey tickPage (cmpVal n)] s w
  frame : w = { withBlock w s with time := w.time }

theorem cmpMatched_cmpNext (hd : d.n = n) : CmpMatched s (cmpNext (cmpNoted s n d) d) n d := by
  have hne : cmpCtl n ≠ cmpVal n := by
    unfold cmpCtl cmpVal
    omega
  have hnone : ((cmpNoted s n d).time.cmpDue.find? fun x => x.n == n) = none := by
    simp [cmpNoted, List.find?_eq_none]
  have hregs : RegsBut [regKey tickPage (cmpCtl n), regKey tickPage (cmpVal n)] s (cmpNoted s n d) :=
    regsBut_orReg_mem (regsBut_congr (regsBut_refl _ s) rfl) (by simp) _
  have hctl := regVal_cmpNoted_ctl (s := s) (n := n) (d := d)
  have h1 : bit (regVal (cmpNoted s n d) tickPage (cmpCtl n)) 1 = true := by
    rw [hctl, bit_or]
    cases d.late <;> simp [bit]
  have h2 : d.late = true → bit (regVal (cmpNoted s n d) tickPage (cmpCtl n)) 2 = true := by
    intro hl
    rw [hctl, bit_or, hl]
    simp [bit]
  by_cases hs : CmpSame s n d
  · rw [cmpNext_of_same hd (cmpSame_cmpNoted.2 hs)]
    obtain ⟨hval, -, harm⟩ := (cmpSame_cmpNoted (s := s)).2 hs
    split
    · next hp =>
      have hv : regVal (clearReg { cmpNoted s n d with
          time := { (cmpNoted s n d).time with cmpLate := cmpArmed.setLate (cmpNoted s n d).time.cmpLate n false } } tickPage (cmpCtl n) 1)
          tickPage (cmpCtl n) = regVal (cmpNoted s n d) tickPage (cmpCtl n) &&& ~~~1 := regVal_setReg_same _ _ _ _
      refine ⟨?_, fun hl => ?_, fun _ _ => ⟨?_, ?_⟩, fun _ h => absurd hp h, fun h => absurd hs h, hnone, rfl, ?_, rfl⟩
      · rw [regBit, hv, bit_and, h1]
        rfl
      · rw [regBit, hv, bit_and, h2 hl]
        rfl
      · rw [regBit, hv, bit_and]
        simp [bit]
      · exact (regVal_setReg_off _ _ _ hne).trans hval
      · exact regsBut_clearReg (regsBut_congr hregs rfl) (by simp) _
    · next hp =>
      have hv : regVal (setReg { cmpNoted s n d with
          time := { (cmpNoted s n d).time with cmpLate := cmpArmed.setLate (cmpNoted s n d).time.cmpLate n false } } tickPage (cmpVal n)
          (nextCompare (nowW s) d.c (BitVec.ofNat 32 (field d.ctl 31 16)))) tickPage (cmpCtl n) = regVal (cmpNoted s n d) tickPage (cmpCtl n) :=
        regVal_setReg_off _ _ _ hne.symm
      refine ⟨?_, fun hl => ?_, fun _ h => absurd h hp, fun _ _ => ⟨?_, regVal_setReg_same _ _ _ _⟩, fun h => absurd hs h, hnone, rfl, ?_, rfl⟩
      · exact (congrArg (bit · 1) hv).trans h1
      · exact (congrArg (bit · 2) hv).trans (h2 hl)
      · exact (congrArg (bit · 0) hv).trans harm
      · exact regsBut_setReg (regsBut_congr hregs rfl) (by simp) _
  · rw [cmpNext_of_not_same hd fun h => hs (cmpSame_cmpNoted.1 h)]
    refine ⟨h1, h2, fun h => absurd h hs, fun h => absurd h hs, fun _ => ⟨?_, regVal_cmpNoted_val⟩, hnone, rfl, hregs, rfl⟩
    rw [regBit, hctl, bit_or]
    cases d.late <;> simp [regBit, bit]

/-- A match writes no register of DEVICE. -/
theorem devPage_not_cmp (hn : n < 8) : regKey devPage 0x124 ∉ [regKey tickPage (cmpCtl n), regKey tickPage (cmpVal n)] := by
  have h (off : Nat) (ho : off < 0x1000) : regKey devPage 0x124 ≠ regKey tickPage off := regKey_ne (by decide) (by decide) (by decide) ho (.inl (by decide))
  simp only [List.mem_cons, List.not_mem_nil, or_false, not_or]
  constructor
  · exact h _ (by unfold cmpCtl; omega)
  · exact h _ (by unfold cmpVal; omega)

/-- Settles O14: what `cmpEval` notes (`cmpEval_find`), and what the match makes of it (`cmpMatched_cmpNext`); telling PT0 adds the message
alone. -/
theorem comparatorMatch : Obligations.ComparatorMatch := by
  refine ⟨fun s n hn => ?_, fun s n d h => ?_⟩
  · rw [cmpEval_find hn, cmpReached]
    simp only [Bool.and_eq_true]
  · have hd : d.n = n.val := by simpa using List.find?_some h
    obtain ⟨hm, hl, ho, ha, hx, hdue, hirq, hregs, hframe⟩ := cmpMatched_cmpNext (s := s) hd
    have hmask := regBit_of_regsBut hregs (devPage_not_cmp n.isLt) n.val
    refine ⟨_, exec_tickCmpMatch h, ?_⟩
    rw [cmpTold, hmask]
    cases regBit s devPage 0x124 n.val with
    | true => exact ⟨hm, hl, ho, ha, hx, hirq, hdue, hregs, hframe⟩
    | false => exact ⟨hm, hl, ho, ha, hx, congrArg _ hirq, hdue, regsBut_congr hregs rfl, congrArg (fun x : State => irq x 0 2 (.compare n.val)) hframe⟩

end Sys2Proof.Machine
end

section
/-! PROOFS. Network time (R62 to R69, R77): what a Sync measurement, a loss of Sync and a change of the grandmaster's role do to the time base. -/

namespace Sys2Proof.Machine

variable {s t u : State}

/-- A page's new state changes the register file alone. -/
theorem setPgState_frame (s : State) (p : Page) (st : Nat) : setPgState s p st = { s with regs := (setPgState s p st).regs } := by
  unfold setPgState
  split <;> rfl

theorem tbState_setPgState (s : State) {st : Nat} (h : st < 16) : tbState (setPgState s tickPage st) = st :=
  (pgState_setPgState s tickPage st).trans (Nat.mod_eq_of_lt h)

/-! ### Steering -/

/-- The registers that the time base steers by: its state with the tick of the change, and its flags. -/
def steerKeys : List Nat := [regKey tickPage 0x00C, regKey tickPage 0x028, regKey tickPage 0x010]

/-- What the time base's commands leave: every other register, and all of the state but device time and the boundary's actions. -/
structure TimeOnly (s t : State) : Prop where
  regs : RegsBut steerKeys s t
  frame : t = { withBlock t s with time := t.time, atTick := t.atTick }

/-- Steering leaves the offset last measured, too. -/
structure Steered (s t : State) : Prop extends TimeOnly s t where
  offset : t.time.offset = s.time.offset

theorem timeOnly_trans (h : TimeOnly s t) (k : TimeOnly t u) : TimeOnly s u := by
  refine ⟨regsBut_trans h.regs k.regs, ?_⟩
  rw [k.frame, h.frame]
  rfl

theorem timeOnly_time (s : State) (x : TimeSt) : TimeOnly s { s with time := x } := ⟨regsBut_refl _ s, rfl⟩

theorem steered_refl (s : State) : Steered s s := ⟨timeOnly_time s s.time, rfl⟩

theorem steered_trans (h : Steered s t) (k : Steered t u) : Steered s u :=
  ⟨timeOnly_trans h.toTimeOnly k.toTimeOnly, k.offset.trans h.offset⟩

theorem steered_setPgState (s : State) (st : Nat) : Steered s (setPgState s tickPage st) := by
  refine ⟨⟨regsBut_setPgState (regsBut_refl _ s) (by simp [steerKeys]) (by simp [steerKeys]) st, ?_⟩, by rw [setPgState_time]⟩
  rw [setPgState_frame]
  rfl

theorem steered_setFlag (s : State) (n : Nat) : Steered s (setFlag s tickPage n) := by
  refine ⟨⟨regsBut_setFlag (regsBut_refl _ s) (by simp [steerKeys]) n, ?_⟩, by rw [setFlag_time]⟩
  have h : setFlag s tickPage n = withBlock (setFlag s tickPage n) s := onlyBlock_setFlag s tickPage n
  rw [h]
  rfl

theorem steered_time {x : TimeSt} (h : x.offset = s.time.offset) : Steered s { s with time := x } := ⟨timeOnly_time s x, h⟩

theorem steered_enterHold (s : State) : Steered s (enterHold s) :=
  steered_trans (steered_trans (steered_setPgState s tbHold) (steered_setFlag _ 0)) (steered_time rfl)

theorem steered_servo (s : State) (off : Int) : Steered s (servo s off) := by
  unfold servo
  dsimp only
  split
  · exact steered_time rfl
  · split
    · refine steered_trans ?_ (steered_setFlag _ 1)
      exact steered_time rfl
    · exact steered_time rfl

theorem steered_lockedMeasure (s : State) (off : Int) : Steered s (lockedMeasure s off) := by
  unfold lockedMeasure
  split
  · exact steered_enterHold s
  · exact steered_servo s off

theorem steered_acquireMeasure (s : State) (off : Int) (ok : Bool) : Steered s (acquireMeasure s off ok) := by
  unfold acquireMeasure
  split
  · exact steered_refl s
  · dsimp only
    split
    · exact ⟨⟨regsBut_refl _ s, rfl⟩, rfl⟩
    · exact steered_time rfl

/-! ### A Sync measurement (R62, R66 to R68) -/

/-- The measurement noted, where its link delay is valid. -/
def syncNoted (s : State) (off : Int) (ok : Bool) : State :=
  if ok then { s with time := { s.time with offset := off, syncs := s.time.syncs + 1 } } else s

/-- What a measurement makes of the time base, state by state. -/
def syncSteer (s : State) (off : Int) (ok : Bool) : State :=
  if tbState s = tbFree then { setPgState s tickPage tbAcquire with time := { (setPgState s tickPage tbAcquire).time with run := [] } }
  else if tbState s = tbAcquire then acquireMeasure s off ok
  else if tbState s = tbLocked then if ok then lockedMeasure s off else s
  else if tbState s = tbGm then if ok then lockedMeasure (setPgState s tickPage tbLocked) off else setPgState s tickPage tbLocked
  else s

theorem syncMeasure_eq (s : State) (off : Int) (ok : Bool) :
    syncMeasure s off ok = { syncSteer (syncNoted s off ok) off ok with
      time := { (syncSteer (syncNoted s off ok) off ok).time with lastSync := now s } } := rfl

theorem steered_syncSteer (s : State) (off : Int) (ok : Bool) : Steered s (syncSteer s off ok) := by
  have hp (st : Nat) := steered_setPgState s st
  unfold syncSteer
  split_ifs
  · exact steered_trans (hp tbAcquire) (steered_time rfl)
  · exact steered_acquireMeasure s off ok
  · exact steered_lockedMeasure s off
  · exact steered_refl s
  · exact steered_trans (hp tbLocked) (steered_lockedMeasure _ off)
  · exact hp tbLocked
  · exact steered_refl s

theorem tbState_syncNoted (s : State) (off : Int) (ok : Bool) : tbState (syncNoted s off ok) = tbState s := by
  unfold syncNoted
  split <;> rfl

theorem timeOnly_syncNoted (s : State) (off : Int) (ok : Bool) : TimeOnly s (syncNoted s off ok) := by
  unfold syncNoted
  split
  · exact timeOnly_time s _
  · exact timeOnly_time s s.time

theorem tbState_syncSteer_free (off : Int) (ok : Bool) (h : tbState s = tbFree) : tbState (syncSteer s off ok) = tbAcquire := by
  rw [syncSteer, if_pos h]
  exact tbState_setPgState s (by decide)

theorem syncSteer_hold (off : Int) (ok : Bool) (h : tbState s = tbHold) : syncSteer s off ok = s := by
  simp [syncSteer, h, tbHold, tbFree, tbAcquire, tbLocked, tbGm]

theorem syncSteer_far {off : Int} (h : tbState s = tbLocked) (hf : 1000000 < off ∨ off < -1000000) : syncSteer s off true = enterHold s := by
  have hl : lockedMeasure s off = enterHold s := if_pos hf
  simp [syncSteer, h, hl, tbLocked, tbFree, tbAcquire]

theorem tbState_enterHold (s : State) : tbState (enterHold s) = tbHold :=
  (pgState_setFlag _).trans (tbState_setPgState s (by decide))

theorem flagged_enterHold (s : State) : Flagged (enterHold s) tickPage 0 := flagged_setFlag (setPgState s tickPage tbHold) tickPage 0 (by decide)

theorem enterHold_freqAdj (s : State) : (enterHold s).time.freqAdj = s.time.freqAdj := by
  simp [enterHold]

theorem exec_syncReceived (off : Int) (ok : Bool) (he : ptpEnabled s = true) (hr : s.time.role = 1) (hp : pairHoldsTime s = false) :
    exec (.syncReceived off ok) s = .next (syncMeasure s off ok) := by
  simp [exec, execSyncReceived, he, hr, hp]

theorem timeOnly_syncMeasure (s : State) (off : Int) (ok : Bool) : TimeOnly s (syncMeasure s off ok) :=
  timeOnly_trans (timeOnly_trans (timeOnly_syncNoted s off ok) (steered_syncSteer _ off ok).toTimeOnly) (timeOnly_time _ _)

theorem syncMeasure_offset (s : State) (off : Int) : (syncMeasure s off true).time.offset = off := (steered_syncSteer (syncNoted s off true) off true).offset

theorem syncMeasure_free (off : Int) (ok : Bool) (h : tbState s = tbFree) : tbState (syncMeasure s off ok) = tbAcquire :=
  tbState_syncSteer_free off ok ((tbState_syncNoted s off ok).trans h)

theorem syncMeasure_far {off : Int} (h : tbState s = tbLocked) (hf : 1000000 < off ∨ off < -1000000) :
    tbState (syncMeasure s off true) = tbHold ∧ Flagged (syncMeasure s off true) tickPage 0 ∧ (syncMeasure s off true).time.freqAdj = s.time.freqAdj := by
  rw [syncMeasure_eq, syncSteer_far ((tbState_syncNoted s off true).trans h) hf]
  exact ⟨tbState_enterHold _, flagged_enterHold _, enterHold_freqAdj _⟩

theorem syncMeasure_hold (off : Int) (ok : Bool) (h : tbState s = tbHold) : tbState (syncMeasure s off ok) = tbHold := by
  have hn := (tbState_syncNoted s off ok).trans h
  rw [syncMeasure_eq, syncSteer_hold off ok hn]
  exact hn

/-! ### Lost Sync and lost link delay (R69, R77) -/

theorem exec_syncReceiptTimeout (he : ptpEnabled s = true) (hr : s.time.role = 1) (hl : s.time.lastSync + 3 * syncInterval s ≤ now s) :
    exec .syncReceiptTimeout s = .next (setFlag { s with time := { s.time with locked := false, run := [] } } ptpPage 2) := by
  simp [exec, execSyncReceiptTimeout, he, hr, hl]

theorem exec_pdelayFail {n : Fin 16} (he : ptpEnabled s = true) (hp : regBit s ptpPage 0x104 n.val = true) :
    exec (.pdelayFail n) s = .next (setFlag s ptpPage 1) := by
  simp [exec, execPdelayFail, he, hp]

/-! ### The grandmaster's role (R62, R63, R67) -/

theorem tbState_enterGm (s : State) : tbState (enterGm s) = tbGm := tbState_setPgState _ (by decide)

/-- The grandmaster's role taken. -/
def gmTaken (s : State) : State := { enterGm s with time := { (enterGm s).time with role := 2 } }

theorem gmTaken_frame (s : State) : gmTaken s = { s with
    regs := (gmTaken s).regs, time := (gmTaken s).time, atTick := s.atTick.filter fun a => !(isFirstStep a) } := by
  unfold gmTaken enterGm
  dsimp only
  rw [setPgState_frame]

theorem regsBut_enterGm (s : State) : RegsBut [regKey tickPage 0x00C, regKey tickPage 0x028] s (enterGm s) := by
  have hw : RegsBut [regKey tickPage 0x00C, regKey tickPage 0x028] s { s with atTick := s.atTick.filter fun a => !(isFirstStep a) } :=
    regsBut_refl _ s
  have hp := regsBut_setPgState (p := tickPage) hw (by simp) (by simp) tbGm
  exact hp

theorem exec_grandmaster_taken (he : ptpEnabled s = true) (hp : pairHoldsTime s = false) (hh : tbState s ≠ tbHold)
    (hb : regBit s ptpPage 0x100 2 = true) (hf : regField s ptpPage 0x100 23 16 ≠ 0xFF) :
    exec (.grandmasterRoleChange 2) s = .next (gmTaken s) := by
  simp [exec, execGrandmasterRoleChange, he, hp, hh, hb, hf, gmTaken]

theorem exec_grandmaster_lost {role : BitVec 2} (he : ptpEnabled s = true) (hp : pairHoldsTime s = false) (hm : s.time.role = 2)
    (hg : tbState s = tbGm) (hr : role = 1 ∨ role = 3) :
    exec (.grandmasterRoleChange role) s =
      .next { setPgState s tickPage tbLocked with time := { (setPgState s tickPage tbLocked).time with role := role } } := by
  rcases hr with rfl | rfl <;> simp [exec, execGrandmasterRoleChange, he, hp, hm, hg, gmLost]

/-- Settles O13: a Sync steers the time base (`timeOnly_syncMeasure`, and a lemma for each state that it meets); the others are each command's
own equation. -/
theorem networkTimeEffects : Obligations.NetworkTimeEffects := by
  refine ⟨fun s off ok he hr hp => ?_, fun s he hr hl => ?_, fun s n he hp => ?_, fun s he hp hh hb hf => ?_, fun s role he hp hm hg hr => ?_⟩
  · have hk := timeOnly_syncMeasure s off ok
    exact ⟨_, exec_syncReceived off ok he hr hp, rfl, fun h => h ▸ syncMeasure_offset s off, syncMeasure_free off ok,
      fun h hok hf => hok ▸ syncMeasure_far h hf, syncMeasure_hold off ok, hk.regs, hk.frame⟩
  · refine ⟨_, exec_syncReceiptTimeout he hr hl, by simp, by simp, flagged_setFlag _ _ _ (by decide), ?_, ?_⟩
    · refine regsBut_setFlag ?_ (.head _) 2
      exact regsBut_refl _ s
    · have h := onlyBlock_setFlag { s with time := { s.time with locked := false, run := [] } } ptpPage 2
      rw [OnlyBlock] at h
      rw [h]
      rfl
  · exact ⟨_, exec_pdelayFail he hp, flagged_setFlag _ _ _ (by decide), regsBut_setFlag (regsBut_refl _ s) (.head _) 1, onlyBlock_setFlag s _ _⟩
  · have hframe := gmTaken_frame s
    have hact : (gmTaken s).atTick = s.atTick.filter fun a => !(isFirstStep a) := congrArg State.atTick hframe
    exact ⟨_, exec_grandmaster_taken he hp hh hb hf, tbState_enterGm s, rfl, rfl, hact, regsBut_enterGm s, hact.symm ▸ hframe⟩
  · refine ⟨_, exec_grandmaster_lost he hp hm hg hr, tbState_setPgState s (by decide), rfl, ?_, ?_⟩
    · exact regsBut_congr (regsBut_setPgState (p := tickPage) (regsBut_refl _ s) (by simp) (by simp) tbLocked) rfl
    · rw [setPgState_frame]

end Sys2Proof.Machine
end

section
/-! PROOFS. Register accesses of the TICK and PTP pages: what a 32-bit read answers and does, and what the commands that read or write these
pages leave (R56, R61, R64, R72 to R75). -/

namespace Sys2Proof.Machine

section
variable {s : State} {r : Req} {p : Page} {off : Nat}

/-! ### A read of one register -/

/-- The word that a read answers, by a requester that may read it. -/
def readWord32 (s : State) (r : Req) (p : Page) (off : Nat) : Word :=
  if isLatched p off then smGet 0 s.latch (latchKey r (regKey p off)) else if foreignStream s r p off then 0 else readValue s p off

/-- The state after such a read: what it latches, and an owner's side effects. -/
def readLeaves (s : State) (r : Req) (p : Page) (off : Nat) : State :=
  if isOwner s r p off then readEffect (latchAll s r p off) p off else latchAll s r p off

theorem busRead_readable (h : Readable s r p off) :
    busRead s r (regKey p off) .b4 = answer (readLeaves s r p off) .ok ((readWord32 s r p off).setWidth 64) := by
  obtain ⟨hp, ho, ha, hr, hright, -⟩ := h
  have hk := regKey_aligned (p := p) ha
  have hw (w : Word) : BitVec.ofNat 64 (w.toNat >>> (8 * (regKey p off % 4)) % 2 ^ (8 * sizeBytes .b4)) = w.setWidth 64 := by
    rw [hk]
    apply BitVec.eq_of_toNat_eq
    simp only [sizeBytes, BitVec.toNat_ofNat, BitVec.toNat_setWidth]
    have := w.isLt
    omega
  have hread : read32 s r (regKey p off) (regKey p off) = (readLeaves s r p off, .ok, readWord32 s r p off) := by
    simp only [read32, pageAt_regKey hp ho, pageOff_regKey ho, if_neg hright]
    rfl
  have ha4 : regKey p off % sizeBytes .b4 = 0 := hk
  simp only [busRead, hr, Bool.not_true, Bool.false_eq_true, if_false, ha4, ne_eq, not_true_eq_false]
  rw [show regKey p off - regKey p off % 4 = regKey p off by omega, hread]
  exact congrArg _ (hw _)

/-- A read that latches nothing, of a register that no read clears, leaves the state. -/
theorem readEffect_of_rc_zero {row : RegRow} (hr : regRow p off = some row) (hrc : row.rc = 0) (h1 : ¬ (p.cls = .ptp ∧ off = 0x120))
    (h2 : p.cls ≠ .c) : readEffect s p off = s := by
  have h2' : ¬ (p.cls = .c ∧ off = 0x10C ∧ !(unpowered s p)) := fun h => h2 h.1
  simp only [readEffect, hr, if_neg h1, if_neg h2', hrc, true_or, if_true, ite_self]

/-- The word of a register that no reset hides. -/
theorem readValue_shown (h : inReset s (pageOwner s p) = false) (hu : unpowered s p = false) : readValue s p off = showWord s p off := by
  simp [readValue, h, hu]

end

/-- A register of 32 readable bits that shows what its block gives. -/
theorem showWord_view {s : State} {p : Page} {off : Nat} {row : RegRow} {v : Word} (hw : inWindow off = false) (hr : regRow p off = some row)
    (hv : headerView s p off = some v) (hb : rowBits row = allOnes) (ho : row.wo = 0) : showWord s p off = v := by
  simp only [showWord, hw, hr, hv, hb, ho, Bool.false_eq_true, if_false, Option.getD_some]
  exact (BitVec.and_allOnes (x := v &&& BitVec.allOnes 32)).trans BitVec.and_allOnes

/-- A stored bit takes the value written (R9). -/
theorem bit_storedBits_rw (s : State) {p : Page} {off n : Nat} {row : RegRow} {v : Word} (hn : n < 32) (hm : bit (row.rw ||| row.rwl) n = true)
    (hw : bit row.w1c n = false) : bit (storedBits s p off row v) n = bit v n := by
  simp only [storedBits]
  generalize row.rw ||| row.rwl = m at hm
  simp [bit_and, bit_or, bit_not _ hn, hm, hw]

variable {s : State} {r : Req}

/-! ### Reads of the TICK and PTP pages (R56, R75) -/

theorem unpowered_tick (s : State) : unpowered s tickPage = false := by simp [unpowered, pageCore, tickPage]
theorem unpowered_ptp (s : State) : unpowered s ptpPage = false := by simp [unpowered, pageCore, ptpPage]

theorem readWord32_tickNow (h : Readable s r tickPage 0x100) : readWord32 s r tickPage 0x100 = nowW s := by
  obtain ⟨-, -, -, -, -, hin⟩ := h
  rw [readWord32, if_neg (by decide), if_neg (by simp [foreignStream, tickPage]), readValue_shown hin (unpowered_tick s)]
  exact showWord_view rfl rfl rfl rfl rfl

theorem readWord32_timeNs (h : Readable s r tickPage 0x108) : readWord32 s r tickPage 0x108 = BitVec.ofNat 32 (instantNow s / 2 ^ 32) := by
  obtain ⟨-, -, -, -, -, hin⟩ := h
  rw [readWord32, if_neg (by decide), if_neg (by simp [foreignStream, tickPage]), readValue_shown hin (unpowered_tick s)]
  exact showWord_view rfl rfl rfl rfl rfl

theorem readWord32_tsqEntry (h : Readable s r ptpPage 0x120) : readWord32 s r ptpPage 0x120 = tsqWord s 3 := by
  obtain ⟨-, -, -, -, -, hin⟩ := h
  rw [readWord32, if_neg (by decide), if_neg (by simp [foreignStream, ptpPage]), readValue_shown hin (unpowered_ptp s)]
  exact showWord_view rfl rfl rfl rfl rfl

/-- A read of the TICK page clears nothing, so it leaves what it latches alone. -/
theorem readLeaves_tick {off : Nat} {row : RegRow} (hr : regRow tickPage off = some row) (hrc : row.rc = 0) :
    readLeaves s r tickPage off = latchAll s r tickPage off := by
  rw [readLeaves, readEffect_of_rc_zero hr hrc (by simp [tickPage]) (by decide), ite_self]

/-- The owner's read of TSQ_ENTRY3 takes the head away. -/
theorem readLeaves_tsqEntry (h : Readable s r ptpPage 0x120) (ho : isOwner s r ptpPage 0x120 = true) :
    readLeaves s r ptpPage 0x120 = tsqPopHead s := by
  obtain ⟨-, -, -, -, -, hin⟩ := h
  have hl : latchAll s r ptpPage 0x120 = s := rfl
  rw [readLeaves, if_pos ho, hl, readEffect, hin]
  rfl

theorem exec_tsqPop (h : Readable s r ptpPage 0x120) (ho : isOwner s r ptpPage 0x120 = true) :
    exec (.tsqPop r) s =
      .next { s with time := { s.time with tsq := s.time.tsq.drop 1 }, reply := ⟨.ok, (tsqWord s 3).setWidth 64⟩ } := by
  refine congrArg Host.Outcome.next ((busRead_readable h).trans ?_)
  rw [readLeaves_tsqEntry h ho, readWord32_tsqEntry h]
  rfl

theorem exec_tickNowLoRead (h : Readable s r tickPage 0x100) :
    exec (.tickNowLoRead r) s = .next (answer (latchAll s r tickPage 0x100) .ok ((nowW s).setWidth 64)) := by
  refine congrArg Host.Outcome.next ((busRead_readable h).trans ?_)
  rw [readLeaves_tick rfl rfl, readWord32_tickNow h]

theorem exec_timeNsLoRead (h : Readable s r tickPage 0x108) :
    exec (.timeNsLoRead r) s =
      .next (answer (latchAll s r tickPage 0x108) .ok ((BitVec.ofNat 32 (instantNow s / 2 ^ 32)).setWidth 64)) := by
  refine congrArg Host.Outcome.next ((busRead_readable h).trans ?_)
  rw [readLeaves_tick rfl rfl, readWord32_timeNs h]

/-! What the reads of the low words latch (R56). -/

theorem tickPage_cls : tickPage.cls = .tick := rfl

theorem regKey_add (p : Page) (off n : Nat) : regKey p off + n = regKey p (off + n) := Nat.add_assoc _ _ _

theorem latches_tickNow (s : State) : latches s tickPage 0x100 = [(regKey tickPage 0x104, (s.time.tickNow >>> 32).setWidth 32)] := by
  simp [latches, tickPage_cls, regKey_add]

theorem latches_timeNs (s : State) : latches s tickPage 0x108 = [(regKey tickPage 0x10C, BitVec.ofNat 32 (instantNow s / 2 ^ 64)),
    (regKey tickPage 0x110, BitVec.ofNat 32 (instantNow s))] := by
  simp [latches, tickPage_cls, regKey_add]

theorem latchAll_tickNow (s : State) (r : Req) : latchAll s r tickPage 0x100 = { s with
    latch := smSet 0 s.latch (latchKey r (regKey tickPage 0x104)) ((s.time.tickNow >>> 32).setWidth 32) } := by
  simp [latchAll, latches_tickNow]

/-- The instant of a read is found from device time and the free values alone. -/
theorem instNext_congr {t : State} (ht : t.time = s.time) (hf : t.free = s.free) : instNext t = instNext s := by
  simp only [instNext, cycleStep, freeAt, now, ht, hf]

theorem instNext_latch (s : State) (m : SMap Word) : instNext { s with latch := m } = instNext s := instNext_congr rfl rfl

/-- The latches after the words of a read. -/
def latchPut (m : SMap Word) (r : Req) (xs : List (Nat × Word)) : SMap Word := xs.foldl (fun m x => smSet 0 m (latchKey r x.1) x.2) m

theorem latchPut_two (m : SMap Word) (r : Req) (a b : Nat) (v w : Word) :
    latchPut m r [(a, v), (b, w)] = smSet 0 (smSet 0 m (latchKey r a) v) (latchKey r b) w := rfl

/-- A read of TIME_NS_LO takes an instant. -/
theorem latchAll_timed {p : Page} (r : Req) (hp : p.cls = .tick) :
    latchAll s r p 0x108 = advanceInst { s with latch := latchPut s.latch r (latches s p 0x108) } := if_pos ⟨hp, rfl⟩

theorem latchAll_timeNs (s : State) (r : Req) : latchAll s r tickPage 0x108 = { s with
    latch := smSet 0 (smSet 0 s.latch (latchKey r (regKey tickPage 0x10C)) (BitVec.ofNat 32 (instantNow s / 2 ^ 64)))
      (latchKey r (regKey tickPage 0x110)) (BitVec.ofNat 32 (instantNow s))
    free := s.free + 1, time := { s.time with inst := instNext s } } := by
  rw [latchAll_timed r rfl, latches_timeNs, latchPut_two, advanceInst, instNext_latch, spendFree]

theorem latchKey_ne {r : Req} {a b : Nat} (h : a ≠ b) : latchKey r a ≠ latchKey r b := by
  unfold latchKey
  omega

theorem inst_le_instNext (s : State) : s.time.inst ≤ instNext s := Nat.le_add_right _ _

/-! ### TIME_SET, PTP_ENABLE and PTP_DISABLE (R64, R72) -/

theorem exec_timeSet (h : Accepted s r tickPage 0x130 1) :
    ∃ w, exec (.timeSet r) s = .next (answer (timeSetAccept (setReg s tickPage 0x130 w)) .ok 0) :=
  ⟨_, congrArg Host.Outcome.next (regWrite_accept h)⟩

/-- An accepted write of PTP_CTRL stores ENABLE as written, before PTP starts or is to stop. -/
theorem accept_ptpCtrl (s : State) (v : Word) : ∃ w, bit w 0 = bit v 0 ∧
    accept s ptpPage 0x100 v = timeAct (setReg s ptpPage 0x100 w) ptpPage 0x100 v (regVal s ptpPage 0x100) :=
  ⟨_, bit_storedBits_rw s (by decide) (by decide) (by decide), rfl⟩

theorem timeAct_ptpCtrl (s : State) (v old : Word) : timeAct s ptpPage 0x100 v old =
    if bit old 0 then atBoundary (setReg s ptpPage 0x100 (setBit (regVal s ptpPage 0x100) 0 true)) .ptpStop
    else if bit v 0 then { s with time := { s.time with role := 1, run := [], lastSync := now s } } else s := rfl

theorem exec_ptpEnable {v : Word} (h : Accepted s r ptpPage 0x100 (setBit v 0 true)) (he : ptpEnabled s = false) :
    ∃ w, bit w 0 = true ∧ exec (.ptpEnable r v) s = .next (answer { setReg s ptpPage 0x100 w with
      time := { s.time with role := 1, run := [], lastSync := now s } } .ok 0) := by
  obtain ⟨w, hw, ha⟩ := accept_ptpCtrl s (setBit v 0 true)
  have hb : bit (setBit v 0 true) 0 = true := bit_setBit_same v true (by decide)
  have he' : ¬ bit (regVal s ptpPage 0x100) 0 = true := by
    rw [show bit (regVal s ptpPage 0x100) 0 = false from he]
    decide
  refine ⟨w, hw.trans hb, congrArg Host.Outcome.next ((regWrite_accept h).trans ?_)⟩
  rw [ha, timeAct_ptpCtrl, if_neg he', if_pos hb]
  rfl

/-- A write that clears ENABLE leaves it set until the boundary. -/
theorem exec_ptpDisable (h : Accepted s r ptpPage 0x100 (setBit (regVal s ptpPage 0x100) 0 false)) (he : ptpEnabled s = true) :
    ∃ w x, bit x 0 = true ∧
      exec (.ptpDisable r) s = .next (answer (atBoundary (setReg (setReg s ptpPage 0x100 w) ptpPage 0x100 x) .ptpStop) .ok 0) := by
  obtain ⟨w, -, ha⟩ := accept_ptpCtrl s (setBit (regVal s ptpPage 0x100) 0 false)
  have he' : bit (regVal s ptpPage 0x100) 0 = true := he
  rw [timeAct_ptpCtrl, if_pos he'] at ha
  exact ⟨w, _, bit_setBit_same _ true (by decide), congrArg Host.Outcome.next ((regWrite_accept h).trans (congrArg (answer · .ok 0) ha))⟩

theorem ptpEnabled_setReg (s : State) {w : Word} (h : bit w 0 = true) : ptpEnabled (setReg s ptpPage 0x100 w) = true := by
  rw [ptpEnabled, regBit, regVal_setReg_same, h]

/-- PTP stopped (R72): ENABLE is clear and the role given up, whatever the time base does. -/
theorem applyPtpStop_effects (s : State) : ptpEnabled (applyPtpStop s) = false ∧ (applyPtpStop s).time.role = 0 := by
  refine ⟨?_, rfl⟩
  have ht : regVal (setRegField s ptpPage 0x100 0 0 0) ptpPage 0x100 = setField (regVal s ptpPage 0x100) 0 0 0 := regVal_setReg_same _ _ _ _
  have hg : RegsBut [regKey tickPage 0x00C, regKey tickPage 0x028] (setRegField s ptpPage 0x100 0 0 0) (applyPtpStop s) := by
    unfold applyPtpStop gmLost
    dsimp only
    split_ifs
    · exact regsBut_setPgState (regsBut_refl _ _) (.head _) (.tail _ (.head _)) tbLocked
    · exact regsBut_refl _ _
    · exact regsBut_refl _ _
  rw [ptpEnabled, regBit_of_regsBut hg (by decide), regBit, ht, bit_setField]
  rfl

/-! ### The timestamp queue (R73, R74) -/

theorem exec_tsqPush_room (f : Half) (port m : BitVec 4) (ns : DWord) (frac : Word) (hu : tsqInUse s = true) (hl : s.time.tsq.length < 64)
    (he : s.time.tsqLate = []) : exec (.tsqPush f port m ns frac) s =
      .next { s with time := { s.time with tsq := s.time.tsq ++ [⟨f, port, m, ns, frac⟩] } } := by
  simp [exec, execTsqPush, hu, hl, he]

theorem exec_tsqPush_late (f : Half) (port m : BitVec 4) (ns : DWord) (frac : Word) (hu : tsqInUse s = true)
    (h : 64 ≤ s.time.tsq.length ∨ s.time.tsqLate ≠ []) : exec (.tsqPush f port m ns frac) s =
      .next { s with time := { s.time with tsqLate := s.time.tsqLate ++ [⟨f, port, m, ns, frac⟩] } } := by
  have hc : (s.time.tsqLate.isEmpty && decide (s.time.tsq.length < 64)) = false := by
    rcases h with h | h <;> simp [h]
  simp [exec, execTsqPush, hu, hc]

/-- The registers that TIME_SET holds are not the one that TIME_CMD's write stores. -/
theorem timeSetAccept_atTick (s : State) (w : Word) : (timeSetAccept (setReg s tickPage 0x130 w)).atTick =
    s.atTick ++ [.timeStep (((regVal s tickPage 0x12C).toNat * 2 ^ 32 + (regVal s tickPage 0x128).toNat : Int) -
      ((boundaryNs s (now s)).toNat : Int)) false] := by
  unfold timeSetAccept
  dsimp only [atBoundary]
  rw [regVal_setReg_off _ _ _ (by decide), regVal_setReg_off _ _ _ (by decide)]
  push_cast
  rfl

theorem applyTimeStep_set (s : State) (off : Int) : tbState (applyAct s (.timeStep off false)) = tbGm ∧
    (applyAct s (.timeStep off false)).time.origin = s.time.origin + BitVec.ofInt 64 off := by
  refine ⟨tbState_enterGm _, ?_⟩
  simp [applyAct, applyTimeStep, enterGm]

/-- Settles O16: each access by what its read or its write leaves; the two boundary actions by theirs. -/
theorem timePageCommands : Obligations.TimePageCommands := by
  refine ⟨fun s r h => ?_, applyTimeStep_set, fun s r v h he => ?_, fun s r h he => ?_, applyPtpStop_effects,
    fun s f port m ns frac hu hl he => exec_tsqPush_room f port m ns frac hu hl he,
    fun s f port m ns frac hu hl => exec_tsqPush_late f port m ns frac hu hl, fun s r h ho => exec_tsqPop h ho, fun s r h => ?_, fun s r h => ?_⟩
  · obtain ⟨w, hw⟩ := exec_timeSet h
    refine ⟨_, hw, rfl, rfl, timeSetAccept_atTick s w, ?_, rfl⟩
    exact regsBut_setReg (regsBut_refl _ s) (.head _) w
  · obtain ⟨w, hb, hw⟩ := exec_ptpEnable h he
    refine ⟨_, hw, ptpEnabled_setReg s hb, rfl, ?_, rfl⟩
    exact regsBut_setReg (regsBut_refl _ s) (.head _) w
  · obtain ⟨w, x, hb, hw⟩ := exec_ptpDisable h he
    refine ⟨_, hw, ptpEnabled_setReg _ hb, rfl, ?_, rfl⟩
    exact regsBut_setReg (regsBut_setReg (regsBut_refl _ s) (.head _) w) (.head _) x
  · refine ⟨_, exec_tickNowLoRead h, rfl, ?_, ?_⟩
    · rw [latchAll_tickNow]
      exact smGet_smSet_same _ _ _ _
    · rw [latchAll_tickNow]
      rfl
  · refine ⟨_, exec_timeNsLoRead h, rfl, ?_, ?_, ?_, ?_⟩
    · rw [latchAll_timeNs]
      exact (smGet_smSet_ne _ _ _ _ (latchKey_ne (by decide))).trans (smGet_smSet_same _ _ _ _)
    · rw [latchAll_timeNs]
      exact smGet_smSet_same _ _ _ _
    · rw [latchAll_timeNs]
      exact inst_le_instNext s
    · rw [latchAll_timeNs]
      rfl

/-! ### PG_CTRL of the TICK page (R61) -/

/-- A write that asks for a soft reset of the TICK page, or for it to be disabled, meets no rule before R61's. -/
theorem judge_tickCtrl {v : Word} (hr : rightOf s r tickPage 0x008 = .full) (hi : inReset s (pageOwner s tickPage) = false)
    (hres : v &&& ~~~3#32 = 0) (hv : bit v 1 = true ∨ bit v 0 = false) : judge s r tickPage 0x008 v false = some .stateIllegal := by
  have hd : writeDenied s r tickPage 0x008 v = false := by
    have hrow : regRow tickPage 0x008 = some { name := "PG_CTRL", first := 0x008, rw := 1, wo := 0x2, reset := 1 } := rfl
    simp [writeDenied, hr, hrow, sensorDenied, tickPage_cls]
  have hc : ctrlCheck s tickPage v = some .stateIllegal := by
    rcases hv with h | h <;> simp [ctrlCheck, tickPage_cls, h]
  have hb : v &&& ~~~(writableBits tickPage 0x008) = 0 := hres
  cases hg : gateOpen s tickPage 0x008 <;> simp [judge, hd, hc, hb, hi, hg, firstReason]

theorem regKey_lt {p : Page} {off : Nat} (hp : pageOk p = true) (ho : off < 0x1000) : regKey p off < 2 ^ 26 := by
  obtain ⟨k, i⟩ := p
  have hi : i < clsCount k := of_decide_eq_true hp
  cases k <;> simp only [clsCount, regKey, pageBase, clsBase] at hi ⊢ <;> omega

/-- A register's own address fits the command's operand. -/
theorem exec_registerWrite {p : Page} {off : Nat} (v : Word) (hp : pageOk p = true) (ho : off < 0x1000) :
    exec (.registerWrite r (BitVec.ofNat 26 (regKey p off)) .b4 (v.setWidth 64)) s = .next (regWrite s r p off v) := by
  have hk : (BitVec.ofNat 26 (regKey p off)).toNat = regKey p off := by
    rw [BitVec.toNat_ofNat, Nat.mod_eq_of_lt (regKey_lt hp ho)]
  simp only [exec, execRegisterWrite, hk, regWrite]

/-- A write of another register than PW_CMD that is rejected leaves the record of R92 alone (R105). -/
theorem rejectWrite_eq (s : State) {p : Page} {off : Nat} (st : Status) (h : ¬ (p = partPage 0 ∧ off = 0x700)) :
    rejectWrite s p off st = recordReject s p st off :=
  if_neg fun e => h ⟨e.1, e.2.1⟩

/-- Settles O19: the judgement is `judge_tickCtrl`, and a rejected write leaves the record of R92 (`regWrite_reject`). -/
theorem tickPageNeverReset : Obligations.TickPageNeverReset := by
  intro s r v hr hi hres hv
  have hj := judge_tickCtrl hr hi hres hv
  refine ⟨hj, fun hreach => ⟨_, exec_registerWrite v (by decide) (by decide), ?_⟩⟩
  have hf : recordReject s tickPage .stateIllegal 0x008 = withBlock _ s := onlyBlock_recordReject s tickPage .stateIllegal 0x008
  rw [regWrite_reject (by decide) (by decide) (by decide) hreach hj, rejectWrite_eq _ _ (by decide)]
  refine ⟨?_, ?_, ?_⟩
  · exact regsBut_ctrAdd (regsBut_rcEvent (regsBut_refl _ s) (.head _) _) 0 1
  · rw [hf]
    rfl
  · rw [hf]
    rfl

end Sys2Proof.Machine
end

section
/-! PROOFS. Resets and the boot chain (R43, R410, R474, R478, R480, R635, R644, R688). Before them, what BOOT_LAYOUT_LOAD's erases and mappings
leave of what a layout brings into force. -/

namespace Sys2Proof.Machine

/-! ### What the entry to RUN keeps while it erases and maps -/

/-- Device time, the marks of Fireboss, the layout, the fuse counters and the owners of the pages. -/
def bootView (s : State) : TimeSt × FbSt × DevSt × List Nat × (Page → Word) :=
  (s.time, s.fb, s.dev, s.sec.flash.counters, fun p => regVal s p 0x020)

theorem bootView_setReg (s : State) (p : Page) {off : Nat} (v : Word) (ho : off < 0x1000) (h : off ≠ 0x020) :
    bootView (setReg s p off v) = bootView s := by
  have hr (q : Page) : regVal (setReg s p off v) q 0x020 = regVal s q 0x020 := regVal_setReg_ne s p q v fun e =>
    h (by rw [← regKey_mod (p := p) ho, e, regKey_mod (by decide)])
  simp [bootView, hr]

theorem bootView_setRegField (s : State) (p : Page) {off : Nat} (hi lo v : Nat) (ho : off < 0x1000) (h : off ≠ 0x020) :
    bootView (setRegField s p off hi lo v) = bootView s := bootView_setReg s p _ ho h

@[simp] theorem bootView_setPgState (s : State) (p : Page) (st : Nat) : bootView (setPgState s p st) = bootView s := by
  unfold setPgState
  split
  · rfl
  · exact (bootView_setReg _ p _ (by decide) (by decide)).trans (bootView_setRegField s p _ _ _ (by decide) (by decide))

@[simp] theorem bootView_setFlag (s : State) (p : Page) (n : Nat) : bootView (setFlag s p n) = bootView s := by
  have ho : bootView (orReg s p 0x010 (bitMask n)) = bootView s := bootView_setReg s p _ (by decide) (by decide)
  unfold setFlag
  dsimp only
  split <;> exact ho

@[simp] theorem bootView_ctrAdd (s : State) (p : Page) (slot n : Nat) : bootView (ctrAdd s p slot n) = bootView s := by
  unfold ctrAdd
  dsimp only
  split_ifs <;> rfl

@[simp] theorem bootView_retireBlock (s : State) (k : Nat) : bootView (retireBlock s k) = bootView s := by
  have hs (n : Nat) : bootView (setSpareBlocks s k n) = bootView s := rfl
  unfold retireBlock
  dsimp only
  split_ifs <;> simp [hs]

@[simp] theorem bootView_eraseBlock (s : State) (k b : Nat) (ok : Bool) : bootView (eraseBlock s k b ok) = bootView s := by
  unfold eraseBlock
  extract_lets w p t _ u v
  have ht : bootView t = bootView s := by
    unfold t
    split <;> simp
  have hv : bootView v = bootView s := (bootView_setRegField u p _ _ _ (by decide) (by decide)).trans ht
  split
  · exact ht
  · rw [bootView_retireBlock]
    split <;> exact hv

@[simp] theorem bootView_programUnit (s : State) (ch : Nat) : bootView (programUnit s ch).2 = bootView s := by
  unfold programUnit
  dsimp only
  rw [bootView_ctrAdd]
  split
  · rfl
  · split <;> rfl

@[simp] theorem bootView_moveUnits (s : State) (k b : Nat) : bootView (moveUnits s k b) = bootView s := by
  unfold moveUnits
  refine (foldl_leaves bootView (fun t x => ?_) _ _).trans ?_
  · split
    · exact bootView_programUnit _ _
    · rfl
  · split <;> rfl

@[simp] theorem bootView_settleErase (s : State) : bootView (settleErase s) = bootView s := by
  unfold settleErase
  exact (foldl_leaves bootView (fun t d => bootView_eraseBlock t _ _ _) _ _).trans rfl

@[simp] theorem bootView_emptyBlock (s : State) (k b : Nat) (ok : Bool) : bootView (emptyBlock s k b ok) = bootView s := by
  unfold emptyBlock
  exact (bootView_settleErase _).trans (bootView_moveUnits s k b)

@[simp] theorem bootView_eraseSeam (s : State) (n : Nat) : bootView (eraseSeam s n) = bootView s := by
  unfold eraseSeam
  refine (foldl_leaves bootView (fun t x => ?_) _ _).trans rfl
  split
  · rfl
  · exact bootView_emptyBlock _ _ _ _

theorem bootView_mapShares (s : State) (l : Layout) : bootView (mapShares s l) = bootView s := by
  unfold mapShares
  refine foldl_leaves bootView (fun t x => ?_) _ s
  split
  · rfl
  · refine foldl_leaves bootView (fun u i => ?_) _ t
    split <;> rfl

theorem bootView_bootErase (s : State) (l : Layout) : bootView (bootErase s l) = bootView s := by
  unfold bootErase
  refine Eq.trans rfl (foldl_leaves bootView (fun t n => ?_) _ s)
  dsimp only
  split
  · exact Eq.trans rfl (bootView_eraseSeam t n)
  · rfl

theorem bootView_zeroGallery (s : State) (n : Nat) : bootView (zeroGallery s n) = bootView s := by
  unfold zeroGallery
  split
  · rfl
  · refine foldl_leaves bootView (fun t g => ?_) _ s
    rfl

theorem bootView_enterD2 (s : State) (n : Nat) : bootView (enterD2 s n) = bootView s := Eq.trans rfl (bootView_zeroGallery s n)

theorem bootView_setFlash_eq (s : State) (f : FlashSt) : bootView (setFlash s f) = (s.time, s.fb, s.dev, f.counters, fun p => regVal s p 0x020) := rfl

theorem bootView_setFlash (s : State) {f : FlashSt} (h : f.counters = s.sec.flash.counters) : bootView (setFlash s f) = bootView s := by
  rw [bootView_setFlash_eq, h]
  rfl

theorem bootView_bootD2 (s : State) : bootView (bootD2 s) = bootView s := by
  unfold bootD2
  split
  · rfl
  · extract_lets x t
    have ht : bootView (enterD2 t 0) = bootView t := bootView_enterD2 t 0
    have hc : t.sec.flash.counters = (enterD2 t 0).sec.flash.counters := (congrArg (·.2.2.2.1) ht).symm
    exact (bootView_setFlash (f := { t.sec.flash with d2Armed := none }) _ hc).trans ht

/-! ### The layout comes into force (R478, R480) -/

theorem pageOk_of_mem {p : Page} (h : p ∈ allPages) : pageOk p = true := by
  simp only [allPages, List.mem_flatMap, List.mem_map, List.mem_range] at h
  obtain ⟨k, -, i, hi, rfl⟩ := h
  exact decide_eq_true hi

/-- Whatever pages are given owners, a page of those has the owner of the layout. -/
theorem foldl_owner {l : Layout} {p : Page} {w : Nat} (hp : pageOk p = true) (hw : ownerWord l p = some w) (xs : List Page)
    (hx : ∀ q ∈ xs, pageOk q = true) (s : State) (h : p ∈ xs ∨ regVal s p 0x020 = BitVec.ofNat 32 w) :
    regVal (xs.foldl (fun t q => match ownerWord l q with
      | some w => setReg t q 0x020 (BitVec.ofNat 32 w)
      | none => t) s) p 0x020 = BitVec.ofNat 32 w := by
  induction xs generalizing s with
  | nil => exact h.resolve_left (by simp)
  | cons q xs ih =>
    refine ih (fun q hq => hx q (.tail _ hq)) _ ?_
    by_cases e : p = q
    · right
      subst e
      simp only [hw]
      exact regVal_setReg_same _ _ _ _
    · refine h.imp (fun hm => (List.mem_cons.1 hm).resolve_left e) fun hs => ?_
      dsimp only
      split
      · exact (regVal_setReg_ne s q p _ (regKey_ne (hx q (.head _)) hp (by decide) (by decide) (.inl (Ne.symm e)))).trans hs
      · exact hs

theorem applyLayout_owner (s : State) {l : Layout} {p : Page} {w : Nat} (hp : p ∈ allPages) (hw : ownerWord l p = some w) :
    regVal (applyLayout s l) p 0x020 = BitVec.ofNat 32 w :=
  foldl_owner (pageOk_of_mem hp) hw allPages (fun _ => pageOk_of_mem) _ (.inl hp)

/-- A layout in force writes registers, and is DEVICE's. -/
theorem applyLayout_leaves (s : State) (l : Layout) :
    ((applyLayout s l).time, (applyLayout s l).fb, (applyLayout s l).dev) = (s.time, s.fb, { s.dev with layout := some l }) :=
  foldl_leaves (fun t => (t.time, t.fb, t.dev)) (fun t p => by split <;> rfl) allPages _

/-- With no mark and no failure of boot there is nothing to judge. -/
theorem bootJudge_clear {s : State} (hf : s.fb.bootFail = none) (hk : ∀ k ∈ allCores, (fbOf s k).bootBad = false) : bootJudge s = s := by
  have he : (allCores.filter fun k => (fbOf s k).bootBad) = [] := List.filter_eq_nil_iff.2 fun k hm => by simp [hk k hm]
  unfold bootJudge
  rw [he]
  dsimp only [List.foldl_nil]
  rw [hf]

/-- The layout in force with its fuse counter, its share windows mapped, and what is erased at boot erased. -/
def layoutMapped (s : State) (l : Layout) : State :=
  let f := s.sec.flash
  bootD2 (bootErase (mapShares (setFlash (applyLayout s l) { f with counters := f.counters.set 4 (max (f.counters.getD 4 0) l.svn) }) l) l)

/-- The Tally pages and the Hoists as they are in RUN. -/
def tallyReady (s : State) : State :=
  (List.range 32).foldl (fun w i =>
    let p : Page := ⟨.tally, i⟩
    if pageLocked w p then w else setPgState w p tlReady) s
def hoistReady (s : State) : State :=
  (List.range 2).foldl (fun t h => if pgState t ⟨.hoist, h⟩ = 0 then setPgState t ⟨.hoist, h⟩ 1 else t) s

/-- The boot chain's record of the layout's digest, the trial's end, and the tick of the entry to RUN. -/
def recordRun (v s : State) (digest : List Byte) : State :=
  { s with
    sec := { v.sec with boot := { v.sec.boot with layoutDigest := digest }, update := if v.sec.boot.trialRun then 3 else v.sec.update }
    vl := { v.vl with runAt := some (now v) } }

theorem enterRun_eq (s : State) (l : Layout) (digest : List Byte) : enterRun s l digest =
    let v := tallyReady (layoutMapped s l)
    bootJudge (setPgState (recordRun v (hoistReady v) digest) devPage stRun) := rfl

/-- What a layout brings into force. -/
def layoutView (s : State) (l : Layout) : TimeSt × FbSt × DevSt × List Nat × (Page → Word) :=
  (s.time, s.fb, { s.dev with layout := some l }, s.sec.flash.counters.set 4 (max (s.sec.flash.counters.getD 4 0) l.svn),
    fun p => regVal (applyLayout s l) p 0x020)

theorem bootView_layoutMapped (s : State) (l : Layout) : bootView (layoutMapped s l) = layoutView s l := by
  have ha := applyLayout_leaves s l
  obtain ⟨htime, ha⟩ := Prod.mk.inj ha
  obtain ⟨hfb, hdev⟩ := Prod.mk.inj ha
  rw [layoutMapped, bootView_bootD2, bootView_bootErase, bootView_mapShares, bootView_setFlash_eq, htime, hfb, hdev, layoutView]

theorem bootView_tallyReady (s : State) : bootView (tallyReady s) = bootView s := by
  refine foldl_leaves bootView (fun w i => ?_) _ s
  dsimp only
  split <;> simp

theorem bootView_hoistReady (s : State) : bootView (hoistReady s) = bootView s := by
  refine foldl_leaves bootView (fun w i => ?_) _ s
  split <;> simp

theorem bootView_recordRun {v s : State} (h : bootView s = bootView v) (digest : List Byte) : bootView (recordRun v s digest) = bootView v := by
  have hc : bootView (recordRun v s digest) = (s.time, s.fb, s.dev, v.sec.flash.counters, fun p => regVal s p 0x020) := rfl
  rw [hc, show v.sec.flash.counters = s.sec.flash.counters from (congrArg (·.2.2.2.1) h).symm, ← h]
  rfl

/-- The entry to RUN under a good layout, with no failure of boot to judge. -/
theorem enterRun_effects (s : State) (l : Layout) (digest : List Byte) (hf : s.fb.bootFail = none)
    (hk : ∀ k ∈ allCores, (fbOf s k).bootBad = false) :
    devState (enterRun s l digest) = stRun ∧ bootView (enterRun s l digest) = layoutView s l ∧
      (enterRun s l digest).sec.boot.layoutDigest = digest ∧ (enterRun s l digest).vl.runAt = some (now s) := by
  rw [enterRun_eq]
  extract_lets v
  have hv : bootView v = layoutView s l := (bootView_tallyReady _).trans (bootView_layoutMapped s l)
  have hw : bootView (setPgState (recordRun v (hoistReady v) digest) devPage stRun) = layoutView s l :=
    (bootView_setPgState _ _ _).trans ((bootView_recordRun (bootView_hoistReady v) digest).trans hv)
  have hfb : (setPgState (recordRun v (hoistReady v) digest) devPage stRun).fb = s.fb := congrArg (·.2.1) hw
  have htime : v.time = s.time := congrArg (·.1) hv
  rw [bootJudge_clear (by rw [hfb, hf]) (fun k hm => by rw [fbOf, hfb]; exact hk k hm)]
  refine ⟨pgState_setPgState _ _ _, hw, ?_, ?_⟩
  · rw [setPgState_sec]
    rfl
  · rw [setPgState_vl]
    show some (now v) = some (now s)
    rw [now, now, htime]

/-! ### The boot chain (R474, R478, R480) -/

theorem resetRelease_effects (s : State) (hh : s.sec.boot.held = true) (hm : s.supply.main = true) :
    let f := s.sec.flash
    ∃ t, exec .resetRelease s = .next t ∧ t.sec.boot.held = false ∧ t.sec.boot.next = 0 ∧ t.supply.resetN = false ∧ t.vl.epoch = f.pairEpoch ∧
      (∀ x, f.trial = some x → f.tried = false → t.sec.boot.slot = x ∧ t.sec.boot.trialRun = true ∧ t.sec.flash = { f with tried := true }) ∧
      (f.trial = none ∨ f.tried = true → t.sec.boot.slot = f.active ∧ t.sec.boot.trialRun = false ∧ t.sec.flash = f) ∧
      t = { s with sec := { s.sec with boot := t.sec.boot, flash := t.sec.flash }, supply := t.supply, vl := t.vl } := by
  intro f
  refine ⟨_, rfl, ?_⟩
  simp only [hh, hm, Bool.not_true, Bool.or_self, Bool.false_eq_true, if_false]
  split
  · next x hx =>
    cases s.sec.flash.tried <;> simp [f, hx, BootSt.reset]
  · next hx => simp [f, hx, BootSt.reset]

/-- A component that the ROM keeps. -/
def keepComp (s : State) (x : List Byte) : State :=
  { s with sec := { s.sec with boot := { s.sec.boot with comps := s.sec.boot.comps ++ [x], next := s.sec.boot.next + 1 } } }

/-- What BOOT_SLOT_CHECK reads of the slot, and whether the ROM refuses it. -/
def slotImage (s : State) (image : Option (List Byte)) : Option (List Byte) :=
  image.map fun x => match s.sec.flash.slots.getD s.sec.boot.slot none with
    | some cs => cs.getD s.sec.boot.next []
    | none => x
def slotBad (s : State) (read : Option (List Byte)) : Bool :=
  read.any (fun x => (imageBad x (s.sec.boot.next + 1) (compLimit s.sec.boot.next) fuseVfw (fuseCounter s s.sec.boot.next)).isSome) || read.isNone

/-- What the ROM does with the component that it read. -/
def slotStep (s : State) : Option (List Byte) → State
  | none => slotFails s
  | some x => if slotBad s (some x) then slotFails s else keepComp s x

theorem exec_bootSlotCheck {s : State} (image : Option (List Byte)) (hh : s.sec.boot.held = false) (hd : devState s = stBoot)
    (hf : s.sec.boot.failed < 2) (hn : s.sec.boot.next < 4) (hl : lifecycle s ≠ lcScrapped) :
    exec (.bootSlotCheck image) s = .next (slotStep s (slotImage s image)) := by
  refine congrArg Host.Outcome.next ((if_neg ?_).trans ?_)
  · simp [hh, hd, hl]
    omega
  · show (match slotImage s image with | none => _ | some x => _) = _
    cases slotImage s image <;> simp [slotStep, slotBad, keepComp]

/-- A component that fails (R480, R512). -/
structure SlotFailed (s t : State) : Prop where
  first : s.sec.boot.failed = 0 → t.sec.boot = { s.sec.boot with
    slot := 1 - s.sec.boot.slot, failed := 1, next := 0, comps := [], fallback := true, trialRun := false } ∧ t.sec.update = 0
  second : s.sec.boot.failed = 1 → t.sec.boot = { s.sec.boot with failed := 2, comps := [] }
  flag : s.sec.boot.trialRun = true → Flagged t (mbPage 0) 3
  regs : s.sec.boot.trialRun = false → t.regs = s.regs
  frame : t = { withBlock t s with sec := { s.sec with boot := t.sec.boot, update := t.sec.update } }

/-- The flag of a trial that falls back. -/
def trialFlag (s : State) : State := if s.sec.boot.trialRun then setFlag s (mbPage 0) 3 else s

theorem trialFlag_block (s : State) : OnlyBlock s (trialFlag s) := by
  unfold trialFlag
  split
  · exact onlyBlock_setFlag s _ 3
  · rfl

theorem flagged_trialFlag {s : State} (h : s.sec.boot.trialRun = true) : Flagged (trialFlag s) (mbPage 0) 3 := by
  rw [trialFlag, if_pos h]
  exact flagged_setFlag s _ 3 (by decide)

theorem slotFails_failed (s : State) : SlotFailed s (slotFails s) := by
  have hb : trialFlag s = withBlock (trialFlag s) s := trialFlag_block s
  have he : slotFails s = if s.sec.boot.failed ≥ 1 then
      { trialFlag s with sec := { (trialFlag s).sec with boot := { s.sec.boot with failed := 2, comps := [] } } }
    else { trialFlag s with sec := { (trialFlag s).sec with
      boot := { s.sec.boot with slot := 1 - s.sec.boot.slot, failed := 1, next := 0, comps := [], fallback := true, trialRun := false }, update := 0 } } :=
    rfl
  have hr : (slotFails s).regs = (trialFlag s).regs := by rw [he]; split <;> rfl
  refine ⟨fun h => ?_, fun h => ?_, fun h => ?_, fun h => ?_, ?_⟩
  · rw [he, if_neg (by omega)]
    exact ⟨rfl, rfl⟩
  · rw [he, if_pos (by omega)]
  · have hf : Flagged (trialFlag s) (mbPage 0) 3 := flagged_trialFlag h
    rwa [Flagged, regBit, regVal_congr hr]
  · rw [hr, trialFlag, if_neg (by simp [h])]
  · rw [he, hb]
    split <;> rfl

theorem slotCheck_effects (s : State) (read : Option (List Byte)) :
    let b := s.sec.boot
    let t := slotStep s read
    (∀ x, read = some x → slotBad s read = false → t.sec.boot = { b with comps := b.comps ++ [x], next := b.next + 1 }) ∧
      (slotBad s read = true → b.failed = 0 →
        t.sec.boot = { b with slot := 1 - b.slot, failed := 1, next := 0, comps := [], fallback := true, trialRun := false } ∧ t.sec.update = 0) ∧
      (slotBad s read = true → b.failed = 1 → t.sec.boot = { b with failed := 2, comps := [] }) ∧
      (slotBad s read = true → b.trialRun = true → Flagged t (mbPage 0) 3) ∧ (slotBad s read = false ∨ b.trialRun = false → t.regs = s.regs) ∧
      t = { withBlock t s with sec := { s.sec with boot := t.sec.boot, update := t.sec.update } } := by
  have hf := slotFails_failed s
  by_cases hb : slotBad s read = true
  · have ht : slotStep s read = slotFails s := by
      cases read with
      | none => rfl
      | some x => exact if_pos hb
    simp only [ht, hb, Bool.true_eq_false, false_or, IsEmpty.forall_iff, implies_true, forall_const, true_and]
    exact ⟨hf.first, hf.second, hf.flag, hf.regs, hf.frame⟩
  · cases read with
    | none => exact absurd rfl hb
    | some x =>
      simp only [slotStep, hb, Bool.false_eq_true, IsEmpty.forall_iff, if_false, true_and]
      exact ⟨fun y hy _ => by rw [Option.some.inj hy]; rfl, fun _ => rfl, rfl⟩

/-- A refused layout (R478). -/
theorem refuseLayout_effects (s : State) (c d : Nat) :
    let t := setPgState (setFlag (setReason s c d 0x10) devPage 1) devPage stRefused
    devState t = stRefused ∧ Flagged t devPage 1 ∧ t.dev = s.dev ∧ t.mem = s.mem := by
  refine ⟨pgState_setPgState _ _ _, ?_, ?_, ?_⟩
  · exact flagged_of_spared (spared_setPgState (spared_refl (fun _ => False) _) (pageOut_none _)) (flagged_setFlag _ _ _ (by decide))
  · rw [setPgState_dev, setFlag_dev]
    rfl
  · rw [setPgState_mem, setFlag_mem]
    rfl

/-! ### The endpoint (R635, R644) -/

/-- A HOST_DMA in progress with TIMEOUT. -/
def dmaEnded (x : PartSec) : PartSec :=
  match x.mb with
  | some r => if r.op = 0x06 ∧ r.result.isNone then { x with mb := some { r with result := some (.timeout, natBytes 4 0) } } else x
  | none => x

theorem dmaEnded_waiting {x : PartSec} {r : MbRun} (hm : x.mb = some r) (ho : r.op = 0x06) (hr : r.result = none) :
    (dmaEnded x).mb = some { r with result := some (.timeout, natBytes 4 0) } := by
  simp [dmaEnded, hm, ho, hr]

theorem dmaEnded_other {x : PartSec} (h : ∀ r, ¬ (x.mb = some r ∧ r.op = 0x06 ∧ r.result = none)) : dmaEnded x = x := by
  unfold dmaEnded
  split
  · next r hr => exact if_neg fun ⟨ho, hn⟩ => h r ⟨hr, ho, Option.isNone_iff_eq_none.1 hn⟩
  · rfl

theorem dmaEnded_idem (x : PartSec) : dmaEnded (dmaEnded x) = dmaEnded x := by
  by_cases h : ∃ r, x.mb = some r ∧ r.op = 0x06 ∧ r.result = none
  · obtain ⟨r, hm, ho, hr⟩ := h
    refine dmaEnded_other fun q ⟨hq, _, hn⟩ => ?_
    rw [dmaEnded_waiting hm ho hr] at hq
    obtain rfl := Option.some.inj hq
    cases hn
  · have hx := dmaEnded_other (not_exists.1 h)
    rw [hx, hx]

theorem secOf_endHostDma (s : State) (n m : Nat) : secOf (endHostDma s n) m = if n = m then dmaEnded (secOf s m) else secOf s m := by
  have hs (x : PartSec) : secOf (setSec s n x) m = if n = m then x else secOf s m := smGet_smSet _ _ _ _ _
  unfold endHostDma dmaEnded
  by_cases e : n = m
  · subst e
    cases h : (secOf s n).mb with
    | none => simp
    | some r => by_cases hc : r.op = 0x06 ∧ r.result.isNone <;> simp only [hc, hs, if_true, if_false, and_self, ite_self]
  · cases h : (secOf s n).mb with
    | none => simp [e]
    | some r => by_cases hc : r.op = 0x06 ∧ r.result.isNone <;> simp only [hc, hs, e, if_true, if_false, and_self]

theorem endHostDma_frame (s : State) (n : Nat) : endHostDma s n = { s with sec := { s.sec with parts := (endHostDma s n).sec.parts } } := by
  unfold endHostDma
  split
  · split <;> rfl
  · rfl

theorem secOf_endHostDmas (s : State) (xs : List Nat) (m : Nat) :
    secOf (xs.foldl endHostDma s) m = if m ∈ xs then dmaEnded (secOf s m) else secOf s m := by
  induction xs generalizing s with
  | nil => rfl
  | cons n xs ih =>
    rw [List.foldl_cons, ih, secOf_endHostDma]
    by_cases e : n = m
    · subst e
      by_cases hm : n ∈ xs <;> simp [hm, dmaEnded_idem]
    · have hm : m ∈ n :: xs ↔ m ∈ xs := by simp [Ne.symm e]
      simp only [e, hm, if_false]

theorem endHostDmas_frame (s : State) (xs : List Nat) :
    xs.foldl endHostDma s = { s with sec := { s.sec with parts := (xs.foldl endHostDma s).sec.parts } } :=
  List.foldlRecOn (motive := fun t : State => t = { s with sec := { s.sec with parts := t.sec.parts } }) _ _ rfl fun t ht n _ => by
    rw [endHostDma_frame t n, ht]

/-- PERST_N as far as the endpoint's registers. -/
def perstRegs (s : State) : State := setReg (setReg (setFlag s pciePage 3) pciePage 0x100 0) pciePage 0x104 0

theorem exec_perstNAssert {s : State} (hm : s.supply.main = true) (hh : s.sec.boot.held = false) :
    exec .perstNAssert s = .next ((List.range 16).foldl endHostDma (perstRegs s)) := by
  refine congrArg Host.Outcome.next (if_neg ?_)
  simp [hm, hh]

theorem exec_functionLevelReset {s : State} (n : Part) (hm : s.supply.main = true) (hh : s.sec.boot.held = false) :
    exec (.functionLevelReset n) s = .next (endHostDma (setFlag s pciePage 2) n) := by
  refine congrArg Host.Outcome.next (if_neg ?_)
  simp [hm, hh]

theorem perstRegs_block (s : State) : perstRegs s = withBlock (perstRegs s) s :=
  onlyBlock_trans (onlyBlock_trans (onlyBlock_setFlag s pciePage 3) (onlyBlock_setReg _ _ _ _)) (onlyBlock_setReg _ _ _ _)

theorem regsBut_perstRegs (s : State) : RegsBut [regKey pciePage 0x010, regKey pciePage 0x100, regKey pciePage 0x104] s (perstRegs s) :=
  regsBut_setReg (regsBut_setReg (regsBut_setFlag (regsBut_refl _ s) (.head _) 3) (.tail _ (.head _)) 0) (.tail _ (.tail _ (.head _))) 0

theorem flagged_perstRegs (s : State) : Flagged (perstRegs s) pciePage 3 := by
  have h := flagged_setFlag s pciePage 3 (by decide)
  unfold perstRegs Flagged regBit
  rw [regVal_setReg_off _ _ _ (by decide), regVal_setReg_off _ _ _ (by decide)]
  exact h

theorem perst_effects {s t : State} (ht : t = (List.range 16).foldl endHostDma (perstRegs s)) :
    Flagged t pciePage 3 ∧ regVal t pciePage 0x100 = 0 ∧ regVal t pciePage 0x104 = 0 ∧
      (∀ n r, n < 16 → MbWaits s n 0x06 r → MbEnds t n r .timeout (natBytes 4 0)) ∧
      (∀ n, (∀ r, ¬ MbWaits s n 0x06 r) → secOf t n = secOf s n) ∧
      RegsBut [regKey pciePage 0x010, regKey pciePage 0x100, regKey pciePage 0x104] s t ∧
      t = { withBlock t s with sec := { s.sec with parts := t.sec.parts } } := by
  have hf : t = { perstRegs s with sec := { (perstRegs s).sec with parts := t.sec.parts } } := ht ▸ endHostDmas_frame (perstRegs s) (List.range 16)
  have hr : t.regs = (perstRegs s).regs := by rw [hf]
  have hs (n : Nat) : secOf t n = if n ∈ List.range 16 then dmaEnded (secOf s n) else secOf s n := by
    rw [ht, secOf_endHostDmas, perstRegs_block]
    rfl
  refine ⟨?_, ?_, ?_, fun n r hn hw => ?_, fun n hn => ?_, ?_, ?_⟩
  · rw [Flagged, regBit, regVal_congr hr]
    exact flagged_perstRegs s
  · rw [regVal_congr hr, perstRegs, regVal_setReg_off _ _ _ (by decide), regVal_setReg_same]
  · rw [regVal_congr hr, perstRegs, regVal_setReg_same]
  · obtain ⟨hm, ho, hres⟩ := hw
    rw [MbEnds, hs, if_pos (List.mem_range.2 hn)]
    exact dmaEnded_waiting hm ho hres
  · rw [hs, dmaEnded_other hn, ite_self]
  · exact regsBut_congr (regsBut_perstRegs s) hr
  · rw [hf, perstRegs_block]
    rfl

theorem functionReset_effects (s : State) (n : Nat) :
    let t := endHostDma (setFlag s pciePage 2) n
    Flagged t pciePage 2 ∧ (∀ r, MbWaits s n 0x06 r → MbEnds t n r .timeout (natBytes 4 0)) ∧ SecBut n s t ∧
      RegsBut [regKey pciePage 0x010] s t ∧ t = { withBlock t s with sec := { s.sec with parts := t.sec.parts } } := by
  intro t
  have hf : t = { setFlag s pciePage 2 with sec := { (setFlag s pciePage 2).sec with parts := t.sec.parts } } := endHostDma_frame _ n
  have hb : setFlag s pciePage 2 = withBlock (setFlag s pciePage 2) s := onlyBlock_setFlag s pciePage 2
  have hr : t.regs = (setFlag s pciePage 2).regs := by rw [hf]
  have hs (m : Nat) : secOf t m = if n = m then dmaEnded (secOf s m) else secOf s m := by
    rw [secOf_endHostDma, hb]
    rfl
  refine ⟨?_, fun r hw => ?_, fun m hm => ?_, ?_, ?_⟩
  · rw [Flagged, regBit, regVal_congr hr]
    exact flagged_setFlag s pciePage 2 (by decide)
  · obtain ⟨hm, ho, hres⟩ := hw
    rw [MbEnds, hs, if_pos rfl]
    exact dmaEnded_waiting hm ho hres
  · rw [hs, if_neg (Ne.symm hm)]
  · exact regsBut_congr (regsBut_setFlag (regsBut_refl _ s) (.head _) 2) hr
  · rw [hf, hb]
    rfl

/-! ### Reset of the device (R410, R644) -/

/-- A device in reset drives no pin: it is held, DEV_STATE is that of BOOT, and nothing leads. -/
theorem pins_of_reset {s t : State} {drift : Bool} (h : ResetFrom s t drift) :
    (∀ pin, safeOutConducts t pin = false) ∧ pairLeadConducts t = false ∧ lifeOutHigh t = false := by
  obtain ⟨hheld, -, -, -, -, -, -, -, -, -, -, -, -, -, hlead, hlife, -, -, hregs, -⟩ := h
  have hst : devRunning t = false := by
    have hv := hregs devPage 0x00C (by decide) (by decide)
    rw [if_neg (by decide)] at hv
    rw [devRunning, devState, pgState, regField, hv]
    decide
  simp [safeOutConducts, pairLeadConducts, lifeOutHigh, leading, hheld, hlead, hlife, hst]

theorem exec_resetNAssert {s : State} (hm : s.supply.main = true) :
    exec .resetNAssert s = .next { deviceReset s with supply := { (deviceReset s).supply with resetN := true } } := by
  simp [exec, execResetNAssert, hm]

/-! ### The obligation -/

theorem exec_partialResetComplete {s : State} {n : Part} (hi : inReset s n.val = true) (hd : presetDone s n.val = true)
    (he : BAct.presetEnd n.val ∉ s.atTick) (hb : BAct.presetBegin n.val ∉ s.atTick) :
    exec (.partialResetComplete n) s = .next (atBoundary s (.presetEnd n.val)) := by
  refine congrArg Host.Outcome.next (if_pos ?_)
  simp [hi, hd, he, hb]

theorem exec_bootLayoutLoad {s : State} (hh : s.sec.boot.held = false) (hd : devState s = stBoot) (hn : 4 ≤ s.sec.boot.next)
    (hl : lifecycle s ≠ lcScrapped) :
    exec .bootLayoutLoad s = .next (match layoutImageBad s (s.sec.flash.layout.getD []) with
      | some (_, c, d) => setPgState (setFlag (setReason s c d 0x10) devPage 1) devPage stRefused
      | none => enterRun s (parseLayout (imgBody (s.sec.flash.layout.getD [])) (imgSvn (s.sec.flash.layout.getD []))) (imgDigest (s.sec.flash.layout.getD []))) := by
  refine congrArg Host.Outcome.next (if_neg ?_)
  simp [hh, hd, hl]
  omega

/-- Settles O55: each command by its equation; the layout by `enterRun_effects`, the endpoint by what ends a HOST_DMA. -/
theorem resetEffects : Obligations.ResetEffects := by
  refine ⟨fun s n hi hd he hb => ⟨_, exec_partialResetComplete hi hd he hb, rfl⟩, fun s hh hm => resetRelease_effects s hh hm,
    fun s image hh hd hf hn hl => ?_, fun s hh hd hn hl => ?_, fun s hm => ?_,
    fun s hm hh => ⟨_, exec_perstNAssert hm hh, perst_effects rfl⟩, fun s n hm hh => ⟨_, exec_functionLevelReset n hm hh, functionReset_effects s n.val⟩⟩
  · refine ⟨_, exec_bootSlotCheck image hh hd hf hn hl, ?_⟩
    exact slotCheck_effects s (slotImage s image)
  · intro img l
    refine ⟨_, exec_bootLayoutLoad hh hd hn hl, fun h => ?_, fun h hf hk => ?_⟩
    · obtain ⟨⟨x, c, d⟩, he⟩ := Option.ne_none_iff_exists'.1 h
      rw [he]
      exact refuseLayout_effects s c d
    · obtain ⟨hst, hview, hdig, hrun⟩ := enterRun_effects s l (imgDigest img) hf hk
      rw [h]
      refine ⟨hst, congrArg (·.2.2.1.layout) hview, hdig, hrun, congrArg (·.2.2.2.1) hview, fun p hp w hw => ?_⟩
      exact (congrFun (congrArg (·.2.2.2.2) hview) p).trans (applyLayout_owner s hp hw)
  · have hr : ResetFrom s { deviceReset s with supply := { (deviceReset s).supply with resetN := true } } true := resetFrom_deviceReset s
    exact ⟨_, exec_resetNAssert hm, hr, rfl, (deviceReset_main s).trans hm, pins_of_reset hr⟩

end Sys2Proof.Machine
end

section
/-! PROOFS. TICK_BOUNDARY (R42, R46): no operation of a tick's end, of its boundary or of its beginning writes TICK_NOW, so that the boundary
advances it by one whatever was timed for it. -/

namespace Sys2Proof.Machine

variable {s : State}

/-! ### What leaves TICK_NOW alone -/

@[simp] theorem ite_tickNow {c : Prop} [Decidable c] {a b : State} :
    (if c then a else b).time.tickNow = if c then a.time.tickNow else b.time.tickNow := by
  split <;> rfl

/-- What each step of a fold leaves, the fold leaves; `foldl_leaves` for folds over more than a state. -/
theorem foldl_same {σ α β : Type} (g : σ → β) {f : σ → α → σ} (hf : ∀ t x, g (f t x) = g t) (xs : List α) (t : σ) :
    g (xs.foldl f t) = g t :=
  List.foldlRecOn (motive := fun u => g u = g t) _ _ rfl fun u hu x _ => (hf u x).trans hu

@[simp] theorem foldl_tickNow {α : Type} {f : State → α → State} (hf : ∀ t x, (f t x).time.tickNow = t.time.tickNow) (xs : List α) :
    (xs.foldl f s).time.tickNow = s.time.tickNow :=
  foldl_same (fun t => t.time.tickNow) hf xs s

theorem foldl_pair_tickNow {α β : Type} {f : β × State → α → β × State} {x : β × State}
    (hf : ∀ x y, (f x y).2.time.tickNow = x.2.time.tickNow) (ys : List α) : (ys.foldl f x).2.time.tickNow = x.2.time.tickNow :=
  foldl_same (fun x => x.2.time.tickNow) hf ys x

/-! In a lemma below the operation's other arguments are bound automatically; the lemmas stand in the order of the model's files. -/

set_option autoImplicit true

/-! Registers, counters and the boundary's list. -/

@[simp] theorem tallyAdd_tickNow : (tallyAdd s i n).time.tickNow = s.time.tickNow := by simp [tallyAdd]
@[simp] theorem tallyClear_tickNow : (tallyClear s first count).time.tickNow = s.time.tickNow := by simp [tallyClear]

/-! The Seam keepers. -/

@[simp] theorem setWear_tickNow : (setWear s k block w).time.tickNow = s.time.tickNow := rfl
@[simp] theorem setFreeBlocks_tickNow : (setFreeBlocks s k n).time.tickNow = s.time.tickNow := rfl
@[simp] theorem setSpareBlocks_tickNow : (setSpareBlocks s k n).time.tickNow = s.time.tickNow := rfl
@[simp] theorem setOpen_tickNow : (setOpen s ch b).time.tickNow = s.time.tickNow := rfl

@[simp] theorem programUnit_tickNow : (programUnit s ch).2.time.tickNow = s.time.tickNow := by
  unfold programUnit
  dsimp only
  (repeat' split) <;> simp

@[simp] theorem setUnits_tickNow : (setUnits s key bs).time.tickNow = s.time.tickNow := rfl

@[simp] theorem programPage_tickNow : (programPage s part lpn).time.tickNow = s.time.tickNow := by
  unfold programPage
  extract_lets k x
  have hx : x.2.time.tickNow = (spendFree s 1).time.tickNow := by
    refine foldl_pair_tickNow (fun y c => ?_) _
    exact programUnit_tickNow
  simp [hx]

@[simp] theorem setBlocksReloc_tickNow : (setBlocksReloc s k n).time.tickNow = s.time.tickNow := by simp [setBlocksReloc]
@[simp] theorem retireBlock_tickNow : (retireBlock s k).time.tickNow = s.time.tickNow := by simp [retireBlock]
@[simp] theorem eraseBlock_tickNow : (eraseBlock s k block ok).time.tickNow = s.time.tickNow := by simp [eraseBlock]
@[simp] theorem moveUnits_tickNow : (moveUnits s k block).time.tickNow = s.time.tickNow := by simp [moveUnits]
@[simp] theorem settleErase_tickNow : (settleErase s).time.tickNow = s.time.tickNow := by simp [settleErase]
@[simp] theorem emptyBlock_tickNow : (emptyBlock s k block ok).time.tickNow = s.time.tickNow := by simp [emptyBlock]
@[simp] theorem relocEnd_tickNow : (relocEnd s k block ok).time.tickNow = s.time.tickNow := by simp [relocEnd]

@[simp] theorem collectOne_tickNow : (collectOne s k).time.tickNow = s.time.tickNow := by
  unfold collectOne
  dsimp only
  (repeat' split) <;> simp

@[simp] theorem gcEnd_tickNow : (gcEnd s k n).time.tickNow = s.time.tickNow := by simp [gcEnd]

/-! Pages, frames and bytes of the tiers. -/

@[simp] theorem setPte_tickNow : (setPte s part vpn e).time.tickNow = s.time.tickNow := rfl
@[simp] theorem setKeys_tickNow : (setKeys s n k).time.tickNow = s.time.tickNow := rfl

@[simp] theorem freeFrame_tickNow : (freeFrame s t f).time.tickNow = s.time.tickNow := by
  unfold freeFrame
  dsimp only
  (repeat' split) <;> simp

@[simp] theorem settleFreeing_tickNow : (settleFreeing s).time.tickNow = s.time.tickNow := by simp [settleFreeing]
@[simp] theorem readLoose_tickNow : (readLoose s part vpn t).time.tickNow = s.time.tickNow := rfl

@[simp] theorem pageWritten_tickNow : (pageWritten s part vpn).time.tickNow = s.time.tickNow := by
  unfold pageWritten
  dsimp only
  (repeat' split) <;> simp

@[simp] theorem writeByte_tickNow : (writeByte s part a b).time.tickNow = s.time.tickNow := by simp [writeByte]

@[simp] theorem writeList_tickNow : (writeList s part a bs).time.tickNow = s.time.tickNow := by
  induction bs generalizing s a with
  | nil => rfl
  | cons b bs ih => exact ih.trans writeByte_tickNow

@[simp] theorem setCode_tickNow : (setCode s part a code).time.tickNow = s.time.tickNow := by simp [setCode]
@[simp] theorem clearCodes_tickNow : (clearCodes s part e).time.tickNow = s.time.tickNow := by simp [clearCodes]
@[simp] theorem writePage_tickNow : (writePage s part a bs).time.tickNow = s.time.tickNow := by simp [writePage]
@[simp] theorem writeBytes_tickNow : (writeBytes s part a bs).time.tickNow = s.time.tickNow := by simp [writeBytes]
@[simp] theorem spendBytes_tickNow : (spendBytes s n).time.tickNow = s.time.tickNow := by simp [spendBytes]
@[simp] theorem takeGallery_tickNow : (takeGallery s f).time.tickNow = s.time.tickNow := rfl
@[simp] theorem takeDrift_tickNow : (takeDrift s n f g).time.tickNow = s.time.tickNow := by simp [takeDrift]
@[simp] theorem takeCode_tickNow : (takeCode s n i).time.tickNow = s.time.tickNow := by simp [takeCode]
@[simp] theorem dropCode_tickNow : (dropCode s n e).time.tickNow = s.time.tickNow := by simp [dropCode]

@[simp] theorem zeroPage_tickNow : (zeroPage s n t pa).time.tickNow = s.time.tickNow := by
  unfold zeroPage
  split <;> simp

@[simp] theorem copyPage_tickNow : (copyPage s n t src dst).time.tickNow = s.time.tickNow := by simp [copyPage]

/-! Streams of the cores. -/

@[simp] theorem setCore_tickNow : (setCore s k stream c).time.tickNow = s.time.tickNow := rfl
@[simp] theorem setCur_tickNow : (setCur s k stream r).time.tickNow = s.time.tickNow := by simp [setCur]

@[simp] theorem failCmd_tickNow : (failCmd s k stream st).time.tickNow = s.time.tickNow := by
  unfold failCmd
  (repeat' split) <;> simp

@[simp] theorem setStreamState_tickNow : (setStreamState s k stream st).time.tickNow = s.time.tickNow := by simp [setStreamState]

@[simp] theorem setStreamOp_tickNow : (setStreamOp s k stream op n).time.tickNow = s.time.tickNow := by
  unfold setStreamOp
  dsimp only
  split
  · rfl
  · split <;> rfl

@[simp] theorem recordLast_tickNow : (recordLast s k stream op flags clocks st).time.tickNow = s.time.tickNow := by simp [recordLast]
@[simp] theorem clearFace_tickNow : (clearFace s k stream).time.tickNow = s.time.tickNow := rfl
@[simp] theorem dropPins_tickNow : (dropPins s part pool pins).time.tickNow = s.time.tickNow := by simp [dropPins]
@[simp] theorem leaveTags_tickNow : (leaveTags s k stream).time.tickNow = s.time.tickNow := rfl

@[simp] theorem kvPrefetchEnd_tickNow : (kvPrefetchEnd s k).time.tickNow = s.time.tickNow := by
  unfold kvPrefetchEnd
  split
  · rfl
  · dsimp only
    refine (foldl_tickNow (fun t v => ?_) _).trans ?_ <;> rfl

@[simp] theorem giveBack_tickNow : (giveBack s p pool rows).time.tickNow = s.time.tickNow := by simp [giveBack]

@[simp] theorem quitStream_tickNow : (quitStream s k stream r).time.tickNow = s.time.tickNow := by
  simp [quitStream]

@[simp] theorem abortCmd_tickNow : (abortCmd s k stream st record).time.tickNow = s.time.tickNow := by
  unfold abortCmd
  dsimp only
  (repeat' split) <;> simp

/-! Messages to the mate and the lead. -/

@[simp] theorem queueMsg_tickNow : (queueMsg s m).time.tickNow = s.time.tickNow := by simp [queueMsg]
@[simp] theorem sendToken_tickNow : (sendToken s yields).time.tickNow = s.time.tickNow := by simp [sendToken]
@[simp] theorem roleChange_tickNow : (roleChange s lead cause yields).time.tickNow = s.time.tickNow := by simp [roleChange]
@[simp] theorem yieldLead_tickNow : (yieldLead s cause).time.tickNow = s.time.tickNow := by simp [yieldLead]
@[simp] theorem yieldUnable_tickNow : (yieldUnable s).time.tickNow = s.time.tickNow := by simp [yieldUnable]
@[simp] theorem sendDelta_tickNow : (sendDelta s n part bs).time.tickNow = s.time.tickNow := by simp [sendDelta]

/-! Errors, trips and the halt. -/

@[simp] theorem setFx_tickNow : (setFx s ch x).time.tickNow = s.time.tickNow := rfl
@[simp] theorem fxToSafe_tickNow : (fxToSafe s ch cause).time.tickNow = s.time.tickNow := by simp [fxToSafe]
@[simp] theorem fxAllSafe_tickNow : (fxAllSafe s cause chs).time.tickNow = s.time.tickNow := by simp [fxAllSafe]
@[simp] theorem trip_tickNow : (trip s stack cause cls p).time.tickNow = s.time.tickNow := by simp [trip]

@[simp] theorem enterHalt_tickNow : (enterHalt s cause cls p).time.tickNow = s.time.tickNow := by
  unfold enterHalt
  extract_lets t u v w
  have hv : v.time.tickNow = u.time.tickNow := foldl_tickNow (fun x n => by split <;> simp) _
  have hu : u.time.tickNow = s.time.tickNow := by simp [u, t]
  simp [w, hv, hu]

@[simp] theorem fatalTrip_tickNow : (fatalTrip s stack cause p).time.tickNow = s.time.tickNow := by simp [fatalTrip]
@[simp] theorem deviceFatal_tickNow : (deviceFatal s p cause).time.tickNow = s.time.tickNow := by simp [deviceFatal]
@[simp] theorem partitionFatal_tickNow : (partitionFatal s n p).time.tickNow = s.time.tickNow := by simp [partitionFatal]

/-! Moves between tiers, prefetchers and tier-map requests. -/

@[simp] theorem dropMove_tickNow : (dropMove s part vpn).time.tickNow = s.time.tickNow := rfl
@[simp] theorem setMove_tickNow : (setMove s m).time.tickNow = s.time.tickNow := rfl
@[simp] theorem tagMove_tickNow : (tagMove s m).time.tickNow = s.time.tickNow := by simp [tagMove]
@[simp] theorem tagMoves_tickNow : (tagMoves s).time.tickNow = s.time.tickNow := by simp [tagMoves]
@[simp] theorem settleTags_tickNow : (settleTags s).time.tickNow = s.time.tickNow := by simp [settleTags]
@[simp] theorem releaseMoveTags_tickNow : (releaseMoveTags s part vpn).time.tickNow = s.time.tickNow := by simp [releaseMoveTags]

@[simp] theorem dropTo_tickNow : (dropTo s part vpn t).time.tickNow = s.time.tickNow := by
  unfold dropTo
  dsimp only
  (repeat' split) <;> simp

@[simp] theorem dropToCopy_tickNow : (dropToCopy s n vpn hp).time.tickNow = s.time.tickNow := by simp [dropToCopy]

@[simp] theorem reclaimLoose_tickNow : (reclaimLoose s n hp).time.tickNow = s.time.tickNow := by
  unfold reclaimLoose
  (repeat' split) <;> simp

@[simp] theorem startMove_tickNow : (startMove s part vpn t f who code).time.tickNow = s.time.tickNow := by simp [startMove]

theorem moveTarget_tickNow (h : moveTarget s part e t hp = some x) : x.2.time.tickNow = s.time.tickNow := by
  unfold moveTarget at h
  split at h
  · obtain ⟨f, -, rfl⟩ := Option.map_eq_some_iff.1 h
    simp
  · obtain ⟨f, -, rfl⟩ := Option.map_eq_some_iff.1 h
    simp
  · split at h
    · cases h
      rfl
    · obtain ⟨f, -, rfl⟩ := Option.map_eq_some_iff.1 h
      simp

theorem beginMove_tickNow (h : beginMove s p vpn t who code = some x) : x.2.time.tickNow = s.time.tickNow := by
  unfold beginMove at h
  dsimp only at h
  split_ifs at h
  · cases h
    rfl
  · cases h
    simp
  · obtain ⟨y, hy, rfl⟩ := Option.map_eq_some_iff.1 h
    exact startMove_tickNow.trans (moveTarget_tickNow hy)

@[simp] theorem freeTarget_tickNow : (freeTarget s m).time.tickNow = s.time.tickNow := by
  unfold freeTarget
  dsimp only
  (repeat' split) <;> simp

@[simp] theorem releaseHeldWrites_tickNow : (releaseHeldWrites s part vpn).time.tickNow = s.time.tickNow := by simp [releaseHeldWrites]

@[simp] theorem switchMove_tickNow : (switchMove s m).time.tickNow = s.time.tickNow := by
  unfold switchMove
  dsimp only
  (repeat' split) <;> simp

@[simp] theorem cancelMove_tickNow : (cancelMove s m).time.tickNow = s.time.tickNow := by simp [cancelMove]

/-! Errors of the tiers. -/

@[simp] theorem setTm_tickNow : (setTm s p r).time.tickNow = s.time.tickNow := rfl

@[simp] theorem tmMapNew_tickNow : (tmMapNew s p vpn r).time.tickNow = s.time.tickNow := by
  unfold tmMapNew
  dsimp only
  (repeat' split) <;> simp

@[simp] theorem unmapPage_tickNow : (unmapPage s p vpn).time.tickNow = s.time.tickNow := by
  unfold unmapPage
  split <;> simp

@[simp] theorem writeBack_tickNow : (writeBack s p vpn lpn).time.tickNow = s.time.tickNow := by simp [writeBack]
@[simp] theorem tmAdvance_tickNow : (tmAdvance s p r).time.tickNow = s.time.tickNow := by simp [tmAdvance]

@[simp] theorem tmMove_tickNow : (tmMove s p vpn r code).time.tickNow = s.time.tickNow := by
  unfold tmMove
  split
  · split <;> rfl
  · next v h =>
    have hv : v.time.tickNow = s.time.tickNow := beginMove_tickNow h
    rw [tmAdvance_tickNow]
    split <;> simp [hv]
  · next v h => exact setTm_tickNow.trans (beginMove_tickNow h)

@[simp] theorem tmPage_tickNow : (tmPage s p r).time.tickNow = s.time.tickNow := by
  unfold tmPage
  dsimp only
  (repeat' split) <;> simp

@[simp] theorem tmStep_tickNow : (tmStep s p n).time.tickNow = s.time.tickNow := by
  induction n generalizing s with
  | zero => rfl
  | succ n ih =>
    unfold tmStep
    split
    · rfl
    · split
      · exact ih.trans tmPage_tickNow
      · rfl

@[simp] theorem tmQuery_tickNow : (tmQuery s p).time.tickNow = s.time.tickNow := by
  unfold tmQuery
  split
  · rfl
  · refine setTm_tickNow.trans (foldl_tickNow (fun t i => ?_) _)
    rfl

@[simp] theorem tmDone_tickNow : (tmDone s p).time.tickNow = s.time.tickNow := by
  unfold tmDone
  dsimp only
  (repeat' split) <;> simp

@[simp] theorem setPf_tickNow : (setPf s pf x).time.tickNow = s.time.tickNow := rfl
@[simp] theorem addHold_tickNow : (addHold s n vpn up).time.tickNow = s.time.tickNow := by simp [addHold]

@[simp] theorem readyUnits_tickNow : (readyUnits s pf n).time.tickNow = s.time.tickNow := by
  induction n generalizing s with
  | zero => rfl
  | succ n ih =>
    unfold readyUnits
    split
    · rfl
    · dsimp only
      split
      · rw [ih]
        simp
      · rfl

@[simp] theorem fetchFailed_tickNow : (fetchFailed s pf st).time.tickNow = s.time.tickNow := by
  unfold fetchFailed
  split <;> simp

theorem fetchPages_tickNow (h : fetchPages pf j q n s vs = some t) : t.time.tickNow = s.time.tickNow := by
  induction vs generalizing s with
  | nil =>
    cases h
    rfl
  | cons v vs ih =>
    unfold fetchPages at h
    split at h
    · exact (ih h).trans fetchFailed_tickNow
    · split at h
      · cases h
      · next hm => exact (ih h).trans (addHold_tickNow.trans (beginMove_tickNow hm))

@[simp] theorem hoistFetch_tickNow : (hoistFetch s pf).time.tickNow = s.time.tickNow := by
  unfold hoistFetch
  split
  · rfl
  · split
    · rfl
    · split
      · simp
      · next u h =>
        have hu : u.time.tickNow = s.time.tickNow := fetchPages_tickNow h
        dsimp only
        split <;> simp [hu]

@[simp] theorem pageRelease_tickNow : (pageRelease s pf n vpn).time.tickNow = s.time.tickNow := by simp [pageRelease]

@[simp] theorem moveDone_tickNow : (moveDone s m st).time.tickNow = s.time.tickNow := by
  unfold moveDone
  dsimp only
  (repeat' split) <;> simp

@[simp] theorem strideFetch_tickNow : (strideFetch s pf n vs).time.tickNow = s.time.tickNow := by
  unfold strideFetch
  extract_lets all r
  have hr : r.2.time.tickNow = s.time.tickNow := by
    refine foldl_pair_tickNow (fun x v => ?_) _
    dsimp only
    split
    · rfl
    · split
      · next h => exact beginMove_tickNow h
      · rfl
  split
  · simp [hr]
  · exact hr

@[simp] theorem moveEnd_tickNow : (moveEnd s p vpn).time.tickNow = s.time.tickNow := by
  unfold moveEnd
  split <;> simp

/-! KV pools. -/

@[simp] theorem setRec_tickNow : (setRec s p pool k r).time.tickNow = s.time.tickNow := rfl
@[simp] theorem setSeqEntry_tickNow : (setSeqEntry s key e).time.tickNow = s.time.tickNow := rfl
@[simp] theorem takeSlot_tickNow : (takeSlot s p pool k).time.tickNow = s.time.tickNow := by simp [takeSlot]

@[simp] theorem swapUp_tickNow : (swapUp s p pool lane).time.tickNow = s.time.tickNow := by
  unfold swapUp
  dsimp only
  split
  · split
    · next h => exact beginMove_tickNow h
    · rfl
  · rfl

@[simp] theorem swapCheck_tickNow : (swapCheck s p pool lane).time.tickNow = s.time.tickNow := by
  unfold swapCheck
  dsimp only
  split
  · rfl
  · split
    · rfl
    · split
      · rfl
      · next h => exact swapUp_tickNow.trans (beginMove_tickNow h)
      · next h => exact beginMove_tickNow h

@[simp] theorem swapAfter_tickNow : (swapAfter s m).time.tickNow = s.time.tickNow := by
  unfold swapAfter
  dsimp only
  (repeat' split) <;> simp

@[simp] theorem lowerRef_tickNow : (lowerRef s p pool k).time.tickNow = s.time.tickNow := by simp [lowerRef]

@[simp] theorem kvSwitch_tickNow : (kvSwitch s p pool layer head row).time.tickNow = s.time.tickNow := by
  unfold kvSwitch
  dsimp only
  (repeat' split) <;> simp

@[simp] theorem freeSlot_tickNow : (freeSlot s p pool k).time.tickNow = s.time.tickNow := by simp [freeSlot]
@[simp] theorem kvReclaim_tickNow : (kvReclaim s p pool k).time.tickNow = s.time.tickNow := by simp [kvReclaim]
@[simp] theorem appendView_tickNow : (appendView s p a).time.tickNow = s.time.tickNow := by simp [appendView]
@[simp] theorem clearSeqTable_tickNow : (clearSeqTable s p pool).time.tickNow = s.time.tickNow := rfl
@[simp] theorem kvReset_tickNow : (kvReset s p).time.tickNow = s.time.tickNow := by simp [kvReset]

/-! Loopback. -/

@[simp] theorem unitAfterLoop_tickNow : (unitAfterLoop s p).time.tickNow = s.time.tickNow := by
  unfold unitAfterLoop
  split <;> simp

@[simp] theorem loopEnd_tickNow : (loopEnd s hold).time.tickNow = s.time.tickNow := by
  unfold loopEnd
  split <;> simp

@[simp] theorem loopUnitReset_tickNow : (loopUnitReset s p).time.tickNow = s.time.tickNow := by simp [loopUnitReset]

/-! The time base, the comparators and the timestamp queue. -/

@[simp] theorem gmLost_tickNow : (gmLost s).time.tickNow = s.time.tickNow := by simp [gmLost]
@[simp] theorem enterGm_tickNow : (enterGm s).time.tickNow = s.time.tickNow := by simp [enterGm]
@[simp] theorem applyTimeStep_tickNow : (applyTimeStep s off first).time.tickNow = s.time.tickNow := by simp [applyTimeStep]

@[simp] theorem applyPtpStop_tickNow : (applyPtpStop s).time.tickNow = s.time.tickNow := by
  unfold applyPtpStop
  dsimp only
  (repeat' split) <;> simp

@[simp] theorem enterHold_tickNow : (enterHold s).time.tickNow = s.time.tickNow := by simp [enterHold]
@[simp] theorem cmpEval_tickNow : (cmpEval s).time.tickNow = s.time.tickNow := rfl
@[simp] theorem tsqSettle_tickNow : (tsqSettle s).time.tickNow = s.time.tickNow := by simp [tsqSettle]

/-! Ports and units. -/

@[simp] theorem setPort_tickNow : (setPort s p x).time.tickNow = s.time.tickNow := rfl
@[simp] theorem setLidar_tickNow : (setLidar s i x).time.tickNow = s.time.tickNow := rfl
@[simp] theorem setInst_tickNow : (setInst s p x).time.tickNow = s.time.tickNow := rfl

@[simp] theorem logLock_tickNow : (logLock s).time.tickNow = s.time.tickNow := by
  unfold logLock
  split <;> simp

/-! The sequencer. -/

@[simp] theorem setSeq_tickNow : (setSeq s q).time.tickNow = s.time.tickNow := rfl

@[simp] theorem postPlan_tickNow : (postPlan s c p).time.tickNow = s.time.tickNow := by
  unfold postPlan
  split <;> simp

@[simp] theorem plannerReset_tickNow : (plannerReset s).time.tickNow = s.time.tickNow := by simp [plannerReset]

/-! Jobs and their records. -/

@[simp] theorem setJob_tickNow : (setJob s key j).time.tickNow = s.time.tickNow := rfl
@[simp] theorem sbCount_tickNow : (sbCount s key slot).time.tickNow = s.time.tickNow := by simp [sbCount]
@[simp] theorem dropOffers_tickNow : (dropOffers s key).time.tickNow = s.time.tickNow := by simp [dropOffers]

@[simp] theorem failJob_tickNow : (failJob s key stage st).time.tickNow = s.time.tickNow := by
  unfold failJob
  split <;> simp

@[simp] theorem setDog_tickNow : (setDog s d x).time.tickNow = s.time.tickNow := rfl
@[simp] theorem setWdBit_tickNow : (setWdBit s d n b).time.tickNow = s.time.tickNow := by simp [setWdBit]
@[simp] theorem disarmDogs_tickNow : (disarmDogs s key).time.tickNow = s.time.tickNow := by simp [disarmDogs]

@[simp] theorem endStageWaits_tickNow : (endStageWaits s key stage).time.tickNow = s.time.tickNow := by
  unfold endStageWaits
  split
  · rfl
  · refine foldl_tickNow (fun t k => ?_) _
    split
    · split
      · simp
      · split
        · split <;> simp
        · rfl
    · rfl

@[simp] theorem expireDog_tickNow : (expireDog s d early).time.tickNow = s.time.tickNow := by
  unfold expireDog
  dsimp only
  (repeat' split) <;> simp

@[simp] theorem kickDog_tickNow : (kickDog s d).time.tickNow = s.time.tickNow := by
  unfold kickDog
  dsimp only
  (repeat' split) <;> simp

@[simp] theorem endStreams_tickNow : (endStreams s key).time.tickNow = s.time.tickNow := by
  unfold endStreams
  refine foldl_tickNow (fun t x => ?_) _
  refine foldl_tickNow (fun u j => foldl_tickNow (fun v y => ?_) _) _
  rfl

/-! Commands that append. -/

@[simp] theorem setTrk_tickNow : (setTrk s c x).time.tickNow = s.time.tickNow := by simp [setTrk]
@[simp] theorem clearTracks_tickNow : (clearTracks s c).time.tickNow = s.time.tickNow := by simp [clearTracks]

/-! Keys, erases and attestation. -/

@[simp] theorem setSec_tickNow : (setSec s n x).time.tickNow = s.time.tickNow := rfl
@[simp] theorem setFlash_tickNow : (setFlash s f).time.tickNow = s.time.tickNow := rfl
@[simp] theorem rotateAt_tickNow : (rotateAt s n).time.tickNow = s.time.tickNow := by simp [rotateAt]

@[simp] theorem zeroGallery_tickNow : (zeroGallery s n).time.tickNow = s.time.tickNow := by
  unfold zeroGallery
  split <;> simp

@[simp] theorem retireAt_tickNow : (retireAt s n).time.tickNow = s.time.tickNow := by simp [retireAt]

/-! Debug levels and tamper events. -/

@[simp] theorem releaseHolds_tickNow : (releaseHolds s n).time.tickNow = s.time.tickNow := by simp [releaseHolds]
@[simp] theorem enterD2_tickNow : (enterD2 s n).time.tickNow = s.time.tickNow := by simp [enterD2]
@[simp] theorem exitD2_tickNow : (exitD2 s n).time.tickNow = s.time.tickNow := by simp [exitD2]
@[simp] theorem debugResetDone_tickNow : (debugResetDone s n).time.tickNow = s.time.tickNow := by simp [debugResetDone]
@[simp] theorem traceEvent_tickNow : (traceEvent s n c stage command opcode st ended slot jobId).time.tickNow = s.time.tickNow := by simp [traceEvent]

@[simp] theorem atBegin_tickNow : (atBegin s).time.tickNow = s.time.tickNow := by
  unfold atBegin
  dsimp only
  (repeat' split) <;> simp

@[simp] theorem atSnapshot_tickNow : (atSnapshot s n).time.tickNow = s.time.tickNow := by
  unfold atSnapshot
  split <;> simp

@[simp] theorem atTickEnd_tickNow : (atTickEnd s).time.tickNow = s.time.tickNow := by
  unfold atTickEnd
  (repeat' split) <;> simp

@[simp] theorem atSpoil_tickNow : (atSpoil s subject).time.tickNow = s.time.tickNow := by
  unfold atSpoil
  refine foldl_tickNow (fun t n => ?_) _
  (repeat' split) <;> rfl

/-! Commands that end. -/

theorem appendRow_tickNow (h : appendRow s p a c r row = .ok t) : t.time.tickNow = s.time.tickNow := by
  unfold appendRow at h
  extract_lets rb n src st wr ks vs u w at h
  have hu : u.time.tickNow = s.time.tickNow := by
    unfold u
    split <;> simp
  split at h
  · cases h
  · split at h
    · cases h
    · cases h
      simp [w, hu]

theorem appendOne_tickNow : (appendOne p a lane ready data x row).st.time.tickNow = x.st.time.tickNow := by
  unfold appendOne
  dsimp only
  split
  · rfl
  · split
    · rfl
    · split
      · rfl
      · split
        · rfl
        · next r _ _ =>
          have ht : (if r.fresh then atBoundary (takeSlot x.st p a.pool r.slot) (.kvSwap p a.pool lane) else x.st).time.tickNow =
              x.st.time.tickNow := by simp
          split
          · next hu => exact (appendRow_tickNow hu).trans ht
          · simp

@[simp] theorem appendStep_tickNow : (appendStep s k).time.tickNow = s.time.tickNow := by
  unfold appendStep
  split
  · rfl
  · extract_lets a
    split
    · rfl
    · split
      · rfl
      · extract_lets x r'
        have hx : x.st.time.tickNow = s.time.tickNow :=
          foldl_same (fun y : AppendSt => y.st.time.tickNow) (fun _ _ => appendOne_tickNow) _ _
        split
        · exact setCur_tickNow.trans hx
        · rw [setCur_tickNow]
          split
          · rw [setFlag_time, hx]
          · exact hx

@[simp] theorem resumeAppends_tickNow : (resumeAppends s).time.tickNow = s.time.tickNow := by simp [resumeAppends]
@[simp] theorem traceCmd_tickNow : (traceCmd s k o st ended).time.tickNow = s.time.tickNow := by simp [traceCmd]

/-! What a command leaves at its end. -/

@[simp] theorem diagReg_tickNow : (diagReg s k kind slice).time.tickNow = s.time.tickNow := by simp [diagReg]

@[simp] theorem countSlot_tickNow : (countSlot s k slot n).time.tickNow = s.time.tickNow := by
  unfold countSlot
  split <;> simp

@[simp] theorem hwError_tickNow : (hwError s k stream part e).time.tickNow = s.time.tickNow := by
  unfold hwError
  dsimp only
  (repeat' split) <;> simp

@[simp] theorem writeOut_tickNow : (writeOut s part o).time.tickNow = s.time.tickNow := by simp [writeOut]
@[simp] theorem spoilOut_tickNow : (spoilOut s part o).time.tickNow = s.time.tickNow := by simp [spoilOut]
@[simp] theorem putTrack_tickNow : (putTrack s c x).time.tickNow = s.time.tickNow := by simp [putTrack]
@[simp] theorem kvJudge_tickNow : (kvJudge s mine theirs).time.tickNow = s.time.tickNow := by simp [kvJudge]

@[simp] theorem kvOwnDelta_tickNow : (kvOwnDelta s d).time.tickNow = s.time.tickNow := by
  unfold kvOwnDelta
  extract_lets t
  have ht : t.time.tickNow = s.time.tickNow := sendDelta_tickNow
  split
  · exact ht
  · split
    · exact kvJudge_tickNow.trans ht
    · exact ht

@[simp] theorem kvDeltas_tickNow : (kvDeltas s r rows).time.tickNow = s.time.tickNow := by simp [kvDeltas]
@[simp] theorem takeTrack_tickNow : (takeTrack s c b).time.tickNow = s.time.tickNow := by simp [takeTrack]
@[simp] theorem takeTracks_tickNow : (takeTracks s c).time.tickNow = s.time.tickNow := by simp [takeTracks]
@[simp] theorem trackDeltas_tickNow : (trackDeltas s c part o).time.tickNow = s.time.tickNow := by simp [trackDeltas]
@[simp] theorem countOk_tickNow : (countOk s k stream o).time.tickNow = s.time.tickNow := by simp [countOk]
@[simp] theorem countBad_tickNow : (countBad s k o whole).time.tickNow = s.time.tickNow := by simp [countBad]

@[simp] theorem countClocks_tickNow : (countClocks s k stream c).time.tickNow = s.time.tickNow := by
  unfold countClocks
  split <;> simp

@[simp] theorem jobAfter_tickNow : (jobAfter s r st).time.tickNow = s.time.tickNow := by
  unfold jobAfter
  dsimp only
  (repeat' split) <;> simp

@[simp] theorem recordEnd_tickNow : (recordEnd s k stream r o c st whole).time.tickNow = s.time.tickNow := by simp [recordEnd]

@[simp] theorem earlyKick_tickNow : (earlyKick s r st).time.tickNow = s.time.tickNow := by
  unfold earlyKick
  (repeat' split) <;> simp

@[simp] theorem bornBy_tickNow : (bornBy s k n).time.tickNow = s.time.tickNow := rfl

@[simp] theorem completeOk_tickNow : (completeOk s k r o).time.tickNow = s.time.tickNow := by
  unfold completeOk
  dsimp only
  (repeat' split) <;> simp

@[simp] theorem completeBad_tickNow : (completeBad s k r o).time.tickNow = s.time.tickNow := by
  unfold completeBad
  split <;> simp

@[simp] theorem finishCmd_tickNow : (finishCmd s k stream r c st0).time.tickNow = s.time.tickNow := by
  unfold finishCmd
  dsimp only
  (repeat' split) <;> simp

@[simp] theorem setFb_tickNow : (setFb s k x).time.tickNow = s.time.tickNow := rfl
@[simp] theorem endShadow_tickNow : (endShadow s k r c st).time.tickNow = s.time.tickNow := by simp [endShadow]

/-! Dumps of the counters. -/

@[simp] theorem skipDump_tickNow : (skipDump s).time.tickNow = s.time.tickNow := by simp [skipDump]
@[simp] theorem startDump_tickNow : (startDump s snap).time.tickNow = s.time.tickNow := by simp [startDump]

@[simp] theorem latchDump_tickNow : (latchDump s).time.tickNow = s.time.tickNow := by
  unfold latchDump
  split <;> simp

@[simp] theorem snapDue_tickNow : (snapDue s).time.tickNow = s.time.tickNow := by
  unfold snapDue
  split <;> simp

/-! Control channels. -/

@[simp] theorem ccSuspectEnter_tickNow : (ccSuspectEnter s c).time.tickNow = s.time.tickNow := by simp [ccSuspectEnter]
@[simp] theorem ccReset_tickNow : (ccReset s c).time.tickNow = s.time.tickNow := by simp [ccReset]

/-! Jobs that end with their partition. -/

@[simp] theorem endSilently_tickNow : (endSilently s key).time.tickNow = s.time.tickNow := by simp [endSilently]
@[simp] theorem jobsResetBegin_tickNow : (jobsResetBegin s n).time.tickNow = s.time.tickNow := by simp [jobsResetBegin]
@[simp] theorem jobsResetEnd_tickNow : (jobsResetEnd s n).time.tickNow = s.time.tickNow := by simp [jobsResetEnd]

/-! The roster. -/

@[simp] theorem windowPast_tickNow : (windowPast s cmds).time.tickNow = s.time.tickNow := by simp [windowPast]

/-! Fireboss. -/

@[simp] theorem endMarked_tickNow : (endMarked s k stream).time.tickNow = s.time.tickNow := by
  unfold endMarked
  split <;> simp

@[simp] theorem judgeMark_tickNow : (judgeMark s k).time.tickNow = s.time.tickNow := by simp [judgeMark]
@[simp] theorem markNow_tickNow : (markNow s k).time.tickNow = s.time.tickNow := by simp [markNow]
@[simp] theorem markCore_tickNow : (markCore s k).time.tickNow = s.time.tickNow := by simp [markCore]
@[simp] theorem lockstepMiss_tickNow : (lockstepMiss s c).time.tickNow = s.time.tickNow := by simp [lockstepMiss]
@[simp] theorem passDuePoints_tickNow : (passDuePoints s).time.tickNow = s.time.tickNow := by simp [passDuePoints]

@[simp] theorem digMove_tickNow : (digMove s n v).time.tickNow = s.time.tickNow := by
  unfold digMove
  extract_lets x t
  split
  · rfl
  · split
    · next h => exact (beginMove_tickNow h).trans dropTo_tickNow
    · exact dropTo_tickNow

/-! Tallies and their watches. -/

@[simp] theorem evalWatches_tickNow : (evalWatches s).time.tickNow = s.time.tickNow := rfl
@[simp] theorem tallyParity_tickNow : (tallyParity s k).time.tickNow = s.time.tickNow := by simp [tallyParity]

@[simp] theorem tlReset_tickNow : (tlReset s k).time.tickNow = s.time.tickNow := by
  unfold tlReset
  refine (foldl_tickNow (fun u n => ?_) _).trans tallyClear_tickNow
  rfl

/-! The pair link. -/

@[simp] theorem setVl_tickNow : (setVl s x).time.tickNow = s.time.tickNow := rfl
@[simp] theorem ceaseFollow_tickNow : (ceaseFollow s).time.tickNow = s.time.tickNow := rfl
@[simp] theorem linkTo_tickNow : (linkTo s st).time.tickNow = s.time.tickNow := by simp [linkTo]
@[simp] theorem linkDrop_tickNow : (linkDrop s st).time.tickNow = s.time.tickNow := by simp [linkDrop]

/-- A drained link is left as it is, or counts what it sent, and may go on. -/
theorem drainLink_cases {P : State → Prop} (h : P s) (hl : ∀ t st, P t → P (linkTo t st))
    (hc : ∀ x n m, P (ctrAdd (ctrAdd (setVl s x) vlPage 1 n) vlPage 4 m)) : P (drainLink s) := by
  unfold drainLink
  split
  · exact h
  · extract_lets
    split
    · exact hl _ _ (hc _ _ _)
    · exact hc _ _ _

@[simp] theorem drainLink_tickNow : (drainLink s).time.tickNow = s.time.tickNow :=
  drainLink_cases (P := fun t => t.time.tickNow = s.time.tickNow) rfl (fun _ _ h => linkTo_tickNow.trans h) fun _ _ _ => by simp

@[simp] theorem tickMsgs_tickNow : (tickMsgs s).time.tickNow = s.time.tickNow := by simp [tickMsgs]
@[simp] theorem missBeat_tickNow : (missBeat s).time.tickNow = s.time.tickNow := by simp [missBeat]
@[simp] theorem writeEpoch_tickNow : (writeEpoch s).time.tickNow = s.time.tickNow := by simp [writeEpoch]
@[simp] theorem vlTickEnd_tickNow : (vlTickEnd s).time.tickNow = s.time.tickNow := by simp [vlTickEnd]
@[simp] theorem vlTick_tickNow : (vlTick s).time.tickNow = s.time.tickNow := by simp [vlTick]

/-! Resets. -/

@[simp] theorem resetBlock_tickNow : (resetBlock s p keep).time.tickNow = s.time.tickNow := by simp [resetBlock]
@[simp] theorem resetHeader_tickNow : (resetHeader s p enable).time.tickNow = s.time.tickNow := by simp [resetHeader]

@[simp] theorem resetCorePage_tickNow : (resetCorePage s k enable).time.tickNow = s.time.tickNow := by
  unfold resetCorePage
  extract_lets p st st' t u
  have ht : t.time.tickNow = s.time.tickNow := by
    refine (foldl_tickNow (fun u i => ?_) _).trans ?_
    · rfl
    · rw [resetHeader_tickNow, resetBlock_tickNow]
  have hu : u.time.tickNow = s.time.tickNow := by
    refine (foldl_tickNow (fun u i => ?_) _).trans ht
    exact setStreamState_tickNow
  split
  · split <;> simp [hu]
  · simp [hu]
  · exact hu

@[simp] theorem resetPage_tickNow : (resetPage s p enable).time.tickNow = s.time.tickNow := by
  unfold resetPage
  (repeat' split) <;> simp

@[simp] theorem endForReset_tickNow : (endForReset s n x).time.tickNow = s.time.tickNow := by
  unfold endForReset
  split <;> simp

@[simp] theorem stopRequests_tickNow : (stopRequests s n).time.tickNow = s.time.tickNow := by
  unfold stopRequests
  dsimp only
  (repeat' split) <;> simp

@[simp] theorem presetBegin_tickNow : (presetBegin s n).time.tickNow = s.time.tickNow := by simp [presetBegin]
@[simp] theorem unmapAll_tickNow : (unmapAll s n).time.tickNow = s.time.tickNow := by simp [unmapAll]
@[simp] theorem presetEnd_tickNow : (presetEnd s n).time.tickNow = s.time.tickNow := by simp [presetEnd]

/-! Power states. -/

@[simp] theorem setPower_tickNow : (setPower s x).time.tickNow = s.time.tickNow := rfl
@[simp] theorem powerTo_tickNow : (powerTo s p).time.tickNow = s.time.tickNow := by simp [powerTo]
@[simp] theorem aphyDown_tickNow : (aphyDown s).time.tickNow = s.time.tickNow := by simp [aphyDown]
@[simp] theorem unitsDown_tickNow : (unitsDown s).time.tickNow = s.time.tickNow := by simp [unitsDown]
@[simp] theorem enterRetain_tickNow : (enterRetain s).time.tickNow = s.time.tickNow := by simp [enterRetain]
@[simp] theorem enterStandby_tickNow : (enterStandby s).time.tickNow = s.time.tickNow := by simp [enterStandby]
@[simp] theorem powerStep_tickNow : (powerStep s p).time.tickNow = s.time.tickNow := by simp [powerStep]
@[simp] theorem tamperCount_tickNow : (tamperCount s).time.tickNow = s.time.tickNow := by simp [tamperCount]
@[simp] theorem tamperEvent_tickNow : (tamperEvent s source).time.tickNow = s.time.tickNow := by simp [tamperEvent]

/-! Injected errors. -/

@[simp] theorem injectCore_tickNow : (injectCore s k n).time.tickNow = s.time.tickNow := by
  unfold injectCore
  dsimp only
  (repeat' split) <;> simp

@[simp] theorem injectChannel_tickNow : (injectChannel s ch n).time.tickNow = s.time.tickNow := by
  unfold injectChannel
  split <;> simp

@[simp] theorem injectTier_tickNow : (injectTier s p n).time.tickNow = s.time.tickNow := by
  unfold injectTier
  split <;> simp

@[simp] theorem bankParity_tickNow : (bankParity s n).time.tickNow = s.time.tickNow := by
  unfold bankParity
  split <;> simp

@[simp] theorem injectError_tickNow : (injectError s p n).time.tickNow = s.time.tickNow := by
  unfold injectError
  dsimp only
  (repeat' split) <;> simp

/-! The boundary. -/

@[simp] theorem softResetAt_tickNow : (softResetAt s p enable).time.tickNow = s.time.tickNow := by simp [softResetAt]

@[simp] theorem applyAct_tickNow : (applyAct s a).time.tickNow = s.time.tickNow := by
  unfold applyAct
  dsimp only
  (repeat' split) <;> simp

@[simp] theorem tickEnd_tickNow : (tickEnd s).time.tickNow = s.time.tickNow := by simp [tickEnd]
@[simp] theorem tickBegin_tickNow : (tickBegin s).time.tickNow = s.time.tickNow := by simp [tickBegin]

theorem applyActs_tickNow : (applyActs s l).time.tickNow = s.time.tickNow :=
  foldl_tickNow (fun _ _ => applyAct_tickNow) _

set_option autoImplicit false

/-! ### TICK_BOUNDARY (R42, R46) -/

/-- The tick that TICK_BOUNDARY begins, before its readings. -/
def nextTick (s : State) : State :=
  let t := tickEnd { s with irqs := [] }
  tickBegin (applyActs (tickAdvance t) t.atTick)

theorem nextTick_tickNow : (nextTick s).time.tickNow = s.time.tickNow + 1 := by
  have ht : (tickEnd { s with irqs := [] }).time.tickNow = s.time.tickNow := tickEnd_tickNow
  have ha (t : State) : (tickAdvance t).time.tickNow = t.time.tickNow + 1 := rfl
  simp only [nextTick, tickBegin_tickNow, applyActs_tickNow, ha, ht]

theorem exec_tickBoundary (j3 vin die : Nat) (tj : Int) (hh : s.sec.boot.held = false) (hm : s.supply.main = true) :
    exec (.tickBoundary j3 vin tj die false) s = .next (sampleSensors (nextTick s) j3 vin tj die) := by
  refine congrArg Host.Outcome.next (if_neg ?_)
  simp [hh, hm]

/-- Settles O11: TICK_NOW by `nextTick_tickNow`, the readings by `sampleSensors`, the queue as after every command. -/
theorem tickBoundaryAdvancesTick : Obligations.TickBoundaryAdvancesTick := by
  refine ⟨fun s j3 vin die tj hh hm => ?_, fun s j3 vin die tj m hh => ?_⟩
  · have he := exec_tickBoundary j3 vin die tj hh hm
    refine ⟨_, he, nextTick_tickNow, rfl, rfl, rfl, rfl, ?_, ?_⟩
    · exact List.length_take_le _ _
    · exact (kept_exec (kept_refl s) _ he).queue
  · exact congrArg Host.Outcome.next (if_pos (.inl hh))

end Sys2Proof.Machine
end

section
/-! PROOFS. How a write is judged (R104) and recorded when it is rejected (R92, R105), and who may write (R96). -/

namespace Sys2Proof.Machine

variable {s : State} {r : Req} {p : Page} {off : Nat} {v : Word}

/-! ### The first reason (R104) -/

/-- Reasons that come no earlier in the order than one already found leave it. -/
theorem firstReason_some_cons (a : Status) : ∀ {xs : List (Option Status)}, (∀ b, some b ∈ xs → reasonRank a ≤ reasonRank b) →
    firstReason (some a :: xs) = some a := by
  intro xs
  induction xs with
  | nil => exact fun _ => rfl
  | cons x xs ih =>
    intro h
    have hxs := ih fun b hb => h b (List.mem_cons_of_mem _ hb)
    cases x with
    | none => exact hxs
    | some b =>
      have hb : ¬ reasonRank b < reasonRank a := Nat.not_lt.2 (h b List.mem_cons_self)
      simp only [firstReason, List.foldl_cons, if_neg hb] at hxs ⊢
      exact hxs

@[simp] theorem firstReason_none_cons (xs : List (Option Status)) : firstReason (none :: xs) = firstReason xs := rfl

/-- Without a reason nothing is rejected. -/
theorem firstReason_of_all_none : ∀ {xs : List (Option Status)}, xs.all (· == none) = true → firstReason xs = none := by
  intro xs
  induction xs with
  | nil => exact fun _ => rfl
  | cons x xs ih =>
    intro h
    simp only [List.all_cons, Bool.and_eq_true, beq_iff_eq] at h
    rw [h.1, firstReason_none_cons]
    exact ih h.2

/-- A reason once found is only ever replaced by another. -/
theorem firstReason_cons_ne_none : ∀ (xs : List (Option Status)) (a : Status), firstReason (some a :: xs) ≠ none := by
  intro xs
  induction xs with
  | nil => exact fun a h => nomatch h
  | cons x xs ih =>
    intro a
    cases x with
    | none => exact ih a
    | some b =>
      by_cases hb : reasonRank b < reasonRank a
      · have e : firstReason (some a :: some b :: xs) = firstReason (some b :: xs) := by simp [firstReason, hb]
        exact e ▸ ih b
      · have e : firstReason (some a :: some b :: xs) = firstReason (some a :: xs) := by simp [firstReason, hb]
        exact e ▸ ih a

/-- With a reason something is rejected. -/
theorem firstReason_ne_none {st : Status} : ∀ {xs : List (Option Status)}, some st ∈ xs → firstReason xs ≠ none := by
  intro xs
  induction xs with
  | nil => exact fun h => nomatch h
  | cons x xs ih =>
    intro h
    cases x with
    | none => exact ih ((List.mem_cons.1 h).resolve_left nofun)
    | some a => exact firstReason_cons_ne_none xs a

/-- OWNER_DENIED alone comes before BUSY_RESET. -/
theorem busyReset_le_rank {st : Status} (h : st ≠ .ownerDenied) : reasonRank .busyReset ≤ reasonRank st := by
  cases st with
  | ownerDenied => exact absurd rfl h
  | _ => decide

/-- PG_CTRL's own rules deny no ownership. -/
theorem ctrlCheck_ne_ownerDenied (s : State) (p : Page) (v : Word) : ctrlCheck s p v ≠ some .ownerDenied := by
  unfold ctrlCheck
  dsimp only
  repeat' split
  all_goals simp_all

/-! ### The order of the rules -/

/-- The rules of the page's header and block that a write meets. -/
def ownRules (s : State) (r : Req) (p : Page) (off : Nat) (v : Word) : List (Option Status) :=
  if off = 0x008 then [ctrlCheck s p v] else if off < 0x100 then [] else blockCheck s r p off v

/-- The rules on injection and on reserved bits, which every page has. -/
def commonRules (s : State) (r : Req) (p : Page) (off : Nat) (v : Word) : List (Option Status) :=
  [if off = 0x018 ∧ v ≠ 0 ∧ !(injectOk s r p) then some .debugLocked else none,
    if v &&& ~~~(writableBits p off) ≠ 0 then some .reservedSet else none]

/-- The rules on the state of the device and on power, which come last. -/
def stateRules (s : State) (p : Page) (off : Nat) : List (Option Status) :=
  [if gateOpen s p off then none else some .stateIllegal, if unpowered s p ∧ 0x100 ≤ off then some .stateIllegal else none]

theorem judge_denied (h : writeDenied s r p off v = true) (narrow : Bool) : judge s r p off v narrow = some .ownerDenied := if_pos h

theorem judge_not_denied (h : writeDenied s r p off v = false) : judge s r p off v false =
    firstReason ((if inReset s (pageOwner s p) then some .busyReset else none) ::
      (commonRules s r p off v ++ ownRules s r p off v ++ stateRules s p off)) := by
  simp only [judge, h, commonRules, ownRules, stateRules]
  rfl

/-- Outside partial reset. -/
theorem judge_not_inReset (h : writeDenied s r p off v = false) (hi : inReset s (pageOwner s p) = false) : judge s r p off v false =
    firstReason (commonRules s r p off v ++ ownRules s r p off v ++ stateRules s p off) := by
  rw [judge_not_denied h, hi]
  rfl

theorem writeDenied_of_right (h : rightOf s r p off ≠ .full) (v : Word) : writeDenied s r p off v = true := by
  simp [writeDenied, h]

theorem mem_commonRules {st : Status} (h : some st ∈ commonRules s r p off v) : st = .debugLocked ∨ st = .reservedSet := by
  simp only [commonRules, List.mem_cons, List.not_mem_nil, or_false] at h
  rcases h with h | h <;> split at h <;> simp_all

theorem mem_stateRules {st : Status} (h : some st ∈ stateRules s p off) : st = .stateIllegal := by
  simp only [stateRules, List.mem_cons, List.not_mem_nil, or_false] at h
  rcases h with h | h <;> split at h <;> simp_all

/-- A header register's own rules deny no ownership, and a block's deny none where they are known not to. -/
theorem ownerDenied_not_mem_ownRules (h : off < 0x100 ∨ some .ownerDenied ∉ blockCheck s r p off v) :
    some .ownerDenied ∉ ownRules s r p off v := by
  unfold ownRules
  split
  · exact fun hm => ctrlCheck_ne_ownerDenied s p v (List.mem_singleton.1 hm).symm
  · split
    · exact List.not_mem_nil
    · next ho => exact h.resolve_left ho

/-- A partial reset of the owner comes before every reason but OWNER_DENIED. -/
theorem judge_busyReset (hd : writeDenied s r p off v = false) (ho : some .ownerDenied ∉ ownRules s r p off v)
    (hi : inReset s (pageOwner s p) = true) : judge s r p off v false = some .busyReset := by
  rw [judge_not_denied hd, if_pos hi]
  refine firstReason_some_cons _ fun b hb => busyReset_le_rank ?_
  rintro rfl
  simp only [List.mem_append] at hb
  rcases hb with (hb | hb) | hb
  · simpa using mem_commonRules hb
  · exact ho hb
  · simpa using mem_stateRules hb

/-- A reserved bit set in a header register past PG_REJECT. -/
theorem judge_reservedSet (hd : writeDenied s r p off v = false) (hi : inReset s (pageOwner s p) = false) (hinj : off ≠ 0x018)
    (hown : ∀ st, some st ∈ ownRules s r p off v → reasonRank .reservedSet ≤ reasonRank st) (hv : v &&& ~~~(writableBits p off) ≠ 0) :
    judge s r p off v false = some .reservedSet := by
  rw [judge_not_inReset hd hi]
  simp only [commonRules, hinj, hv, false_and, if_false, ne_eq, not_false_eq_true, if_true, List.cons_append, List.nil_append, firstReason_none_cons]
  refine firstReason_some_cons _ fun b hb => ?_
  rcases List.mem_append.1 hb with hb | hb
  · exact hown b hb
  · rw [mem_stateRules hb]
    decide

/-- Settles O7: each place of the order by its lemma. -/
theorem writeJudgedInOrder : Obligations.WriteJudgedInOrder := by
  intro s r p off v
  refine ⟨fun hr => judge_denied (writeDenied_of_right hr v) false, fun hd ho hi => ?_, fun hd hi h18 h8 _ hlt hv => ?_⟩
  · exact judge_busyReset hd (ownerDenied_not_mem_ownRules ho) hi
  · refine judge_reservedSet hd hi h18 (fun st hst => ?_) hv
    rw [ownRules, if_neg h8, if_pos hlt] at hst
    exact absurd hst List.not_mem_nil

/-! ### Who may write (R96) -/

/-- A function that does not own the page has a stranger's right. -/
theorem rightOf_stranger {q : Part} (h : pageOwner s p ≠ q.val) : rightOf s (.host q) p off = strangerRight s q.val p off := if_pos h

theorem strangerRight_ne_full (s : State) (q : Nat) (p : Page) (off : Nat) : strangerRight s q p off ≠ .full := by
  unfold strangerRight
  split_ifs <;> decide

theorem openHeader_eq_false (h : 0x100 ≤ off) : openHeader off = false := by
  simp only [openHeader, Bool.or_eq_false_iff, Bool.and_eq_false_iff, decide_eq_false_iff_not]
  omega

/-- The block registers, which a stranger reads where the page is shared. -/
theorem strangerRight_block (s : State) (q : Nat) (p : Page) (h : 0x100 ≤ off) :
    strangerRight s q p off = if pageShared s p then .read else .none := by
  rw [strangerRight, openHeader_eq_false h, if_neg (by decide), if_neg (by omega)]

theorem strangerRight_open (s : State) (q : Nat) (p : Page) (h : off < 8 ∨ 0x24 ≤ off ∧ off < 0x28) : strangerRight s q p off = .read := by
  have ho : openHeader off = true := by simpa [openHeader] using h
  rw [strangerRight, if_pos ho]

theorem strangerRight_partZero (s : State) (p : Page) (h : off < 0x100) : strangerRight s 0 p off = .read := by
  rw [strangerRight, if_pos h, if_pos rfl, ite_self]

/-- Settles O8: the right of `strangerRight`, range by range. -/
theorem strangersCannotWrite : Obligations.StrangersCannotWrite := by
  intro s q p off hq
  rw [rightOf_stranger hq]
  refine ⟨strangerRight_ne_full _ _ _ _, strangerRight_open _ _ _, fun h0 h => ?_, fun h hs => ?_, fun h hs => ?_⟩
  · rw [h0, strangerRight_partZero _ _ h]
  · rw [strangerRight_block _ _ _ h, hs]
    rfl
  · rw [strangerRight_block _ _ _ h, hs]
    rfl

/-! ### The record of a rejection (R92, R105) -/

/-- A record's three fields (R92). -/
theorem field_rejectWord {n c o : Nat} (hn : n ≤ 255) (hc : c < 256) (ho : o < 0x1000) :
    let w := BitVec.ofNat 32 (n * 2 ^ 24 + c * 2 ^ 16 + o)
    field w 15 0 = o ∧ field w 23 16 = c ∧ field w 31 24 = n := by
  have e : (BitVec.ofNat 32 (n * 2 ^ 24 + c * 2 ^ 16 + o)).toNat = n * 2 ^ 24 + c * 2 ^ 16 + o := by
    rw [BitVec.toNat_ofNat, Nat.mod_eq_of_lt (by omega)]
  simp only [field, e, Nat.shiftRight_eq_div_pow]
  omega

theorem statusCode_lt (st : Status) : statusCode st < 256 := by
  cases st <;> decide

theorem regVal_recordReject (s : State) (p : Page) (st : Status) (off : Nat) : regVal (recordReject s p st off) p 0x01C =
    BitVec.ofNat 32 (min (field (regVal s p 0x01C) 31 24 + 1) 255 * 2 ^ 24 + statusCode st * 2 ^ 16 + off) :=
  (regVal_congr (ctrAdd_regs _ _ _ _) _ _).trans (regVal_rcEvent_same s p 0x01C _)

theorem regsBut_recordReject (s : State) (p : Page) (st : Status) (off : Nat) : RegsBut [regKey p 0x01C] s (recordReject s p st off) :=
  regsBut_ctrAdd (regsBut_rcEvent (regsBut_refl _ s) (.head _) _) 0 1

theorem ctrVal_congr {t : State} (h : t.ctrs = s.ctrs) (p : Page) (slot : Nat) : ctrVal t p slot = ctrVal s p slot := by
  rw [ctrVal, ctrVal, h]

theorem counted_ctrAdd {t : State} (h : t.ctrs = s.ctrs) (p : Page) (slot : Nat) {n : Nat} (hn : n ≠ 0) :
    Counted s (ctrAdd t p slot n) p slot n := by
  rw [Counted, ctrVal_ctrAdd_same _ _ _ hn, ctrVal_congr h]

theorem ctrsBut_refl (ks : List Nat) (s : State) : CtrsBut ks s s := fun _ _ => rfl

theorem ctrsBut_congr {ks : List Nat} {t u : State} (h : CtrsBut ks s t) (e : u.ctrs = t.ctrs) : CtrsBut ks s u :=
  fun k hk => by rw [e, h k hk]

theorem ctrsBut_ctrAdd {ks : List Nat} {t : State} (h : CtrsBut ks s t) {slot : Nat} (hk : ctrKey p slot ∈ ks) (n : Nat) :
    CtrsBut ks s (ctrAdd t p slot n) :=
  fun k hq => (ctrs_ctrAdd_ne t p slot n k fun e => hq (e ▸ hk)).trans (h k hq)

theorem counted_recordReject (s : State) (p : Page) (st : Status) (off : Nat) : Counted s (recordReject s p st off) p 0 1 :=
  counted_ctrAdd (rcEvent_ctrs s p 0x01C _) p 0 (by decide)

theorem ctrsBut_recordReject (s : State) (p : Page) (st : Status) (off : Nat) : CtrsBut [ctrKey p 0] s (recordReject s p st off) :=
  ctrsBut_ctrAdd (ctrsBut_congr (ctrsBut_refl _ s) (rcEvent_ctrs s p 0x01C _)) (.head _) 1

/-- An answer shows in the reply alone. -/
theorem answer_eq_withBlock {t : State} (h : OnlyBlock s t) (st : Status) (d : DWord) :
    answer t st d = { withBlock (answer t st d) s with reply := ⟨st, d⟩ } := by
  rw [show t = withBlock t s from h]
  rfl

/-! An answer leaves what a state shows of registers and counters. -/

section
variable {t : State} {st : Status} {d : DWord}

@[simp] theorem regVal_answer : regVal (answer t st d) p off = regVal t p off := rfl
@[simp] theorem flagged_answer {n : Nat} : Flagged (answer t st d) p n ↔ Flagged t p n := Iff.rfl
@[simp] theorem counted_answer {slot n : Nat} : Counted s (answer t st d) p slot n ↔ Counted s t p slot n := Iff.rfl
@[simp] theorem regsBut_answer {ks : List Nat} : RegsBut ks s (answer t st d) ↔ RegsBut ks s t := Iff.rfl
@[simp] theorem ctrsBut_answer {ks : List Nat} : CtrsBut ks s (answer t st d) ↔ CtrsBut ks s t := Iff.rfl

end

/-- Settles O6: a rejected write leaves the record and the answer. -/
theorem rejectedWrite : Obligations.RejectedWrite := by
  intro s r p off v st hp ho ha hr hj hpw
  obtain ⟨hoff, hcode, hcount⟩ := field_rejectWord (n := min (field (regVal s p 0x01C) 31 24 + 1) 255) (Nat.min_le_right _ _)
    (statusCode_lt st) ho
  rw [← regVal_recordReject, ← regVal_answer (st := st) (d := 0)] at hoff hcode hcount
  refine ⟨answer (recordReject s p st off) st 0, ?_, rfl, hoff, hcode, hcount, counted_answer.2 (counted_recordReject s p st off),
    regsBut_answer.2 (regsBut_recordReject s p st off), ctrsBut_answer.2 (ctrsBut_recordReject s p st off), ?_⟩
  · rw [exec_registerWrite v hp ho, regWrite_reject hp ho ha hr hj, rejectWrite_eq s st hpw]
  · exact answer_eq_withBlock (onlyBlock_recordReject s p st off) st 0

end Sys2Proof.Machine
end

section
/-! PROOFS. Register accesses without a page, denied reads, clearing reads, counters, and reserved registers (R9, R12, R83, R84, R95, R97,
R107). -/

namespace Sys2Proof.Machine

variable {s : State} {r : Req} {p : Page} {off : Nat} {v : Word}

/-! ### Reads of one register -/

theorem exec_clearingRead (hp : pageOk p = true) (ho : off < 0x1000) :
    exec (.clearingRead r (BitVec.ofNat 26 (regKey p off)) .b4) s = .next (busRead s r (regKey p off) .b4) := by
  have hk : (BitVec.ofNat 26 (regKey p off)).toNat = regKey p off := by
    rw [BitVec.toNat_ofNat, Nat.mod_eq_of_lt (regKey_lt hp ho)]
  simp only [exec, execClearingRead, hk]

/-- A read that no right denies: what it answers and what it leaves. -/
theorem exec_clearingRead_readable (h : Readable s r p off) : exec (.clearingRead r (BitVec.ofNat 26 (regKey p off)) .b4) s =
    .next (answer (readLeaves s r p off) .ok ((readWord32 s r p off).setWidth 64)) := by
  rw [exec_clearingRead h.1 h.2.1, busRead_readable h]

theorem inWindow_eq_false (h : off < 0x40 ∨ 0x100 ≤ off) : inWindow off = false := by
  simp only [inWindow, decide_eq_false_iff_not]
  omega

/-- Outside the counter window and the banks nothing but the time base latches. -/
theorem latches_eq_nil (h1 : ¬ (p.cls = .tick ∧ off = 0x100)) (h2 : ¬ (p.cls = .tick ∧ off = 0x108)) (hw : inWindow off = false)
    (hb : (p.cls == .bank && decide (0x400 ≤ off)) = false) : latches s p off = [] := by
  simp [latches, h1, h2, hw, hb]

theorem latchAll_eq_self (h : latches s p off = []) (h2 : ¬ (p.cls = .tick ∧ off = 0x108)) : latchAll s r p off = s := by
  rw [latchAll, if_neg h2, h]
  rfl

/-- Below the block registers no page shows a word of its block. -/
theorem blockView_pgReject (s : State) (p : Page) : blockView s p 0x01C = none := by
  unfold blockView
  split <;> simp_all [deviceView, timeView, tlView, tierView, kvView, poolRegOf, debugView, pwView, fxView, mailboxView, fbView, roView, sbView,
    vlView, portView, countView, lbView]

theorem headerView_pgReject (s : State) (p : Page) : headerView s p 0x01C = none := blockView_pgReject s p

theorem regRow_pgReject (p : Page) : regRow p 0x01C = some { name := "PG_REJECT", first := 0x01C, rc := allOnes } := by
  simp [regRow, headerRows, rowHas]

/-- The window of counters is in no row of the header. -/
theorem regRow_window (p : Page) (h1 : 0x40 ≤ off) (h2 : off < 0x100) : regRow p off = none := by
  rw [regRow, if_pos h2]
  refine List.find?_eq_none.2 fun row hrow => ?_
  have hfirst : row.first ≤ 0x028 ∧ row.stride = 4 ∧ row.count = 1 := by
    simp only [headerRows, List.mem_cons, List.not_mem_nil, or_false] at hrow
    rcases hrow with rfl | rfl | rfl | rfl | rfl | rfl | rfl | rfl | rfl | rfl | rfl <;> simp
  obtain ⟨hf, hs, hc⟩ := hfirst
  simp only [rowHas, hs, hc, decide_eq_true_eq]
  omega

/-- A word that no latch holds and that is no stream's status. -/
theorem readWord32_plain (hl : isLatched p off = false) (hf : foreignStream s r p off = false) : readWord32 s r p off = readValue s p off := by
  rw [readWord32, hl, hf]
  rfl

theorem isLatched_eq_false (hw : inWindow off = false) (h : off < 0x100) : isLatched p off = false := by
  have h1 : (off == 0x104 || off == 0x10C || off == 0x110) = false := by
    simp only [Bool.or_eq_false_iff, beq_eq_false_iff_ne]
    omega
  have h2 : decide (0x400 ≤ off) = false := decide_eq_false (by omega)
  rw [isLatched, h1, hw, h2]
  simp

theorem foreignStream_eq_false (s : State) (r : Req) (p : Page) (h : off < 0x100) : foreignStream s r p off = false := by
  have h' : ¬ (0x400 ≤ off ∧ off < 0x600) := by omega
  simp [foreignStream, h']

/-- A header word of a page whose owner is in no partial reset. -/
theorem readValue_header (hi : inReset s (pageOwner s p) = false) (h : off < 0x100) : readValue s p off = showWord s p off := by
  have h' : ¬ 0x100 ≤ off := by omega
  simp [readValue, hi, h']

/-! ### Unmapped addresses (R83) -/

theorem read32_unmapped {a : Nat} (h : pageAt a = none) (ba : Nat) : read32 s r a ba = (s, .ok, 0) := by
  rw [read32, h]

theorem exec_clearingRead_unmapped {a : BitVec 26} (hr : reaches s r = true) (ha : a.toNat % 4 = 0) (hp : pageAt a.toNat = none) :
    exec (.clearingRead r a .b4) s = .next { s with reply := ⟨.ok, 0⟩ } := by
  have hread : read32 s r (a.toNat - a.toNat % 4) a.toNat = (s, .ok, 0) := by rw [ha]; exact read32_unmapped hp _
  have ha4 : a.toNat % sizeBytes .b4 = 0 := ha
  simp only [exec, execClearingRead, busRead, hr, ha4, hread]
  simp [answer]

theorem exec_unmappedWrite {a : BitVec 26} (hr : reaches s r = true) (ha : a.toNat % 4 = 0) (hp : pageAt a.toNat = none) (v : Word) :
    exec (.unmappedWrite r a v) s = .next (answer (unmappedWrite s r a.toNat) .ok 0) := by
  simp [exec, execUnmappedWrite, busWrite, hr, ha, write32, hp]

/-- A record of an access names the address and the partition (R107). -/
theorem unmappedWrite_eq (s : State) (r : Req) (a : BitVec 26) : unmappedWrite s r a.toNat =
    ctrAdd (setFlag (rcPut s devPage 0x110 (BitVec.ofNat 32 (a.toNat + reqPart r * 2 ^ 26))) devPage 0) devPage 1 1 := by
  rw [unmappedWrite, Nat.mod_eq_of_lt a.isLt]

theorem regVal_unmappedWrite (s : State) (r : Req) (a : BitVec 26) :
    regVal (unmappedWrite s r a.toNat) devPage 0x110 = BitVec.ofNat 32 (a.toNat + reqPart r * 2 ^ 26) := by
  rw [unmappedWrite_eq, regVal_congr (ctrAdd_regs _ _ _ _), regVal_setFlag_ne _ _ _ (by decide)]
  exact regVal_rcEvent_same s devPage 0x110 _

theorem flagged_unmappedWrite (s : State) (r : Req) (a : Nat) : Flagged (unmappedWrite s r a) devPage 0 := by
  have h := flagged_setFlag (rcPut s devPage 0x110 (BitVec.ofNat 32 (a % 2 ^ 26 + reqPart r * 2 ^ 26))) devPage 0 (by decide)
  rw [Flagged, regBit] at h ⊢
  rw [unmappedWrite, regVal_congr (ctrAdd_regs _ _ _ _), h]

theorem counted_unmappedWrite (s : State) (r : Req) (a : Nat) : Counted s (unmappedWrite s r a) devPage 1 1 :=
  counted_ctrAdd ((setFlag_ctrs _ _ _).trans (rcPut_ctrs s devPage 0x110 _)) devPage 1 (by decide)

theorem regsBut_unmappedWrite (s : State) (r : Req) (a : Nat) :
    RegsBut [regKey devPage 0x110, regKey devPage 0x010] s (unmappedWrite s r a) :=
  regsBut_ctrAdd (regsBut_setFlag (regsBut_rcEvent (regsBut_refl _ s) (.head _) _) (.tail _ (.head _)) 0) 1 1

theorem ctrsBut_unmappedWrite (s : State) (r : Req) (a : Nat) : CtrsBut [ctrKey devPage 1] s (unmappedWrite s r a) :=
  ctrsBut_ctrAdd (ctrsBut_congr (ctrsBut_refl _ s) ((setFlag_ctrs _ _ _).trans (rcPut_ctrs s devPage 0x110 _))) (.head _) 1

theorem onlyBlock_unmappedWrite (s : State) (r : Req) (a : Nat) : OnlyBlock s (unmappedWrite s r a) :=
  onlyBlock_trans (onlyBlock_rcEvent s devPage 0x110 _) (onlyBlock_trans (onlyBlock_setFlag _ devPage 0) (onlyBlock_ctrAdd _ devPage 1 1))

/-- Settles O20: a read finds no page, and a write leaves the record of `unmappedWrite`. -/
theorem unmappedAddresses : Obligations.UnmappedAddresses := by
  intro s r a hr ha hp
  refine ⟨exec_clearingRead_unmapped hr ha hp, fun v => ⟨_, exec_unmappedWrite hr ha hp v, ?_⟩⟩
  exact ⟨regVal_answer.trans (regVal_unmappedWrite s r a), flagged_answer.2 (flagged_unmappedWrite s r a.toNat),
    regsBut_answer.2 (regsBut_unmappedWrite s r a.toNat), ctrsBut_answer.2 (ctrsBut_unmappedWrite s r a.toNat),
    answer_eq_withBlock (onlyBlock_unmappedWrite s r a.toNat) .ok 0⟩

/-! ### Reserved registers (R84) -/

/-- The words that a read of a TICK page latches are of registers that the page has. -/
theorem not_tick_of_regRow_none (hrow : regRow p off = none) : ¬ (p.cls = .tick ∧ off = 0x100) ∧ ¬ (p.cls = .tick ∧ off = 0x108) := by
  constructor <;> rintro ⟨hc, rfl⟩ <;> simp [regRow, blockRows, hc, tickRows, rowHas] at hrow

theorem readWord32_reserved (hi : inReset s (pageOwner s p) = false) (hw : inWindow off = false) (hrow : regRow p off = none)
    (hl : isLatched p off = false) : readWord32 s r p off = 0 := by
  have hv : readValue s p off = 0 := by
    simp [readValue, hi, showWord, hw, hrow]
  rw [readWord32, hl, hv]
  exact ite_self _

theorem readLeaves_reserved (hw : inWindow off = false) (hrow : regRow p off = none) (hb : p.cls ≠ .bank) : readLeaves s r p off = s := by
  obtain ⟨h1, h2⟩ := not_tick_of_regRow_none hrow
  have hl : latchAll s r p off = s := latchAll_eq_self (latches_eq_nil h1 h2 hw (by simp [hb])) h2
  have he : readEffect s p off = s := by
    unfold readEffect
    split
    · rfl
    · rw [hrow]
  rw [readLeaves, hl, he, ite_self]

theorem writableBits_reserved (hw : inWindow off = false) (hrow : regRow p off = none) : writableBits p off = 0 := by
  simp [writableBits, hw, hrow]

/-- A write of a reserved register by a requester that may write it, where the block's own rules name it not. -/
theorem judge_reserved (ho : 0x100 ≤ off) (hrow : regRow p off = none) (hr : rightOf s r p off = .full) (hi : inReset s (pageOwner s p) = false)
    (hrun : devRunning s = true) (hu : unpowered s p = false) (hb : (blockCheck s r p off v).all (· == none) = true)
    (hs : sensorDenied s p off v = false) (ht : p = testPage → off ≠ 0x104) :
    judge s r p off v false = if v = 0 then none else some .reservedSet := by
  have hd : writeDenied s r p off v = false := by
    have h20 : (off == 0x020) = false := beq_false_of_ne (by omega)
    have htest : (p == testPage && off == 0x104) = false := by
      simpa [Bool.and_eq_false_iff, imp_iff_not_or] using ht
    simp [writeDenied, hr, hrow, h20, hs, htest]
  have hown : (ownRules s r p off v).all (· == none) = true := by
    rw [ownRules, if_neg (by omega), if_neg (by omega)]
    exact hb
  have hbits : v &&& ~~~(writableBits p off) = v := by
    rw [writableBits_reserved (inWindow_eq_false (.inr ho)) hrow]
    exact BitVec.and_allOnes
  split
  · next hv =>
    rw [judge_not_inReset hd hi]
    refine firstReason_of_all_none ?_
    have hg : gateOpen s p off = true := by simp [gateOpen, hrun]
    have hc : (commonRules s r p off v).all (· == none) = true := by
      have h18 : off ≠ 0x018 := by omega
      simp [commonRules, hv, h18]
    have hst : (stateRules s p off).all (· == none) = true := by simp [stateRules, hg, hu]
    rw [List.all_append, List.all_append, hc, hown, hst]
    rfl
  · next hv =>
    refine judge_reservedSet hd hi (by omega) (fun st hst => ?_) (by rwa [hbits])
    simpa using List.all_eq_true.1 hown _ hst

theorem accept_reserved (ho : 0x100 ≤ off) (hrow : regRow p off = none) : accept s p off v = s := by
  rw [accept, if_neg (by omega), if_neg (by omega), inWindow_eq_false (.inr ho), hrow]
  rfl

/-- Settles O21: no row, so nothing is shown, latched, cleared or stored, and every bit is reserved. -/
theorem reservedRegisters : Obligations.ReservedRegisters := by
  intro s r p off h ho hrow hl hb
  have hw := inWindow_eq_false (off := off) (.inr ho)
  obtain ⟨hp, hlt, ha, hr, -, hi⟩ := id h
  refine ⟨?_, fun hfull hrun hu hcheck hs ht => ?_⟩
  · rw [exec_clearingRead_readable h, readLeaves_reserved hw hrow hb, readWord32_reserved hi hw hrow hl]
    rfl
  · have hj (v : Word) := judge_reserved (v := v) ho hrow hfull hi hrun hu (hcheck v) (hs v) ht
    refine ⟨?_, fun v hv => (hj v).trans (if_neg hv)⟩
    have hacc : Accepted s r p off 0 := ⟨hp, hlt, ha, hr, (hj 0).trans (if_pos rfl)⟩
    have he := exec_registerWrite (s := s) (r := r) (0 : Word) hp hlt
    rw [regWrite_accept hacc, accept_reserved ho hrow] at he
    exact he

/-! ### Writes (R9, R79) -/

/-- A write that no rule rejects (R104). -/
theorem exec_registerWrite_accepted (h : Accepted s r p off v) :
    exec (.registerWrite r (BitVec.ofNat 26 (regKey p off)) .b4 (v.setWidth 64)) s = .next (answer (accept s p off v) .ok 0) := by
  rw [exec_registerWrite v h.1 h.2.1, regWrite_accept h]

/-- A write of 64 bits is two of 32, the low address first. -/
theorem exec_registerWrite_wide {a : BitVec 26} (v : DWord) (hr : reaches s r = true) (ha : a.toNat % 8 = 0) :
    exec (.registerWrite r a .b8 v) s =
      let x := write32 s r a.toNat a.toNat (v.setWidth 32) false
      let y := write32 x.1 r (a.toNat + 4) (a.toNat + 4) ((v >>> 32).setWidth 32) false
      .next (answer y.1 (if x.2 = .ok then y.2 else x.2) 0) := by
  simp [exec, execRegisterWrite, busWrite, hr, ha]

/-- An accepted write of a writable register sets no reserved bit (R13, R104). -/
theorem writableBits_of_judge_none (h : judge s r p off v false = none) : v &&& ~~~(writableBits p off) = 0#32 := by
  by_contra hv
  have hd : writeDenied s r p off v = false := by
    by_contra hd
    rw [judge_denied (by simpa using hd)] at h
    cases h
  have hmem : some Status.reservedSet ∈ (if inReset s (pageOwner s p) then some Status.busyReset else none) ::
      (commonRules s r p off v ++ ownRules s r p off v ++ stateRules s p off) := by
    simp only [commonRules, if_pos (show v &&& ~~~(writableBits p off) ≠ 0 from hv)]
    simp
  rw [judge_not_denied hd] at h
  exact firstReason_ne_none hmem h

theorem regRow_errMask (p : Page) : regRow p 0x014 = some { name := "PG_ERRMASK", first := 0x014, rw := errMask p } := by
  simp [regRow, headerRows, rowHas]

theorem accept_errMask (s : State) (p : Page) (v : Word) :
    accept s p 0x014 v = setReg s p 0x014 ((regVal s p 0x014 &&& ~~~(errMask p)) ||| (v &&& errMask p)) := by
  rw [accept_header (by decide) (by decide) (by decide) (regRow_errMask p) (.inr (by decide))]
  have hrw (m : Word) : m ||| 0 = m := BitVec.or_zero
  have hw1c (x w : Word) : x &&& ~~~(w &&& 0 &&& ~~~(smGet 0 s.hwSet (regKey p 0x014))) = x := by
    have h0 : w &&& 0 &&& ~~~(smGet 0 s.hwSet (regKey p 0x014)) = 0 := by simp
    rw [h0]
    exact BitVec.and_allOnes
  simp only [storedBits, hrw, hw1c]

theorem and_eq_self_of_and_not {v m : Word} (h : v &&& ~~~m = 0#32) : v &&& m = v := by
  calc v &&& m = (v &&& m) ||| (v &&& ~~~m) := by rw [h, BitVec.or_zero]
    _ = v := by rw [← BitVec.and_or_distrib_left, BitVec.or_not_self, BitVec.and_allOnes]

/-- PG_ERRMASK takes the bits that name a flag (R91). -/
theorem errMask_stored {old m : Word} (h : v &&& ~~~m = 0#32) : ((old &&& ~~~m) ||| (v &&& m)) &&& m = v := by
  have hv := and_eq_self_of_and_not h
  have hm : ~~~m &&& m = 0#32 := BitVec.not_and_self m
  rw [hv, BitVec.and_or_distrib_right, hv, BitVec.and_assoc, hm, BitVec.and_zero, BitVec.zero_or]

/-! ### Denied reads (R97) -/

theorem denyRead_eq (s : State) (r : Req) (a : BitVec 26) : denyRead s r a.toNat =
    ctrAdd (rcPut s devPage 0x114 (BitVec.ofNat 32 (a.toNat + reqPart r * 2 ^ 26))) devPage 2 1 := by
  rw [denyRead, Nat.mod_eq_of_lt a.isLt]

theorem regVal_denyRead (s : State) (r : Req) (a : BitVec 26) :
    regVal (denyRead s r a.toNat) devPage 0x114 = BitVec.ofNat 32 (a.toNat + reqPart r * 2 ^ 26) := by
  rw [denyRead_eq, regVal_congr (ctrAdd_regs _ _ _ _)]
  exact regVal_rcEvent_same s devPage 0x114 _

theorem exec_deniedRead {a : BitVec 26} {z : AccSize} (hr : reaches s r = true) (hz : z ≠ .b8) (ha : a.toNat % sizeBytes z = 0)
    (hp : pageAt (a.toNat - a.toNat % 4) = some p) (hn : rightOf s r p (pageOff (a.toNat - a.toNat % 4)) = .none) :
    exec (.deniedRead r a z) s = .next (answer (denyRead s r a.toNat) .ownerDenied 0) := by
  have hread : read32 s r (a.toNat - a.toNat % 4) a.toNat = (denyRead s r a.toNat, .ownerDenied, 0) := by
    simp only [read32, hp, hn, if_true]
  cases z with
  | b8 => exact absurd rfl hz
  | _ =>
    simp only [exec, execDeniedRead, busRead, hr, ha, hread]
    simp

/-- A read that is not naturally aligned. -/
theorem busRead_misaligned {a : Nat} {z : AccSize} (hr : reaches s r = true) (ha : a % sizeBytes z ≠ 0) : busRead s r a z = answer s .range 0 := by
  simp [busRead, hr, ha]

/-! ### Clearing reads (R9, R12) -/

/-- What a clearing read leaves in the register: what the events of this tick alone left. -/
def leftByTick (s : State) (p : Page) (off : Nat) : Word :=
  match smFind s.rcTick (regKey p off) with
  | some x => x.2
  | none => 0

/-- The events' own words after such a read. -/
def tickWordsRead (s : State) (p : Page) (off : Nat) : SMap (Word × Word) :=
  match smFind s.rcTick (regKey p off) with
  | some x => smPut s.rcTick (regKey p off) (0, x.2)
  | none => s.rcTick

/-- An owner's read of a clearing register: it keeps what the events of this tick leave. -/
theorem readEffect_clearing {row : RegRow} (hi : inReset s (pageOwner s p) = false) (hrow : regRow p off = some row) (hrc : row.rc ≠ 0)
    (hw : inWindow off = false) (hu : (unpowered s p && decide (0x100 ≤ off)) = false) (h1 : ¬ (p.cls = .ptp ∧ off = 0x120))
    (h2 : ¬ (p.cls = .c ∧ off = 0x10C)) :
    readEffect s p off = { setReg s p off (leftByTick s p off) with rcTick := tickWordsRead s p off } := by
  have h2' : ¬ (p.cls = .c ∧ off = 0x10C ∧ !(unpowered s p)) := fun h => h2 ⟨h.1, h.2.1⟩
  have h3 : ¬ (row.rc = 0 ∨ inWindow off ∨ (unpowered s p && decide (0x100 ≤ off))) := by
    simpa [hw, hu] using hrc
  simp only [readEffect, hi, hrow, if_neg h1, if_neg h2', if_neg h3, Bool.false_eq_true, if_false]
  cases hx : smFind s.rcTick (regKey p off) with
  | none => simp only [leftByTick, tickWordsRead, hx, setReg]
  | some x => simp only [leftByTick, tickWordsRead, hx, setReg]

/-- The state of a page of another class than TICK's, or read elsewhere than at TIME_NS_LO, changes its latches alone. -/
theorem latchAll_frame (h : ¬ (p.cls = .tick ∧ off = 0x108)) : ∃ m, latchAll s r p off = { s with latch := m } := by
  rw [latchAll, if_neg h]
  exact ⟨_, rfl⟩

/-- No register of the TICK page is cleared by a read. -/
theorem not_timeNs_of_clearing {row : RegRow} (hrow : regRow p off = some row) (hrc : row.rc ≠ 0) : ¬ (p.cls = .tick ∧ off = 0x108) := by
  rintro ⟨hc, rfl⟩
  simp [regRow, blockRows, hc, tickRows, rowHas] at hrow
  exact hrc (by rw [← hrow]; rfl)

/-- An owner's clearing read of a register of the page: the state that it leaves. -/
theorem readLeaves_clearing {row : RegRow} (hi : inReset s (pageOwner s p) = false) (ho : isOwner s r p off = true) (hrow : regRow p off = some row)
    (hrc : row.rc ≠ 0) (hw : inWindow off = false) (hu : (unpowered s p && decide (0x100 ≤ off)) = false)
    (h1 : ¬ (p.cls = .ptp ∧ off = 0x120)) (h2 : ¬ (p.cls = .c ∧ off = 0x10C)) :
    ∃ m n, readLeaves s r p off = { setReg s p off (leftByTick s p off) with latch := m, rcTick := n } := by
  obtain ⟨m, hm⟩ := latchAll_frame (s := s) (r := r) (not_timeNs_of_clearing hrow hrc)
  have hn := readEffect_clearing (s := { s with latch := m }) hi hrow hrc hw hu h1 h2
  rw [readLeaves, if_pos ho, hm, hn]
  exact ⟨m, _, rfl⟩

theorem smGet_of_smFind_none {α : Type} (d : α) : ∀ {m : SMap α} {i : Nat}, smFind m i = none → smGet d m i = d := by
  intro m
  induction m with
  | nil => exact fun _ => rfl
  | cons x m ih =>
    intro i h
    obtain ⟨k, w⟩ := x
    rw [smFind_cons] at h
    rw [smGet_cons]
    split at h
    · cases h
    · next hk => rw [if_neg hk, ih h]

/-- PG_REJECT shows its record as it stands, where no event of this tick has changed it. -/
theorem readValue_pgReject (hi : inReset s (pageOwner s p) = false) (hn : smFind s.rcTick (regKey p 0x01C) = none) :
    readValue s p 0x01C = regVal s p 0x01C := by
  have hg : smGet (regVal s p 0x01C, (0 : Word)) s.rcTick (regKey p 0x01C) = (regVal s p 0x01C, 0) := smGet_of_smFind_none _ hn
  rw [readValue_header hi (by decide)]
  simp only [showWord, inWindow_eq_false (show 0x01C < 0x40 ∨ _ from .inl (by decide)), regRow_pgReject, headerView_pgReject, hg]
  exact BitVec.and_allOnes.trans BitVec.and_allOnes

/-- What a clearing read leaves, said as the statement has it. -/
theorem clearing_parts {m : SMap Word} {n : SMap (Word × Word)} {w : Word} {d : DWord} {t : State}
    (ht : t = answer { setReg s p off w with latch := m, rcTick := n } .ok d) :
    t.reply = ⟨.ok, d⟩ ∧ regVal t p off = w ∧ RegsBut [regKey p off] s t ∧
      t = { withBlock t s with reply := t.reply, latch := t.latch } := by
  subst ht
  exact ⟨rfl, regVal_setReg_same s p off w, regsBut_setReg (regsBut_refl _ s) (.head _) w, rfl⟩

/-! ### Counters (R95) -/

theorem isLatched_counterLow (p : Page) (slot : Fin 24) : isLatched p (0x40 + 8 * slot.val) = false := by
  have h1 : (0x40 + 8 * slot.val == 0x104 || 0x40 + 8 * slot.val == 0x10C || 0x40 + 8 * slot.val == 0x110) = false := by
    simp only [Bool.or_eq_false_iff, beq_eq_false_iff_ne]
    omega
  have h2 : ((0x40 + 8 * slot.val) % 8 == 4) = false := beq_false_of_ne (by omega)
  rw [isLatched, h1, h2]
  simp

theorem latches_counterLow (hi : inReset s (pageOwner s p) = false) (slot : Fin 24) : latches s p (0x40 + 8 * slot.val) =
    [(regKey p (0x44 + 8 * slot.val), showWord s p (0x44 + 8 * slot.val))] := by
  have h1 : ¬ (p.cls = .tick ∧ 0x40 + 8 * slot.val = 0x100) := fun h => by omega
  have h2 : ¬ (p.cls = .tick ∧ 0x40 + 8 * slot.val = 0x108) := fun h => by omega
  have hw : inWindow (0x40 + 8 * slot.val) = true := decide_eq_true (by omega)
  have hm : ((0x40 + 8 * slot.val) % 8 == 0) = true := beq_of_eq (by omega)
  have hoff : 0x40 + 8 * slot.val + 4 = 0x44 + 8 * slot.val := by omega
  rw [latches, if_neg h1, if_neg h2, hw, hm, regKey_add, hoff, readValue_header hi (by omega)]
  rfl

/-- A read of the low word latches the high word for the requester. -/
theorem readLeaves_counterLow (hi : inReset s (pageOwner s p) = false) (slot : Fin 24) : readLeaves s r p (0x40 + 8 * slot.val) =
    { s with latch := smSet 0 s.latch (latchKey r (regKey p (0x44 + 8 * slot.val))) (showWord s p (0x44 + 8 * slot.val)) } := by
  have h2 : ¬ (p.cls = .tick ∧ 0x40 + 8 * slot.val = 0x108) := fun h => by omega
  have hl : latchAll s r p (0x40 + 8 * slot.val) =
      { s with latch := smSet 0 s.latch (latchKey r (regKey p (0x44 + 8 * slot.val))) (showWord s p (0x44 + 8 * slot.val)) } := by
    rw [latchAll, if_neg h2, latches_counterLow hi]
    rfl
  have he (t : State) : readEffect t p (0x40 + 8 * slot.val) = t := by
    rw [readEffect, regRow_window p (by omega) (by omega)]
    exact ite_self _
  rw [readLeaves, he, hl, ite_self]

theorem exec_counterLowWordRead {slot : Fin 24} (h : Readable s r p (0x40 + 8 * slot.val)) : exec (.counterLowWordRead r p slot) s =
    .next (answer { s with latch := smSet 0 s.latch (latchKey r (regKey p (0x44 + 8 * slot.val))) (showWord s p (0x44 + 8 * slot.val)) }
      .ok ((showWord s p (0x40 + 8 * slot.val)).setWidth 64)) := by
  obtain ⟨-, -, -, -, -, hi⟩ := id h
  refine congrArg Host.Outcome.next ((busRead_readable h).trans ?_)
  rw [readLeaves_counterLow hi, readWord32_plain (isLatched_counterLow p slot) (foreignStream_eq_false s r p (by omega)),
    readValue_header hi (by omega)]

/-- Settles O9: each access by its lemma. -/
theorem accessEffects : Obligations.AccessEffects := by
  refine ⟨fun s r p off v h => exec_registerWrite_accepted h, fun s r a v hr ha => exec_registerWrite_wide v hr ha, fun s r p v h => ?_,
    fun s r a v hr ha hp => ?_, fun s r a z p hr hz ha hp hn => ?_, fun s r p h ho hn => ?_,
    fun s r p off row h ho hrow hrc hw hl hu hf h1 h2 => ?_, fun s r a z hr ha => ?_, fun s r p slot h => ?_⟩
  · refine ⟨_, exec_registerWrite_accepted h, rfl, ?_⟩
    obtain ⟨-, -, -, -, hj⟩ := h
    have hv := writableBits_of_judge_none hj
    rw [accept_errMask]
    refine ⟨?_, regsBut_answer.2 (regsBut_setReg (regsBut_refl _ s) (.head _) _), rfl⟩
    rw [regVal_answer, regVal_setReg_same]
    refine errMask_stored ?_
    simpa [writableBits, inWindow_eq_false, regRow_errMask, rowBits] using hv
  · refine ⟨_, exec_unmappedWrite hr ha hp v, rfl, ?_⟩
    exact ⟨flagged_answer.2 (flagged_unmappedWrite s r a.toNat), regVal_answer.trans (regVal_unmappedWrite s r a),
      counted_answer.2 (counted_unmappedWrite s r a.toNat), regsBut_answer.2 (regsBut_unmappedWrite s r a.toNat),
      ctrsBut_answer.2 (ctrsBut_unmappedWrite s r a.toNat), answer_eq_withBlock (onlyBlock_unmappedWrite s r a.toNat) .ok 0⟩
  · refine ⟨_, exec_deniedRead hr hz ha hp hn, rfl, regVal_answer.trans (regVal_denyRead s r a), ?_, ?_, ?_, ?_⟩
    · exact counted_answer.2 (counted_ctrAdd (rcPut_ctrs s devPage 0x114 _) devPage 2 (by decide))
    · exact regsBut_answer.2 (regsBut_ctrAdd (regsBut_rcEvent (regsBut_refl _ s) (.head _) _) 2 1)
    · exact ctrsBut_answer.2 (ctrsBut_ctrAdd (ctrsBut_congr (ctrsBut_refl _ s) (rcPut_ctrs s devPage 0x114 _)) (.head _) 1)
    · exact answer_eq_withBlock (onlyBlock_trans (onlyBlock_rcEvent s devPage 0x114 _) (onlyBlock_ctrAdd _ devPage 2 1)) .ownerDenied 0
  · obtain ⟨-, -, -, -, -, hi⟩ := id h
    have hw := inWindow_eq_false (off := 0x01C) (.inl (by decide))
    obtain ⟨m, n, hm⟩ := readLeaves_clearing hi ho (regRow_pgReject p) (by decide) hw (by simp) (by simp) (by simp)
    have hword : readWord32 s r p 0x01C = regVal s p 0x01C := by
      rw [readWord32_plain (isLatched_eq_false hw (by decide)) (foreignStream_eq_false s r p (by decide)), readValue_pgReject hi hn]
    have hleft : leftByTick s p 0x01C = 0 := by rw [leftByTick, hn]
    obtain ⟨hrep, hval, hregs, hframe⟩ := clearing_parts (t := answer (readLeaves s r p 0x01C) .ok ((readWord32 s r p 0x01C).setWidth 64))
      (by rw [hm])
    exact ⟨_, exec_clearingRead_readable h, hword ▸ hrep, hleft ▸ hval, hregs, hframe⟩
  · obtain ⟨-, -, -, -, -, hi⟩ := id h
    obtain ⟨m, n, hm⟩ := readLeaves_clearing hi ho hrow hrc hw (by simp [hu]) h1 h2
    have hword : readWord32 s r p off = readValue s p off := readWord32_plain hl hf
    obtain ⟨hrep, hval, hregs, hframe⟩ := clearing_parts (t := answer (readLeaves s r p off) .ok ((readWord32 s r p off).setWidth 64))
      (by rw [hm])
    exact ⟨_, exec_clearingRead_readable h, hword ▸ hrep, hval, hregs, hframe⟩
  · have hb := busRead_misaligned hr ha
    exact ⟨congrArg Host.Outcome.next hb, congrArg Host.Outcome.next hb⟩
  · exact ⟨_, exec_counterLowWordRead h, rfl, smGet_smSet_same _ _ _ _, rfl⟩

end Sys2Proof.Machine
end

section
/-! PROOFS. The commands of the common header and of DEVICE (R88, R89, R91, R98, R101, R114). -/

namespace Sys2Proof.Machine

variable {s : State} {r : Req} {p : Page} {v : Word}

/-! ### PG_CTRL (R88, R89) -/

theorem accept_ctrl (s : State) (p : Page) (v : Word) : accept s p 0x008 v = ctrlAct s p v := if_pos rfl

/-- SOFT_RESET is put off to the boundary. -/
theorem ctrlAct_reset (s : State) (p : Page) (h : bit v 1 = true) : ctrlAct s p v = atBoundary s (.softReset p (bit v 0)) := if_pos h

theorem ctrlAct_enable (s : State) (p : Page) (en : Bool) :
    ctrlAct s p (if en then 1 else 0) = enableAct (setReg s p 0x008 (if en then 1 else 0)) p en := by
  cases en <;> rfl

theorem exec_softReset {en : Bool} (h : Accepted s r p 0x008 (if en then 3 else 2)) :
    exec (.softReset r p en) s = .next (answer (atBoundary s (.softReset p en)) .ok 0) := by
  refine congrArg Host.Outcome.next ((regWrite_accept h).trans ?_)
  cases en <;> rw [accept_ctrl, ctrlAct_reset _ _ rfl] <;> rfl

theorem exec_pgCtrlEnable {en : Bool} (h : Accepted s r p 0x008 (if en then 1 else 0)) :
    exec (.pgCtrlEnable r p en) s = .next (answer (enableAct (setReg s p 0x008 (if en then 1 else 0)) p en) .ok 0) := by
  refine congrArg Host.Outcome.next ((regWrite_accept h).trans ?_)
  rw [accept_ctrl, ctrlAct_enable]

/-- PG_CTRL of every page, and every byte of memory, stand. -/
def CtrlKept (s t : State) : Prop := (∀ q, regVal t q 0x008 = regVal s q 0x008) ∧ t.mem.cells = s.mem.cells

section
variable {t u : State} {q : Page} {off : Nat}

theorem ctrlKept_refl (s : State) : CtrlKept s s := ⟨fun _ => rfl, rfl⟩

theorem ctrlKept_congr (h : CtrlKept s t) (hr : u.regs = t.regs) (hm : u.mem.cells = t.mem.cells) : CtrlKept s u :=
  ⟨fun q => (regVal_congr hr q _).trans (h.1 q), hm.trans h.2⟩

/-- A write of another register of any page. -/
theorem ctrlKept_setReg (h : CtrlKept s t) (ho : off < 0x1000) (h8 : off ≠ 0x008) (w : Word) : CtrlKept s (setReg t q off w) := by
  refine ⟨fun q' => (regVal_setReg_ne t q q' w fun e => h8 ?_).trans (h.1 q'), h.2⟩
  rw [← regKey_mod (p := q) ho, e, regKey_mod (by decide)]

theorem ctrlKept_setRegField (h : CtrlKept s t) (ho : off < 0x1000) (h8 : off ≠ 0x008) (hi lo w : Nat) :
    CtrlKept s (setRegField t q off hi lo w) := ctrlKept_setReg h ho h8 _

theorem ctrlKept_setPgState (h : CtrlKept s t) (st : Nat) : CtrlKept s (setPgState t q st) := by
  unfold setPgState
  split
  · exact h
  · exact ctrlKept_setReg (ctrlKept_setRegField h (by decide) (by decide) _ _ _) (by decide) (by decide) _

theorem ctrlKept_setBusy (h : CtrlKept s t) (b : Bool) : CtrlKept s (setBusy t q b) :=
  ctrlKept_setRegField h (by decide) (by decide) _ _ _

theorem ctrlKept_ctrAdd (h : CtrlKept s t) (slot n : Nat) : CtrlKept s (ctrAdd t q slot n) :=
  ctrlKept_congr h (ctrAdd_regs t q slot n) (congrArg MemSt.cells (ctrAdd_mem t q slot n))

theorem ctrlKept_setFlag (h : CtrlKept s t) (n : Nat) : CtrlKept s (setFlag t q n) := by
  have ho : CtrlKept s (orReg t q 0x010 (bitMask n)) := ctrlKept_setReg (off := 0x010) h (by decide) (by decide) _
  unfold setFlag
  dsimp only
  split <;> exact ho

theorem ctrlKept_setStreamState (h : CtrlKept s t) (k : CoreId) (i st : Nat) : CtrlKept s (setStreamState t k i st) := by
  unfold setStreamState
  refine ctrlKept_setBusy ?_ _
  split
  · exact ctrlKept_setRegField (ctrlKept_setRegField h (by decide) (by decide) _ _ _) (by decide) (by decide) _ _ _
  · exact ctrlKept_setPgState h st

theorem ctrlKept_unitAfterLoop (h : CtrlKept s t) : CtrlKept s (unitAfterLoop t q) := by
  unfold unitAfterLoop
  split
  · exact ctrlKept_setPgState h _
  · exact ctrlKept_setPgState h _
  · exact ctrlKept_setPgState h _
  · exact ctrlKept_setPgState h _
  · exact h

theorem ctrlKept_loopEnd (h : CtrlKept s t) (hold : Bool) : CtrlKept s (loopEnd t hold) := by
  unfold loopEnd
  split
  · exact h
  · extract_lets c t0 w bad st x y
    have hw : CtrlKept s w := by
      refine ctrlKept_unitAfterLoop ?_
      unfold t0
      split <;> exact h
    have hx : CtrlKept s x := ctrlKept_setReg (ctrlKept_setReg (ctrlKept_setBusy (ctrlKept_setPgState hw _) _) (by decide) (by decide) _)
      (by decide) (by decide) _
    have hy : CtrlKept s y := ctrlKept_ctrAdd (ctrlKept_ctrAdd (ctrlKept_ctrAdd hx _ _) _ _) _ _
    split
    · exact ctrlKept_ctrAdd hy _ _
    · split
      · exact ctrlKept_setFlag hy _
      · exact hy

theorem ctrlKept_loopUnitReset (h : CtrlKept s t) : CtrlKept s (loopUnitReset t q) := by
  unfold loopUnitReset
  split
  · exact ctrlKept_loopEnd h false
  · exact h

theorem ctrlKept_portEnable (h : CtrlKept s t) (en : Bool) : CtrlKept s (portEnable t q en) := by
  unfold portEnable
  split
  · exact ctrlKept_setPgState (ctrlKept_loopUnitReset h) _
  · split
    · exact ctrlKept_setPgState h _
    · exact h

theorem ctrlKept_foldl {α : Type} {f : State → α → State} (hf : ∀ t x, CtrlKept s t → CtrlKept s (f t x)) {xs : List α} (h : CtrlKept s t) :
    CtrlKept s (xs.foldl f t) :=
  List.foldlRecOn _ _ h fun t ht x _ => hf t x ht

theorem ctrlKept_ite {c : Prop} [Decidable c] (h : CtrlKept s t) (k : CtrlKept s u) : CtrlKept s (if c then t else u) := by
  split
  · exact h
  · exact k

/-- What a block does as it is enabled or disabled writes no PG_CTRL and no memory. -/
theorem ctrlKept_enableAct (h : CtrlKept s t) (en : Bool) : CtrlKept s (enableAct t q en) := by
  have hcore (k : CoreId) (st : Nat) : CtrlKept s ((streamsOf k).foldl (fun t i => setStreamState t k i st) t) :=
    ctrlKept_foldl (fun _ i ht => ctrlKept_setStreamState ht k i st) h
  have hport : CtrlKept s (setPort (loopUnitReset t q) q.inst noPort) := ctrlKept_congr (ctrlKept_loopUnitReset h) rfl rfl
  cases hc : q.cls with
  | m | v | a | l | f | t =>
    simp only [enableAct, hc]
    exact ctrlKept_ite (ctrlKept_ite (hcore _ _) h) (hcore _ _)
  | c =>
    simp only [enableAct, hc]
    exact ctrlKept_ite (ctrlKept_ite (ctrlKept_setPgState h _) h) (ctrlKept_setPgState h _)
  | aphy =>
    simp only [enableAct, hc]
    exact ctrlKept_ite (ctrlKept_ite (ctrlKept_setPgState h _) h) (ctrlKept_setPgState hport _)
  | eth | can | plca | spi =>
    simp only [enableAct, hc]
    exact ctrlKept_portEnable h en
  | _ =>
    simp only [enableAct, hc]
    exact h

end

theorem enabled_of_ctrlKept {t : State} (h : CtrlKept s t) (p : Page) : enabled t p = enabled s p := by
  rw [enabled, enabled, regBit, regBit, h.1]

theorem enabled_setReg (s : State) (p : Page) (en : Bool) : enabled (setReg s p 0x008 (if en then 1 else 0)) p = en := by
  rw [enabled, regBit, regVal_setReg_same]
  cases en <;> rfl

/-- ENABLE as written stands, whatever the block does. -/
theorem enabled_enableAct (s : State) (p : Page) (en : Bool) : enabled (enableAct (setReg s p 0x008 (if en then 1 else 0)) p en) p = en :=
  (enabled_of_ctrlKept (ctrlKept_enableAct (ctrlKept_refl _) en) p).trans (enabled_setReg s p en)

/-- Blocks without an enabled state of their own. -/
theorem enableAct_plain (s : State) (hc : p.cls = .device ∨ p.cls = .tally ∨ p.cls = .mailbox ∨ p.cls = .part) (en : Bool) :
    enableAct s p en = s := by
  rcases hc with h | h | h | h <;> simp only [enableAct, h]

/-- The state that a C-core and an A-PHY port take when they are enabled. -/
def enabledState (p : Page) : Nat := if p.cls = .c then ccRun else apDown

theorem enableAct_fromOff (s : State) (hc : p.cls = .c ∨ p.cls = .aphy) (h0 : pgState s p = 0) :
    enableAct s p true = setPgState s p (enabledState p) := by
  rcases hc with h | h
  · have hoff : pgState s p = cOff := h0
    simp [enableAct, enabledState, h, hoff]
  · have hoff : pgState s p = apOff := h0
    simp [enableAct, enabledState, h, hoff]

/-! ### PG_ERRINJ (R91) -/

/-- The flags written, each for the next boundary. -/
theorem foldl_errFlag (p : Page) (bits : Word) : ∀ (xs : List Nat) (s : State),
    xs.foldl (fun t n => if bit bits n then atBoundary t (.errFlag p n) else t) s =
      { s with atTick := s.atTick ++ ((xs.filter fun n => bit bits n).map fun n => BAct.errFlag p n) } := by
  intro xs
  induction xs with
  | nil => intro s; simp
  | cons x xs ih =>
    intro s
    rw [List.foldl_cons, ih]
    cases hx : bit bits x <;> simp [hx, atBoundary]

theorem accept_errInject (s : State) (p : Page) (bits : Word) : accept s p 0x018 bits =
    { s with atTick := s.atTick ++ (((List.range 32).filter fun n => bit bits n).map fun n => BAct.errFlag p n) } :=
  foldl_errFlag p bits (List.range 32) s

/-! ### PG_OWNER (R98) -/

theorem regRow_owner (p : Page) : regRow p 0x020 = some
    { name := "PG_OWNER", first := 0x020, rw := 0x100, ro := 0x60F
      reset := BitVec.ofNat 32 (defaultOwner p + (if defaultShared p then 0x200 else 0)) } := by
  simp [regRow, headerRows, rowHas]

theorem keep_or_set (old m : Word) : (old &&& ~~~m) ||| ((old ||| m) &&& m) = old ||| m := by
  apply BitVec.eq_of_getLsbD_eq
  intro i hi
  simp only [BitVec.getLsbD_or, BitVec.getLsbD_and, BitVec.getLsbD_not, hi, decide_true, Bool.true_and]
  cases old.getLsbD i <;> cases m.getLsbD i <;> rfl

/-- LOCKED is the one bit of PG_OWNER that a write stores. -/
theorem accept_owner (s : State) (p : Page) :
    accept s p 0x020 (regVal s p 0x020 ||| 0x100#32) = setReg s p 0x020 (regVal s p 0x020 ||| 0x100#32) := by
  rw [accept_header (by decide) (by decide) (by decide) (regRow_owner p) (.inr (by decide))]
  have hrw : (0x100 : Word) ||| 0 = 0x100#32 := rfl
  have h0 (w k : Word) : ~~~(w &&& 0 &&& k) = allOnes := by
    simp
    rfl
  simp only [storedBits, hrw, h0, keep_or_set]
  exact congrArg (setReg s p 0x020) BitVec.and_allOnes

theorem field_or_locked (w : Word) : field (w ||| 0x100#32) 3 0 = field w 3 0 := by
  apply Nat.eq_of_testBit_eq
  intro i
  rw [testBit_field, testBit_field, BitVec.getLsbD_or]
  by_cases hi : i < 4
  · have hm : (0x100#32).getLsbD (0 + i) = false := by
      interval_cases i <;> rfl
    rw [hm, Bool.or_false]
  · simp [hi]

/-! ### DEVICE (R101, R114) -/

/-- An accepted write of the DEVICE page stores what its register keeps, and acts. -/
theorem accept_device (s : State) (v : Word) :
    (∃ w, accept s devPage 0x108 v = atBoundary (setReg s devPage 0x108 w) (.level (BitVec.ofNat 8 (field v 7 0)))) ∧
      ∃ w, accept s devPage 0x11C v = atBoundary (setReg s devPage 0x11C w) (.presetBegin (field v 3 0)) :=
  ⟨⟨_, rfl⟩, ⟨_, rfl⟩⟩

theorem field_level (level : Byte) : BitVec.ofNat 8 (field (level.setWidth 32 : Word) 7 0) = level := by
  apply BitVec.eq_of_toNat_eq
  have := level.isLt
  simp only [field, BitVec.toNat_ofNat, BitVec.toNat_setWidth, Nat.shiftRight_zero]
  omega

theorem field_part (n : Part) : field (BitVec.ofNat 32 n.val) 3 0 = n.val := by
  have := n.isLt
  simp only [field, BitVec.toNat_ofNat, Nat.shiftRight_zero]
  omega

/-- Settles O10: each command by what its accepted write leaves. -/
theorem headerCommands : Obligations.HeaderCommands := by
  refine ⟨fun s r p en h => ⟨_, exec_softReset h, rfl⟩, fun s r p en h => ?_, fun s r p h hc => ?_, fun s r p h hc h0 => ?_,
    fun s r p bits h => ?_, fun s r p h => ?_, fun s r level h => ?_, fun s r n h => ?_⟩
  · refine ⟨_, exec_pgCtrlEnable h, enabled_enableAct s p en, rfl, ?_⟩
    exact (ctrlKept_enableAct (ctrlKept_refl _) en).2
  · refine ⟨_, exec_pgCtrlEnable (en := true) h, enabled_enableAct s p true, ?_⟩
    rw [enableAct_plain _ hc]
    exact ⟨regsBut_answer.2 (regsBut_setReg (regsBut_refl _ s) (.head _) _), rfl⟩
  · have h0' : pgState (setReg s p 0x008 (if true then 1 else 0)) p = 0 := by
      rw [← h0, pgState, pgState, regField, regField, regVal_setReg_off _ _ _ (by decide)]
    refine ⟨_, exec_pgCtrlEnable (en := true) h, enabled_enableAct s p true, ?_⟩
    rw [enableAct_fromOff _ hc h0']
    refine ⟨?_, regsBut_answer.2 ?_, ?_⟩
    · refine (pgState_setPgState _ _ _).trans ?_
      unfold enabledState
      split <;> rfl
    · exact regsBut_setPgState (regsBut_setReg (regsBut_refl _ s) (.head _) _) (.tail _ (.head _)) (.tail _ (.tail _ (.head _))) _
    · rw [setPgState_frame]
      rfl
  · refine ⟨_, congrArg Host.Outcome.next (regWrite_accept h), ?_⟩
    rw [accept_errInject]
    exact ⟨rfl, rfl, rfl⟩
  · refine ⟨_, congrArg Host.Outcome.next ((regWrite_accept h).trans (congrArg (answer · .ok 0) (accept_owner s p))), ?_, ?_, ?_, rfl⟩
    · rw [pageLocked, regBit, regVal_answer, regVal_setReg_same, bit_or]
      exact Bool.or_true _
    · rw [pageOwner, pageOwner, regField, regField, regVal_answer, regVal_setReg_same, field_or_locked]
    · exact regsBut_answer.2 (regsBut_setReg (regsBut_refl _ s) (.head _) _)
  · obtain ⟨w, hw⟩ := (accept_device s (level.setWidth 32)).1
    rw [field_level] at hw
    refine ⟨_, congrArg Host.Outcome.next ((regWrite_accept h).trans (congrArg (answer · .ok 0) hw)), rfl, ?_, rfl⟩
    exact regsBut_answer.2 (regsBut_setReg (regsBut_refl _ s) (.head _) w)
  · obtain ⟨w, hw⟩ := (accept_device s (BitVec.ofNat 32 n.val)).2
    rw [field_part] at hw
    refine ⟨_, congrArg Host.Outcome.next ((regWrite_accept h).trans (congrArg (answer · .ok 0) hw)), rfl, ?_, rfl⟩
    exact regsBut_answer.2 (regsBut_setReg (regsBut_refl _ s) (.head _) w)

end Sys2Proof.Machine
end

section
/-! PROOFS. The issue of a command (R148, R436, R438): a rejection fails its job and withdraws the job's other offers, and on a map of streams
that holds a key twice this uncovers an offer that no read of the state showed. -/

namespace Sys2Proof.Machine

open Sys2Proof.Tests

/-- An offer of a job, of a descriptor with LEVEL 0, which every row rejects with RANGE (R104). -/
def levelZeroOffer (op job : Nat) : Offer := { anyOffer [BitVec.ofNat 32 (op * 65536)] with job := job }

/-- A-core 0 offered an ATTN on stream 0 and a KV_APPEND of the same job on stream 1; behind the KV_APPEND the map of streams holds a second
entry of the same stream, an ATTN of another job. -/
def doubledStream : State :=
  { setJob running 0 job0 with
    cores := [(streamKey a0 0, ⟨some (levelZeroOffer 1 0), none⟩), (streamKey a0 1, ⟨some (levelZeroOffer 2 0), none⟩),
      (streamKey a0 1, ⟨some (levelZeroOffer 1 1), none⟩)] }

/-- The hypotheses of an issue of ATTN on stream 0 hold. -/
theorem doubledStream_offers : devRunning doubledStream = true ∧ (coreSt doubledStream a0 0).offered = some (levelZeroOffer 1 0) ∧
    rowOf a0 (levelZeroOffer 1 0).desc = 1 ∧ (coreSt doubledStream a0 1).offered = some (levelZeroOffer 2 0) ∧
    rowOf a0 (levelZeroOffer 2 0).desc ≠ 1 ∧ streamBusy (streamState doubledStream a0 0) = false := by decide

theorem doubledStream_status : issueStatus doubledStream a0 0 (levelZeroOffer 1 0) ≠ .ok := by decide

/-- The row records two rejections: the offer's own, and that of the ATTN that the withdrawn KV_APPEND hid. -/
theorem doubledStream_count {t : State} (h : exec (.attn 0) doubledStream = .next t) : ctrVal t (corePage a0) 0 = 2 := by
  cases h
  decide

/-- Refutes O46: on `doubledStream` an ATTN that is rejected advances counter slot 0 of its core's page by two. The statement ranges over every
state, canonical or not; a map of streams with one entry for each key hides no offer. -/
theorem not_commandsIssue : ¬ Obligations.CommandsIssue := by
  unfold Obligations.CommandsIssue
  rintro ⟨-, -, -, -, -, -, -, -, -, -, -, -, -, -, -, hattn, -⟩
  obtain ⟨hrun, hoff, hrow, hother, hne, hfree⟩ := doubledStream_offers
  have hstreams : ∀ i ∈ streamsOf a0, i ≠ 0 → ∀ o', (coreSt doubledStream a0 i).offered = some o' → rowOf a0 o'.desc ≠ 1 := by
    intro i hi h0 o' ho'
    have h1 : i = 1 := by
      have : i = 0 ∨ i = 1 := by simpa [streamsOf, a0] using hi
      omega
    subst h1
    rw [hother] at ho'
    cases ho'
    exact hne
  obtain ⟨t, ht, -, -, hcount, -⟩ := (hattn 0 doubledStream _ hrun hoff hrow hstreams hfree).2 doubledStream_status
  have h2 := doubledStream_count ht
  rw [Counted] at hcount
  rw [show (⟨.a, ((0 : Fin 8) : Nat)⟩ : CoreId) = a0 from rfl, h2] at hcount
  exact absurd hcount (by decide)

end Sys2Proof.Machine
end

section
/-! PROOFS. What a write through a partition's range leaves alone (R213 to R216, R234, R239): every register, every Tally, every stream and
every job stand, and of the counters only those of units and pages programmed advance. -/

namespace Sys2Proof.Machine

/-! ### Writes through a partition's range -/

/-- A state without its tiers, its free values and its counters, and the counters but for slot 2 of every page. -/
def offTier (s : State) : State × (Nat → DWord) :=
  ({ s with mem := MemSt.reset, free := 0, ctrs := [], cnt := { s.cnt with wraps := [] } },
    fun x => if x % 0x1000 = 0x050 then 0 else smGet 0 s.ctrs x)

section
variable {s t : State}

theorem regs_of_offTier (h : offTier t = offTier s) : t.regs = s.regs := congrArg (fun x => x.1.regs) h
theorem tally_of_offTier (h : offTier t = offTier s) : t.tally = s.tally := congrArg (fun x => x.1.tally) h
theorem jobs_of_offTier (h : offTier t = offTier s) : t.jobs = s.jobs := congrArg (fun x => x.1.jobs) h
theorem dev_of_offTier (h : offTier t = offTier s) : t.dev = s.dev := congrArg (fun x => x.1.dev) h
theorem tracks_of_offTier (h : offTier t = offTier s) : t.tracks = s.tracks := congrArg (fun x => x.1.tracks) h

theorem ctrs_of_offTier (h : offTier t = offTier s) {x : Nat} (hx : x % 0x1000 ≠ 0x050) : smGet 0 t.ctrs x = smGet 0 s.ctrs x := by
  have := congrFun (congrArg Prod.snd h) x
  simpa [offTier, hx] using this

end

variable (s : State)

theorem offTier_foldl {α : Type} {f : State → α → State} (hf : ∀ t x, offTier (f t x) = offTier t) (xs : List α) (s : State) :
    offTier (xs.foldl f s) = offTier s :=
  foldl_leaves offTier hf xs s

/-- A count in slot 2. -/
@[simp] theorem offTier_ctrAdd (p : Page) (n : Nat) : offTier (ctrAdd s p 2 n) = offTier s := by
  have hc : (fun x => if x % 0x1000 = 0x050 then (0 : DWord) else smGet 0 (ctrAdd s p 2 n).ctrs x) =
      fun x => if x % 0x1000 = 0x050 then 0 else smGet 0 s.ctrs x := by
    funext x
    split
    · rfl
    · next hx => exact ctrs_ctrAdd_ne s p 2 n x fun e => hx (by rw [← e, ctrKey_mod (by decide)])
  refine Prod.ext ?_ hc
  unfold ctrAdd
  dsimp only
  split_ifs <;> rfl

@[simp] theorem offTier_spendFree (n : Nat) : offTier (spendFree s n) = offTier s := rfl
@[simp] theorem offTier_setUnits (key : Nat) (bs : List Nat) : offTier (setUnits s key bs) = offTier s := rfl
@[simp] theorem offTier_setWear (k b : Nat) (w : BlockWear) : offTier (setWear s k b w) = offTier s := rfl
@[simp] theorem offTier_setPte (n v : Nat) (e : Pte) : offTier (setPte s n v e) = offTier s := rfl

@[simp] theorem offTier_programUnit (ch : Nat) : offTier (programUnit s ch).2 = offTier s := by
  unfold programUnit
  dsimp only
  rw [offTier_ctrAdd, offTier_setWear]
  split
  · rfl
  · split <;> rfl

@[simp] theorem offTier_programPage (n lpn : Nat) : offTier (programPage s n lpn) = offTier s := by
  unfold programPage
  dsimp only
  rw [offTier_ctrAdd, offTier_setUnits]
  exact List.foldlRecOn (motive := fun acc : List Nat × State => offTier acc.2 = offTier s) _ _ rfl
    fun acc hacc c _ => (offTier_programUnit acc.2 c).trans hacc

@[simp] theorem offTier_freeFrame (t : Tier) (f : Nat) : offTier (freeFrame s t f) = offTier s := by
  unfold freeFrame
  split
  · rfl
  · cases t <;> rfl

@[simp] theorem offTier_pageWritten (n v : Nat) : offTier (pageWritten s n v) = offTier s := by
  unfold pageWritten
  dsimp only
  split
  · split_ifs <;> simp
  · rfl
  · simp

@[simp] theorem offTier_writeByte (n a : Nat) (b : Byte) : offTier (writeByte s n a b) = offTier s := rfl

@[simp] theorem offTier_writeList (n a : Nat) (bs : List Byte) : offTier (writeList s n a bs) = offTier s := by
  induction bs generalizing s a with
  | nil => rfl
  | cons b bs ih => rw [writeList, ih, offTier_writeByte]

@[simp] theorem offTier_setCode (n a c : Nat) : offTier (setCode s n a c) = offTier s := by
  unfold setCode
  dsimp only
  split <;> rfl

@[simp] theorem offTier_writePage (n a : Nat) (bs : List Byte) : offTier (writePage s n a bs) = offTier s := by
  unfold writePage
  split_ifs
  · rfl
  · rfl
  · rw [offTier_foldl fun _ _ => offTier_setCode _ _ _ _, offTier_pageWritten, offTier_writeList]

@[simp] theorem offTier_writeBytes (n a : Nat) (bs : List Byte) : offTier (writeBytes s n a bs) = offTier s :=
  offTier_foldl (fun _ _ => offTier_writePage _ _ _ _) _ _

/-! ### Stage-out (R123, R152) -/

@[simp] theorem offTier_writeOut (part : Nat) (o : CmdOut) : offTier (writeOut s part o) = offTier s := by
  unfold writeOut
  exact (offTier_foldl (fun _ _ => offTier_setCode _ _ _ _) _ _).trans (offTier_foldl (fun _ _ => offTier_writeBytes _ _ _ _) _ _)

@[simp] theorem offTier_spoilOut (part : Nat) (o : CmdOut) : offTier (spoilOut s part o) = offTier s := by
  unfold spoilOut
  refine offTier_foldl (fun t x => ?_) _ _
  split
  · exact offTier_writeBytes _ _ _ _
  · rfl

/-- Without stores nothing is spoiled. -/
theorem spoilOut_of_no_stores {part : Nat} {o : CmdOut} (h : o.stores = []) : spoilOut s part o = s := by
  rw [spoilOut, h]
  rfl

/-! ### The command trace (R535) -/

/-- The trace off, nothing is recorded. -/
theorem traceCmd_of_off {k : CoreId} {o : Offer} {st : Status} {ended : Bool} (h : regBit s (partPage o.part) 0x748 31 = false) :
    traceCmd s k o st ended = s := by
  have hb : bit (regVal s (partPage o.part) 0x748) 31 = false := h
  simp [traceCmd, traceEvent, hb]

/-- A record of the trace is written through the partition's range, and TPOS advances. -/
theorem traceCmd_cases (k : CoreId) (o : Offer) (st : Status) (ended : Bool) : traceCmd s k o st ended = s ∨
    ∃ t w, offTier t = offTier s ∧ traceCmd s k o st ended = setReg t (partPage o.part) 0x750 w := by
  unfold traceCmd traceEvent
  dsimp only
  split
  · exact .inl rfl
  · refine .inr ⟨_, _, ?_, rfl⟩
    split
    · exact offTier_writeBytes _ _ _ _
    · rfl

end Sys2Proof.Machine
end

section
/-! PROOFS. What the end of a command leaves alone (R147, R148, R182): the Tallies, the bytes of memory, DEVICE and the jobs; and of the registers
those at offsets that no record of the end, no stream state and no message to the mate has. -/

namespace Sys2Proof.Machine

/-! ### Offsets that an operation leaves -/

/-- The offset `o` is none of `offs`, all of them within a page. -/
abbrev AwayFrom (o : Nat) (offs : List Nat) : Prop := o < 0x1000 ∧ ∀ x ∈ offs, x < 0x1000 ∧ x ≠ o

/-- The Tallies, the bytes of memory, DEVICE and the jobs, with the register at `o` of every page. -/
def calm (o : Nat) (s : State) : SMap Word × List Host.Cell × DevSt × SMap Job × (Page → Word) :=
  (s.tally, s.mem.cells, s.dev, s.jobs, fun p => regVal s p o)

section
variable {o : Nat} {s t : State}

theorem calm_iff : calm o t = calm o s ↔
    t.tally = s.tally ∧ t.mem.cells = s.mem.cells ∧ t.dev = s.dev ∧ t.jobs = s.jobs ∧ ∀ p, regVal t p o = regVal s p o := by
  simp [calm, funext_iff]

theorem tally_of_calm (h : calm o t = calm o s) : t.tally = s.tally := (calm_iff.1 h).1
theorem cells_of_calm (h : calm o t = calm o s) : t.mem.cells = s.mem.cells := (calm_iff.1 h).2.1
theorem dev_of_calm (h : calm o t = calm o s) : t.dev = s.dev := (calm_iff.1 h).2.2.1
theorem jobs_of_calm (h : calm o t = calm o s) : t.jobs = s.jobs := (calm_iff.1 h).2.2.2.1
theorem regVal_of_calm (h : calm o t = calm o s) (p : Page) : regVal t p o = regVal s p o := (calm_iff.1 h).2.2.2.2 p

end

variable (s : State)

theorem calm_foldl {o : Nat} {α : Type} {f : State → α → State} (hf : ∀ t x, calm o (f t x) = calm o t) (xs : List α) (s : State) :
    calm o (xs.foldl f s) = calm o s :=
  foldl_leaves (calm o) hf xs s

/-! ### Registers and counters -/

theorem regKey_ne_of_off {p q : Page} {off o : Nat} (hoff : off < 0x1000) (ho : o < 0x1000) (h : off ≠ o) : regKey p off ≠ regKey q o := fun e =>
  h (by rw [← regKey_mod (p := p) hoff, e, regKey_mod ho])

theorem calm_setReg {o off : Nat} (h : AwayFrom o [off]) (p : Page) (v : Word) : calm o (setReg s p off v) = calm o s := by
  obtain ⟨ho, h⟩ := h
  obtain ⟨hoff, hne⟩ := h off List.mem_cons_self
  exact calm_iff.2 ⟨rfl, rfl, rfl, rfl, fun q => regVal_setReg_ne s p q v (regKey_ne_of_off hoff ho hne)⟩

theorem calm_setRegField {o off : Nat} (h : AwayFrom o [off]) (p : Page) (hi lo v : Nat) : calm o (setRegField s p off hi lo v) = calm o s :=
  calm_setReg s h p _

theorem calm_orReg {o off : Nat} (h : AwayFrom o [off]) (p : Page) (v : Word) : calm o (orReg s p off v) = calm o s :=
  calm_setReg s h p _

theorem calm_rcEvent {o off : Nat} (h : AwayFrom o [off]) (p : Page) (f : Word → Word) : calm o (rcEvent s p off f) = calm o s :=
  calm_setReg s h p _

theorem calm_setFlag {o : Nat} (h : AwayFrom o [0x010]) (p : Page) (n : Nat) : calm o (setFlag s p n) = calm o s := by
  have e := calm_orReg s h p (bitMask n)
  unfold setFlag
  dsimp only
  split
  · exact e
  · exact e

@[simp] theorem calm_ctrAdd (o : Nat) (p : Page) (slot n : Nat) : calm o (ctrAdd s p slot n) = calm o s :=
  calm_iff.2 ⟨by simp, by simp, by simp, by simp, fun q => regVal_congr (ctrAdd_regs s p slot n) q o⟩

@[simp] theorem calm_spendFree (o n : Nat) : calm o (spendFree s n) = calm o s := rfl

@[simp] theorem calm_atBoundary (o : Nat) (a : BAct) : calm o (atBoundary s a) = calm o s := rfl

/-! ### The record of an end (R148, R182) -/

variable (k : CoreId) (stream : Nat)

theorem calm_recordLast {o : Nat} (h : AwayFrom o [0x100, 0x104, 0x108]) (op flags clocks : Nat) (st : Status) :
    calm o (recordLast s k stream op flags clocks st) = calm o s := by
  obtain ⟨ho, h⟩ := h
  have h1 : ∀ x ∈ [0x100, 0x104, 0x108], AwayFrom o [x] := fun x hx => ⟨ho, by simpa using h x hx⟩
  unfold recordLast
  rw [calm_orReg _ (h1 0x108 (by simp)), calm_setReg _ (h1 0x104 (by simp)), calm_setReg _ (h1 0x100 (by simp))]

@[simp] theorem calm_countClocks (o : Nat) (c : EndClocks) : calm o (countClocks s k stream c) = calm o s := by
  unfold countClocks
  split
  case h_3 => split <;> simp
  all_goals simp

@[simp] theorem calm_countOk (o : Nat) (x : CmdOut) : calm o (countOk s k stream x) = calm o s :=
  (calm_foldl (fun t _ => calm_ctrAdd t o _ _ _) _ _).trans (calm_ctrAdd s o _ _ _)

@[simp] theorem calm_countBad (o : Nat) (x : CmdOut) (whole : Bool) : calm o (countBad s k x whole) = calm o s := by
  unfold countBad
  exact calm_foldl (fun t _ => by split <;> simp) _ _

theorem calm_recordEnd {o : Nat} (h : AwayFrom o [0x100, 0x104, 0x108]) (r : CmdRun) (x : CmdOut) (c : EndClocks) (st : Status) (whole : Bool) :
    calm o (recordEnd s k stream r x c st whole) = calm o s := by
  unfold recordEnd
  dsimp only
  split_ifs <;> simp [calm_recordLast _ _ _ h]

@[simp] theorem countClocks_regs (c : EndClocks) : (countClocks s k stream c).regs = s.regs := by
  unfold countClocks
  split
  case h_3 => split <;> simp
  all_goals simp

@[simp] theorem countOk_regs (x : CmdOut) : (countOk s k stream x).regs = s.regs :=
  (foldl_leaves State.regs (fun t _ => ctrAdd_regs t _ _ _) _ _).trans (ctrAdd_regs s _ _ _)

@[simp] theorem countBad_regs (x : CmdOut) (whole : Bool) : (countBad s k x whole).regs = s.regs := by
  unfold countBad
  exact foldl_leaves State.regs (fun t _ => by split <;> simp) _ _

/-- The LAST register after an end. -/
def lastWord (op flags : Nat) (st : Status) : Word :=
  BitVec.ofNat 32 ((if stream = 1 then 2 ^ 21 else 0) + flags * 2 ^ 16 + op * 256 + statusCode st)

theorem regVal_recordLast (op flags clocks : Nat) (st : Status) :
    regVal (recordLast s k stream op flags clocks st) (corePage k) 0x100 = lastWord stream op flags st := by
  unfold recordLast
  dsimp only
  rw [regVal_orReg_ne _ _ _ _ (regKey_ne_of_off (by decide) (by decide) (by decide)), regVal_setReg_off _ _ _ (by decide), regVal_setReg_same]
  rfl

theorem regVal_recordEnd (r : CmdRun) (x : CmdOut) (c : EndClocks) (st : Status) (whole : Bool) : ∃ flags,
    regVal (recordEnd s k stream r x c st whole) (corePage k) 0x100 = lastWord stream (opOf r.offer.desc) flags st := by
  refine ⟨if st = .ok then x.flags else if k.cls = .a then x.flags / 8 * 8 else 0, ?_⟩
  rw [← regVal_recordLast s k stream _ _ (if st = .ok then x.clocks + c.extra else spanClocks s k r)]
  refine regVal_congr ?_ _ _
  unfold recordEnd
  dsimp only
  split_ifs <;> simp

theorem field_lastWord_status (op flags : Nat) (st : Status) : field (lastWord stream op flags st) 7 0 = statusCode st := by
  have := statusCode_lt st
  simp [field, lastWord]
  split_ifs <;> omega

theorem field_lastWord_op {op : Nat} (hop : op < 256) (flags : Nat) (st : Status) : field (lastWord stream op flags st) 15 8 = op := by
  have := statusCode_lt st
  simp [field, lastWord, Nat.shiftRight_eq_div_pow]
  split_ifs <;> omega

/-! ### A stream's state and its end -/

theorem calm_setBusy {o : Nat} (h : AwayFrom o [0x00C]) (p : Page) (b : Bool) : calm o (setBusy s p b) = calm o s := calm_setReg s h p _

theorem calm_setPgState {o : Nat} (h : AwayFrom o [0x00C, 0x028]) (p : Page) (st : Nat) : calm o (setPgState s p st) = calm o s := by
  obtain ⟨ho, h⟩ := h
  have h1 : ∀ x ∈ [0x00C, 0x028], AwayFrom o [x] := fun x hx => ⟨ho, by simpa using h x hx⟩
  unfold setPgState
  split
  · rfl
  · rw [calm_setReg _ (h1 0x028 (by simp)), calm_setRegField _ (h1 0x00C (by simp))]

theorem calm_setStreamState {o : Nat} (h : AwayFrom o [0x00C, 0x028, 0x118]) (st : Nat) : calm o (setStreamState s k stream st) = calm o s := by
  obtain ⟨ho, h⟩ := h
  have h1 : ∀ x ∈ [0x00C, 0x028, 0x118], AwayFrom o [x] := fun x hx => ⟨ho, by simpa using h x hx⟩
  have h2 : AwayFrom o [0x00C, 0x028] := ⟨ho, fun x hx => h x (by simp at hx ⊢; omega)⟩
  unfold setStreamState
  dsimp only
  rw [calm_setBusy _ (h1 0x00C (by simp))]
  split
  · rw [calm_setRegField _ (h1 0x118 (by simp)), calm_setRegField _ (h1 0x118 (by simp))]
  · exact calm_setPgState s h2 _ _

theorem calm_setStreamOp {o : Nat} (h : AwayFrom o [0x00C, 0x118]) (op sub : Nat) : calm o (setStreamOp s k stream op sub) = calm o s := by
  obtain ⟨ho, h⟩ := h
  have h1 : ∀ x ∈ [0x00C, 0x118], AwayFrom o [x] := fun x hx => ⟨ho, by simpa using h x hx⟩
  have h0 := h1 0x00C (by simp)
  unfold setStreamOp
  dsimp only
  split
  · exact calm_setRegField s (h1 0x118 (by simp)) _ _ _ _
  · split
    · rw [calm_setRegField _ h0, calm_setRegField _ h0]
    · rw [calm_setRegField _ h0, calm_setRegField _ h0]
    · rw [calm_setRegField _ h0]

@[simp] theorem calm_setCore (o : Nat) (c : CoreSt) : calm o (setCore s k stream c) = calm o s := rfl
@[simp] theorem calm_clearFace (o : Nat) : calm o (clearFace s k stream) = calm o s := rfl
@[simp] theorem calm_leaveTags (o : Nat) : calm o (leaveTags s k stream) = calm o s := rfl

@[simp] theorem calm_dropPins (o part pool : Nat) (pins : List (Nat × Nat)) : calm o (dropPins s part pool pins) = calm o s := by
  unfold dropPins
  exact calm_foldl (fun _ _ => by rfl) _ _

@[simp] theorem calm_kvPrefetchEnd (o : Nat) : calm o (kvPrefetchEnd s k) = calm o s := by
  unfold kvPrefetchEnd
  split
  · rfl
  · dsimp only
    exact calm_foldl (fun _ _ => calm_atBoundary _ _ _) _ _

@[simp] theorem calm_giveBack (o p pool : Nat) (rows : List KvRow) : calm o (giveBack s p pool rows) = calm o s := by
  unfold giveBack
  exact calm_foldl (fun _ _ => by split <;> rfl) _ _

theorem calm_quitStream {o : Nat} (h : AwayFrom o [0x00C, 0x028, 0x118]) (r : CmdRun) : calm o (quitStream s k stream r) = calm o s := by
  have h2 : AwayFrom o [0x00C, 0x118] := ⟨h.1, fun x hx => h.2 x (by simp at hx ⊢; omega)⟩
  unfold quitStream
  dsimp only
  split <;> simp [calm_setStreamOp _ _ _ h2, calm_setStreamState _ _ _ h]

end Sys2Proof.Machine
end

section
/-! PROOFS. A stream's state, its command and its end (R147, R182): a stream that is quit is idle and has neither a command nor an offer, and
the job of its command takes nothing of that back. -/

namespace Sys2Proof.Machine

variable (s : State) (k : CoreId) (i : Nat)

/-! ### The state of a stream (R118) -/

theorem streamState_congr {s t : State} (h : t.regs = s.regs) (k : CoreId) (i : Nat) : streamState t k i = streamState s k i := by
  simp only [streamState, pgState, regField, regVal_congr h]

theorem regVal_setRegField_same (p : Page) (off hi lo v : Nat) :
    regVal (setRegField s p off hi lo v) p off = setField (regVal s p off) hi lo v :=
  regVal_setReg_same s p off _

theorem regVal_setRegField_off (p : Page) {off o : Nat} (hi lo v : Nat) (h : off ≠ o) :
    regVal (setRegField s p off hi lo v) p o = regVal s p o :=
  regVal_setReg_off s p _ h

theorem regField_setRegField_ne (p : Page) (off v : Nat) {hi lo hi' lo' : Nat} (h : hi < lo' ∨ hi' < lo) :
    regField (setRegField s p off hi lo v) p off hi' lo' = regField s p off hi' lo' := by
  rw [regField, regVal_setRegField_same, field_setField_ne _ _ h]
  rfl

theorem pgState_setBusy (p : Page) (b : Bool) : pgState (setBusy s p b) p = pgState s p :=
  regField_setRegField_ne s p _ _ (by decide)

theorem streamState_setBusy (b : Bool) : streamState (setBusy s (corePage k) b) k i = streamState s k i := by
  unfold streamState
  split
  · exact congrArg (field · 7 4) (regVal_setRegField_off s _ _ _ _ (by decide))
  · exact pgState_setBusy s _ _

/-- A stream is in the state that it is put in. -/
theorem streamState_setStreamState {st : Nat} (hst : st < 16) : streamState (setStreamState s k i st) k i = st := by
  unfold setStreamState
  dsimp only
  rw [streamState_setBusy]
  unfold streamState
  split
  · rw [regField_setRegField_ne _ _ _ _ (by decide), regField, regVal_setRegField_same, field_setField_same _ _ (by decide)]
    exact Nat.mod_eq_of_lt hst
  · rw [pgState_setPgState]
    exact Nat.mod_eq_of_lt hst

/-- The opcode in force is no part of the state. -/
theorem streamState_setStreamOp (op sub : Nat) : streamState (setStreamOp s k i op sub) k i = streamState s k i := by
  unfold streamState setStreamOp
  dsimp only
  split
  · exact regField_setRegField_ne s _ _ _ (by decide)
  · unfold pgState
    split
    · rw [regField_setRegField_ne _ _ _ _ (by decide), regField_setRegField_ne _ _ _ _ (by decide)]
    · rw [regField_setRegField_ne _ _ _ _ (by decide), regField_setRegField_ne _ _ _ _ (by decide)]
    · rw [regField_setRegField_ne _ _ _ _ (by decide)]

/-! ### The commands and offers of the streams -/

/-- The stream has neither a command nor an offer. -/
def StreamFree (s : State) (k : CoreId) (i : Nat) : Prop := smFind s.cores (streamKey k i) = none

theorem coreSt_congr {s t : State} (h : t.cores = s.cores) (k : CoreId) (i : Nat) : coreSt t k i = coreSt s k i := by
  simp only [coreSt, h]

theorem curOf_congr {s t : State} (h : t.cores = s.cores) (k : CoreId) (i : Nat) : curOf t k i = curOf s k i :=
  congrArg CoreSt.cur (coreSt_congr h k i)

theorem StreamFree.congr {s t : State} {k : CoreId} {i : Nat} (hs : StreamFree s k i) (h : t.cores = s.cores) : StreamFree t k i := by
  rw [StreamFree, h]
  exact hs

theorem StreamFree.curOf {s : State} {k : CoreId} {i : Nat} (h : StreamFree s k i) : curOf s k i = none := by
  rw [Machine.curOf, coreSt, smGet_of_smFind_none _ h]
  rfl

@[simp] theorem coreSt_setCore (c : CoreSt) : coreSt (setCore s k i c) k i = c := smGet_smSet_same _ _ _ _

theorem coreSt_setCore_ne {q : CoreId} {j : Nat} (h : streamKey k i ≠ streamKey q j) (c : CoreSt) :
    coreSt (setCore s k i c) q j = coreSt s q j :=
  smGet_smSet_ne _ _ _ _ h

@[simp] theorem curOf_setCur (r : CmdRun) : curOf (setCur s k i r) k i = some r := by simp [curOf, setCur]

theorem curOf_setCur_ne {q : CoreId} {j : Nat} (h : streamKey k i ≠ streamKey q j) (r : CmdRun) :
    curOf (setCur s k i r) q j = curOf s q j :=
  congrArg CoreSt.cur (coreSt_setCore_ne s k i h _)

theorem streamFree_setCore : StreamFree (setCore s k i noCore) k i := by
  have h : (setCore s k i noCore).cores = smDel s.cores (streamKey k i) := by simp [setCore, smSet]
  rw [StreamFree, h, smFind_smDel_same]

/-- What frees one stream leaves another free. -/
theorem StreamFree.setCore {s : State} {k : CoreId} {i : Nat} (h : StreamFree s k i) (q : CoreId) (j : Nat) :
    StreamFree (setCore s q j noCore) k i := by
  by_cases e : streamKey q j = streamKey k i
  · have := streamFree_setCore s q j
    rw [StreamFree, e] at this
    exact this
  · have hd : (Machine.setCore s q j noCore).cores = smDel s.cores (streamKey q j) := by simp [Machine.setCore, smSet]
    rw [StreamFree, hd, smFind_smDel_ne _ e]
    exact h

/-! ### The end of a stream (R147) -/

section
variable {s t : State}

theorem cores_of_onlyBlock (h : OnlyBlock s t) : t.cores = s.cores := (congrArg State.cores h : _ = (withBlock t s).cores)
theorem tracks_of_onlyBlock (h : OnlyBlock s t) : t.tracks = s.tracks := (congrArg State.tracks h : _ = (withBlock t s).tracks)
theorem seq_of_onlyBlock (h : OnlyBlock s t) : t.seq = s.seq := (congrArg State.seq h : _ = (withBlock t s).seq)
theorem time_of_onlyBlock (h : OnlyBlock s t) : t.time = s.time := (congrArg State.time h : _ = (withBlock t s).time)

end

theorem onlyBlock_setStreamState (st : Nat) : OnlyBlock s (setStreamState s k i st) := by
  unfold setStreamState
  dsimp only
  split
  · rfl
  · exact onlyBlock_trans (onlyBlock_setPgState s _ st) rfl

theorem onlyBlock_setStreamOp (op sub : Nat) : OnlyBlock s (setStreamOp s k i op sub) := by
  unfold setStreamOp
  dsimp only
  split
  · rfl
  · split <;> rfl

@[simp] theorem setStreamState_cores (st : Nat) : (setStreamState s k i st).cores = s.cores := cores_of_onlyBlock (onlyBlock_setStreamState s k i st)
@[simp] theorem setStreamState_tracks (st : Nat) : (setStreamState s k i st).tracks = s.tracks := tracks_of_onlyBlock (onlyBlock_setStreamState s k i st)
@[simp] theorem setStreamState_seq (st : Nat) : (setStreamState s k i st).seq = s.seq := seq_of_onlyBlock (onlyBlock_setStreamState s k i st)
@[simp] theorem setStreamState_time (st : Nat) : (setStreamState s k i st).time = s.time := time_of_onlyBlock (onlyBlock_setStreamState s k i st)
@[simp] theorem setStreamOp_cores (op sub : Nat) : (setStreamOp s k i op sub).cores = s.cores := cores_of_onlyBlock (onlyBlock_setStreamOp s k i op sub)
@[simp] theorem setStreamOp_tracks (op sub : Nat) : (setStreamOp s k i op sub).tracks = s.tracks := tracks_of_onlyBlock (onlyBlock_setStreamOp s k i op sub)

@[simp] theorem setStreamState_ctrs (st : Nat) : (setStreamState s k i st).ctrs = s.ctrs := by
  unfold setStreamState
  dsimp only
  split <;> simp

@[simp] theorem setStreamOp_ctrs (op sub : Nat) : (setStreamOp s k i op sub).ctrs = s.ctrs := by
  unfold setStreamOp
  dsimp only
  split
  · rfl
  · split <;> rfl

/-- What the pins and the prefetch of a command leave alone when it ends. -/
def offPins (s : State) : SMap Word × SMap DWord × SMap CoreSt × TrackSt := (s.regs, s.ctrs, s.cores, s.tracks)

@[simp] theorem offPins_kvPrefetchEnd : offPins (kvPrefetchEnd s k) = offPins s := by
  unfold kvPrefetchEnd
  split
  · rfl
  · dsimp only
    exact foldl_leaves offPins (fun _ _ => by rfl) _ _

@[simp] theorem offPins_dropPins (part pool : Nat) (pins : List (Nat × Nat)) : offPins (dropPins s part pool pins) = offPins s := by
  unfold dropPins
  exact foldl_leaves offPins (fun _ _ => by rfl) _ _

theorem kvPrefetchEnd_regs : (kvPrefetchEnd s k).regs = s.regs := congrArg (fun x => x.1) (offPins_kvPrefetchEnd s k)
theorem kvPrefetchEnd_ctrs : (kvPrefetchEnd s k).ctrs = s.ctrs := congrArg (fun x => x.2.1) (offPins_kvPrefetchEnd s k)
theorem kvPrefetchEnd_cores : (kvPrefetchEnd s k).cores = s.cores := congrArg (fun x => x.2.2.1) (offPins_kvPrefetchEnd s k)
theorem kvPrefetchEnd_tracks : (kvPrefetchEnd s k).tracks = s.tracks := congrArg (fun x => x.2.2.2) (offPins_kvPrefetchEnd s k)

theorem dropPins_ctrs (p n : Nat) (xs : List (Nat × Nat)) : (dropPins s p n xs).ctrs = s.ctrs := congrArg (fun x => x.2.1) (offPins_dropPins s p n xs)
theorem dropPins_cores (p n : Nat) (xs : List (Nat × Nat)) : (dropPins s p n xs).cores = s.cores := congrArg (fun x => x.2.2.1) (offPins_dropPins s p n xs)
theorem dropPins_tracks (p n : Nat) (xs : List (Nat × Nat)) : (dropPins s p n xs).tracks = s.tracks := congrArg (fun x => x.2.2.2) (offPins_dropPins s p n xs)

@[simp] theorem quitStream_ctrs (r : CmdRun) : (quitStream s k i r).ctrs = s.ctrs := by
  unfold quitStream
  dsimp only
  split <;> simp [kvPrefetchEnd_ctrs, dropPins_ctrs, clearFace, leaveTags, setCore]

@[simp] theorem quitStream_tracks (r : CmdRun) : (quitStream s k i r).tracks = s.tracks := by
  unfold quitStream
  dsimp only
  split <;> simp [kvPrefetchEnd_tracks, dropPins_tracks, clearFace, leaveTags, setCore]

theorem quitStream_cores (r : CmdRun) : (quitStream s k i r).cores = (setCore s k i noCore).cores := by
  unfold quitStream
  dsimp only
  split <;> simp [kvPrefetchEnd_cores, dropPins_cores, clearFace, leaveTags, setCore]

/-- The stream that is quit is idle. -/
theorem streamState_quitStream (r : CmdRun) : streamState (quitStream s k i r) k i = cIdle := by
  have h : ∀ t : State, streamState (setStreamOp (setStreamState t k i cIdle) k i 0 0) k i = cIdle := fun t => by
    rw [streamState_setStreamOp, streamState_setStreamState _ _ _ (by decide)]
  unfold quitStream
  dsimp only
  split
  · rw [streamState_congr (kvPrefetchEnd_regs _ k), h]
  · exact h _

theorem streamFree_quitStream (r : CmdRun) : StreamFree (quitStream s k i r) k i :=
  (streamFree_setCore s k i).congr (quitStream_cores s k i r)

theorem StreamFree.quitStream {s : State} {k : CoreId} {i : Nat} (h : StreamFree s k i) (q : CoreId) (j : Nat) (r : CmdRun) :
    StreamFree (quitStream s q j r) k i :=
  (h.setCore q j).congr (quitStream_cores s q j r)

/-! ### The job of a command that has ended (R443) -/

/-- A map of which entries are changed or dropped has no keys of its own. -/
theorem smFind_filterMap_none {α : Type} {f : Nat × α → Option (Nat × α)} (hf : ∀ x y, f x = some y → y.1 = x.1) {n : Nat} :
    ∀ {m : SMap α}, smFind m n = none → smFind (m.filterMap f) n = none := by
  intro m
  induction m with
  | nil => exact fun _ => rfl
  | cons x m ih =>
    intro h
    obtain ⟨a, v⟩ := x
    rw [smFind_cons] at h
    split at h
    · cases h
    · next hne =>
      cases hx : f (a, v) with
      | none =>
        rw [List.filterMap_cons_none hx]
        exact ih h
      | some y =>
        obtain ⟨b, w⟩ := y
        have hb : b = a := hf _ _ hx
        rw [List.filterMap_cons_some hx, smFind_cons, if_neg (hb ▸ hne)]
        exact ih h

theorem StreamFree.dropOffers {s : State} {k : CoreId} {i : Nat} (h : StreamFree s k i) (key : Nat) : StreamFree (dropOffers s key) k i := by
  refine smFind_filterMap_none (fun x y hxy => ?_) h
  dsimp only at hxy
  split at hxy
  · split_ifs at hxy <;> (cases hxy; rfl)
  · split_ifs at hxy
    cases hxy
    rfl

theorem StreamFree.failJob {s : State} {k : CoreId} {i : Nat} (h : StreamFree s k i) (key stage : Nat) (st : Status) :
    StreamFree (failJob s key stage st) k i := by
  unfold Machine.failJob
  split
  · exact h
  · split
    · exact h
    · exact StreamFree.dropOffers (h.congr rfl) key

@[simp] theorem sbCount_cores (key slot : Nat) : (sbCount s key slot).cores = s.cores := by
  unfold sbCount
  split <;> simp

theorem StreamFree.jobAfter {s : State} {k : CoreId} {i : Nat} (h : StreamFree s k i) (r : CmdRun) (st : Status) :
    StreamFree (jobAfter s r st) k i := by
  have hj : ∀ j, StreamFree (setJob s r.offer.job j) k i := fun j => h.congr rfl
  unfold Machine.jobAfter
  dsimp only
  split
  · exact h
  · split
    · exact hj _
    · split
      · exact h
      · split
        · exact (hj _).congr (sbCount_cores _ _ _)
        · exact (hj _).failJob _ _ _

/-- What the end of a command tells its job changes the jobs, the offers and a count of retries. -/
def offJob (s : State) : SMap Word × MemSt × SMap Word × TrackSt := (s.tally, s.mem, s.regs, s.tracks)

@[simp] theorem offJob_failJob (key stage : Nat) (st : Status) : offJob (failJob s key stage st) = offJob s := by
  unfold failJob
  split
  · rfl
  · split <;> rfl

@[simp] theorem offJob_jobAfter (r : CmdRun) (st : Status) : offJob (jobAfter s r st) = offJob s := by
  have hj : ∀ j, offJob (setJob s r.offer.job j) = offJob s := fun _ => rfl
  have hc : ∀ (t : State) key slot, offJob (sbCount t key slot) = offJob t := fun t key slot => by
    unfold sbCount
    split <;> simp [offJob]
  unfold jobAfter
  dsimp only
  split
  · rfl
  · split
    · rfl
    · split
      · rfl
      · split
        · rw [hc, hj]
        · rw [offJob_failJob, hj]

@[simp] theorem jobAfter_tally (r : CmdRun) (st : Status) : (jobAfter s r st).tally = s.tally := congrArg (·.1) (offJob_jobAfter s r st)
@[simp] theorem jobAfter_mem (r : CmdRun) (st : Status) : (jobAfter s r st).mem = s.mem := congrArg (·.2.1) (offJob_jobAfter s r st)
@[simp] theorem jobAfter_regs (r : CmdRun) (st : Status) : (jobAfter s r st).regs = s.regs := congrArg (·.2.2.1) (offJob_jobAfter s r st)
@[simp] theorem jobAfter_tracks (r : CmdRun) (st : Status) : (jobAfter s r st).tracks = s.tracks := congrArg (·.2.2.2) (offJob_jobAfter s r st)

theorem failJob_ctrs (key stage : Nat) (st : Status) : (failJob s key stage st).ctrs = s.ctrs := by
  unfold failJob
  split
  · rfl
  · split <;> rfl

/-- Only a command that may be tried again is counted for its job. -/
theorem jobAfter_ctrs (r : CmdRun) {st : Status} (h : ¬ (st = .tierFault ∨ st = .timeout)) : (jobAfter s r st).ctrs = s.ctrs := by
  unfold jobAfter
  dsimp only
  split
  · rfl
  · split
    · rfl
    · split
      · rfl
      · rw [if_neg fun hc => h hc.2.1, failJob_ctrs]
        rfl

end Sys2Proof.Machine
end

section
/-! PROOFS. How a command ends (R147, R148, R152, R180, R182): its completion, its trace and the end of its stream. -/

namespace Sys2Proof.Machine

variable (s : State) (k : CoreId) (i : Nat)

/-! ### The completion of a command that failed (R152) -/

/-- The registers, the counters, the Tallies and the tiers, which no record of the tracks and no choice touches. -/
def offTracks (s : State) : SMap Word × SMap DWord × SMap Word × MemSt := (s.regs, s.ctrs, s.tally, s.mem)

theorem offTracks_iff {s t : State} : offTracks t = offTracks s ↔ t.regs = s.regs ∧ t.ctrs = s.ctrs ∧ t.tally = s.tally ∧ t.mem = s.mem := by
  simp [offTracks]

theorem offTracks_setTracks (x : TrackSt) : offTracks { s with tracks := x } = offTracks s := rfl

theorem offTracks_putTracks (core : Nat) (xs : List (Nat × List Byte)) (s : State) :
    offTracks (xs.foldl (fun u x => putTrack u core x) s) = offTracks s :=
  foldl_leaves offTracks (fun t _ => offTracks_setTracks t _) _ _

/-- A command that failed leaves of its stores an unspecified part, and of its records. -/
theorem offTracks_completeBad (r : CmdRun) (o : CmdOut) : offTracks (completeBad s k r o) = offTracks (spoilOut s r.offer.part o) := by
  have hp := fun n => (offTracks_putTracks k.inst (o.tracks.take n) (spendFree (spoilOut s r.offer.part o) 1)).trans
    ((offTracks_iff (s := spoilOut s r.offer.part o)).2 ⟨rfl, rfl, rfl, rfl⟩)
  unfold completeBad
  dsimp only
  split
  · split
    · rfl
    · split
      · exact hp _
      · exact hp _
  · rfl

@[simp] theorem completeBad_regs (r : CmdRun) (o : CmdOut) : (completeBad s k r o).regs = s.regs :=
  (offTracks_iff.1 (offTracks_completeBad s k r o)).1.trans (regs_of_offTier (offTier_spoilOut s _ _))

@[simp] theorem completeBad_tally (r : CmdRun) (o : CmdOut) : (completeBad s k r o).tally = s.tally :=
  (offTracks_iff.1 (offTracks_completeBad s k r o)).2.2.1.trans (tally_of_offTier (offTier_spoilOut s _ _))

theorem completeBad_ctrs (r : CmdRun) (o : CmdOut) {x : Nat} (hx : x % 0x1000 ≠ 0x050) :
    smGet 0 (completeBad s k r o).ctrs x = smGet 0 s.ctrs x := by
  rw [(offTracks_iff.1 (offTracks_completeBad s k r o)).2.1]
  exact ctrs_of_offTier (offTier_spoilOut s _ _) hx

theorem completeBad_mem {o : CmdOut} (h : o.stores = []) (r : CmdRun) : (completeBad s k r o).mem = s.mem := by
  rw [(offTracks_iff.1 (offTracks_completeBad s k r o)).2.2.2, spoilOut_of_no_stores s h]

/-- Without stores and records a command that failed leaves nothing behind. -/
theorem completeBad_of_nothing {o : CmdOut} (h : o.stores = []) (ht : o.tracks = []) (r : CmdRun) : completeBad s k r o = s := by
  unfold completeBad
  rw [spoilOut_of_no_stores s h, ht]
  dsimp only
  split
  · exact if_pos (.inr rfl)
  · rfl

/-! ### The completion of a command that is OK (R123, R180) -/

/-- What a completed command has written, before its signal. -/
def stored (s : State) (k : CoreId) (r : CmdRun) (o : CmdOut) : State :=
  let part := r.offer.part
  let t := o.tracks.foldl (fun u x => putTrack u k.inst x) (writeOut s part o)
  let u := if o.births = 0 then t else bornBy t k o.births
  match k.cls with
  | .t => if [1, 2, 3, 5].contains (opOf r.offer.desc) then trackDeltas u k.inst part o else u
  | .a => if opOf r.offer.desc = 2 then kvDeltas u r o.append else u
  | .l => match o.plan with
    | some p => postPlan u k.inst p
    | none => u
  | _ => u

/-- A completed command's signal. -/
def signalled (v : State) (k : CoreId) (r : CmdRun) : State :=
  if signalEn k r.offer.desc ∧ (jobOf v r.offer.job).isSome then tallyAdd v (sigTally r.offer.desc) (sigInc r.offer.desc) else v

theorem completeOk_eq (r : CmdRun) (o : CmdOut) : completeOk s k r o =
    if inReset (stored s k r o) r.offer.part then stored s k r o
    else match kickedDog (signalled (stored s k r o) k r) r.offer.job r.offer.stage r.offer.index with
      | some x => kickDog (signalled (stored s k r o) k r) x
      | none => signalled (stored s k r o) k r := by
  rfl

section
variable {o : Nat}

theorem calm_setTracks (x : TrackSt) : calm o { s with tracks := x } = calm o s := rfl
theorem calm_setVl (x : VlSt) : calm o { s with vl := x } = calm o s := rfl
theorem calm_setKv (x : KvSt) : calm o { s with kv := x } = calm o s := rfl

@[simp] theorem calm_putTrack (core : Nat) (x : Nat × List Byte) : calm o (putTrack s core x) = calm o s := calm_setTracks s _
@[simp] theorem calm_bornBy (n : Nat) : calm o (bornBy s k n) = calm o s := rfl
@[simp] theorem calm_setTrk (core : Nat) (x : TrkMirror) : calm o (setTrk s core x) = calm o s := rfl

@[simp] theorem calm_postPlan (core : Nat) (p : LPost) : calm o (postPlan s core p) = calm o s := by
  unfold postPlan
  split <;> rfl

theorem calm_queueMsg (h : AwayFrom o [0x010, 0x128]) (m : Msg) : calm o (queueMsg s m) = calm o s := by
  obtain ⟨ho, h⟩ := h
  have h1 : ∀ x ∈ [0x010, 0x128], AwayFrom o [x] := fun x hx => ⟨ho, by simpa using h x hx⟩
  unfold queueMsg
  dsimp only
  split
  · rw [calm_rcEvent _ (h1 0x128 (by simp)), calm_setFlag _ (h1 0x010 (by simp)), calm_ctrAdd]
  · rfl

theorem calm_sendDelta (h : AwayFrom o [0x010, 0x128]) (sub part : Nat) (bs : List Byte) : calm o (sendDelta s sub part bs) = calm o s := by
  unfold sendDelta
  split
  · exact calm_queueMsg s h _
  · rfl

theorem calm_takeTracks (h : AwayFrom o [0x010]) (core : Nat) : calm o (takeTracks s core) = calm o s := by
  have ht : ∀ (t : State) (b : List Byte), calm o (takeTrack t core b) = calm o t := fun t b => by
    unfold takeTrack
    dsimp only
    split_ifs <;> simp only [calm_setTrk, calm_setFlag _ h, calm_ctrAdd, calm_putTrack]
  unfold takeTracks
  dsimp only
  exact (calm_foldl (fun t _ => ht t _) _ _).trans (calm_setTrk ..)

theorem calm_trackDeltas (h : AwayFrom o [0x010, 0x128]) (core part : Nat) (x : CmdOut) : calm o (trackDeltas s core part x) = calm o s := by
  have h0 : AwayFrom o [0x010] := ⟨h.1, fun x hx => h.2 x (by simp at hx ⊢; omega)⟩
  have hu : ∀ (t : State) (c n : Nat), calm o t = calm o s → calm o (if n = 0 then sendDelta t 4 part (trackDelta core true 0xFFFF c [])
      else ((List.range n).zip x.tracks).foldl (fun u y => sendDelta u 4 part (trackDelta core (y.1 + 1 == n) y.2.1 c y.2.2)) t) = calm o s :=
    fun t c n ht => by
      split
      · rw [calm_sendDelta _ h, ht]
      · exact (calm_foldl (fun u _ => calm_sendDelta u h _ _ _) _ _).trans ht
  have hi : ∀ t, calm o t = calm o s → calm o (if isStandby t then takeTracks t core else t) = calm o s := fun t ht => by
    split
    · rw [calm_takeTracks _ h0, ht]
    · exact ht
  exact hi _ (hu _ _ _ (calm_setTrk ..))

theorem calm_kvOwnDelta (h : AwayFrom o [0x010, 0x128]) (d : KvDelta) : calm o (kvOwnDelta s d) = calm o s := by
  have h0 : AwayFrom o [0x010] := ⟨h.1, fun x hx => h.2 x (by simp at hx ⊢; omega)⟩
  have hj : ∀ (t : State) (x : KvDelta), calm o (kvJudge t d x) = calm o t := fun t x => by
    unfold kvJudge
    dsimp only
    split
    · rfl
    · rw [calm_setVl, calm_queueMsg _ h, calm_ctrAdd, calm_setFlag _ h0]
  have hs := calm_sendDelta s h 5 d.part (kvDeltaBytes d)
  unfold kvOwnDelta
  dsimp only
  split
  · exact hs
  · split
    · rw [hj, calm_setKv, hs]
    · rw [calm_setKv, hs]

theorem calm_kvDeltas (h : AwayFrom o [0x010, 0x128]) (r : CmdRun) (rows : List KvRow) : calm o (kvDeltas s r rows) = calm o s := by
  unfold kvDeltas
  exact calm_foldl (fun t _ => calm_kvOwnDelta t h _) _ _

/-- Of what is calm the records, deltas and plans of a completed command change nothing more than its stores do. -/
theorem calm_stored (h : AwayFrom o [0x010, 0x128]) (r : CmdRun) (x : CmdOut) : calm o (stored s k r x) = calm o (writeOut s r.offer.part x) := by
  have hu : calm o (if x.births = 0 then x.tracks.foldl (fun u y => putTrack u k.inst y) (writeOut s r.offer.part x)
      else bornBy (x.tracks.foldl (fun u y => putTrack u k.inst y) (writeOut s r.offer.part x)) k x.births) =
      calm o (writeOut s r.offer.part x) := by
    have := calm_foldl (o := o) (fun t y => calm_putTrack t k.inst y) x.tracks (writeOut s r.offer.part x)
    split
    · exact this
    · exact this
  unfold stored
  dsimp only
  split
  · split
    · exact (calm_trackDeltas _ h _ _ _).trans hu
    · exact hu
  · split
    · exact (calm_kvDeltas _ h _ _).trans hu
    · exact hu
  · split
    · exact (calm_postPlan ..).trans hu
    · exact hu
  · exact hu

theorem calm_kickDog (h : o < 0xC00) (d : Nat) : calm o (kickDog s d) = calm o s := by
  have hw : AwayFrom o [wdStat d] := ⟨by omega, fun x hx => by
    rw [List.mem_singleton.1 hx, wdStat]
    omega⟩
  unfold kickDog
  split
  · rfl
  · have hk : calm o (ctrAdd (setRegField s (wdPage (d / 256)) (wdStat d) 15 0 (now s % 65536)) (wdPage (d / 256)) 2 1) = calm o s :=
      (calm_ctrAdd ..).trans (calm_setRegField s hw _ _ _ _)
    dsimp only
    split
    · exact hk
    · exact hk

end

/-- The completion of a command that is OK: what it stored, and its signal. -/
theorem completeOk_cases (r : CmdRun) (x : CmdOut) : ∃ v, calm 0x748 (completeOk s k r x) = calm 0x748 v ∧
    (v = stored s k r x ∨ v = signalled (stored s k r x) k r) ∧ (inReset s r.offer.part = false → v = signalled (stored s k r x) k r) := by
  have hd : inReset (stored s k r x) r.offer.part = inReset s r.offer.part := by
    simp only [inReset, dev_of_calm (calm_stored s k (o := 0x748) (by decide) r x), dev_of_offTier (offTier_writeOut s _ _)]
  rw [completeOk_eq, hd]
  split
  · next h => exact ⟨_, rfl, .inl rfl, fun h' => by simp [h] at h'⟩
  · refine ⟨_, ?_, .inr rfl, fun _ => rfl⟩
    split
    · exact calm_kickDog _ (by decide) _
    · rfl

theorem stored_tally (r : CmdRun) (x : CmdOut) : (stored s k r x).tally = s.tally :=
  (tally_of_calm (calm_stored s k (o := 0x748) (by decide) r x)).trans (tally_of_offTier (offTier_writeOut s _ _))

theorem signalled_cells (r : CmdRun) : (signalled s k r).mem.cells = s.mem.cells := by
  unfold signalled
  split
  · simp [tallyAdd]
  · rfl

theorem regVal_signalled (r : CmdRun) (p : Page) (o : Nat) : regVal (signalled s k r) p o = regVal s p o := by
  unfold signalled
  split
  · exact regVal_congr (ctrAdd_regs _ _ _ _) _ _
  · rfl

theorem completeOk_cells (r : CmdRun) (x : CmdOut) : (completeOk s k r x).mem.cells = (writeOut s r.offer.part x).mem.cells := by
  have hs := cells_of_calm (calm_stored s k (o := 0x748) (by decide) r x)
  obtain ⟨v, hv, hc, -⟩ := completeOk_cases s k r x
  rw [cells_of_calm hv]
  rcases hc with rfl | rfl
  · exact hs
  · exact (signalled_cells _ k r).trans hs

/-- A completion leaves the trace as enabled as it was. -/
theorem regVal_completeOk (r : CmdRun) (x : CmdOut) (p : Page) : regVal (completeOk s k r x) p 0x748 = regVal s p 0x748 := by
  have hs := (regVal_of_calm (calm_stored s k (o := 0x748) (by decide) r x) p).trans
    (regVal_congr (regs_of_offTier (offTier_writeOut s r.offer.part x)) p 0x748)
  obtain ⟨v, hv, hc, -⟩ := completeOk_cases s k r x
  rw [regVal_of_calm hv]
  rcases hc with rfl | rfl
  · exact hs
  · exact (regVal_signalled _ k r p _).trans hs

/-- A completed command adds to the Tally of its signal. -/
theorem tallyVal_completeOk (r : CmdRun) (x : CmdOut) (he : signalEn k r.offer.desc = true) (hj : (jobOf s r.offer.job).isSome = true)
    (hr : inReset s r.offer.part = false) :
    tallyVal (completeOk s k r x) (sigTally r.offer.desc) = tallyVal s (sigTally r.offer.desc) + BitVec.ofNat 32 (sigInc r.offer.desc) := by
  have hjob : jobOf (stored s k r x) r.offer.job = jobOf s r.offer.job := by
    simp only [jobOf, jobs_of_calm (calm_stored s k (o := 0x748) (by decide) r x), jobs_of_offTier (offTier_writeOut s _ _)]
  obtain ⟨v, hv, -, hc⟩ := completeOk_cases s k r x
  have hs : signalled (stored s k r x) k r = tallyAdd (stored s k r x) (sigTally r.offer.desc) (sigInc r.offer.desc) :=
    if_pos ⟨he, hjob ▸ hj⟩
  rw [tallyVal, tally_of_calm hv, hc hr, hs]
  refine (tallyVal_tallyAdd_same _ _ _).trans ?_
  rw [tallyVal, stored_tally]
  rfl

/-- A completed command adds to no Tally but that of its signal. -/
theorem tallyVal_completeOk_ne (r : CmdRun) (x : CmdOut) {j : Nat} (h : signalEn k r.offer.desc = false ∨ j ≠ sigTally r.offer.desc) :
    tallyVal (completeOk s k r x) j = tallyVal s j := by
  have hs : tallyVal (stored s k r x) j = tallyVal s j := by rw [tallyVal, stored_tally]; rfl
  obtain ⟨v, hv, hc, -⟩ := completeOk_cases s k r x
  rw [tallyVal, tally_of_calm hv]
  rcases hc with rfl | rfl
  · exact hs
  · refine Eq.trans ?_ hs
    unfold signalled
    split
    · next he =>
      rcases h with h | h
      · rw [h] at he
        cases he.1
      · exact tallyVal_tallyAdd_ne _ _ (Ne.symm h)
    · rfl

/-! ### The end of a stream's command (R147, R148, R182) -/

/-- What the record of an end leaves alone of the commands and the tracks. -/
def offRecord (s : State) : SMap CoreSt × TrackSt := (s.cores, s.tracks)

@[simp] theorem offRecord_ctrAdd (p : Page) (slot n : Nat) : offRecord (ctrAdd s p slot n) = offRecord s := by simp [offRecord]
@[simp] theorem offRecord_spendFree (n : Nat) : offRecord (spendFree s n) = offRecord s := rfl

@[simp] theorem offRecord_recordEnd (r : CmdRun) (x : CmdOut) (c : EndClocks) (st : Status) (whole : Bool) :
    offRecord (recordEnd s k i r x c st whole) = offRecord s := by
  have hc : ∀ t, offRecord (countClocks t k i c) = offRecord t := fun t => by
    unfold countClocks
    split
    case h_3 => split <;> simp
    all_goals simp
  have ho : ∀ t, offRecord (countOk t k i x) = offRecord t := fun t =>
    (foldl_leaves offRecord (fun u _ => offRecord_ctrAdd u _ _ _) _ _).trans (offRecord_ctrAdd t _ _ _)
  have hb : ∀ t, offRecord (countBad t k x whole) = offRecord t := fun t => by
    unfold countBad
    exact foldl_leaves offRecord (fun u _ => by split <;> simp) _ _
  have hl : ∀ fl cl, offRecord (recordLast s k i (opOf r.offer.desc) fl cl st) = offRecord s := fun _ _ => rfl
  unfold recordEnd
  dsimp only
  split_ifs <;> simp [hc, ho, hb, hl]

theorem recordEnd_cores (r : CmdRun) (x : CmdOut) (c : EndClocks) (st : Status) (whole : Bool) :
    (recordEnd s k i r x c st whole).cores = s.cores :=
  congrArg Prod.fst (offRecord_recordEnd s k i r x c st whole)

theorem recordEnd_tracks (r : CmdRun) (x : CmdOut) (c : EndClocks) (st : Status) (whole : Bool) :
    (recordEnd s k i r x c st whole).tracks = s.tracks :=
  congrArg Prod.snd (offRecord_recordEnd s k i r x c st whole)

/-- The end of a command whose completion has left the state `u`. -/
def endRun (u : State) (k : CoreId) (i : Nat) (r : CmdRun) (o : CmdOut) (c : EndClocks) (st : Status) (whole : Bool) : State :=
  jobAfter (quitStream (traceCmd (recordEnd u k i r o c st whole) k r.offer st true) k i r) r st

section
variable (u : State) (r : CmdRun) (o : CmdOut) (c : EndClocks) (st : Status) (whole : Bool)

theorem streamFree_endRun : StreamFree (endRun u k i r o c st whole) k i := (streamFree_quitStream _ k i r).jobAfter r st

theorem streamState_endRun : streamState (endRun u k i r o c st whole) k i = cIdle := by
  rw [endRun, streamState_congr (jobAfter_regs _ r st), streamState_quitStream]

theorem traceCmd_tally (k : CoreId) (o : Offer) (ended : Bool) : (traceCmd s k o st ended).tally = s.tally := by
  rcases traceCmd_cases s k o st ended with h | ⟨t, w, ht, h⟩
  · rw [h]
  · rw [h, setReg_tally, tally_of_offTier ht]

theorem regVal_traceCmd {x : Nat} (hx : AwayFrom x [0x750]) (k : CoreId) (o : Offer) (ended : Bool) (p : Page) :
    regVal (traceCmd s k o st ended) p x = regVal s p x := by
  rcases traceCmd_cases s k o st ended with h | ⟨t, w, ht, h⟩
  · rw [h]
  · rw [h, regVal_of_calm (calm_setReg t hx _ w), regVal_congr (regs_of_offTier ht)]

theorem endRun_tally : (endRun u k i r o c st whole).tally = u.tally := by
  rw [endRun, jobAfter_tally, tally_of_calm (calm_quitStream _ k i (o := 0x748) (by decide) r), traceCmd_tally,
    tally_of_calm (calm_recordEnd u k i (o := 0x748) (by decide) r o c st whole)]

theorem traceCmd_tracks (k : CoreId) (o : Offer) (ended : Bool) : (traceCmd s k o st ended).tracks = s.tracks := by
  rcases traceCmd_cases s k o st ended with h | ⟨t, w, ht, h⟩
  · rw [h]
  · rw [h, setReg_tracks, tracks_of_offTier ht]

theorem endRun_tracks : (endRun u k i r o c st whole).tracks = u.tracks := by
  rw [endRun, jobAfter_tracks, quitStream_tracks, traceCmd_tracks, recordEnd_tracks]

/-- With the trace off the end of a command writes no byte. -/
theorem endRun_cells (h : regBit u (partPage r.offer.part) 0x748 31 = false) : (endRun u k i r o c st whole).mem.cells = u.mem.cells := by
  have hr := calm_recordEnd u k i (o := 0x748) (by decide) r o c st whole
  have ht : regBit (recordEnd u k i r o c st whole) (partPage r.offer.part) 0x748 31 = false := by
    rw [← h]
    exact congrArg (bit · 31) (regVal_of_calm hr _)
  rw [endRun, jobAfter_mem, cells_of_calm (calm_quitStream _ k i (o := 0x748) (by decide) r), traceCmd_of_off _ ht, cells_of_calm hr]

theorem regVal_endRun : ∃ flags, regVal (endRun u k i r o c st whole) (corePage k) 0x100 = lastWord i (opOf r.offer.desc) flags st := by
  obtain ⟨flags, h⟩ := regVal_recordEnd u k i r o c st whole
  refine ⟨flags, ?_⟩
  rw [endRun, regVal_congr (jobAfter_regs _ r st), regVal_of_calm (calm_quitStream _ k i (by decide) r), regVal_traceCmd _ _ (by decide), h]

theorem regField_endRun_status : regField (endRun u k i r o c st whole) (corePage k) 0x100 7 0 = statusCode st := by
  obtain ⟨flags, h⟩ := regVal_endRun k i u r o c st whole
  rw [regField, h, field_lastWord_status]

theorem opOf_lt (d : List Word) : opOf d < 256 := by
  unfold opOf df field
  omega

theorem regField_endRun_op : regField (endRun u k i r o c st whole) (corePage k) 0x100 15 8 = opOf r.offer.desc := by
  obtain ⟨flags, h⟩ := regVal_endRun k i u r o c st whole
  rw [regField, h, field_lastWord_op _ (opOf_lt _)]

end

/-- A command ends with a failure. -/
theorem finishCmd_bad {r0 : CmdRun} (hcur : curOf s k i = some r0) (r : CmdRun) (c : EndClocks) {st : Status} (hst : st ≠ .ok) : ∃ whole,
    finishCmd s k i r c st = endRun (completeBad s k r (runOut s k i r)) k i r (runOut s k i r) c st whole := by
  refine ⟨r.fail.isNone && (st == .ok || r.ended.isSome), ?_⟩
  unfold finishCmd
  simp only [earlyKick, hst, ne_eq, not_false_iff, true_or, if_true, hcur, if_false]
  rfl

/-- A command ends whose writes all pass, its check-in not being early. -/
theorem finishCmd_ok {r0 : CmdRun} (hcur : curOf s k i = some r0) (r : CmdRun) (c : EndClocks)
    (hp : k.cls = .l → (runOut s k i r).plan.isSome = true → planLate s (lDesc r.offer.desc).cycle = false)
    (hw : writesStatus s r.offer.part (runOut s k i r) = .ok) (hk : earlyKick s r .ok = s) : ∃ whole,
    finishCmd s k i r c .ok = endRun (completeOk s k r (runOut s k i r)) k i r (runOut s k i r) c .ok whole := by
  refine ⟨r.fail.isNone && (Status.ok == .ok || r.ended.isSome), ?_⟩
  have hl : ¬ (k.cls = .l ∧ (runOut s k i r).plan.isSome ∧ planLate s (lDesc r.offer.desc).cycle) := fun ⟨h1, h2, h3⟩ => by
    rw [hp h1 h2] at h3
    cases h3
  unfold finishCmd
  simp only [ne_eq, not_true_eq_false, if_false, if_neg hl, hw, hk, hcur, if_true]
  rfl

end Sys2Proof.Machine
end

section
/-! PROOFS. COMMAND_END and ASSIGN_TIMEOUT of a single command (R114, R147, R148, R180, R182, R339). -/

namespace Sys2Proof.Machine

variable {s : State} {k : CoreId} {i : Fin 2} {r : CmdRun} {clk : EndClocks} {e : CoreErr}

theorem exec_commandEnd : exec (.commandEnd k i clk e) s = execCommandEnd k i clk e s := rfl
theorem exec_assignTimeout {c : Fin 2} : exec (.assignTimeout c) s = execAssignTimeout c s := rfl

/-! ### A command that may end -/

/-- A command that has failed is held for no credit. -/
theorem heldForPush_of_fail {i : Nat} (h : r.fail ≠ none) : heldForPush s k i r = false := by
  obtain ⟨st, hst⟩ := Option.ne_none_iff_exists'.1 h
  simp [heldForPush, hst]

/-- A command whose rows have all been sent and have all landed is held for no credit. -/
theorem heldForPush_of_rowsDone {i : Nat} (hd : rowsDone s k i r = true) (hf : ∀ p ∈ r.push, p.flying = 0) : heldForPush s k i r = false := by
  have hn : ∀ p ∈ r.push, ∀ c, chanOf s r.offer.job p.chan = some c → pushEnd c (runOut s k i r).rows.length ≤ p.next := fun p hp c hc => by
    simp only [rowsDone, Bool.and_eq_true, List.all_eq_true] at hd
    have := hd.2 p hp
    rw [hc] at this
    exact of_decide_eq_true this
  rw [Bool.eq_false_iff]
  intro h
  simp only [heldForPush, Bool.and_eq_true, List.any_eq_true] at h
  obtain ⟨⟨-, p, hp, hstuck⟩, -⟩ := h
  split at hstuck
  · next c hc => simp [hf p hp, Nat.not_lt.2 (hn p hp c hc)] at hstuck
  · cases hstuck

/-- A command that may end, that no partial reset finds held and that has failed if it met a row of another length is settled. -/
theorem execCommandEnd_settled (hcur : curOf s k i = some r) (hh : (inReset s r.offer.part && heldForPush s k i r) = false)
    (hp : ¬ (k.cls = .t ∧ opOf r.offer.desc = 6 ∧ (runOut s k i r).spent = true)) (hm : mayEnd s k i r = true)
    (hb : badReached s r = false ∨ r.fail ≠ none) :
    execCommandEnd k i clk .none s = .next (if r.offer.role = 0 then finishCmd s k i r clk (r.fail.getD .ok) else duplexStep s k r clk .none) := by
  have hpast : (k.cls == .t && opOf r.offer.desc == 6 && (runOut s k i r).spent) = false := by
    rw [Bool.eq_false_iff]
    intro h
    simp only [Bool.and_eq_true, beq_iff_eq, and_assoc] at h
    exact hp h
  have hs0 : (if badReached s r then failCmd s k i .integrity else s) = s := by
    rcases hb with hb | hb
    · simp [hb]
    · obtain ⟨st, hst⟩ := Option.ne_none_iff_exists'.1 hb
      split
      · simp only [failCmd, hcur, hst]
      · rfl
  have hw : ∀ t, hwError t k i r.offer.part .none = t := fun _ => rfl
  unfold execCommandEnd
  simp only [hcur, hh, hpast, hm, hs0, hw, Bool.false_eq_true, if_false, Bool.not_true, Bool.or_false]

/-- A command may end that computes, whose requests are back, whose rows have gone and whose writes stand in no move. -/
theorem mayEnd_of_done {i : Nat} (hst : streamState s k i = cRun) (he : r.ended = none) (hf : ∀ p ∈ r.push, p.flying = 0)
    (hd : r.fail ≠ none ∨ (rowsDone s k i r = true ∧ liveTags s k i = false ∧ appendDone s k r (runOut s k i r) = true ∧
      storesFree s r.offer.part (runOut s k i r) = true)) : mayEnd s k i r = true := by
  have hany : (r.push.any fun p => p.flying != 0) = false := by
    rw [List.any_eq_false]
    intro p hp
    simp [hf p hp]
  unfold mayEnd
  rw [hany, he, hst]
  rcases hd with hd | ⟨hr, hl, ha, hs⟩
  · simp [Option.isSome_iff_ne_none.2 hd]
  · simp [hr, hl, ha, hs]

theorem badReached_of_nil (h : r.badRows = []) : badReached s r = false := by simp [badReached, h]

/-! ### The ends (R147, R182) -/

/-- A check-in that does not come early leaves the watchdogs to the completion. -/
theorem earlyKick_of_not_early
    (h : ∀ d x, kickedDog s r.offer.job r.offer.stage r.offer.index = some d → dogOf s d = some x → kickOf s d x ≠ .early) :
    earlyKick s r .ok = s := by
  unfold earlyKick
  split
  · rfl
  · split
    · rfl
    · next d hd =>
      split
      · rfl
      · next x hx => exact if_neg (h d x hd hx)

/-- What every end leaves: a stream that is free and idle, and the record of the end. -/
theorem endRun_main (u : State) (o : CmdOut) (c : EndClocks) (st : Status) (whole : Bool) {n : Nat} :
    let t := endRun u k n r o c st whole
    curOf t k n = none ∧ streamState t k n = cIdle ∧ regField t (corePage k) 0x100 7 0 = statusCode st ∧
      regField t (corePage k) 0x100 15 8 = opOf r.offer.desc :=
  ⟨(streamFree_endRun k n u r o c st whole).curOf, streamState_endRun k n u r o c st whole, regField_endRun_status k n u r o c st whole,
    regField_endRun_op k n u r o c st whole⟩

/-- A command without a failure stores its output and signals (R123, R180). -/
theorem commandEnd_ok (hcur : curOf s k i = some r) (hst : streamState s k i = cRun) (hrole : r.offer.role = 0) (he : r.ended = none)
    (hf : r.fail = none) (hb : r.badRows = []) (hd : rowsDone s k i r = true) (hfly : ∀ p ∈ r.push, p.flying = 0)
    (hl : liveTags s k i = false) (hp : ¬ (k.cls = .t ∧ opOf r.offer.desc = 6 ∧ (runOut s k i r).spent = true))
    (hplan : k.cls = .l → (runOut s k i r).plan.isSome = true → planLate s (lDesc r.offer.desc).cycle = false)
    (hw : writesStatus s r.offer.part (runOut s k i r) = .ok) (hs : storesFree s r.offer.part (runOut s k i r) = true)
    (ha : appendDone s k r (runOut s k i r) = true)
    (hk : ∀ d x, kickedDog s r.offer.job r.offer.stage r.offer.index = some d → dogOf s d = some x → kickOf s d x ≠ .early) :
    ∃ whole, exec (.commandEnd k i clk .none) s =
      .next (endRun (completeOk s k r (runOut s k i r)) k i r (runOut s k i r) clk .ok whole) := by
  obtain ⟨whole, h⟩ := finishCmd_ok s k i hcur r clk hplan hw (earlyKick_of_not_early hk)
  refine ⟨whole, ?_⟩
  rw [exec_commandEnd, execCommandEnd_settled hcur (by rw [heldForPush_of_rowsDone hd hfly, Bool.and_false]) hp
    (mayEnd_of_done hst he hfly (.inr ⟨hd, hl, ha, hs⟩)) (.inl (badReached_of_nil hb)), if_pos hrole, hf, ← h]
  rfl

/-- A command that has failed records its failure. -/
theorem commandEnd_failed {st : Status} (hcur : curOf s k i = some r) (hst : streamState s k i = cRun) (hrole : r.offer.role = 0)
    (he : r.ended = none) (hf : r.fail = some st) (hne : st ≠ .ok) (hfly : ∀ p ∈ r.push, p.flying = 0)
    (hp : ¬ (k.cls = .t ∧ opOf r.offer.desc = 6 ∧ (runOut s k i r).spent = true)) :
    ∃ whole, exec (.commandEnd k i clk .none) s =
      .next (endRun (completeBad s k r (runOut s k i r)) k i r (runOut s k i r) clk st whole) := by
  have hfail : r.fail ≠ none := by simp [hf]
  obtain ⟨whole, h⟩ := finishCmd_bad s k i hcur r clk hne
  refine ⟨whole, ?_⟩
  rw [exec_commandEnd, execCommandEnd_settled hcur (by rw [heldForPush_of_fail hfail, Bool.and_false]) hp
    (mayEnd_of_done hst he hfly (.inl hfail)) (.inr hfail),
    if_pos hrole, hf, ← h]
  rfl

/-- A solve past its limit ends with TIMEOUT (R339). -/
theorem assignTimeout_spent {c : Fin 2} (hcur : curOf s ⟨.t, c⟩ 0 = some r) (hst : streamState s ⟨.t, c⟩ 0 = cRun)
    (hop : opOf r.offer.desc = 6) (hf : r.fail = none) (hs : (runOut s ⟨.t, c⟩ 0 r).spent = true) (hrole : r.offer.role = 0)
    (hstores : (runOut s ⟨.t, c⟩ 0 r).stores = []) (htracks : (runOut s ⟨.t, c⟩ 0 r).tracks = []) :
    ∃ whole, exec (.assignTimeout c) s = .next (endRun s ⟨.t, c⟩ 0 r (runOut s ⟨.t, c⟩ 0 r) ⟨0, 0, 0, 0⟩ .timeout whole) := by
  obtain ⟨whole, h⟩ := finishCmd_bad s ⟨.t, c⟩ 0 hcur r ⟨0, 0, 0, 0⟩ (st := .timeout) (by decide)
  refine ⟨whole, ?_⟩
  rw [completeBad_of_nothing _ _ hstores htracks] at h
  rw [exec_assignTimeout, ← h]
  unfold execAssignTimeout
  simp only [hcur, hst, hop, hf, hs, hrole, ne_eq, not_true_eq_false, Option.isSome_none, Bool.false_eq_true, Bool.not_true, or_self, if_false,
    if_true]

/-! ### The end in a partial reset (R114) -/

theorem execCommandEnd_abort (hcur : curOf s k i = some r) (hr : inReset s r.offer.part = true) (hh : heldForPush s k i r = true) :
    execCommandEnd k i clk e s = .next (abortCmd s k i .busyReset true) := by
  unfold execCommandEnd
  simp only [hcur, hr, hh, Bool.and_self, if_true]

/-- A stream whose command is cut short with a record (R114). -/
theorem abortCmd_main (hcur : curOf s k i = some r) (st : Status) :
    let t := abortCmd s k i st true
    curOf t k i = none ∧ streamState t k i = cIdle ∧ regField t (corePage k) 0x100 7 0 = statusCode st ∧
      Counted s t (corePage k) (failSlot k) 1 ∧ t.tally = s.tally ∧ t.mem.cells = s.mem.cells := by
  have hu : ∃ u, abortCmd s k i st true = quitStream u k i r ∧
      (∀ o, calm o u = calm o (recordLast s k i (field (r.offer.desc.getD 0 0) 23 16) 0 (spanClocks s k r) st)) ∧
      u.ctrs = (ctrAdd (recordLast s k i (field (r.offer.desc.getD 0 0) 23 16) 0 (spanClocks s k r) st) (corePage k) (failSlot k) 1).ctrs := by
    have hg : ∀ (t : State) p pool rows, (giveBack t p pool rows).ctrs = t.ctrs := fun t p pool rows => by
      unfold giveBack
      exact foldl_leaves State.ctrs (fun t x => by split <;> rfl) _ _
    unfold abortCmd
    simp only [hcur, if_true]
    refine ⟨_, rfl, fun o => ?_, ?_⟩
    · split <;> simp
    · split
      · exact hg _ _ _ _
      · rfl
  obtain ⟨u, ht, hcalm, hctrs⟩ := hu
  have hlast : (recordLast s k i (field (r.offer.desc.getD 0 0) 23 16) 0 (spanClocks s k r) st).ctrs = s.ctrs := rfl
  have h748 := (calm_quitStream u k i (o := 0x748) (by decide) r).trans ((hcalm _).trans (calm_recordLast s k i (by decide) _ _ _ _))
  rw [ht]
  refine ⟨(streamFree_quitStream u k i r).curOf, streamState_quitStream u k i r, ?_, ?_, tally_of_calm h748, cells_of_calm h748⟩
  · rw [regField, regVal_of_calm (calm_quitStream u k i (by decide) r), regVal_of_calm (hcalm _), regVal_recordLast, field_lastWord_status]
  · rw [Counted, ctrVal_congr ((quitStream_ctrs u k i r).trans hctrs), ctrVal_ctrAdd_same _ _ _ (by decide), ctrVal_congr hlast]

end Sys2Proof.Machine
end

section
/-! PROOFS. The end of a duplex stage (R575): the first core waits for the other, and outputs that differ end both with SAFETY_HOLD. -/

namespace Sys2Proof.Machine

variable {s : State} {k q : CoreId} {r rq : CmdRun} {clk x : EndClocks}

/-! ### The pages of the cores -/

theorem corePage_ok : ∀ k ∈ allCores, pageOk (corePage k) = true := by decide

theorem corePage_inj {k q : CoreId} (h : corePage k = corePage q) : k = q := by
  obtain ⟨cls, n⟩ := k
  obtain ⟨cls', m⟩ := q
  cases cls <;> cases cls' <;> simp_all [corePage]

theorem fbPage_ok (st : Stack) : pageOk (fbPage (stackNo st)) = true := by cases st <;> decide

theorem corePage_ne_fbPage (k : CoreId) (n : Nat) : corePage k ≠ fbPage n := by
  obtain ⟨cls, m⟩ := k
  cases cls <;> simp [corePage, fbPage]

theorem ctrKey_eq_regKey (p : Page) (slot : Nat) : ctrKey p slot = regKey p (0x40 + 8 * slot) := Nat.add_assoc _ _ _

/-- Counters of different pages have different addresses. -/
theorem ctrKey_ne_of_page {p p' : Page} (hp : pageOk p = true) (hp' : pageOk p' = true) (h : p ≠ p') {a b : Nat} (ha : a < 24) (hb : b < 24) :
    ctrKey p a ≠ ctrKey p' b := by
  rw [ctrKey_eq_regKey, ctrKey_eq_regKey]
  exact regKey_ne hp hp' (by omega) (by omega) (.inl h)

/-! ### What the end of a command counts -/

/-- The counter at the address `x`. -/
def ctrAt (x : Nat) (s : State) : DWord := smGet 0 s.ctrs x

section
variable {adr : Nat}

theorem ctrAt_ctrAdd {p : Page} (s : State) {slot : Nat} (n : Nat) (h : ctrKey p slot ≠ adr) : ctrAt adr (ctrAdd s p slot n) = ctrAt adr s :=
  ctrs_ctrAdd_ne s p slot n adr h

theorem ctrAt_countClocks (s : State) (k : CoreId) (i : Nat) (e : EndClocks) (h : ∀ slot < 24, ctrKey (corePage k) slot ≠ adr) :
    ctrAt adr (countClocks s k i e) = ctrAt adr s := by
  unfold countClocks
  split
  · rw [ctrAt_ctrAdd _ _ (h 6 (by decide)), ctrAt_ctrAdd _ _ (h 4 (by decide))]
  · rw [ctrAt_ctrAdd _ _ (h 5 (by decide)), ctrAt_ctrAdd _ _ (h 4 (by decide))]
  · split
    · rw [ctrAt_ctrAdd _ _ (h 5 (by decide))]
    · rfl
  · rw [ctrAt_ctrAdd _ _ (h 7 (by decide))]
  · rfl

theorem workSlots_lt (cls : CoreCls) : ∀ n ∈ workSlots cls, n < 24 := by
  cases cls <;> decide

theorem ctrAt_countBad (s : State) (k : CoreId) (o : CmdOut) (whole : Bool) (h : ∀ slot < 24, ctrKey (corePage k) slot ≠ adr) :
    ctrAt adr (countBad s k o whole) = ctrAt adr s := by
  unfold countBad
  refine List.foldlRecOn (motive := fun t => ctrAt adr t = ctrAt adr s) _ _ rfl fun t ht w hw => ?_
  have hs : ctrKey (corePage k) w.1 ≠ adr := h _ (workSlots_lt _ _ (List.contains_iff_mem.1 (List.mem_filter.1 hw).2))
  split
  · exact (ctrAt_ctrAdd t _ hs).trans ht
  · exact (ctrAt_ctrAdd t _ hs).trans ht

/-- A command that fails is counted on its core's page alone. -/
theorem ctrAt_recordEnd (s : State) (k : CoreId) (i : Nat) (r : CmdRun) (o : CmdOut) (e : EndClocks) {st : Status} (hst : st ≠ .ok) (whole : Bool)
    (h : ∀ slot < 24, ctrKey (corePage k) slot ≠ adr) : ctrAt adr (recordEnd s k i r o e st whole) = ctrAt adr s := by
  have hf : failSlot k < 24 := by
    unfold failSlot
    split <;> decide
  have hsp : ∀ t : State, ctrAt adr (spendFree t 1) = ctrAt adr t := fun _ => rfl
  have hl : ∀ fl cl, ctrAt adr (recordLast s k i (opOf r.offer.desc) fl cl st) = ctrAt adr s := fun _ _ => rfl
  unfold recordEnd
  dsimp only
  rw [if_neg hst]
  split
  · rw [ctrAt_ctrAdd _ _ (h 9 (by decide)), ctrAt_ctrAdd _ _ (h _ hf), ctrAt_countBad _ _ _ _ h, hsp, ctrAt_countClocks _ _ _ _ h, hl]
  · rw [ctrAt_ctrAdd _ _ (h _ hf), ctrAt_countBad _ _ _ _ h, hsp, ctrAt_countClocks _ _ _ _ h, hl]

theorem ctrAt_traceCmd (s : State) (k : CoreId) (o : Offer) (st : Status) (ended : Bool) (hc : adr % 0x1000 ≠ 0x050) :
    ctrAt adr (traceCmd s k o st ended) = ctrAt adr s := by
  rcases traceCmd_cases s k o st ended with h | ⟨t, w, ht, h⟩
  · rw [h]
  · rw [h]
    exact ctrs_of_offTier ht hc

/-- The counters elsewhere through the end of a command that fails and is not tried again. -/
theorem ctrAt_endRun (u : State) (k : CoreId) (i : Nat) (r : CmdRun) (o : CmdOut) (e : EndClocks) {st : Status} (hst : st ≠ .ok)
    (hre : ¬ (st = .tierFault ∨ st = .timeout)) (whole : Bool) (h : ∀ slot < 24, ctrKey (corePage k) slot ≠ adr) (hc : adr % 0x1000 ≠ 0x050) :
    ctrAt adr (endRun u k i r o e st whole) = ctrAt adr u := by
  have h1 : ctrAt adr (endRun u k i r o e st whole) = ctrAt adr (traceCmd (recordEnd u k i r o e st whole) k r.offer st true) := by
    rw [ctrAt, endRun, jobAfter_ctrs _ _ hre, quitStream_ctrs]
    rfl
  rw [h1, ctrAt_traceCmd _ _ _ _ _ hc, ctrAt_recordEnd _ _ _ _ _ _ hst _ h]

end

/-! ### The end of the shadow -/

theorem recordEnd_regs_ne (s : State) {k : CoreId} {p : Page} (hk : pageOk (corePage k) = true) (hp : pageOk p = true) (hne : corePage k ≠ p)
    {o : Nat} (ho : o < 0x1000) (i : Nat) (r : CmdRun) (x : CmdOut) (c : EndClocks) (st : Status) (whole : Bool) :
    regVal (recordEnd s k i r x c st whole) p o = regVal s p o := by
  have hn : ∀ off < 0x1000, regKey (corePage k) off ≠ regKey p o := fun off hoff => regKey_ne hk hp hoff ho (.inl hne)
  have hl : ∀ fl cl, regVal (recordLast s k i (opOf r.offer.desc) fl cl st) p o = regVal s p o := fun fl cl => by
    unfold recordLast
    dsimp only
    rw [regVal_orReg_ne _ _ _ _ (hn _ (by decide)), regVal_setReg_ne _ _ _ _ (hn _ (by decide)), regVal_setReg_ne _ _ _ _ (hn _ (by decide))]
  refine (regVal_congr ?_ p o).trans (hl (if st = .ok then x.flags else if k.cls = .a then x.flags / 8 * 8 else 0)
    (if st = .ok then x.clocks + c.extra else spanClocks s k r))
  unfold recordEnd
  dsimp only
  split_ifs <;> simp

section
variable (s q) (r : CmdRun) (c : EndClocks) (st : Status)

theorem calm_endShadow {o : Nat} (h : AwayFrom o [0x00C, 0x028, 0x100, 0x104, 0x108, 0x118]) : calm o (endShadow s q r c st) = calm o s := by
  have h1 : AwayFrom o [0x00C, 0x028, 0x118] := ⟨h.1, fun x hx => h.2 x (by simp at hx ⊢; omega)⟩
  have h2 : AwayFrom o [0x100, 0x104, 0x108] := ⟨h.1, fun x hx => h.2 x (by simp at hx ⊢; omega)⟩
  unfold endShadow
  rw [calm_quitStream _ _ _ h1, calm_recordEnd _ _ _ h2]

theorem streamFree_endShadow : StreamFree (endShadow s q r c st) q 0 := streamFree_quitStream _ _ _ _

theorem regField_endShadow : regField (endShadow s q r c st) (corePage q) 0x100 7 0 = statusCode st := by
  unfold endShadow
  obtain ⟨flags, h⟩ := regVal_recordEnd s q 0 r (runOut s q 0 r) c st (r.fail.isNone && r.ended.isSome)
  rw [regField, regVal_of_calm (calm_quitStream _ _ _ (by decide) _), h, field_lastWord_status]

theorem StreamFree.endShadow {s : State} {k : CoreId} {i : Nat} (h : StreamFree s k i) (q : CoreId) (r : CmdRun) (c : EndClocks) (st : Status) :
    StreamFree (endShadow s q r c st) k i :=
  StreamFree.quitStream (h.congr (recordEnd_cores s q 0 r _ c st _)) q 0 r

theorem regField_endShadow_ne {p : Page} (hq : pageOk (corePage q) = true) (hp : pageOk p = true) (hne : corePage q ≠ p) :
    regField (endShadow s q r c st) p 0x100 7 0 = regField s p 0x100 7 0 := by
  unfold endShadow
  rw [regField, regVal_of_calm (calm_quitStream _ _ _ (by decide) _), recordEnd_regs_ne s hq hp hne (by decide)]
  rfl

theorem ctrAt_endShadow {a : Nat} (hst : st ≠ .ok) (h : ∀ slot < 24, ctrKey (corePage q) slot ≠ a) :
    ctrAt a (endShadow s q r c st) = ctrAt a s := by
  have : ctrAt a (endShadow s q r c st) = ctrAt a (recordEnd s q 0 r (runOut s q 0 r) c st (r.fail.isNone && r.ended.isSome)) := by
    rw [ctrAt, endShadow, quitStream_ctrs]
    rfl
  rw [this, ctrAt_recordEnd _ _ _ _ _ _ hst _ h]

end

/-! ### The duplex stage (R575) -/

/-- The first core's command of a duplex stage comes to its end. -/
theorem commandEnd_duplex (hcls : k.cls ≠ .t) (hcur : curOf s k 0 = some r) (hrole : r.offer.role = 1) (hm : mayEnd s k 0 r = true)
    (hr : inReset s r.offer.part = false) (hb : r.badRows = []) : exec (.commandEnd k 0 clk .none) s = .next (duplexStep s k r clk .none) := by
  have hp : ¬ (k.cls = .t ∧ opOf r.offer.desc = 6 ∧ (runOut s k 0 r).spent = true) := fun h => hcls h.1
  rw [exec_commandEnd, execCommandEnd_settled (i := 0) hcur (by rw [hr, Bool.false_and]) hp hm (.inl (badReached_of_nil hb)),
    if_neg (by simp [hrole])]

section
variable (hsh : shadowOf s k = some q) (hcurq : curOf s q 0 = some rq) (hrole : r.offer.role = 1) (hsame : sameCmd rq.offer r.offer = true)
include hsh hcurq hrole hsame

/-- The first core to end waits for the other. -/
theorem duplexStep_waits (he : rq.ended = none) : duplexStep s k r clk .none = setCur s k 0 { r with ended := some (clk, .none) } := by
  have hpart : partner s k 1 = some q := by simp [partner, hsh]
  simp only [duplexStep, hrole, hpart, hcurq, hsame, he, Bool.not_true, Bool.false_eq_true, if_false]

/-- Once both have ended they are compared. -/
theorem duplexStep_both {y : EndClocks × CoreErr} (he : rq.ended = some y) :
    duplexStep s k r clk .none = duplexEnd s k q r rq (clk, .none) y := by
  have hpart : partner s k 1 = some q := by simp [partner, hsh]
  simp only [duplexStep, hrole, hpart, hcurq, hsame, he, Bool.not_true, Bool.false_eq_true, if_false]
  rfl

end

/-- Fireboss's record of a duplex stage of which the outputs differ. -/
def duplexOdd (s : State) (k q : CoreId) : State :=
  let fb := fbPage (stackNo (coreStack k))
  let v := setFlag (ctrAdd (ctrAdd s fb 7 1) fb 8 1) fb 3
  setFb (setFb v k { fbOf v k with retest := some 0 }) q { fbOf v q with retest := some 0 }

theorem duplexEnd_odd (hf : r.fail = none) (hfq : rq.fail = none) (hd : outDigest (runOut s k 0 r) ≠ outDigest (runOut s q 0 rq)) :
    duplexEnd s k q r rq (clk, .none) (x, .none) =
      endShadow (finishCmd (duplexOdd s k q) k 0 { r with ended := some (clk, .none) } clk .safetyHold) q
        { rq with ended := some (x, .none) } x .safetyHold := by
  have hodd : (CoreErr.none == .odd || CoreErr.none == .odd ||
      (r.fail.isNone && rq.fail.isNone && outDigest (runOut s k 0 r) != outDigest (runOut s q 0 rq))) = true := by
    simp [hf, hfq, hd]
  unfold duplexEnd
  simp only [hodd, if_true]
  rfl

theorem duplexOdd_main (s : State) (k q : CoreId) : (duplexOdd s k q).tally = s.tally ∧ (duplexOdd s k q).cores = s.cores ∧
    (let fb := fbPage (stackNo (coreStack k))
    Flagged (duplexOdd s k q) fb 3 ∧ Counted s (duplexOdd s k q) fb 7 1 ∧ Counted s (duplexOdd s k q) fb 8 1) := by
  have hne : ∀ p : Page, ctrKey p 7 ≠ ctrKey p 8 := fun p => by unfold ctrKey; omega
  have hc : (duplexOdd s k q).ctrs =
      (ctrAdd (ctrAdd s (fbPage (stackNo (coreStack k))) 7 1) (fbPage (stackNo (coreStack k))) 8 1).ctrs := setFlag_ctrs _ _ _
  refine ⟨by simp [duplexOdd, setFb], by simp [duplexOdd, setFb], flagged_setFlag _ _ 3 (by decide), ?_, ?_⟩
  · rw [Counted, ctrVal_congr hc, ctrVal, ctrs_ctrAdd_ne _ _ _ _ _ (hne _).symm]
    exact ctrVal_ctrAdd_same _ _ _ (by decide)
  · rw [Counted, ctrVal_congr hc, ctrVal_ctrAdd_same _ _ _ (by decide), ctrVal, ctrs_ctrAdd_ne _ _ _ _ _ (hne _)]
    rfl

/-- Outputs that differ end both commands with SAFETY_HOLD. -/
theorem duplexEnd_differ (hk : k ∈ allCores) (hq : q ∈ allCores) (hkq : k ≠ q) (hcur : curOf s k 0 = some r) (hf : r.fail = none)
    (hfq : rq.fail = none) (hd : outDigest (runOut s k 0 r) ≠ outDigest (runOut s q 0 rq)) :
    let t := duplexEnd s k q r rq (clk, .none) (x, .none)
    curOf t k 0 = none ∧ curOf t q 0 = none ∧ regField t (corePage k) 0x100 7 0 = statusCode .safetyHold ∧
      regField t (corePage q) 0x100 7 0 = statusCode .safetyHold ∧
      (let fb := fbPage (stackNo (coreStack k))
      Flagged t fb 3 ∧ Counted s t fb 7 1 ∧ Counted s t fb 8 1) ∧ t.tally = s.tally := by
  obtain ⟨htally, hcores, hflag, h7, h8⟩ := duplexOdd_main s k q
  have hcur' : curOf (duplexOdd s k q) k 0 = some r := (curOf_congr hcores k 0).trans hcur
  obtain ⟨whole, hfin⟩ := finishCmd_bad (duplexOdd s k q) k 0 hcur' { r with ended := some (clk, .none) } clk (st := .safetyHold) (by decide)
  rw [duplexEnd_odd hf hfq hd, hfin]
  set r' : CmdRun := { r with ended := some (clk, .none) }
  set o := runOut (duplexOdd s k q) k 0 r'
  set b := completeBad (duplexOdd s k q) k r' o
  have hfbk : ∀ c ∈ allCores, ∀ n < 24, ∀ slot < 24, ctrKey (corePage c) slot ≠ ctrKey (fbPage (stackNo (coreStack k))) n :=
    fun c hc n hn slot hs => ctrKey_ne_of_page (corePage_ok c hc) (fbPage_ok _) (corePage_ne_fbPage c _) hs hn
  have hctr : ∀ n < 24, n ≠ 2 → ctrVal (endShadow (endRun b k 0 r' o clk .safetyHold whole) q { rq with ended := some (x, .none) } x .safetyHold)
      (fbPage (stackNo (coreStack k))) n = ctrVal (duplexOdd s k q) (fbPage (stackNo (coreStack k))) n := fun n hn h2 => by
    have hm : ctrKey (fbPage (stackNo (coreStack k))) n % 0x1000 ≠ 0x050 := by
      rw [ctrKey_mod hn]
      omega
    refine (ctrAt_endShadow _ _ _ _ _ (by decide) (hfbk q hq n hn)).trans ?_
    refine (ctrAt_endRun b k 0 r' o clk (by decide) (by decide) whole (hfbk k hk n hn) hm).trans ?_
    exact completeBad_ctrs _ _ _ _ hm
  have hcalm := calm_endShadow (endRun b k 0 r' o clk .safetyHold whole) q { rq with ended := some (x, .none) } x .safetyHold
    (o := 0x010) (by decide)
  refine ⟨?_, (streamFree_endShadow ..).curOf, ?_, regField_endShadow .., ⟨?_, ?_, ?_⟩, ?_⟩
  · exact (StreamFree.endShadow (streamFree_endRun k 0 b r' o clk .safetyHold whole) _ _ _ _).curOf
  · rw [regField_endShadow_ne _ _ _ _ _ (corePage_ok q hq) (corePage_ok k hk) fun e => hkq (corePage_inj e).symm, regField_endRun_status]
  · have hb : regVal (endRun b k 0 r' o clk .safetyHold whole) (fbPage (stackNo (coreStack k))) 0x010 =
        regVal (duplexOdd s k q) (fbPage (stackNo (coreStack k))) 0x010 := by
      rw [endRun, regVal_congr (jobAfter_regs ..), regVal_of_calm (calm_quitStream _ _ _ (by decide) _), regVal_traceCmd _ _ (by decide),
        regVal_of_calm (calm_recordEnd _ _ _ (by decide) _ _ _ _ _), regVal_congr (completeBad_regs ..)]
    rw [Flagged, regBit, regVal_of_calm hcalm, hb]
    exact hflag
  · rw [Counted, hctr 7 (by decide) (by decide)]
    exact h7
  · rw [Counted, hctr 8 (by decide) (by decide)]
    exact h8
  · rw [tally_of_calm hcalm, endRun_tally, completeBad_tally, htally]

end Sys2Proof.Machine
end

section
/-! PROOFS. Rows on their way (R155, R436): ROW_PUSH sends a row, ROW_LANDED advances the channel's ROW_TALLY and puts the row into the Face. -/

namespace Sys2Proof.Machine

variable (s : State) (k : CoreId) (i : Nat)

/-! ### What the work of the A-cores leaves alone (R270 to R279) -/

/-- The Tallies, the registers with the states of the streams, and slot 3 of the counters. -/
def streamView (s : State) : SMap Word × (Page → Word × Word) × (Nat → DWord) :=
  (s.tally, fun p => (regVal s p 0x00C, regVal s p 0x118), fun x => if x % 0x1000 = 0x058 then smGet 0 s.ctrs x else 0)

section
variable {s t : State}

theorem tally_of_streamView (h : streamView t = streamView s) : t.tally = s.tally := congrArg Prod.fst h

theorem streamState_of_streamView (h : streamView t = streamView s) (k : CoreId) (i : Nat) : streamState t k i = streamState s k i := by
  have hp : (regVal t (corePage k) 0x00C, regVal t (corePage k) 0x118) = (regVal s (corePage k) 0x00C, regVal s (corePage k) 0x118) :=
    congrFun (congrArg (·.2.1) h) (corePage k)
  obtain ⟨h1, h2⟩ := Prod.mk.inj hp
  simp only [streamState, pgState, regField, h1, h2]

theorem ctrVal_of_streamView (h : streamView t = streamView s) (p : Page) : ctrVal t p 3 = ctrVal s p 3 := by
  have hk : ctrKey p 3 % 0x1000 = 0x058 := ctrKey_mod (by decide)
  have := congrFun (congrArg (·.2.2) h) (ctrKey p 3)
  simpa [streamView, hk, ctrVal] using this

theorem streamView_of_offTier (h : offTier t = offTier s) : streamView t = streamView s := by
  have hc : (fun x => if x % 0x1000 = 0x058 then smGet 0 t.ctrs x else (0 : DWord)) =
      fun x => if x % 0x1000 = 0x058 then smGet 0 s.ctrs x else 0 := by
    funext x
    split
    · exact ctrs_of_offTier h (by omega)
    · rfl
  simp only [streamView, regVal, tally_of_offTier h, regs_of_offTier h, hc]

end

@[simp] theorem streamView_ctrAdd {slot : Nat} (h : slot < 24 ∧ slot ≠ 3) (p : Page) (n : Nat) :
    streamView (ctrAdd s p slot n) = streamView s := by
  have hc : (fun x => if x % 0x1000 = 0x058 then smGet 0 (ctrAdd s p slot n).ctrs x else (0 : DWord)) =
      fun x => if x % 0x1000 = 0x058 then smGet 0 s.ctrs x else 0 := by
    funext x
    split
    · next hx =>
      refine ctrs_ctrAdd_ne s p slot n x fun e => ?_
      rw [← e, ctrKey_mod h.1] at hx
      omega
    · rfl
  simp only [streamView, regVal, ctrAdd_tally, ctrAdd_regs, hc]

@[simp] theorem streamView_setFlag (p : Page) (n : Nat) : streamView (setFlag s p n) = streamView s := by
  have h : ∀ o ∈ [0x00C, 0x118], ∀ q, regVal (setFlag s p n) q o = regVal s q o := fun o ho q =>
    regVal_setFlag_ne s p q (regKey_ne_of_off (by decide) (by simp at ho; omega) (by simp at ho; omega))
  simp only [streamView, setFlag_tally, setFlag_ctrs, h 0x00C (by simp), h 0x118 (by simp)]

@[simp] theorem streamView_setCur (r : CmdRun) : streamView (setCur s k i r) = streamView s := rfl
@[simp] theorem streamView_spendFree (n : Nat) : streamView (spendFree s n) = streamView s := rfl
@[simp] theorem streamView_atBoundary (a : BAct) : streamView (atBoundary s a) = streamView s := rfl
@[simp] theorem streamView_takeSlot (p pool n : Nat) : streamView (takeSlot s p pool n) = streamView s := rfl

@[simp] theorem streamView_giveBack (p pool : Nat) (rows : List KvRow) : streamView (giveBack s p pool rows) = streamView s := by
  unfold giveBack
  exact foldl_leaves streamView (fun t _ => by split <;> rfl) _ _

theorem streamView_appendRow {u : State} {p : Nat} {a : ADesc} {c : PoolCfg} {r : KvRow} {row : List Byte} (h : appendRow s p a c r row = .ok u) :
    streamView u = streamView s := by
  unfold appendRow at h
  dsimp only at h
  split_ifs at h
  all_goals
    cases h
    rw [streamView_atBoundary]
    refine streamView_of_offTier ?_
    rw [offTier_writeBytes, offTier_writeBytes]
    split
    · rfl
    · rw [offTier_writeBytes, offTier_writeBytes]

theorem streamView_appendOne (p : Nat) (a : ADesc) (lane : Nat) (ready : Nat → Bool) (data : Nat → List Byte) (x : AppendSt) (row : Nat × Nat × Nat) :
    streamView (appendOne p a lane ready data x row).st = streamView x.st := by
  have ht : ∀ r : KvRow, streamView (if r.fresh then atBoundary (takeSlot x.st p a.pool r.slot) (.kvSwap p a.pool lane) else x.st) =
      streamView x.st := fun r => by split <;> rfl
  unfold appendOne
  dsimp only
  split
  · rfl
  · split
    · rfl
    · split
      · rfl
      · next r _ =>
        split
        · rfl
        · split
          · next h => exact (streamView_appendRow _ h).trans (ht r)
          · dsimp only
            split
            · rw [streamView_giveBack, streamView_atBoundary, streamView_takeSlot]
            · rfl

@[simp] theorem streamView_appendStep : streamView (appendStep s k) = streamView s := by
  have hf : ∀ p a lane ready data (x : AppendSt) rows,
      streamView (List.foldl (appendOne p a lane ready data) x rows).st = streamView x.st := fun p a lane ready data x rows =>
    foldl_same (fun x : AppendSt => streamView x.st) (fun x row => streamView_appendOne p a lane ready data x row) rows x
  unfold appendStep
  dsimp only
  split
  · rfl
  · split
    · rfl
    · split
      · rfl
      · split
        · rw [streamView_setCur, hf]
        · rw [streamView_setCur]
          split
          · rw [streamView_setFlag, hf]
          · exact hf _ _ _ _ _ _ _

/-- Only an A-core appends. -/
theorem appendStep_of_not_a (h : k.cls ≠ .a) : appendStep s k = s := by
  unfold appendStep
  dsimp only
  split
  · rfl
  · split
    · rfl
    · exact if_pos (.inl h)

/-! ### A row lands (R155) -/

/-- What a row that lands leaves alone. -/
def offFace (s : State) : SMap Word × MemSt × SMap Word := (s.tally, s.mem, s.regs)

@[simp] theorem offFace_putFace (key : Nat) (bs : List Byte) : offFace (putFace s key bs) = offFace s := by
  induction bs generalizing s key with
  | nil => rfl
  | cons b bs ih => rw [putFace, ih]; rfl

@[simp] theorem offFace_ctrAdd (p : Page) (slot n : Nat) : offFace (ctrAdd s p slot n) = offFace s := by simp [offFace]

@[simp] theorem offFace_landRow (job chan : Nat) (c : Channel) (rowT : Word) (row : List Byte) :
    offFace (landRow s job chan c rowT row k) = offFace s := by
  unfold landRow
  refine foldl_leaves offFace (fun t n => ?_) _ _
  split
  · rfl
  · split
    · rfl
    · dsimp only
      split
      · rfl
      · split <;> simp

/-- The bytes that a row puts into the Face. -/
theorem smGet_putFace (bs : List Byte) : ∀ (s : State) (key x : Nat),
    smGet 0 (putFace s key bs).face x = if key ≤ x ∧ x < key + bs.length then bs.getD (x - key) 0 else smGet 0 s.face x := by
  induction bs with
  | nil =>
    intro s key x
    rw [if_neg (by simp)]
    rfl
  | cons b bs ih =>
    intro s key x
    rw [putFace, ih, List.length_cons]
    by_cases hx : x = key
    · subst hx
      rw [if_neg (by omega), if_pos (by omega), smGet_smSet_same, Nat.sub_self]
      rfl
    · by_cases h : key + 1 ≤ x ∧ x < key + 1 + bs.length
      · obtain ⟨n, hn⟩ : ∃ n, x - key = n + 1 := ⟨x - key - 1, by omega⟩
        rw [if_pos h, if_pos (by omega), hn, List.getD_cons_succ]
        congr 1
        omega
      · rw [if_neg h, if_neg (by omega), smGet_smSet_ne _ _ _ _ (Ne.symm hx)]

section
variable {s k} {q : CoreId} {r rq : CmdRun} {w : Nat × Nat × Word} {job chan : Nat} (c : Channel) (rowT : Word)
variable (hq : q.cls ≠ .a) (hcur : curOf s q 0 = some rq) (hj : rq.offer.job = job) (hw : rq.win.find? (fun x => x.1 == chan) = some w)
include hq hcur hj hw

/-- A row of the right length lands in the Face of the command whose window the channel feeds. -/
theorem face_landRow {row : List Byte} (hl : row.length = chanPitch c) {n : Nat} (hn : n < row.length) :
    smGet 0 (landRow s job chan c rowT row q).face
      (faceKey q 0 (faceBase q rq.offer.desc w.2.1 + (c.dstRow + (rowT - w.2.2).toNat) * chanPitch c) + n) = row.getD n 0 := by
  have hf : ∀ (t : State) p slot m, (ctrAdd t p slot m).face = t.face := fun t p slot m => ctrAdd_face t p slot m
  unfold landRow
  simp only [streamsOf, if_neg hq, List.foldl_cons, List.foldl_nil, hcur, if_pos hj, hw, hl, ne_eq, not_true_eq_false, if_false]
  split
  · rw [hf, smGet_putFace, if_pos ⟨Nat.le_add_right _ _, by omega⟩, Nat.add_sub_cancel_left]
  · rw [smGet_putFace, if_pos ⟨Nat.le_add_right _ _, by omega⟩, Nat.add_sub_cancel_left]

/-- A row of another length is noted for that command. -/
theorem curOf_landRow {row : List Byte} (hl : row.length ≠ chanPitch c) : curOf (landRow s job chan c rowT row q) q 0 =
    some { rq with badRows := rq.badRows ++ [(w.2.1, c.dstRow + (rowT - w.2.2).toNat)] } := by
  unfold landRow
  simp only [streamsOf, if_neg hq, List.foldl_cons, List.foldl_nil, hcur, if_pos hj, hw, ne_eq, hl, not_false_eq_true, if_true]
  exact curOf_setCur _ _ _ _

end

/-! ### The commands of a row -/

variable {s k}

theorem exec_rowPush {i : Fin 2} {ch : Fin 256} : exec (.rowPush k i ch) s = execRowPush k i ch s := rfl
theorem exec_rowLanded {i : Fin 2} {ch : Fin 256} : exec (.rowLanded k i ch) s = execRowLanded k i ch s := rfl

/-- A channel's entry after it was set. -/
theorem find_setPush {r : CmdRun} {ch : Nat} {p p' : PushSt} (h : r.push.find? (fun x => x.chan == ch) = some p) (hp : p'.chan = p.chan) :
    (setPush r p').push.find? (fun x => x.chan == ch) = some p' := by
  have hc : p.chan = ch := by simpa using List.find?_some h
  have hq : ((fun x : PushSt => x.chan == ch) ∘ fun x : PushSt => if x.chan = p'.chan then p' else x) = fun x => x.chan == ch := by
    funext x
    dsimp only [Function.comp]
    split
    · next e => rw [e]
    · rfl
  rw [setPush, List.find?_map, hq, h, Option.map_some, if_pos hp.symm]

theorem rowPush_effects {i : Fin 2} {ch : Fin 256} {r : CmdRun} {p : PushSt} {c : Channel} (hcur : curOf s k i = some r)
    (hp : r.push.find? (fun x => x.chan == ch.val) = some p) (hc : chanOf s r.offer.job ch = some c) (hst : streamState s k i = cRun)
    (hf : r.fail = none) (hn : p.next < pushEnd c (runOut s k i r).rows.length) (hr : rowReady s k r p.next = true) (hcr : 1 ≤ creditOf s c p) :
    ∃ t r', exec (.rowPush k i ch) s = .next t ∧ curOf t k i = some r' ∧
      r'.push.find? (fun x => x.chan == ch.val) = some { p with next := p.next + 1, flying := p.flying + 1 } ∧
      r' = { r with push := r'.push } ∧ (k.cls = .v → Counted s t (corePage k) 10 1) ∧ RegsBut [] s t ∧
      t = { withBlock t s with cores := t.cores } := by
  set r' := setPush r { p with next := p.next + 1, flying := p.flying + 1 }
  have hexec : exec (.rowPush k i ch) s =
      .next (if k.cls = .v then ctrAdd (setCur s k i r') (corePage k) 10 1 else setCur s k i r') := by
    have hp' : r.push.find? (fun x => x.chan == ch.toNat) = some p := hp
    rw [exec_rowPush]
    unfold execRowPush
    simp only [hcur, hp', hc, hst, hf, Option.isNone_none, hn, hr, ge_iff_le, hcr, and_self, if_true]
    rfl
  refine ⟨_, r', hexec, ?_, find_setPush hp rfl, rfl, fun hv => ?_, ?_, ?_⟩
  · split
    · rw [curOf_congr (ctrAdd_cores _ _ _ _), curOf_setCur]
    · rw [curOf_setCur]
  · rw [if_pos hv]
    exact ctrVal_ctrAdd_same _ _ _ (by decide)
  · split
    · exact regsBut_congr (regsBut_refl [] s) (ctrAdd_regs _ _ _ _)
    · exact regsBut_congr (regsBut_refl [] s) rfl
  · split
    · have hb : ctrAdd (setCur s k i r') (corePage k) 10 1 = withBlock (ctrAdd (setCur s k i r') (corePage k) 10 1) (setCur s k i r') :=
        onlyBlock_ctrAdd _ _ _ _
      rw [ctrAdd_cores]
      exact hb
    · rfl

/-- The streams that a row of the channel reaches. -/
def rowCores (s : State) (c : Channel) : List CoreId :=
  match coreOfCode c.dst with
  | some q => q :: (shadowOf s q).toList
  | none => []

/-- A row in flight, filled up to whole units. -/
def flownRow (s : State) (k : CoreId) (i : Nat) (r : CmdRun) (p : PushSt) : List Byte :=
  let row := (runOut s k i r).rows.getD (p.next - p.flying) []
  row ++ List.replicate (roundUp row.length 64 - row.length) 0

/-- The row has left the channel and has landed on every stream that it reaches. -/
def rowDown (s : State) (k : CoreId) (i ch : Nat) (r : CmdRun) (p : PushSt) (c : Channel) : State :=
  (rowCores s c).foldl (fun u q => landRow u r.offer.job ch c (tallyVal s c.rowT) (flownRow s k i r p) q)
    (setCur s k i (setPush r { p with flying := p.flying - 1 }))

theorem exec_rowLanded_eq {i : Fin 2} {ch : Fin 256} {r : CmdRun} {p : PushSt} {c : Channel} (hcur : curOf s k i = some r)
    (hp : r.push.find? (fun x => x.chan == ch.val) = some p) (hc : chanOf s r.offer.job ch = some c) (hf : 0 < p.flying) :
    exec (.rowLanded k i ch) s = .next ((rowCores s c).foldl (fun v q => appendStep v q) (tallyAdd (rowDown s k i ch r p c) c.rowT 1)) := by
  have hp' : r.push.find? (fun x => x.chan == ch.toNat) = some p := hp
  rw [exec_rowLanded]
  unfold execRowLanded
  simp only [hcur, hp', hc, if_neg (Nat.pos_iff_ne_zero.1 hf)]
  rfl

theorem offFace_rowDown {i ch : Nat} {r : CmdRun} {p : PushSt} {c : Channel} : offFace (rowDown s k i ch r p c) = offFace s :=
  foldl_leaves offFace (fun t q => offFace_landRow t q _ _ _ _ _) _ _

/-- The command of a stream is the one it was but for its channels. -/
theorem curOf_pushed {i : Nat} {r : CmdRun} (hcur : curOf s k i = some r) (p : PushSt) {q : CoreId} {rq : CmdRun} (hq : curOf s q 0 = some rq) :
    ∃ ps, curOf (setCur s k i (setPush r p)) q 0 = some { rq with push := ps } := by
  by_cases e : streamKey k i = streamKey q 0
  · have hr : rq = r := by
      have : curOf s q 0 = curOf s k i := by simp only [curOf, coreSt, e]
      rw [hq, hcur] at this
      exact Option.some.inj this
    refine ⟨(setPush r p).push, ?_⟩
    have : curOf (setCur s k i (setPush r p)) q 0 = curOf (setCur s k i (setPush r p)) k i := by simp only [curOf, coreSt, e]
    rw [this, curOf_setCur, hr]
    rfl
  · exact ⟨rq.push, by rw [curOf_setCur_ne _ _ _ e, hq]⟩

theorem rowLanded_effects {i : Fin 2} {ch : Fin 256} {r : CmdRun} {p : PushSt} {c : Channel} (hcur : curOf s k i = some r)
    (hp : r.push.find? (fun x => x.chan == ch.val) = some p) (hc : chanOf s r.offer.job ch = some c) (hf : 0 < p.flying) :
    ∃ t, exec (.rowLanded k i ch) s = .next t ∧ tallyVal t c.rowT = tallyVal s c.rowT + 1 ∧
      (∀ j, j ≠ c.rowT → tallyVal t j = tallyVal s j) ∧
      ((∀ q, coreOfCode c.dst = some q → q.cls ≠ .a ∧ ∀ q', shadowOf s q = some q' → q'.cls ≠ .a) → t.mem = s.mem ∧ RegsBut [] s t) ∧
      (∀ q w rq, coreOfCode c.dst = some q → q.cls ≠ .a → shadowOf s q = none → curOf s q 0 = some rq → rq.offer.job = r.offer.job →
        rq.win.find? (fun x => x.1 == ch.val) = some w →
        let j := c.dstRow + (tallyVal s c.rowT - w.2.2).toNat
        ((flownRow s k i r p).length = chanPitch c → ∀ n, n < (flownRow s k i r p).length →
          smGet 0 t.face (faceKey q 0 (faceBase q rq.offer.desc w.2.1 + j * chanPitch c) + n) = (flownRow s k i r p).getD n 0) ∧
        ((flownRow s k i r p).length ≠ chanPitch c → ∃ r', curOf t q 0 = some r' ∧ r'.badRows = rq.badRows ++ [(w.2.1, j)] ∧ r'.fail = rq.fail)) := by
  have hoff : offFace (rowDown s k i ch r p c) = offFace s := offFace_rowDown
  have htally : ∀ u, (List.foldl (fun v q => appendStep v q) u (rowCores s c)).tally = u.tally := fun u =>
    foldl_leaves State.tally (fun t q => tally_of_streamView (streamView_appendStep t q)) _ _
  have hnot : (∀ q ∈ rowCores s c, q.cls ≠ .a) → ∀ u, List.foldl (fun v q => appendStep v q) u (rowCores s c) = u := fun h u =>
    List.foldlRecOn (motive := fun v => v = u) _ _ rfl fun v hv q hq => (appendStep_of_not_a v q (h q hq)).trans hv
  have hdown : ∀ j, tallyVal (rowDown s k i ch r p c) j = tallyVal s j := fun j => by
    have h : (rowDown s k i ch r p c).tally = s.tally := congrArg (fun x => x.1) hoff
    rw [tallyVal, h]
    rfl
  refine ⟨_, exec_rowLanded_eq hcur hp hc hf, ?_, fun j hj => ?_, fun hna => ?_, fun q w rq hq hqa hsh hcq hjob hw => ?_⟩
  · rw [tallyVal, htally, ← hdown c.rowT]
    exact tallyVal_tallyAdd_same _ _ _
  · rw [tallyVal, htally, ← hdown j]
    exact tallyVal_tallyAdd_ne _ _ (Ne.symm hj)
  · have ha : ∀ q ∈ rowCores s c, q.cls ≠ .a := fun q hq => by
      unfold rowCores at hq
      split at hq
      · next q0 h0 =>
        obtain ⟨h1, h2⟩ := hna q0 h0
        rcases List.mem_cons.1 hq with rfl | hq
        · exact h1
        · exact h2 q (Option.mem_toList.1 hq)
      · cases hq
    rw [hnot ha]
    refine ⟨?_, regsBut_congr (regsBut_refl [] s) ?_⟩
    · exact (ctrAdd_mem _ _ _ _).trans (congrArg (fun x => x.2.1) hoff)
    · exact (ctrAdd_regs _ _ _ _).trans (congrArg (fun x => x.2.2) hoff)
  · have hcores : rowCores s c = [q] := by simp [rowCores, hq, hsh]
    have ha : ∀ q' ∈ rowCores s c, q'.cls ≠ .a := by
      rw [hcores]
      simpa using hqa
    obtain ⟨ps, hps⟩ := curOf_pushed hcur { p with flying := p.flying - 1 } hcq
    have hd : rowDown s k i ch r p c = landRow (setCur s k i (setPush r { p with flying := p.flying - 1 })) r.offer.job ch c
        (tallyVal s c.rowT) (flownRow s k i r p) q := by
      rw [rowDown, hcores]
      rfl
    rw [hnot ha, hd]
    refine ⟨fun hl n hn => ?_, fun hl => ?_⟩
    · rw [tallyAdd, ctrAdd_face]
      exact face_landRow c _ hqa hps hjob hw hl hn
    · exact ⟨_, (curOf_congr (ctrAdd_cores _ _ _ _) q 0).trans (curOf_landRow c _ hqa hps hjob hw hl), rfl, rfl⟩

end Sys2Proof.Machine
end

section
/-! PROOFS. A waiting command enters RUN (R164). -/

namespace Sys2Proof.Machine

variable (s : State) (k : CoreId) (i : Nat) (r : CmdRun)

/-! ### What the entry to RUN leaves alone -/

@[simp] theorem streamView_stopRun (st : Status) (o : CmdOut) : streamView (stopRun s k i r st o) = streamView s := rfl

@[simp] theorem streamView_computeRun : streamView (computeRun s k i r) = streamView s := by
  unfold computeRun
  dsimp only
  split
  · rw [streamView_stopRun, streamView_spendFree]
  · split <;> rw [streamView_setCur, streamView_spendFree]

theorem streamView_pinPages (p : Nat) (a : ADesc) : ∀ (xs : List (Nat × Nat × Nat)) (s : State) (acc : List (Nat × Nat)),
    streamView (pinPages p a s xs acc).1 = streamView s := by
  intro xs
  induction xs with
  | nil => exact fun _ _ => rfl
  | cons x xs ih =>
    intro s acc
    obtain ⟨seq, b, off⟩ := x
    unfold pinPages
    dsimp only
    split
    · rfl
    · split
      · rfl
      · split
        · rfl
        · exact ih _ _

@[simp] theorem streamView_kvPrefetch (p : Nat) (a : ADesc) (pins : List (Nat × Nat)) : streamView (kvPrefetch s k p a pins) = streamView s := by
  unfold kvPrefetch
  dsimp only
  split <;> rfl

@[simp] theorem streamView_pinRun (a : ADesc) (es : List LenEntry) : streamView (pinRun s k r a es) = streamView s := by
  have hx := streamView_pinPages r.offer.part a (pinList a es) s []
  unfold pinRun
  dsimp only
  split
  · rw [streamView_stopRun]
    split
    · rw [streamView_setFlag, streamView_ctrAdd _ (by decide), hx]
    · rw [streamView_ctrAdd _ (by decide), hx]
  · split
    · rw [streamView_stopRun, streamView_kvPrefetch, streamView_ctrAdd _ (by decide), hx]
    · rw [streamView_computeRun, streamView_kvPrefetch, streamView_ctrAdd _ (by decide), hx]

@[simp] theorem streamView_appendRun : streamView (appendRun s k r) = streamView s := by
  unfold appendRun
  dsimp only
  split
  · rw [streamView_stopRun, streamView_spendFree]
  · rw [streamView_appendStep, streamView_setCur, streamView_spendFree]

@[simp] theorem streamView_beginA : streamView (beginA s k i r) = streamView s := by
  unfold beginA
  dsimp only
  split
  · exact streamView_computeRun ..
  · split
    · exact streamView_stopRun ..
    · split
      · exact streamView_stopRun ..
      · split
        · exact streamView_pinRun ..
        · split
          · exact streamView_appendRun ..
          · exact streamView_computeRun ..

section
variable {s k i r}

/-- The entry to RUN puts the stream into RUN and no Tally's wait is counted in it. -/
theorem streamView_beginRun (h : curOf s k i = some r) : streamView (beginRun s k i) = streamView (setStreamState s k i cRun) := by
  unfold beginRun
  rw [h]
  dsimp only
  split
  · exact streamView_beginA ..
  · split
    · exact streamView_stopRun ..
    · exact streamView_computeRun ..
  · exact streamView_computeRun ..

/-- A command of another core than an A-core computes at its entry to RUN, but for a planning command that comes late. -/
theorem beginRun_of_not_a (h : curOf s k i = some r) (ha : k.cls ≠ .a)
    (hl : k.cls = .l → opOf r.offer.desc = 0 ∨ planLate (setStreamState s k i cRun) (lDesc r.offer.desc).cycle = false) :
    beginRun s k i = computeRun (setStreamState s k i cRun) k i r := by
  unfold beginRun
  rw [h]
  dsimp only
  split
  · next hc => exact absurd hc ha
  · next hc =>
    refine if_neg fun hn => ?_
    rcases hl hc with h0 | h0
    · exact hn.1 h0
    · rw [h0] at hn
      cases hn.2
  · rfl

/-- What a command computes at its entry to RUN. -/
theorem computes_computeRun {u : State} : Computes k i u (computeRun u k i r) r := by
  have hr : Reads k u r = { r with
      free0 := u.free
      seen := if (cmdWindows k r.offer.desc).isEmpty then [] else (cmdReads u k r).map fun x => (x.1, readBytes u r.offer.part x.1 x.2) } := by
    simp only [Reads, List.isEmpty_iff]
  unfold computeRun
  dsimp only
  rw [← hr]
  refine ⟨fun hst hw => ?_, fun hst hw => ?_, fun hst => ⟨computeOut u k i (Reads k u r), ?_⟩⟩
  · rw [if_neg (not_not.2 hst), if_neg (by simpa using hw)]
  · rw [if_neg (not_not.2 hst), if_pos (by simpa using hw), hr]
  · rw [if_pos hst]
    rfl

end

/-! ### The entry of a waiting command (R164) -/

theorem regsBut_setStreamState {s t : State} {ks : List Nat} (h : RegsBut ks s t) (h1 : regKey (corePage k) 0x00C ∈ ks)
    (h2 : regKey (corePage k) 0x028 ∈ ks) (h3 : regKey (corePage k) 0x118 ∈ ks) (st : Nat) : RegsBut ks s (setStreamState t k i st) := by
  unfold setStreamState
  dsimp only
  refine regsBut_setRegField ?_ h1 _ _ _
  split
  · exact regsBut_setRegField (regsBut_setRegField h h3 _ _ _) h3 _ _ _
  · exact regsBut_setPgState h h1 h2 st

theorem planLate_congr {s t : State} (h1 : t.seq = s.seq) (h2 : t.time = s.time) (n : Nat) : planLate t n = planLate s n := by
  unfold planLate now
  rw [h1, h2]

variable {s k r}

theorem exec_tallyWaitRelease {i : Fin 2} : exec (.tallyWaitRelease k i) s = execTallyWaitRelease k i s := rfl

theorem tallyWaitRelease_effects {i : Fin 2} (hcur : curOf s k i = some r) (hst : streamState s k i = cWait)
    (hre : reached (tallyVal s (waitTally r.offer.desc)) (waitThresh r.offer.desc) = true) :
    ∃ u t, exec (.tallyWaitRelease k i) s = .next t ∧ streamState t k i = cRun ∧ Counted s t (tallyPage (waitTally r.offer.desc)) 3 1 ∧
      streamState u k i = cRun ∧ u = { withBlock u s with regs := u.regs } ∧
      RegsBut [regKey (corePage k) 0x00C, regKey (corePage k) 0x028, regKey (corePage k) 0x118] s u ∧
      (k.cls ≠ .a → (k.cls = .l → opOf r.offer.desc = 0 ∨ planLate s (lDesc r.offer.desc).cycle = false) → r.fail = none → Computes k i u t r) := by
  set s1 := ctrAdd s (tallyPage (waitTally r.offer.desc)) 3 1 with hs1
  have hcur1 : curOf s1 k i = some r := (curOf_congr (ctrAdd_cores _ _ _ _) k i).trans hcur
  have hexec : exec (.tallyWaitRelease k i) s = .next (beginRun s1 k i) := by
    rw [exec_tallyWaitRelease]
    unfold execTallyWaitRelease
    simp only [hcur, hst, hre, and_self, if_true]
    rfl
  have hv := streamView_beginRun hcur1
  have hrun : streamState (setStreamState s1 k i cRun) k i = cRun := streamState_setStreamState _ _ _ (by decide)
  refine ⟨setStreamState s1 k i cRun, beginRun s1 k i, hexec, (streamState_of_streamView hv k i).trans hrun, ?_, hrun, ?_, ?_,
    fun ha hl _ => ?_⟩
  · rw [Counted, ctrVal_of_streamView hv, ctrVal_congr (setStreamState_ctrs _ _ _ _), hs1, ctrVal_ctrAdd_same _ _ _ (by decide)]
  · have hb : OnlyBlock s s1 := onlyBlock_ctrAdd _ _ _ _
    exact onlyBlock_trans hb (onlyBlock_setStreamState s1 k i cRun)
  · exact regsBut_setStreamState k i (regsBut_ctrAdd (regsBut_refl _ s) 3 1) (by simp) (by simp) (by simp) cRun
  · have hpl : ∀ n, planLate (setStreamState s1 k i cRun) n = planLate s n := planLate_congr (by simp [hs1]) (by simp [hs1])
    rw [beginRun_of_not_a hcur1 ha fun hc => by rw [hpl]; exact hl hc]
    exact computes_computeRun

end Sys2Proof.Machine
end

section
/-! PROOFS. The rows of the commands of the cores, from the entry to RUN to the end. -/

namespace Sys2Proof.Machine

/-- Settles O47: a command that runs or ends goes through the entry to RUN, the channel's rows, the completion and the end of its stream, and each
of these leaves alone what the others record. -/
theorem commandsRunAndEnd : Obligations.CommandsRunAndEnd := by
  refine ⟨?release, ?push, ?landed, ?endOk, ?endBad, ?abort, ?duplex, ?timeout⟩
  case release => exact fun s k i r hcur hst hre => tallyWaitRelease_effects hcur hst hre
  case push => exact fun s k i ch r p c hcur hp hc hst hf hn hr hcr => rowPush_effects hcur hp hc hst hf hn hr hcr
  case landed => exact fun s k i ch r p c hcur hp hc hf => rowLanded_effects hcur hp hc hf
  case endOk =>
    intro s k i r clk hcur hst hrole he hf hb hd hfly _ hl o part hp hplan hw hs ha hk
    obtain ⟨whole, hexec⟩ := commandEnd_ok (clk := clk) hcur hst hrole he hf hb hd hfly hl hp hplan hw hs ha hk
    obtain ⟨hcn, hidle, hstat, hop⟩ := endRun_main (completeOk s k r o) o clk .ok whole (n := i)
    refine ⟨_, hexec, hcn, hidle, hstat, hop, fun _ htr => ?_, fun _ hsig hj hr => ?_, fun _ j hj => ?_⟩
    · have htr' : regBit (completeOk s k r o) (partPage r.offer.part) 0x748 31 = false :=
        (congrArg (bit · 31) (regVal_completeOk s k r o _)).trans htr
      exact (endRun_cells k i _ r o clk .ok whole htr').trans (completeOk_cells s k r o)
    · rw [tallyVal, endRun_tally]
      exact tallyVal_completeOk s k r o hsig hj hr
    · rw [tallyVal, endRun_tally]
      exact tallyVal_completeOk_ne s k r o hj
  case endBad =>
    intro s k i r clk st hcur hst hrole he hf hne hfly _ hp
    obtain ⟨whole, hexec⟩ := commandEnd_failed (clk := clk) hcur hst hrole he hf hne hfly hp
    obtain ⟨hcn, hidle, hstat, -⟩ := endRun_main (completeBad s k r (runOut s k i r)) (runOut s k i r) clk st whole (n := i)
    refine ⟨_, hexec, hcn, hidle, hstat, (endRun_tally ..).trans (completeBad_tally ..), fun hstores htr => ?_⟩
    have htr' : regBit (completeBad s k r (runOut s k i r)) (partPage r.offer.part) 0x748 31 = false :=
      (congrArg (bit · 31) (regVal_congr (completeBad_regs ..) _ _)).trans htr
    exact (endRun_cells k i _ r _ clk st whole htr').trans (congrArg MemSt.cells (completeBad_mem s k hstores r))
  case abort =>
    intro s k i r clk e hcur hr hh _
    exact ⟨_, (exec_commandEnd).trans (execCommandEnd_abort hcur hr hh), abortCmd_main hcur .busyReset⟩
  case duplex =>
    intro s k q r rq clk x hk hq hkq hcls hsh hcur hcurq hrole _ hsame hm hr hf hb
    have hexec := commandEnd_duplex (clk := clk) hcls hcur hrole hm hr hb
    refine ⟨fun he => ?_, fun he hfq hd => ?_⟩
    · rw [hexec, duplexStep_waits hsh hcurq hrole hsame he]
    · refine ⟨_, hexec.trans (congrArg _ (duplexStep_both hsh hcurq hrole hsame he)), ?_⟩
      exact duplexEnd_differ hk hq hkq hcur hf hfq hd
  case timeout =>
    intro s c r k hcur hst hop hf hs hrole hstores htracks
    obtain ⟨whole, hexec⟩ := assignTimeout_spent hcur hst hop hf hs hrole hstores htracks
    obtain ⟨hcn, hidle, hstat, -⟩ := endRun_main s (runOut s k 0 r) ⟨0, 0, 0, 0⟩ .timeout whole (n := 0)
    refine ⟨_, hexec, hcn, hidle, hstat, endRun_tracks .., endRun_tally .., fun htr => endRun_cells k 0 s r _ _ .timeout whole htr⟩

end Sys2Proof.Machine
end

section
/-! PROOFS. The tag allocator (R191 to R193): the lowest number that a rising list does not hold, and the lowest free tag of a block. -/

namespace Sys2Proof.Machine

/-! ### The lowest number that a rising list does not hold -/

/-- Without a free number every number of the range is held. -/
theorem mem_of_nlLowestFree_none : ∀ {xs : List Nat} {lo hi : Nat}, nlLowestFree xs lo hi = none → ∀ u, lo ≤ u → u < hi → u ∈ xs := by
  intro xs
  induction xs with
  | nil =>
    intro lo hi h u hl hh
    simp [nlLowestFree, hl.trans_lt hh] at h
  | cons y ys ih =>
    intro lo hi h u hl hh
    rw [nlLowestFree] at h
    split_ifs at h with h1 h2 h3
    · exact List.mem_cons_of_mem _ (ih h u hl hh)
    · omega
    · by_cases e : u = y
      · exact e ▸ List.mem_cons_self
      · exact List.mem_cons_of_mem _ (ih h u (by omega) hh)

/-- The number found lies in the range, is not held, and every lower number of the range is held. -/
theorem nlLowestFree_some : ∀ {xs : List Nat} {lo hi t : Nat}, xs.Pairwise (· < ·) → nlLowestFree xs lo hi = some t →
    lo ≤ t ∧ t < hi ∧ t ∉ xs ∧ ∀ u, lo ≤ u → u < t → u ∈ xs := by
  intro xs
  induction xs with
  | nil =>
    intro lo hi t _ h
    simp only [nlLowestFree, Option.ite_none_right_eq_some, Option.some.injEq] at h
    obtain ⟨hlo, rfl⟩ := h
    exact ⟨Nat.le_refl _, hlo, List.not_mem_nil, fun u hl hu => absurd hu (Nat.not_lt.2 hl)⟩
  | cons y ys ih =>
    intro lo hi t hr h
    obtain ⟨hy, hys⟩ := List.pairwise_cons.1 hr
    rw [nlLowestFree] at h
    split_ifs at h with h1 h2 h3
    · obtain ⟨hlo, hhi, hn, hlower⟩ := ih hys h
      exact ⟨hlo, hhi, List.not_mem_cons_of_ne_of_not_mem (by omega) hn, fun u hl hu => List.mem_cons_of_mem _ (hlower u hl hu)⟩
    · cases h
      refine ⟨Nat.le_refl _, h3, List.not_mem_cons_of_ne_of_not_mem (by omega) fun hm => ?_, fun u hl hu => absurd hu (Nat.not_lt.2 hl)⟩
      have := hy _ hm
      omega
    · obtain ⟨hlo, hhi, hn, hlower⟩ := ih hys h
      refine ⟨by omega, hhi, List.not_mem_cons_of_ne_of_not_mem (by omega) hn, fun u hl hu => ?_⟩
      by_cases e : u = y
      · exact e ▸ List.mem_cons_self
      · exact List.mem_cons_of_mem _ (hlower u (by omega) hu)

/-! ### The lowest free tag of a range -/

theorem mem_keys_iff_smFind {α : Type} {m : SMap α} {i : Nat} : i ∈ m.map Prod.fst ↔ (smFind m i).isSome = true := by
  induction m with
  | nil => simp
  | cons x m ih =>
    obtain ⟨k, v⟩ := x
    rw [smFind_cons, List.map_cons, List.mem_cons, ih]
    split
    · next h => simp [h]
    · next h => simp [Ne.symm h]

theorem mem_keys_smRange {α : Type} {m : SMap α} {lo hi i : Nat} :
    i ∈ (smRange m lo hi).map Prod.fst ↔ i ∈ m.map Prod.fst ∧ lo ≤ i ∧ i < hi := by
  simp only [smRange, List.mem_map, List.mem_filter, decide_eq_true_eq]
  constructor
  · rintro ⟨x, ⟨hx, hlo, hhi⟩, rfl⟩
    exact ⟨⟨x, hx, rfl⟩, hlo, hhi⟩
  · rintro ⟨⟨x, hx, rfl⟩, h⟩
    exact ⟨x, ⟨hx, h⟩, rfl⟩

variable {s : State} {lo n t : Nat}

/-- The tags of a range that the allocator sees as held. -/
theorem mem_heldTags {hi u : Nat} : u ∈ (smRange s.mem.tags lo hi).map Prod.fst ↔ tagFree s u = false ∧ lo ≤ u ∧ u < hi := by
  rw [mem_keys_smRange, mem_keys_iff_smFind, tagFree, Option.isNone_eq_false_iff]

theorem lowestTag_none (h : lowestTag s lo n = none) {u : Nat} (hl : lo ≤ u) (hu : u < lo + n) : tagFree s u = false :=
  (mem_heldTags.1 (mem_of_nlLowestFree_none h u hl hu)).1

theorem lowestTag_some (hr : smRising s.mem.tags = true) (h : lowestTag s lo n = some t) :
    tagFree s t = true ∧ lo ≤ t ∧ t < lo + n ∧ ∀ u, lo ≤ u → u < t → tagFree s u = false := by
  have hrise : ((smRange s.mem.tags lo (lo + n)).map Prod.fst).Pairwise (· < ·) := of_decide_eq_true (smRising_filter _ _ hr)
  obtain ⟨hl, hu, hn, hlower⟩ := nlLowestFree_some hrise h
  refine ⟨?_, hl, hu, fun u h1 h2 => (mem_heldTags.1 (hlower u h1 h2)).1⟩
  by_contra hf
  exact hn (mem_heldTags.2 ⟨by simpa using hf, hl, hu⟩)

/-- What the allocator grants is the lowest free tag of the core's block, or, where that has none, of the shared pool. -/
theorem grantTag_cases {k : CoreId} {part : Nat} (h : grantTag s k part = some t) :
    lowestTag s (tagBlock k).1 (tagBlock k).2 = some t ∨
      lowestTag s (tagBlock k).1 (tagBlock k).2 = none ∧ lowestTag s 10880 5504 = some t := by
  unfold grantTag at h
  dsimp only at h
  split at h
  · next hb => exact .inl (hb.trans h)
  · next hb => exact .inr ⟨hb, (Option.ite_none_right_eq_some.1 h).2⟩

/-- Settles O24: the two cases of `grantTag_cases`, each a lowest free tag of a range (`lowestTag_some`); a block without one is held whole
(`lowestTag_none`). -/
theorem tagGrantedIsLowestFree : Obligations.TagGrantedIsLowestFree := by
  intro s k part t hinv h
  have hr : smRising s.mem.tags = true := by
    obtain ⟨-, -, -, -, -, -, htags, -⟩ := hinv
    exact htags
  rcases grantTag_cases h with hown | ⟨hnone, hpool⟩
  · obtain ⟨hfree, hlo, hhi, hlower⟩ := lowestTag_some hr hown
    exact ⟨hfree, .inl ⟨hlo, hhi, hlower⟩⟩
  · obtain ⟨hfree, hlo, hhi, hlower⟩ := lowestTag_some hr hpool
    exact ⟨hfree, .inr ⟨fun _ => lowestTag_none hnone, hlo, hhi, hlower⟩⟩

end Sys2Proof.Machine
end

section
/-! PROOFS. The Tally pages (R163, R171, R173): an addition and a clearing by an accepted write, and a watch that hits. -/

namespace Sys2Proof.Machine

variable {s : State} {r : Req} {k : Fin 32}

/-! ### The fields of TL_ADD and TL_CLEAR -/

/-- The two fields of a Tally command's word: the index from bit 16, and the operand below it. -/
theorem field_tallyWord {i n b : Nat} (hi : i < 512) (hb : b < 16) (hn : n < 2 ^ (b + 1)) :
    field (BitVec.ofNat 32 (i * 65536 + n)) 24 16 = i ∧ field (BitVec.ofNat 32 (i * 65536 + n)) b 0 = n := by
  have hp : 2 ^ (b + 1) ∣ 65536 := (Nat.pow_dvd_pow_iff_le_right (by decide)).2 (show b + 1 ≤ 16 by omega)
  have hle : 2 ^ (b + 1) ≤ 65536 := Nat.le_of_dvd (by decide) hp
  have e : (BitVec.ofNat 32 (i * 65536 + n)).toNat = i * 65536 + n := by
    rw [BitVec.toNat_ofNat, Nat.mod_eq_of_lt (by omega)]
  simp only [field, e, Nat.shiftRight_eq_div_pow, Nat.sub_zero, Nat.pow_zero, Nat.div_one]
  refine ⟨by omega, ?_⟩
  rw [Nat.add_mod, Nat.mod_eq_zero_of_dvd (hp.mul_left i), Nat.zero_add, Nat.mod_mod, Nat.mod_eq_of_lt hn]

/-! ### The accepted writes -/

theorem accept_tlAdd (s : State) (k : Nat) (v : Word) : ∃ w, accept s ⟨.tally, k⟩ 0x100 v =
    tallyAdd (setReg s ⟨.tally, k⟩ 0x100 w) (512 * k + field v 24 16) (field v 15 0) := ⟨_, rfl⟩

theorem accept_tlClear (s : State) (k : Nat) (v : Word) : ∃ w, accept s ⟨.tally, k⟩ 0x104 v =
    tallyClear (setReg s ⟨.tally, k⟩ 0x104 w) (512 * k + field v 24 16) (field v 9 0) := ⟨_, rfl⟩

theorem exec_tlAdd {i : Fin 512} {inc : Half} (h : Accepted s r ⟨.tally, k.val⟩ 0x100 (BitVec.ofNat 32 (i.val * 65536 + inc.toNat))) :
    ∃ w, exec (.tlAdd r k i inc false) s =
      .next (answer (tallyAdd (setReg s ⟨.tally, k.val⟩ 0x100 w) (512 * k.val + i.val) inc.toNat) .ok 0) := by
  obtain ⟨hi, hn⟩ := field_tallyWord i.isLt (b := 15) (by decide) inc.isLt
  obtain ⟨w, hw⟩ := accept_tlAdd s k.val (BitVec.ofNat 32 (i.val * 65536 + inc.toNat))
  rw [hi, hn] at hw
  exact ⟨w, congrArg Host.Outcome.next ((regWrite_accept h).trans (congrArg (answer · .ok 0) hw))⟩

theorem exec_tlClear {i : Fin 512} {n : BitVec 10} (h : Accepted s r ⟨.tally, k.val⟩ 0x104 (BitVec.ofNat 32 (i.val * 65536 + n.toNat))) :
    ∃ w, exec (.tlClear r k i n) s =
      .next (answer (tallyClear (setReg s ⟨.tally, k.val⟩ 0x104 w) (512 * k.val + i.val) n.toNat) .ok 0) := by
  obtain ⟨hi, hn⟩ := field_tallyWord i.isLt (b := 9) (by decide) n.isLt
  obtain ⟨w, hw⟩ := accept_tlClear s k.val (BitVec.ofNat 32 (i.val * 65536 + n.toNat))
  rw [hi, hn] at hw
  exact ⟨w, congrArg Host.Outcome.next ((regWrite_accept h).trans (congrArg (answer · .ok 0) hw))⟩

/-! ### What they leave -/

section
variable {u : State} {i n : Nat}

/-- A Tally's place in its page. -/
theorem tally_div {k : Nat} (h : i < 512) : (512 * k + i) / 512 = k := by omega

theorem tallyAdd_frame (s : State) (i n : Nat) : tallyAdd s i n = { withBlock (tallyAdd s i n) s with tally := (tallyAdd s i n).tally } := by
  have h := onlyBlock_ctrAdd { s with tally := smSet 0 s.tally i (tallyVal s i + BitVec.ofNat 32 n) } (tallyPage i) 1 1
  rw [tallyAdd, ctrAdd_tally]
  exact h

theorem tallyClear_frame (s : State) (first n : Nat) :
    tallyClear s first n = { withBlock (tallyClear s first n) s with tally := (tallyClear s first n).tally } := by
  have h := onlyBlock_ctrAdd { s with tally := smClear s.tally first (first + n) } ⟨.tally, first / 512⟩ 4 n
  rw [tallyClear, ctrAdd_tally]
  exact h

theorem tallyAdd_regs : (tallyAdd u i n).regs = u.regs := ctrAdd_regs _ _ _ _
theorem tallyClear_regs : (tallyClear u i n).regs = u.regs := ctrAdd_regs _ _ _ _

/-- One ADD of a page's Tally is counted in slot 1 of the page. -/
theorem counted_tallyAdd {k : Nat} (hu : u.ctrs = s.ctrs) (hi : i < 512) : Counted s (tallyAdd u (512 * k + i) n) ⟨.tally, k⟩ 1 1 := by
  rw [tallyAdd, tallyPage, tally_div hi]
  refine counted_ctrAdd ?_ _ 1 (by decide)
  exact hu

theorem ctrsBut_tallyAdd {k : Nat} (hu : u.ctrs = s.ctrs) (hi : i < 512) :
    CtrsBut [ctrKey ⟨.tally, k⟩ 1] s (tallyAdd u (512 * k + i) n) := by
  rw [tallyAdd, tallyPage, tally_div hi]
  refine ctrsBut_ctrAdd (ctrsBut_congr (ctrsBut_refl _ s) ?_) (.head _) 1
  exact hu

/-- The Tallies that a CLEAR takes are counted in slot 4 of the page. -/
theorem counted_tallyClear {k : Nat} (hu : u.ctrs = s.ctrs) (hi : i < 512) (hn : n ≠ 0) :
    Counted s (tallyClear u (512 * k + i) n) ⟨.tally, k⟩ 4 n := by
  rw [tallyClear, tally_div hi]
  refine counted_ctrAdd ?_ _ 4 hn
  exact hu

theorem ctrsBut_tallyClear {k : Nat} (hu : u.ctrs = s.ctrs) (hi : i < 512) :
    CtrsBut [ctrKey ⟨.tally, k⟩ 4] s (tallyClear u (512 * k + i) n) := by
  rw [tallyClear, tally_div hi]
  refine ctrsBut_ctrAdd (ctrsBut_congr (ctrsBut_refl _ s) ?_) (.head _) n
  exact hu

end

/-- A clearing of no Tally is rejected with RANGE (R171). -/
theorem ne_zero_of_accepted_tlClear {i : Fin 512} {n : BitVec 10}
    (h : Accepted s r ⟨.tally, k.val⟩ 0x104 (BitVec.ofNat 32 (i.val * 65536 + n.toNat))) : n.toNat ≠ 0 := by
  intro h0
  obtain ⟨-, hn⟩ := field_tallyWord i.isLt (b := 9) (by decide) n.isLt
  obtain ⟨-, -, -, -, hj⟩ := h
  have hd : writeDenied s r ⟨.tally, k.val⟩ 0x104 (BitVec.ofNat 32 (i.val * 65536 + n.toNat)) = false := by
    by_contra hd
    rw [judge_denied (by simpa using hd)] at hj
    cases hj
  have hc : tlCheck s ⟨.tally, k.val⟩ 0x104 (BitVec.ofNat 32 (i.val * 65536 + n.toNat)) = some .range := by
    have hbad : (field (BitVec.ofNat 32 (i.val * 65536 + n.toNat)) 9 0 == 0) = true := by rw [hn, h0]; rfl
    simp [tlCheck, hbad]
  rw [judge_not_denied hd] at hj
  refine firstReason_ne_none (st := .range) ?_ hj
  simp only [ownRules, blockCheck, hc]
  simp

/-! ### A watch that hits (R173) -/

/-- A due watch disarmed and shown in TL_WATCH_STAT. -/
def watchShown (s : State) (k n : Nat) : State :=
  orReg (setRegField { s with watchDue := nlDel s.watchDue (4 * k + n) } ⟨.tally, k⟩ (0x110 + 4 * n) 31 31 0) ⟨.tally, k⟩ 0x10C (bitMask n)

/-- What a hit leaves before the owner is told: the watch disarmed and shown, and the hit counted (R173). -/
def watchSpent (s : State) (k n : Nat) : State := ctrAdd (watchShown s k n) ⟨.tally, k⟩ 5 1

theorem exec_tallyWatchHit {n : Fin 4} (hd : s.watchDue.contains (4 * k.toNat + n.val) = true) (ha : watchArmed s k.toNat n.val = true) :
    exec (.tallyWatchHit k n) s =
      .next (irq (watchSpent s k.toNat n.val) (pageOwner (watchSpent s k.toNat n.val) ⟨.tally, k.toNat⟩) 2 (.watch k.toNat n.val)) := by
  have hc : ¬ (!(s.watchDue.contains (4 * k.toNat + n)) ∨ !(watchArmed s k.toNat n)) := by simp only [hd, ha]; decide
  exact congrArg Host.Outcome.next (if_neg hc)

theorem watchShown_ctrs (s : State) (k n : Nat) : (watchShown s k n).ctrs = s.ctrs := rfl

theorem watchArmed_watchSpent (s : State) (k n : Nat) : watchArmed (watchSpent s k n) k n = false := by
  have hv : regVal (watchShown s k n) ⟨.tally, k⟩ (0x110 + 4 * n) = setField (watchCtrl s k n) 31 31 0 :=
    (regVal_orReg_ne _ _ _ _ fun e => by
      have := (regKey_inj _).1 e
      omega).trans (regVal_setReg_same _ _ _ _)
  rw [watchArmed, watchCtrl, watchSpent, regVal_congr (ctrAdd_regs _ _ _ _), hv, bit_setField]
  simp

theorem regBit_watchSpent (s : State) (k : Nat) {n : Nat} (hn : n < 32) : regBit (watchSpent s k n) ⟨.tally, k⟩ 0x10C n = true := by
  rw [regBit, watchSpent, regVal_congr (ctrAdd_regs _ _ _ _), watchShown, regVal_orReg_same, bit_or, bit_bitMask_same hn, Bool.or_true]

theorem regsBut_watchSpent (s : State) (k n : Nat) :
    RegsBut [regKey ⟨.tally, k⟩ (0x110 + 4 * n), regKey ⟨.tally, k⟩ 0x10C] s (watchSpent s k n) := by
  unfold watchSpent watchShown
  refine regsBut_ctrAdd (regsBut_orReg_mem (regsBut_setRegField (regsBut_congr (regsBut_refl _ s) ?_) (.head _) 31 31 0) (.tail _ (.head _)) _) 5 1
  rfl

theorem ctrsBut_watchSpent (s : State) (k n : Nat) : CtrsBut [ctrKey ⟨.tally, k⟩ 5] s (watchSpent s k n) :=
  ctrsBut_ctrAdd (ctrsBut_congr (ctrsBut_refl _ s) (watchShown_ctrs s k n)) (.head _) 1

theorem pageOwner_watchSpent (s : State) (k n : Nat) : pageOwner (watchSpent s k n) ⟨.tally, k⟩ = pageOwner s ⟨.tally, k⟩ := by
  rw [pageOwner, pageOwner, regField, regField, regsBut_watchSpent s k n _ _ (by simp [regKey_inj]; omega)]

theorem watchSpent_frame (s : State) (k n : Nat) :
    watchSpent s k n = { withBlock (watchSpent s k n) s with watchDue := (watchSpent s k n).watchDue } := by
  have h := onlyBlock_ctrAdd (watchShown s k n) ⟨.tally, k⟩ 5 1
  rw [watchSpent, ctrAdd_watchDue]
  exact h

/-- Settles O17: TL_ADD and TL_CLEAR by the rules of `tallyAdd` and `tallyClear`, on the register that the accepted write has stored; a watch by
what `watchSpent` leaves, and the message to the owner. -/
theorem tallyEffects : Obligations.TallyEffects := by
  refine ⟨fun s r k i inc h => ?_, fun s r k i n h => ?_, fun s k n hd ha => ?_⟩
  · obtain ⟨w, hw⟩ := exec_tlAdd h
    refine ⟨_, hw, ?_, fun j hj => tallyVal_tallyAdd_ne _ _ hj.symm, counted_tallyAdd rfl i.isLt, ctrsBut_tallyAdd rfl i.isLt, ?_, ?_⟩
    · exact (tallyVal_tallyAdd_same _ _ _).trans (congrArg (tallyVal s _ + ·) (BitVec.ofNat_toNat 32 inc))
    · exact regsBut_congr (regsBut_setReg (regsBut_refl _ s) (.head _) w) tallyAdd_regs
    · exact congrArg (answer · .ok 0) (tallyAdd_frame _ _ _)
  · obtain ⟨w, hw⟩ := exec_tlClear h
    refine ⟨_, hw, fun j => tallyVal_tallyClear _ _ _ _, counted_tallyClear rfl i.isLt (ne_zero_of_accepted_tlClear h),
      ctrsBut_tallyClear rfl i.isLt, ?_, ?_⟩
    · exact regsBut_congr (regsBut_setReg (regsBut_refl _ s) (.head _) w) tallyClear_regs
    · exact congrArg (answer · .ok 0) (tallyClear_frame _ _ _)
  · refine ⟨_, exec_tallyWatchHit hd ha, watchArmed_watchSpent s _ _, regBit_watchSpent s _ (by omega), ?_, ?_, ?_, ?_, ?_⟩
    · exact counted_ctrAdd (watchShown_ctrs s _ _) _ 5 (by decide)
    · rw [pageOwner_watchSpent]
      exact congrArg _ (ctrAdd_irqs _ _ _ _)
    · exact regsBut_watchSpent s _ _
    · exact ctrsBut_watchSpent s _ _
    · exact congrArg (irq · _ 2 _) (watchSpent_frame s _ _)

end Sys2Proof.Machine
end

section
/-! PROOFS. Tier requests (R190 to R193, R252, R253): what the granting of a tag, the counters of a service and the release of a tag leave
alone, and how a request ends. -/

namespace Sys2Proof.Machine

/-! ### What the tiers' bookkeeping leaves alone -/

/-- The bytes, the tags in use, the commands on the cores, and the tick. -/
def requestView (s : State) : List Host.Cell × SMap TagRec × SMap CoreSt × DWord := (s.mem.cells, s.mem.tags, s.cores, s.time.tickNow)

section
variable {s t : State}

theorem cells_of_requestView (h : requestView t = requestView s) : t.mem.cells = s.mem.cells := congrArg Prod.fst h
theorem tags_of_requestView (h : requestView t = requestView s) : t.mem.tags = s.mem.tags := congrArg (·.2.1) h
theorem cores_of_requestView (h : requestView t = requestView s) : t.cores = s.cores := congrArg (·.2.2.1) h
theorem now_of_requestView (h : requestView t = requestView s) : now t = now s := congrArg (·.2.2.2.toNat) h

end

variable (s : State)

@[simp] theorem requestView_setRegField (p : Page) (off hi lo v : Nat) : requestView (setRegField s p off hi lo v) = requestView s := rfl
@[simp] theorem requestView_spendFree (n : Nat) : requestView (spendFree s n) = requestView s := rfl
@[simp] theorem requestView_setWear (k b : Nat) (w : BlockWear) : requestView (setWear s k b w) = requestView s := rfl
@[simp] theorem requestView_setFreeBlocks (k n : Nat) : requestView (setFreeBlocks s k n) = requestView s := rfl
@[simp] theorem requestView_setSpareBlocks (k n : Nat) : requestView (setSpareBlocks s k n) = requestView s := rfl
@[simp] theorem requestView_readLoose (n v t : Nat) : requestView (readLoose s n v t) = requestView s := rfl
@[simp] theorem requestView_setPf (pf : Nat) (x : Prefetcher) : requestView (setPf s pf x) = requestView s := rfl
@[simp] theorem requestView_atBoundary (a : BAct) : requestView (atBoundary s a) = requestView s := rfl

@[simp] theorem requestView_ctrAdd (p : Page) (slot n : Nat) : requestView (ctrAdd s p slot n) = requestView s := by simp [requestView]
@[simp] theorem requestView_setFlag (p : Page) (n : Nat) : requestView (setFlag s p n) = requestView s := by simp [requestView]
@[simp] theorem requestView_setPgState (p : Page) (st : Nat) : requestView (setPgState s p st) = requestView s := by simp [requestView]

@[simp] theorem requestView_freeFrame (t : Tier) (f : Nat) : requestView (freeFrame s t f) = requestView s := by
  unfold freeFrame
  split
  · rfl
  · cases t <;> rfl

@[simp] theorem requestView_settleFreeing : requestView (settleFreeing s) = requestView s := by
  unfold settleFreeing
  dsimp only
  exact foldl_leaves requestView (fun _ _ => requestView_freeFrame _ _ _) _ _

@[simp] theorem requestView_retireBlock (k : Nat) : requestView (retireBlock s k) = requestView s := by
  unfold retireBlock
  dsimp only
  split_ifs <;> simp

@[simp] theorem requestView_eraseBlock (k b : Nat) (ok : Bool) : requestView (eraseBlock s k b ok) = requestView s := by
  unfold eraseBlock
  dsimp only
  split_ifs <;> simp

@[simp] theorem requestView_settleErase : requestView (settleErase s) = requestView s := by
  unfold settleErase
  exact foldl_leaves requestView (fun _ _ => requestView_eraseBlock _ _ _ _) _ _

/-- Frames and blocks that waited for a tag go free; the tags stand. -/
@[simp] theorem requestView_settleTags : requestView (settleTags s) = requestView s := by simp [settleTags]

/-! ### The counters of a service (R261) -/

@[simp] theorem requestView_readUnit (part lpn off bits : Nat) (soft : Bool) : requestView (readUnit s part lpn off bits soft) = requestView s := by
  unfold readUnit
  split
  · simp [countRead]
  · rfl

@[simp] theorem requestView_bankWait (p : Page) : requestView (bankWait s p) = requestView s := by simp [bankWait]

@[simp] theorem requestView_countWritten (m : Move) (port : Nat) : requestView (countWritten s m port) = requestView s := by
  unfold countWritten
  split
  · dsimp only
    split <;> simp
  · simp
  · rfl

@[simp] theorem requestView_countAccess (t : Tier) (part frame addr len : Nat) (write : Bool) (port : Nat) :
    requestView (countAccess s t part frame addr len write port) = requestView s := by
  unfold countAccess
  cases t with
  | gallery => simp
  | drift => simp
  | seam =>
    dsimp only
    split <;> simp

@[simp] theorem requestView_countServed (x : TagRec) (port : Nat) : requestView (countServed s x port) = requestView s := by
  unfold countServed
  split
  · simp
  · rw [requestView_countWritten]
    split <;> simp
  · simp
  · rw [requestView_countWritten]
    split_ifs <;> simp

/-! ### How a request ends (R253) -/

variable {s} {tag : Nat} {x : TagRec} {st : Status}

/-- A clean return has the status that the tier gives, and counts it. -/
theorem tierOutcome_clean (s : State) (x : TagRec) (port : Nat) :
    (tierOutcome s x port .clean).1 = servedStatus s x ∧ requestView (tierOutcome s x port .clean).2 = requestView s := by
  unfold tierOutcome
  by_cases h : macFails s x = true
  · have hst : servedStatus s x = .integrity := by
      simp only [macFails, Bool.and_eq_true, beq_iff_eq] at h
      exact h.1.2
    rw [if_pos h, hst]
    cases x.tier <;> simp
  · rw [if_neg h, ite_self]
    simp

/-- What is left of a request but for its tag: its command, or its move, has failed unless its status is OK. -/
def requestJudged (s : State) (tag : Nat) (x : TagRec) (st : Status) : State :=
  if st = .ok then s else
    match x.holder with
    | .core k stream => if x.live then failRequest s k stream tag st else s
    | .hoist part vpn => match findMove s part vpn with
      | some m => setMove s { m with fault := some (m.fault.getD st) }
      | none => s

theorem endRequest_eq (s : State) (tag : Nat) (x : TagRec) (st : Status) : endRequest s tag x st = releaseTag (requestJudged s tag x st) tag := rfl

theorem releaseTag_view (s : State) (tag : Nat) :
    requestView (releaseTag s tag) = requestView { s with mem := { s.mem with tags := smDel s.mem.tags tag } } := requestView_settleTags _

theorem smFind_releaseTag (s : State) (tag : Nat) : smFind (releaseTag s tag).mem.tags tag = none := by
  rw [tags_of_requestView (releaseTag_view s tag)]
  exact smFind_smDel_same _ _

/-- A request that fails writes to its command alone. -/
theorem failRequest_mem (s : State) (k : CoreId) (i tag : Nat) (st : Status) : (failRequest s k i tag st).mem = s.mem := by
  unfold failRequest
  split
  · rfl
  · extract_lets lower
    split <;> rfl

theorem requestJudged_cells : (requestJudged s tag x st).mem.cells = s.mem.cells := by
  unfold requestJudged
  split
  · rfl
  · split
    · split
      · rw [failRequest_mem]
      · rfl
    · split <;> rfl

/-- The first failure of a command's requests fails the command (R150). -/
theorem curOf_failRequest {k : CoreId} {i : Nat} {c : CmdRun} (hc : curOf s k i = some c) (hf : c.fail = none) :
    curOf (failRequest s k i tag st) k i = some { c with fail := some st, failTag := some (now s, tag) } := by
  simp only [failRequest, hc, hf, Option.isNone_none, Bool.true_or, if_true]
  exact curOf_setCur _ _ _ _

theorem curOf_requestJudged {k : CoreId} {i : Nat} {c : CmdRun} (hh : x.holder = .core k i) (hl : x.live = true) (hc : curOf s k i = some c)
    (hf : c.fail = none) :
    curOf (requestJudged s tag x st) k i = some (if st = .ok then c else { c with fail := some st, failTag := some (now s, tag) }) := by
  by_cases h : st = .ok
  · rw [requestJudged, if_pos h, if_pos h, hc]
  · rw [requestJudged, if_neg h, if_neg h]
    simp only [hh]
    rw [if_pos hl]
    exact curOf_failRequest hc hf

/-- What the end of a request leaves: its tag is free, no byte has changed, and the command that holds it, where it still runs and has not
failed, has failed with a status that is not OK. -/
structure RequestEnded (s t : State) (tag : Nat) (x : TagRec) (st : Status) : Prop where
  free : smFind t.mem.tags tag = none
  cells : t.mem.cells = s.mem.cells
  cmd : ∀ (k : CoreId) (i : Nat) (c : CmdRun), x.holder = .core k i → x.live = true → curOf s k i = some c → c.fail = none →
    curOf t k i = some (if st = .ok then c else { c with fail := some st, failTag := some (now s, tag) })

theorem requestEnded {u : State} (hu : requestView u = requestView s) : RequestEnded s (endRequest u tag x st) tag x st := by
  have hv := releaseTag_view (requestJudged u tag x st) tag
  rw [endRequest_eq]
  refine ⟨smFind_releaseTag _ _, ?_, fun k i c hh hl hc hf => ?_⟩
  · exact (cells_of_requestView hv).trans (requestJudged_cells.trans (cells_of_requestView hu))
  · rw [curOf_congr (cores_of_requestView hv) k i, ← now_of_requestView hu]
    exact curOf_requestJudged hh hl ((curOf_congr (cores_of_requestView hu) k i).trans hc) hf

/-! ### Its deadline (R252) -/

/-- The count of a request whose deadline has passed. -/
def lateCounted (s : State) (x : TagRec) : State :=
  match x.tier with
  | .gallery => s
  | .drift => ctrAdd s (driftPageOf x.frame 0) 6 1
  | .seam => ctrAdd s (seamPageOf s x 0) 6 1

theorem timeOut_eq (s : State) (tag : Nat) (x : TagRec) : timeOut s tag x = endRequest (lateCounted s x) tag x .timeout := rfl

theorem requestView_lateCounted (s : State) (x : TagRec) : requestView (lateCounted s x) = requestView s := by
  unfold lateCounted
  split <;> simp

theorem pastDeadline_of_held (h : x.held = true) : pastDeadline s x = false := by simp [pastDeadline, h]

theorem pastDeadline_of_le (h : x.held = false) (hd : x.issue + tierDeadline s x.tier ≤ now s) : pastDeadline s x = true := by
  simp [pastDeadline, h, hd]

/-! ### TIER_REQUEST_COMPLETE and TIER_REQUEST_TIMEOUT -/

section
variable {n : Fin 16384} {port : Fin 8} {o : TierOutcome}

/-- A tag that no request holds, and one whose request waits for a switch: a return changes nothing. -/
theorem tierReturn_none (h : smFind s.mem.tags n = none) :
    exec (.tierRequestComplete n port o) s = .next s ∧ exec (.tierRequestTimeout n) s = .next s := by
  simp only [exec, execTierRequestComplete, execTierRequestTimeout, h, and_self]

theorem tierReturn_held (h : smFind s.mem.tags n = some x) (hh : x.held = true) :
    exec (.tierRequestComplete n port o) s = .next s ∧ exec (.tierRequestTimeout n) s = .next s := by
  simp [exec, execTierRequestComplete, execTierRequestTimeout, h, hh, pastDeadline_of_held]

theorem exec_tierRequestTimeout (h : smFind s.mem.tags n = some x) (hp : pastDeadline s x = true) :
    exec (.tierRequestTimeout n) s = .next (endRequest (lateCounted s x) n x .timeout) := by
  simp only [exec, execTierRequestTimeout, h, hp, if_true, timeOut_eq]

/-- The status that a return gives a request: that of its translation, TIMEOUT past its deadline, else the tier's. -/
def returnStatus (s : State) (x : TagRec) (port : Nat) (o : TierOutcome) : Status :=
  if x.st ≠ .ok then x.st else if pastDeadline s x then .timeout else (tierOutcome s x port o).1

/-- A clean return gives the status of the tier (R255, R491). -/
theorem returnStatus_clean (s : State) (x : TagRec) (port : Nat) : returnStatus s x port .clean =
    if x.st ≠ .ok then x.st else if pastDeadline s x then .timeout else servedStatus s x := by
  rw [returnStatus, (tierOutcome_clean s x port).1]

theorem returnStatus_served (hst : x.st = .ok) (hp : pastDeadline s x = false) : returnStatus s x port o = (tierOutcome s x port o).1 := by
  simp [returnStatus, hst, hp]

/-- What a return has counted before the request ends. -/
def returnCounted (s : State) (x : TagRec) (port : Nat) (o : TierOutcome) : State :=
  if x.st ≠ .ok then s else if pastDeadline s x then lateCounted s x else (tierOutcome s x port o).2

/-- A block that answers nothing leaves the request (R255). -/
theorem exec_tierRequestComplete_silent (h : smFind s.mem.tags n = some x) (hh : x.held = false) (hst : x.st = .ok) (hp : pastDeadline s x = false)
    (ho : returnStatus s x port o = .timeout) : exec (.tierRequestComplete n port o) s = .next s := by
  rw [returnStatus_served hst hp] at ho
  simp [exec, execTierRequestComplete, h, hh, hst, hp, ho]

/-- Every other return ends it. -/
theorem exec_tierRequestComplete_ends (h : smFind s.mem.tags n = some x) (hh : x.held = false)
    (ho : x.st ≠ .ok ∨ pastDeadline s x = true ∨ (tierOutcome s x port o).1 ≠ .timeout) :
    exec (.tierRequestComplete n port o) s = .next (endRequest (returnCounted s x port o) n x (returnStatus s x port o)) := by
  simp only [exec, execTierRequestComplete, h, hh, returnCounted, returnStatus]
  by_cases hst : x.st = .ok
  · cases hp : pastDeadline s x with
    | true => simp [hst, timeOut_eq]
    | false =>
      have ho' : (tierOutcome s x port o).1 ≠ .timeout := (ho.resolve_left (absurd hst)).resolve_left (by simp [hp])
      simp [hst, ho']
  · simp [hst]

theorem requestView_returnCounted_clean (s : State) (x : TagRec) (port : Nat) : requestView (returnCounted s x port .clean) = requestView s := by
  unfold returnCounted
  split
  · rfl
  · split
    · exact requestView_lateCounted s x
    · exact (tierOutcome_clean s x port).2

end

/-! ### TIER_TAG_GRANT (R190 to R193, R214, R247) -/

theorem translate_error_ne_ok {part a : Nat} {write engine kvOk : Bool} {e : Status} (h : translate s part a write engine kvOk = .error e) :
    e ≠ .ok := by
  unfold translate at h
  dsimp only at h
  split_ifs at h <;> (cases h; decide)

/-- The status of a translation: OK, or why it failed. -/
def translateStatus (s : State) (part a : Nat) (write kvOk : Bool) : Status :=
  match translate s part a write true kvOk with
  | .ok _ => .ok
  | .error e => e

theorem translateStatus_ok {part a : Nat} {write kvOk : Bool} :
    translateStatus s part a write kvOk = .ok ↔ ∃ e, translate s part a write true kvOk = .ok e := by
  unfold translateStatus
  cases h : translate s part a write true kvOk with
  | ok e => simp
  | error e => simpa using translate_error_ne_ok h

/-- The request that a granted tag records. -/
def grantedRec (s : State) (k : CoreId) (i a n : Nat) (w : Bool) (r : CmdRun) : TagRec :=
  let e := pteOf s r.offer.part (vpnOf a)
  let st := translateStatus s r.offer.part a w (kvWriter k i r)
  { holder := .core k i, live := true, held := w && e.mig && st == .ok, part := r.offer.part, write := w, addr := a, len := n
    tier := e.home, frame := homeFrame e, issue := now s, st := st }

/-- A request recorded under its tag. -/
def tagPut (s : State) (tag : Nat) (x : TagRec) : State := { s with mem := { s.mem with tags := smPut s.mem.tags tag x } }

/-- A loose page keeps the tick of its last read (R249). -/
def looseRead (s : State) (u : State) (part vpn : Nat) : State := if (pteOf s part vpn).loose then readLoose u part vpn (now s) else u

/-- What a granted read of a mapped page does beside (R249): the loose page is read, and a stride is watched and followed. -/
def readNoted (s u : State) (k : CoreId) (part vpn : Nat) : State :=
  let e := pteOf s part vpn
  let v := looseRead s u part vpn
  if !(strideOn s part) then v else strideFollow (if e.home != .gallery then watchRead v k part vpn else v) k vpn

theorem exec_tierTagGrant {k : CoreId} {i : Fin 2} {a tag : Nat} {n : Fin 4097} {w : Bool} {r : CmdRun} (hcur : (coreSt s k i).cur = some r)
    (hst : streamState s k i = cRun) (hn : n.val ≠ 0) (hpage : a % pageBytes + n.val ≤ pageBytes) (hg : grantTag s k r.offer.part = some tag) :
    exec (.tierTagGrant k i a n w) s = .next (
      let u := tagPut s tag (grantedRec s k i a n w r)
      if w || !(pteOf s r.offer.part (vpnOf a)).v then u else readNoted s u k r.offer.part (vpnOf a)) := by
  have hrun : ¬ (streamState s k i ≠ cRun ∨ n.val = 0 ∨ a % pageBytes + n.val > pageBytes) := by
    simp only [hst, hn, ne_eq, not_true, false_or, Nat.not_lt.2 hpage, not_false_eq_true]
  simp only [exec, execTierTagGrant, hcur, if_neg hrun, hg]
  rfl

theorem exec_tierTagGrant_none {k : CoreId} {i : Fin 2} {a : Nat} {n : Fin 4097} {w : Bool} {r : CmdRun} (hcur : (coreSt s k i).cur = some r)
    (hg : grantTag s k r.offer.part = none) : exec (.tierTagGrant k i a n w) s = .next s := by
  simp only [exec, execTierTagGrant, hcur, hg, ite_self]

@[simp] theorem requestView_watchRead (s : State) (k : CoreId) (part vpn : Nat) : requestView (watchRead s k part vpn) = requestView s := by
  unfold watchRead
  dsimp only
  split <;> rfl

@[simp] theorem requestView_strideFollow (s : State) (k : CoreId) (vpn : Nat) : requestView (strideFollow s k vpn) = requestView s := by
  unfold strideFollow
  split
  · rfl
  · extract_lets inStride u
    have hu : requestView u = requestView s := by
      unfold u
      split_ifs <;> rfl
    split
    · exact hu
    · split <;> exact hu

theorem requestView_looseRead (s u : State) (part vpn : Nat) : requestView (looseRead s u part vpn) = requestView u := by
  unfold looseRead
  split <;> rfl

theorem requestView_readNoted (s u : State) (k : CoreId) (part vpn : Nat) : requestView (readNoted s u k part vpn) = requestView u := by
  unfold readNoted
  dsimp only
  split
  · exact requestView_looseRead ..
  · rw [requestView_strideFollow]
    split
    · exact (requestView_watchRead ..).trans (requestView_looseRead ..)
    · exact requestView_looseRead ..

/-- Without stride detection a read notes a loose page at most. -/
theorem readNoted_frame {part : Nat} (u : State) (k : CoreId) (vpn : Nat) (h : strideOn s part = false) :
    readNoted s u k part vpn = { u with mem := { u.mem with looseAt := (readNoted s u k part vpn).mem.looseAt } } := by
  rw [show readNoted s u k part vpn = looseRead s u part vpn by simp [readNoted, h], looseRead]
  split <;> rfl

theorem tierTagGrant_effects {k : CoreId} {i : Fin 2} {a tag : Nat} {n : Fin 4097} {w : Bool} {r : CmdRun} (hcur : (coreSt s k i).cur = some r)
    (hst : streamState s k i = cRun) (hn : n.val ≠ 0) (hpage : a % pageBytes + n.val ≤ pageBytes) (hg : grantTag s k r.offer.part = some tag) :
    ∃ t, exec (.tierTagGrant k i a n w) s = .next t ∧ smFind t.mem.tags tag = some (grantedRec s k i a n w r) ∧ t.mem.cells = s.mem.cells ∧
      (w = true ∨ strideOn s r.offer.part = false → t = { s with mem := { s.mem with tags := t.mem.tags, looseAt := t.mem.looseAt } }) := by
  refine ⟨_, exec_tierTagGrant hcur hst hn hpage hg, ?_⟩
  have hput : smFind (tagPut s tag (grantedRec s k i a n w r)).mem.tags tag = some (grantedRec s k i a n w r) := smFind_smPut_same _ _ _
  dsimp only
  split
  · exact ⟨hput, rfl, fun _ => rfl⟩
  · next hread =>
    have hv := requestView_readNoted s (tagPut s tag (grantedRec s k i a n w r)) k r.offer.part (vpnOf a)
    refine ⟨(congrArg (smFind · tag) (tags_of_requestView hv)).trans hput, cells_of_requestView (s := tagPut s tag _) hv, fun h => ?_⟩
    have hw : w = false := by
      cases w with
      | false => rfl
      | true => exact absurd (Bool.true_or _) hread
    rw [readNoted_frame _ _ _ (h.resolve_left (by simp [hw]))]
    rfl

/-- Settles O25: a granted tag by `tierTagGrant_effects`; a return and a passed deadline end the request (`exec_tierRequestComplete_ends`,
`exec_tierRequestTimeout`), and `requestEnded` says what an end leaves. -/
theorem tierRequestEffects : Obligations.TierRequestEffects := by
  refine ⟨?grant, fun s k i a n w r hcur hg => exec_tierTagGrant_none hcur hg, ?clean, ?ended, ?late,
    fun s tag port o x hx hh => tierReturn_held hx hh, fun s tag port o hx => tierReturn_none hx⟩
  case grant =>
    intro s k i a n w r tag hcur hst hn hpage hg
    obtain ⟨t, ht, hfind, hcells, hframe⟩ := tierTagGrant_effects (w := w) hcur hst hn hpage hg
    refine ⟨t, _, ht, hfind, rfl, rfl, rfl, rfl, rfl, rfl, rfl, rfl, rfl, translateStatus_ok, ?_, hcells, hframe⟩
    simp only [grantedRec, Bool.and_eq_true, beq_iff_eq, and_assoc]
  case clean =>
    intro s tag port x hx hh
    dsimp only
    rw [← returnStatus_clean s x port]
    refine ⟨exec_tierRequestComplete_silent hx hh, fun h => ?_⟩
    have hends : x.st ≠ .ok ∨ pastDeadline s x = true ∨ (tierOutcome s x port .clean).1 ≠ .timeout := by
      by_cases hok : x.st = .ok
      · cases hp : pastDeadline s x with
        | true => exact .inr (.inl rfl)
        | false => exact .inr (.inr (returnStatus_served hok hp ▸ h hok hp))
      · exact .inl hok
    obtain ⟨hfree, hcells, hcmd⟩ := requestEnded (tag := tag.val) (x := x) (st := returnStatus s x port .clean)
      (requestView_returnCounted_clean s x port)
    exact ⟨_, exec_tierRequestComplete_ends hx hh hends, hfree, hcells, hcmd⟩
  case ended =>
    intro s tag port o x hx hh ho
    exact ⟨_, exec_tierRequestComplete_ends hx hh ho, smFind_releaseTag _ _⟩
  case late =>
    intro s tag x hx hh hd
    obtain ⟨hfree, hcells, hcmd⟩ := requestEnded (tag := tag.val) (x := x) (st := .timeout) (requestView_lateCounted s x)
    exact ⟨_, exec_tierRequestTimeout hx (pastDeadline_of_le hh hd), hfree, hcells, hcmd⟩

end Sys2Proof.Machine
end

section
/-! PROOFS. The bytes of a write through a partition's range (R213, R214, R217, R247): each byte of a page that is not under move is stored at
its address's home, the bytes of a page under move wait for its switch. -/

namespace Sys2Proof.Machine

/-! ### The entries and the writes that wait -/

/-- The page-table entries, and the writes that wait for a switch (R247). -/
def entriesOf (s : State) : SMap Pte × List (Nat × Nat × List Byte) := (s.mem.ptes, s.mem.migWrites)

section
variable {s t : State}

theorem ptes_of_entriesOf (h : entriesOf t = entriesOf s) : t.mem.ptes = s.mem.ptes := congrArg Prod.fst h
theorem migWrites_of_entriesOf (h : entriesOf t = entriesOf s) : t.mem.migWrites = s.mem.migWrites := congrArg Prod.snd h

theorem pteOf_congr (h : t.mem.ptes = s.mem.ptes) (n v : Nat) : pteOf t n v = pteOf s n v := congrArg (smGet noPte · _) h

end

variable (s : State)

@[simp] theorem entriesOf_ctrAdd (p : Page) (slot n : Nat) : entriesOf (ctrAdd s p slot n) = entriesOf s := by simp [entriesOf]

@[simp] theorem entriesOf_programUnit (ch : Nat) : entriesOf (programUnit s ch).2 = entriesOf s := by
  unfold programUnit
  dsimp only
  rw [entriesOf_ctrAdd]
  split
  · rfl
  · split <;> rfl

@[simp] theorem entriesOf_programPage (n lpn : Nat) : entriesOf (programPage s n lpn) = entriesOf s := by
  unfold programPage
  dsimp only
  rw [entriesOf_ctrAdd]
  exact List.foldlRecOn (motive := fun acc : List Nat × State => entriesOf acc.2 = entriesOf s) _ _ rfl
    fun acc hacc c _ => (entriesOf_programUnit acc.2 c).trans hacc

@[simp] theorem entriesOf_freeFrame (t : Tier) (f : Nat) : entriesOf (freeFrame s t f) = entriesOf s := by
  unfold freeFrame
  split
  · rfl
  · cases t <;> rfl

@[simp] theorem entriesOf_setCode (n a c : Nat) : entriesOf (setCode s n a c) = entriesOf s := by
  unfold setCode
  dsimp only
  split <;> rfl

@[simp] theorem entriesOf_writeByte (n a : Nat) (b : Byte) : entriesOf (writeByte s n a b) = entriesOf s := by
  unfold writeByte
  dsimp only
  split <;> rfl

@[simp] theorem entriesOf_writeList (n a : Nat) (bs : List Byte) : entriesOf (writeList s n a bs) = entriesOf s := by
  induction bs generalizing s a with
  | nil => rfl
  | cons b bs ih => rw [writeList, ih, entriesOf_writeByte]

/-! ### One entry written -/

/-- One entry becomes `e` and every other stands. -/
structure EntryBecomes (s t : State) (n v : Nat) (e : Pte) : Prop where
  entry : pteOf t n v = e
  others : ∀ q u, pteKey q u ≠ pteKey n v → pteOf t q u = pteOf s q u

section
variable {s} {t u : State} {n v : Nat} {e : Pte}

theorem entryBecomes_setPte (s : State) (n v : Nat) (e : Pte) : EntryBecomes s (setPte s n v e) n v e :=
  ⟨smGet_smSet_same _ _ _ _, fun _ _ h => smGet_smSet_ne _ _ _ _ h.symm⟩

theorem entryBecomes_refl (s : State) (n v : Nat) : EntryBecomes s s n v (pteOf s n v) := ⟨rfl, fun _ _ _ => rfl⟩

/-- What writes no entry may follow, and may come before. -/
theorem EntryBecomes.congr (h : EntryBecomes s t n v e) (hu : u.mem.ptes = t.mem.ptes) : EntryBecomes s u n v e :=
  ⟨(pteOf_congr hu n v).trans h.entry, fun q w hk => (pteOf_congr hu q w).trans (h.others q w hk)⟩

theorem EntryBecomes.after (h : EntryBecomes u t n v e) (hu : u.mem.ptes = s.mem.ptes) : EntryBecomes s t n v e :=
  ⟨h.entry, fun q w hk => (h.others q w hk).trans (pteOf_congr hu q w)⟩

end

/-! ### Where a page stands -/

/-- Where a page's content stands, and whether the page is under move. -/
def siteOf (s : State) (n v : Nat) : Nat × Bool := (homeAddr n (pteOf s n v), (pteOf s n v).mig)

section
variable {s} {t : State} {n v : Nat}

theorem siteOf_congr (h : t.mem.ptes = s.mem.ptes) (n v : Nat) : siteOf t n v = siteOf s n v := by
  rw [siteOf, siteOf, pteOf_congr h]

/-- A change of one entry that keeps the page's home and its MIG keeps every page where it stands. -/
theorem EntryBecomes.siteOf_eq {e : Pte} (h : EntryBecomes s t n v e) (hhome : homeAddr n e = homeAddr n (pteOf s n v))
    (hmig : e.mig = (pteOf s n v).mig) (u : Nat) : siteOf t n u = siteOf s n u := by
  by_cases hu : u = v
  · subst hu
    rw [siteOf, siteOf, h.entry, hhome, hmig]
  · have hk : pteKey n u ≠ pteKey n v := by
      simpa [pteKey] using hu
    rw [siteOf, siteOf, h.others n u hk]

end

/-- What a write does to its page's entry leaves its home (R213). -/
@[simp] theorem siteOf_pageWritten (n v u : Nat) : siteOf (pageWritten s n v) n u = siteOf s n u := by
  unfold pageWritten
  dsimp only
  split
  · next hg =>
    have hset := (entryBecomes_setPte s n v { pteOf s n v with dv := false, sv := false, loose := false }).siteOf_eq
      (by simp [homeAddr, hg]) rfl u
    split
    · exact (siteOf_congr (ptes_of_entriesOf (entriesOf_freeFrame _ _ _)) n u).trans hset
    · exact hset
  · next hd => exact (entryBecomes_setPte s n v { pteOf s n v with sv := false }).siteOf_eq (by simp [homeAddr, hd]) rfl u
  · exact siteOf_congr (ptes_of_entriesOf (entriesOf_programPage _ _ _)) n u

@[simp] theorem migWrites_pageWritten (n v : Nat) : (pageWritten s n v).mem.migWrites = s.mem.migWrites := by
  unfold pageWritten
  dsimp only
  split
  · split
    · rw [migWrites_of_entriesOf (entriesOf_freeFrame _ _ _)]
      rfl
    · rfl
  · rfl
  · exact migWrites_of_entriesOf (entriesOf_programPage _ _ _)

section
variable {s} {n a : Nat} {bs : List Byte}

/-- A write to one page leaves every page of the partition where it stands. -/
@[simp] theorem siteOf_writePage (n a u : Nat) (bs : List Byte) : siteOf (writePage s n a bs) n u = siteOf s n u := by
  unfold writePage
  split_ifs
  · rfl
  · rfl
  · rw [siteOf_congr (ptes_of_entriesOf (foldl_leaves entriesOf (fun _ _ => entriesOf_setCode _ _ _ _) _ _)), siteOf_pageWritten]
    exact siteOf_congr (ptes_of_entriesOf (entriesOf_writeList s n a bs)) n u

/-- A write to a page that is not under move does not wait. -/
theorem migWrites_writePage (h : (siteOf s n (vpnOf a)).2 = false) : (writePage s n a bs).mem.migWrites = s.mem.migWrites := by
  have hm : ¬ (pteOf s n (vpnOf a)).mig = true := by simpa [siteOf] using h
  unfold writePage
  rw [if_neg hm]
  split
  · rfl
  · rw [migWrites_of_entriesOf (foldl_leaves entriesOf (fun _ _ => entriesOf_setCode _ _ _ _) _ _), migWrites_pageWritten]
    exact migWrites_of_entriesOf (entriesOf_writeList s n a bs)

end

/-! ### The stores of a write -/

/-- The physical address of a byte of a partition's range (R213). -/
def placeOf (s : State) (n a : Nat) : Nat := (siteOf s n (vpnOf a)).1 + a % pageBytes

/-- The stores of a write: the physical address and the byte, for each byte whose page is not under move. -/
def storesOf (s : State) (n : Nat) : Nat → List Byte → List (Nat × Byte)
  | _, [] => []
  | a, b :: bs => if (siteOf s n (vpnOf a)).2 then storesOf s n (a + 1) bs else (placeOf s n a, b) :: storesOf s n (a + 1) bs

/-- Bytes stored in turn. -/
def storeAll (m : List Host.Cell) (xs : List (Nat × Byte)) : List Host.Cell := xs.foldl (fun m x => cellSet m x.1 x.2) m

section
variable {s} {t : State} {n a : Nat} {bs : List Byte}

theorem storesOf_congr (h : ∀ v, siteOf t n v = siteOf s n v) (a : Nat) (bs : List Byte) : storesOf t n a bs = storesOf s n a bs := by
  induction bs generalizing a with
  | nil => rfl
  | cons b bs ih => simp only [storesOf, placeOf, h, ih]

theorem storesOf_append (a : Nat) (xs ys : List Byte) :
    storesOf s n a (xs ++ ys) = storesOf s n a xs ++ storesOf s n (a + xs.length) ys := by
  induction xs generalizing a with
  | nil => rfl
  | cons b xs ih =>
    have hlen : a + 1 + xs.length = a + (b :: xs).length := by rw [List.length_cons]; omega
    simp only [List.cons_append, storesOf, ih, hlen]
    split <;> rfl

/-- The stores are those of the bytes whose page is not under move. -/
theorem mem_storesOf {x : Nat × Byte} : x ∈ storesOf s n a bs ↔
    ∃ i, (i < bs.length ∧ (siteOf s n (vpnOf (a + i))).2 = false) ∧ x = (placeOf s n (a + i), bs.getD i 0) := by
  induction bs generalizing a with
  | nil => simp [storesOf]
  | cons b bs ih =>
    rw [← Nat.or_exists_add_one]
    simp only [List.length_cons, Nat.add_lt_add_iff_right, List.getD_cons_succ, ← Nat.add_assoc, Nat.add_right_comm a _ 1, ← ih]
    cases h : (siteOf s n (vpnOf a)).2 <;> simp [storesOf, h]

theorem storesOf_of_mig (h : ∀ i, i < bs.length → (siteOf s n (vpnOf (a + i))).2 = true) : storesOf s n a bs = [] := by
  refine List.eq_nil_iff_forall_not_mem.2 fun x hx => ?_
  obtain ⟨i, ⟨hi, hm⟩, -⟩ := mem_storesOf.1 hx
  rw [h i hi] at hm
  cases hm

end

/-! ### What stores leave -/

section
variable {m : List Host.Cell} {xs : List (Nat × Byte)}

/-- A place that no store names keeps its byte. -/
theorem cellGet_storeAll_of_not_mem {x : Nat} (h : ∀ y ∈ xs, y.1 ≠ x) : cellGet (storeAll m xs) x = cellGet m x := by
  induction xs generalizing m with
  | nil => rfl
  | cons y ys ih =>
    obtain ⟨hy, hys⟩ := List.forall_mem_cons.1 h
    exact (ih hys).trans (cellGet_cellSet_ne m y.2 hy)

/-- A place that only one byte is stored to holds that byte. -/
theorem cellGet_storeAll_of_mem {x : Nat × Byte} (hx : x ∈ xs) (h : ∀ y ∈ xs, y.1 = x.1 → y.2 = x.2) :
    cellGet (storeAll m xs) x.1 = x.2 := by
  induction xs generalizing m with
  | nil => cases hx
  | cons y ys ih =>
    obtain ⟨hy, hys⟩ := List.forall_mem_cons.1 h
    by_cases hlater : ∃ z ∈ ys, z.1 = x.1
    · obtain ⟨z, hz, hzx⟩ := hlater
      have hzeq : z = x := Prod.ext hzx (hys z hz hzx)
      exact ih (hzeq ▸ hz) hys
    · have hfirst : x = y := (List.mem_cons.1 hx).resolve_right fun hmem => hlater ⟨x, hmem, rfl⟩
      subst hfirst
      calc cellGet (storeAll m (x :: ys)) x.1
          = cellGet (cellSet m x.1 x.2) x.1 := cellGet_storeAll_of_not_mem fun z hz hzx => hlater ⟨z, hz, hzx⟩
        _ = x.2 := cellGet_cellSet_same _ _ _

end

/-! ### The bytes of one page -/

section
variable {s} {n a : Nat} {bs : List Byte}

/-- The addresses from one on to the end of its page have one page number. -/
theorem vpnOf_add {i : Nat} (h : a % pageBytes + i < pageBytes) : vpnOf (a + i) = vpnOf a := by
  simp only [vpnOf, pageBytes] at h ⊢
  omega

theorem writeList_cells (h : ∀ i, i < bs.length → (siteOf s n (vpnOf (a + i))).2 = false) :
    (writeList s n a bs).mem.cells = storeAll s.mem.cells (storesOf s n a bs) := by
  induction bs generalizing s a with
  | nil => rfl
  | cons b bs ih =>
    have hsite := siteOf_congr (ptes_of_entriesOf (entriesOf_writeByte s n a b)) n
    have hrest (i : Nat) (hi : i < bs.length) : (siteOf (writeByte s n a b) n (vpnOf (a + 1 + i))).2 = false := by
      rw [hsite, Nat.add_right_comm, Nat.add_assoc]
      exact h (i + 1) (Nat.succ_lt_succ hi)
    have hfirst : (siteOf s n (vpnOf a)).2 = false := h 0 (Nat.succ_pos _)
    rw [writeList, ih hrest, storesOf_congr hsite, writeByte_cells, storesOf, if_neg (by simp [hfirst])]
    rfl

/-- A write within one page makes its stores. -/
theorem writePage_stores (h : a % pageBytes + bs.length ≤ pageBytes) :
    (writePage s n a bs).mem.cells = storeAll s.mem.cells (storesOf s n a bs) := by
  have hpage (i : Nat) (hi : i < bs.length) : (siteOf s n (vpnOf (a + i))).2 = (pteOf s n (vpnOf a)).mig := by
    rw [vpnOf_add (by omega)]
    rfl
  cases hm : (pteOf s n (vpnOf a)).mig with
  | true =>
    rw [writePage_mig_cells s n a bs hm, storesOf_of_mig fun i hi => (hpage i hi).trans hm]
    rfl
  | false => rw [writePage_cells s n a bs hm, writeList_cells fun i hi => (hpage i hi).trans hm]

end

/-! ### The pages of a write -/

section
variable {s} {n a : Nat} {bs : List Byte} {xs : List (Nat × List Byte)}

/-- Each part of a write lies in one page and begins at one of its addresses. -/
theorem mem_pageParts {k : Nat} {x : Nat × List Byte} (h : x ∈ pageParts k a bs) :
    x.1 % pageBytes + x.2.length ≤ pageBytes ∧ ∃ i, i < bs.length ∧ x.1 = a + i := by
  induction k generalizing a bs with
  | zero => cases h
  | succ k ih =>
    have hlt : a % pageBytes < pageBytes := Nat.mod_lt _ (by decide)
    rw [pageParts] at h
    split at h
    · cases h
    · next hne =>
      rcases List.mem_cons.1 h with rfl | h
      · refine ⟨?_, 0, List.length_pos_iff.2 (by simpa using hne), rfl⟩
        have htake : (bs.take (pageBytes - a % pageBytes)).length ≤ pageBytes - a % pageBytes := List.length_take_le _ _
        dsimp only
        omega
      · obtain ⟨hfit, i, hi, hx⟩ := ih h
        rw [List.length_drop] at hi
        exact ⟨hfit, pageBytes - a % pageBytes + i, by omega, by omega⟩

/-- The parts hold every byte, where there are pages enough. -/
theorem storesOf_pageParts {k : Nat} (h : a % pageBytes + bs.length ≤ k * pageBytes) :
    (pageParts k a bs).flatMap (fun x => storesOf s n x.1 x.2) = storesOf s n a bs := by
  induction k generalizing a bs with
  | zero =>
    have hnil : bs = [] := List.length_eq_zero_iff.1 (by omega)
    rw [hnil]
    rfl
  | succ k ih =>
    rw [pageParts]
    split
    · next hnil => rw [List.isEmpty_iff.1 hnil]; rfl
    · have hk : (a + (pageBytes - a % pageBytes)) % pageBytes + (bs.drop (pageBytes - a % pageBytes)).length ≤ k * pageBytes := by
        simp only [List.length_drop, pageBytes] at h ⊢
        omega
      have hsplit := storesOf_append (s := s) (n := n) a (bs.take (pageBytes - a % pageBytes)) (bs.drop (pageBytes - a % pageBytes))
      rw [List.take_append_drop] at hsplit
      rw [List.flatMap_cons, ih hk, hsplit]
      by_cases hlong : pageBytes - a % pageBytes ≤ bs.length
      · rw [List.length_take_of_le hlong]
      · rw [List.drop_eq_nil_of_le (by omega)]
        rfl

@[simp] theorem siteOf_foldl_writePage (u : Nat) : siteOf (xs.foldl (fun t x => writePage t n x.1 x.2) s) n u = siteOf s n u :=
  foldl_leaves (siteOf · n u) (fun _ _ => siteOf_writePage _ _ _ _) _ _

theorem foldl_writePage_cells (h : ∀ x ∈ xs, x.1 % pageBytes + x.2.length ≤ pageBytes) :
    (xs.foldl (fun t x => writePage t n x.1 x.2) s).mem.cells = storeAll s.mem.cells (xs.flatMap fun x => storesOf s n x.1 x.2) := by
  induction xs generalizing s with
  | nil => rfl
  | cons x xs ih =>
    obtain ⟨hx, hxs⟩ := List.forall_mem_cons.1 h
    have hsite (v : Nat) : siteOf (writePage s n x.1 x.2) n v = siteOf s n v := siteOf_writePage n x.1 v x.2
    rw [List.foldl_cons, ih hxs, writePage_stores hx, List.flatMap_cons, storeAll, storeAll, storeAll, List.foldl_append]
    simp only [storesOf_congr hsite]

theorem foldl_writePage_migWrites (h : ∀ x ∈ xs, (siteOf s n (vpnOf x.1)).2 = false) :
    (xs.foldl (fun t x => writePage t n x.1 x.2) s).mem.migWrites = s.mem.migWrites := by
  induction xs generalizing s with
  | nil => rfl
  | cons x xs ih =>
    obtain ⟨hx, hxs⟩ := List.forall_mem_cons.1 h
    rw [List.foldl_cons, ih (by simpa using hxs), migWrites_writePage hx]

/-- The bytes of a write are its stores. -/
theorem writeBytes_cells (s : State) (n a : Nat) (bs : List Byte) :
    (writeBytes s n a bs).mem.cells = storeAll s.mem.cells (storesOf s n a bs) := by
  have hpages : a % pageBytes + bs.length ≤ (bs.length / pageBytes + 2) * pageBytes := by
    simp only [pageBytes]
    omega
  rw [writeBytes, foldl_writePage_cells fun x hx => (mem_pageParts hx).1, storesOf_pageParts hpages]

/-- Where no page is under move nothing waits. -/
theorem writeBytes_migWrites (h : ∀ i, i < bs.length → (siteOf s n (vpnOf (a + i))).2 = false) :
    (writeBytes s n a bs).mem.migWrites = s.mem.migWrites := by
  refine foldl_writePage_migWrites fun x hx => ?_
  obtain ⟨-, i, hi, hxi⟩ := mem_pageParts hx
  rw [hxi]
  exact h i hi

/-- A write within one page is a write of that page. -/
theorem writeBytes_eq_writePage (hne : bs ≠ []) (h : a % pageBytes + bs.length ≤ pageBytes) : writeBytes s n a bs = writePage s n a bs := by
  have hlen : bs.length ≤ pageBytes - a % pageBytes := by omega
  simp [writeBytes, pageParts, hne, List.take_of_length_le hlen, List.drop_eq_nil_of_le hlen]

/-- A write to a page under move waits for its switch (R247). -/
theorem writePage_of_mig (hne : bs ≠ []) (h : (pteOf s n (vpnOf a)).mig = true) :
    writePage s n a bs = { s with mem := { s.mem with migWrites := s.mem.migWrites ++ [(n, a, bs)] } } := by
  simp [writePage, hne, h]

end

/-- What leaves everything off the tiers alone changes counters, free values and the tiers. -/
theorem eq_of_offTier {s t : State} (h : offTier t = offTier s) : t = { withBlock t s with mem := t.mem, free := t.free } :=
  congrArg (fun x : State × (Nat → DWord) => { withBlock t x.1 with mem := t.mem, free := t.free }) h

/-- Settles O31: the bytes are those of the stores (`writeBytes_cells`), one for each address whose page is not under move (`mem_storesOf`). -/
theorem writeBytesFrame : Obligations.WriteBytesFrame := by
  intro s part a bs place still t
  have hcells : t.mem.cells = storeAll s.mem.cells (storesOf s part a bs) := writeBytes_cells s part a bs
  have hoff : offTier t = offTier s := offTier_writeBytes s part a bs
  refine ⟨fun x hx => ?frame, fun hinj i hi => ?byte, fun hall => writeBytes_migWrites fun i hi => (hall i hi).2, fun hne hfit hm => ?moved,
    fun p off _ => regVal_congr (regs_of_offTier hoff) p off, eq_of_offTier hoff⟩
  case frame =>
    rw [memByte, hcells]
    refine cellGet_storeAll_of_not_mem fun y hy => ?_
    obtain ⟨i, hi, rfl⟩ := mem_storesOf.1 hy
    exact hx i hi
  case byte =>
    rw [memByte, hcells]
    refine cellGet_storeAll_of_mem (mem_storesOf.2 ⟨i, hi, rfl⟩) fun y hy hyi => ?_
    obtain ⟨j, hj, rfl⟩ := mem_storesOf.1 hy
    rw [hinj j i hj hi hyi]
  case moved => exact (writeBytes_eq_writePage hne hfit).trans (writePage_of_mig hne hm)

end Sys2Proof.Machine
end

section
/-! PROOFS. The rows of the tier-map requests (R218 to R220, R684): the first step, which makes the check and times the pages, QUERY, and the
completion. -/

namespace Sys2Proof.Machine

variable {s : State} {r : TmRun}

/-! ### The first step (R219, R684) -/

/-- The first step of a request that its check passes: the check is made and the pages are timed, and nothing else. -/
theorem tmRow_first {p : Nat} (hr : tmOf s p = some r) (hc : r.checked = false) (hok : tmCheck s p r = .ok) {op : Nat} (n : Nat)
    (hop : r.op = op) : tmRow op p n s = .next (atBoundary (setTm s p { r with checked := true }) (.tmPages p n)) := by
  simp [tmRow, hr, hc, hok, hop]

theorem exec_query_first {p : Part} (hr : tmOf s p = some r) (hc : r.checked = false) (hok : tmCheck s p r = .ok) (hop : r.op = 7) :
    exec (.query p) s = .next (atBoundary s (.tmQuery p)) := by
  simp [exec, execQuery, hr, hc, hok, hop]

theorem exec_tierMapComplete {p : Part} (hr : tmOf s p = some r) (h : (tmFinal s p r).isSome = true ∨ s.atTick.contains (.tmQuery p) = true)
    (hd : s.atTick.contains (.tmDone p) = false) : exec (.tierMapComplete p) s = .next (atBoundary s (.tmDone p)) := by
  have hends : ((tmFinal s p r).isSome = true ∨ s.atTick.contains (.tmQuery p) = true) ∧ (!s.atTick.contains (.tmDone p)) = true :=
    ⟨h, by rw [hd]; rfl⟩
  simp only [exec, execTierMapComplete, hr]
  rw [if_pos hends]

/-! ### QUERY at the boundary (R220) -/

/-- Registers of one page stored in a row: each reads as what was stored there. -/
theorem regVal_foldl_setReg (s : State) (p : Page) {off : Nat → Nat} (hoff : Function.Injective off) (w : Nat → Word) (n : Nat) {i : Nat}
    (h : i < n) : regVal ((List.range n).foldl (fun t i => setReg t p (off i) (w i)) s) p (off i) = w i := by
  induction n with
  | zero => cases h
  | succ n ih =>
    rw [List.range_succ, List.foldl_append]
    rcases Nat.lt_succ_iff_lt_or_eq.1 h with hlt | rfl
    · exact (regVal_setReg_off _ p _ fun e => hlt.ne' (hoff e)).trans (ih hlt)
    · exact regVal_setReg_same _ p _ _

theorem regsBut_foldl_setReg (s : State) (p : Page) (off : Nat → Nat) (w : Nat → Word) (n : Nat) :
    RegsBut ((List.range n).map fun i => regKey p (off i)) s ((List.range n).foldl (fun t i => setReg t p (off i) (w i)) s) :=
  List.foldlRecOn (motive := RegsBut _ s) _ _ (regsBut_refl _ s) fun _ ht _ hi => regsBut_setReg ht (List.mem_map_of_mem hi) _

theorem foldl_setReg_frame (s : State) (p : Page) (off : Nat → Nat) (w : Nat → Word) (xs : List Nat) :
    xs.foldl (fun t i => setReg t p (off i) (w i)) s = { s with regs := (xs.foldl (fun t i => setReg t p (off i) (w i)) s).regs } :=
  List.foldlRecOn (motive := fun t : State => t = { s with regs := t.regs }) _ _ rfl fun t ht i _ => by
    rw [ht]
    rfl

/-- The words of the entry in TM_Q0 to TM_Q3. -/
def queryShown (s : State) (p : Nat) (r : TmRun) : State :=
  (List.range 4).foldl (fun t i => setReg t (partPage p) (0x418 + 4 * i) ((pteWords (pteOf s p r.vpn)).getD i 0)) s

theorem regVal_queryShown (s : State) (p : Nat) (r : TmRun) {i : Nat} (h : i < 4) :
    regVal (queryShown s p r) (partPage p) (0x418 + 4 * i) = (pteWords (pteOf s p r.vpn)).getD i 0 :=
  regVal_foldl_setReg s (partPage p) (off := fun i => 0x418 + 4 * i) (fun i j hij => by dsimp only at hij; omega) _ 4 h

theorem regsBut_queryShown (s : State) (p : Nat) (r : TmRun) :
    RegsBut ((List.range 4).map fun i => regKey (partPage p) (0x418 + 4 * i)) s (queryShown s p r) :=
  regsBut_foldl_setReg s (partPage p) (fun i => 0x418 + 4 * i) _ 4

theorem queryShown_frame (s : State) (p : Nat) (r : TmRun) : queryShown s p r = { s with regs := (queryShown s p r).regs } :=
  foldl_setReg_frame s (partPage p) (fun i => 0x418 + 4 * i) _ _

theorem tmQuery_eq {p : Nat} (hr : tmOf s p = some r) : tmQuery s p = setTm (queryShown s p r) p { r with checked := true } := by
  simp only [tmQuery, hr]
  rfl

theorem setTm_regs (s : State) (p : Nat) (r : TmRun) : (setTm s p r).regs = s.regs := rfl
theorem regVal_setTm (s : State) (p : Nat) (r : TmRun) (q : Page) (off : Nat) : regVal (setTm s p r) q off = regVal s q off := rfl
theorem tmOf_setTm (s : State) (p : Nat) (r : TmRun) : tmOf (setTm s p r) p = some r := smFind_smPut_same _ _ _

/-! ### The completion (R220, R684) -/

/-- TM_STAT at the end: BUSY clear and the status. -/
def tmStat (s : State) (p : Nat) (st : Status) : Word := setField (setField (regVal s (partPage p) 0x414) 8 8 0) 7 0 (statusCode st)

theorem tmStat_status (p : Nat) (st : Status) : field (tmStat s p st) 7 0 = statusCode st := by
  rw [tmStat, field_setField_same _ _ (by decide)]
  exact Nat.mod_eq_of_lt (statusCode_lt st)

theorem tmStat_busy (p : Nat) (st : Status) : bit (tmStat s p st) 8 = false := by
  simp [tmStat, bit_setField]

/-- A request gone from the map. -/
def tmDropped (s : State) (p : Nat) : State := { s with mem := { s.mem with tm := smDel s.mem.tm p } }

/-- What the end of a request leaves. -/
def tmEnded (s : State) (p : Nat) (st : Status) : State :=
  irq (setReg (tmDropped s p) (partPage p) 0x414 (tmStat s p st)) p 3 (.service (partPage p))

theorem regVal_tmEnded (s : State) (p : Nat) (st : Status) : regVal (tmEnded s p st) (partPage p) 0x414 = tmStat s p st :=
  regVal_setReg_same (tmDropped s p) _ _ _

theorem regsBut_tmEnded (s : State) (p : Nat) (st : Status) : RegsBut [regKey (partPage p) 0x414] s (tmEnded s p st) :=
  regsBut_setReg (regsBut_congr (regsBut_refl _ s) (u := tmDropped s p) rfl) List.mem_cons_self _

theorem tmDone_eq {p : Nat} {st : Status} (hr : tmOf s p = some r) (hf : tmFinal s p r = some st) : tmDone s p = tmEnded s p st := by
  simp only [tmDone, hr, hf]
  rfl

/-- Settles O26: the rows by `tmRow_first`, `exec_query_first` and `exec_tierMapComplete`; the boundary by `tmQuery_eq` and `tmDone_eq`. -/
theorem tierMapCommands : Obligations.TierMapCommands := by
  refine ⟨?first, ?query, fun s p r hr h hd => exec_tierMapComplete hr h hd, ?done⟩
  case first =>
    intro s p pages r hr hc hok after
    have hrow {op : Nat} (n : Nat) : r.op = op → tmRow op p n s = .next (after n) := tmRow_first hr hc hok n
    exact ⟨hrow pages, hrow pages, hrow pages, hrow pages, hrow pages, hrow pages, hrow 1, exec_query_first hr hc hok⟩
  case query =>
    intro s p r hr t
    have ht : t = setTm (queryShown s p r) p { r with checked := true } := tmQuery_eq hr
    rw [ht]
    refine ⟨fun i hi => (regVal_setTm _ _ _ _ _).trans (regVal_queryShown s p r hi),
      regsBut_congr (regsBut_queryShown s p r) (setTm_regs _ _ _), tmOf_setTm _ _ _, ?_⟩
    rw [queryShown_frame]
    rfl
  case done =>
    intro s p r st hr hf t
    have ht : t = tmEnded s p st := tmDone_eq hr hf
    rw [ht]
    refine ⟨smFind_smDel_same _ _, ?_, ?_, rfl, regsBut_tmEnded s p st, rfl⟩
    · rw [regField, regVal_tmEnded, tmStat_status]
    · rw [regBit, regVal_tmEnded, tmStat_busy]

end Sys2Proof.Machine
end

section
/-! PROOFS. One page of a tier-map request at its boundary (R213, R214, R216, R220 to R222, R247): the operation changes the page's entry and
no other, and a page done is counted. -/

namespace Sys2Proof.Machine

/-! ### What the operations of a page leave alone -/

section
variable (s : State)

@[simp] theorem entriesOf_clearCodes (n : Nat) (e : Pte) : entriesOf (clearCodes s n e) = entriesOf s := by
  unfold clearCodes
  split <;> rfl

@[simp] theorem entriesOf_dropCode (n : Nat) (e : Pte) : entriesOf (dropCode s n e) = entriesOf s := by
  unfold dropCode
  split <;> rfl

@[simp] theorem entriesOf_zeroPage (n : Nat) (t : Tier) (pa : Nat) : entriesOf (zeroPage s n t pa) = entriesOf s := by
  have hfold (xs : List Nat) (m : MemSt) : (xs.foldl (fun g i => tagBlock512 s n g (pa / 512 + i)) m).ptes = m.ptes ∧
      (xs.foldl (fun g i => tagBlock512 s n g (pa / 512 + i)) m).migWrites = m.migWrites :=
    List.foldlRecOn (motive := fun g : MemSt => g.ptes = m.ptes ∧ g.migWrites = m.migWrites) _ _ ⟨rfl, rfl⟩ fun _ hg _ _ => hg
  unfold zeroPage
  dsimp only
  split
  · rfl
  · exact Prod.ext (hfold _ _).1 (hfold _ _).2

@[simp] theorem entriesOf_copyPage (n : Nat) (t : Tier) (src dst : Nat) : entriesOf (copyPage s n t src dst) = entriesOf s :=
  entriesOf_zeroPage s n t dst

@[simp] theorem dropCode_cells (n : Nat) (e : Pte) : (dropCode s n e).mem.cells = s.mem.cells := by
  unfold dropCode
  split <;> rfl

end

/-! ### A page done -/

section
variable {s u : State} {p v : Nat} {r : TmRun} {e : Pte}

/-- The request with its count of pages advanced. -/
theorem tmOf_tmAdvance (s : State) (p : Nat) (r : TmRun) : tmOf (tmAdvance s p r) p = some { r with next := r.next + 1, done := r.done + 1 } :=
  tmOf_setTm s p _

theorem entryBecomes_tmAdvance (h : EntryBecomes s u p v e) : EntryBecomes s (tmAdvance u p r) p v e := h.congr rfl

/-- The page of a request that stands next (R684). -/
def nextVpn (r : TmRun) : Nat := (r.vpn + r.next) % 2 ^ 28

/-- One page of a step at the boundary is the next page of the request. -/
theorem applyAct_tmPages_one (hr : tmOf s p = some r) (hc : r.checked = true) (hn : r.next < tmTotal r) (hs : r.status = .ok) :
    applyAct s (.tmPages p 1) = tmPage s p r := by
  have hmore : r.checked = true ∧ r.next < tmTotal r ∧ r.status ≠ .range := ⟨hc, hn, by rw [hs]; decide⟩
  simp only [applyAct, tmStep, hr]
  rw [if_pos hmore]

/-! ### PROTECT, MAP_SEAM and MAP_NEW (R220, R221) -/

theorem tmPage_protect (h : r.op = 5) :
    tmPage s p r = tmAdvance (setPte s p (nextVpn r) { pteOf s p (nextVpn r) with w := r.w }) p r := by
  simp [tmPage, h, nextVpn]

/-- The entry of a page mapped to a logical page. -/
def seamEntry (s : State) (p : Nat) (r : TmRun) : Pte :=
  { noPte with v := true, home := .seam, w := r.w, sv := true, sLpn := r.arg + r.next, gen := BitVec.ofNat 2 (keysOf s p).gen }

theorem tmPage_mapSeam (h : r.op = 2) : tmPage s p r = tmAdvance (setPte s p (nextVpn r) (seamEntry s p r)) p r := by
  simp [tmPage, h, nextVpn, seamEntry]

/-- The entry of a page mapped to a Gallery frame without a code block. -/
def galleryEntry (s : State) (p : Nat) (r : TmRun) (f : Nat) : Pte :=
  { noPte with v := true, w := r.w, kv := r.kv, gen := BitVec.ofNat 2 (keysOf s p).gen, home := .gallery, gFrame := f }

/-- A Gallery frame taken and zeroed. -/
def galleryFresh (s : State) (p f : Nat) : State := zeroPage (takeGallery s f) p .gallery (galleryAddr f)

theorem tmPage_mapNew {f : Nat} (h : r.op = 1) (ht : r.tier = 0) (hz : r.zc = false) (hf : freeGallery s p = some f) :
    tmPage s p r = tmAdvance (setPte (galleryFresh s p f) p (nextVpn r) (galleryEntry s p r f)) p r := by
  simp [tmPage, tmMapNew, h, ht, hz, hf, tierOf, nextVpn, galleryEntry, galleryFresh]

/-- A fresh Gallery frame reads 0 (R221). -/
theorem readByte_fresh {f o : Nat} (he : pteOf u p v = galleryEntry s p r f) (hc : u.mem.cells = (galleryFresh s p f).mem.cells)
    (hv : v < 2 ^ 28) (ho : o < pageBytes) : readByte u p (v * pageBytes + o) = 0 := by
  have hpos : 0 < pageBytes := by decide
  have hvpn : vpnOf (v * pageBytes + o) = v := by
    rw [vpnOf, Nat.mul_comm, Nat.mul_add_div hpos, Nat.div_eq_of_lt ho, Nat.add_zero, Nat.mod_eq_of_lt hv]
  have hoff : (v * pageBytes + o) % pageBytes = o := by
    rw [Nat.mul_comm, Nat.mul_add_mod, Nat.mod_eq_of_lt ho]
  have hplace : homeAddr p (galleryEntry s p r f) = galleryAddr f := rfl
  have hmapped : (galleryEntry s p r f).v = true := rfl
  simp only [readByte, hvpn, hoff, he, hplace, hmapped, hc, galleryFresh, zeroPage_cells, cellGet, smGet_smClear, if_true]
  rw [if_pos ⟨Nat.le_add_right _ _, Nat.add_lt_add_left ho _⟩]
  rfl

/-! ### UNMAP (R220, R222, R247) -/

/-- A page unmapped: its entry is empty, and no byte has changed. -/
theorem unmapPage_mapped (h : (pteOf s p v).v = true) :
    EntryBecomes s (unmapPage s p v) p v noPte ∧ (unmapPage s p v).mem.cells = s.mem.cells := by
  have hne : ¬ (!(pteOf s p v).v) = true := by simp [h]
  unfold unmapPage
  rw [if_neg hne]
  extract_lets a u w
  have ha : a.mem.ptes = s.mem.ptes ∧ a.mem.cells = s.mem.cells := by
    unfold a
    split <;> exact ⟨rfl, rfl⟩
  have hu : EntryBecomes s u p v noPte ∧ u.mem.cells = s.mem.cells :=
    ⟨((entryBecomes_setPte a p v noPte).after ha.1).congr (ptes_of_entriesOf (entriesOf_dropCode _ _ _)), (dropCode_cells _ _ _).trans ha.2⟩
  have hfree (t : State) (ht : EntryBecomes s t p v noPte ∧ t.mem.cells = s.mem.cells) (q : Tier) (f : Nat) :
      EntryBecomes s (freeFrame t q f) p v noPte ∧ (freeFrame t q f).mem.cells = s.mem.cells :=
    ⟨ht.1.congr (ptes_of_entriesOf (entriesOf_freeFrame _ _ _)), (freeFrame_cells _ _ _).trans ht.2⟩
  have hw : EntryBecomes s w p v noPte ∧ w.mem.cells = s.mem.cells := by
    unfold w
    split
    · exact hfree u hu _ _
    · exact hu
  split
  · exact hfree w hw _ _
  · exact hw

theorem unmapPage_unmapped (h : (pteOf s p v).v = false) : unmapPage s p v = s := by simp [unmapPage, h]

theorem tmPage_unmap (h : r.op = 3) : tmPage s p r = tmAdvance (unmapPage s p (nextVpn r)) p r := by
  simp [tmPage, h, nextVpn]

/-- A page unmapped has an entry that is not valid. -/
theorem unmapPage_effects (s : State) (p v : Nat) :
    (∃ e : Pte, e.v = false ∧ EntryBecomes s (unmapPage s p v) p v e) ∧ (unmapPage s p v).mem.cells = s.mem.cells := by
  cases h : (pteOf s p v).v with
  | true =>
    obtain ⟨he, hc⟩ := unmapPage_mapped h
    exact ⟨⟨noPte, rfl, he⟩, hc⟩
  | false =>
    rw [unmapPage_unmapped h]
    exact ⟨⟨pteOf s p v, h, entryBecomes_refl s p v⟩, rfl⟩

/-! ### WRITEBACK (R216, R220) -/

theorem entryBecomes_writeBack (s : State) (p v lpn : Nat) :
    EntryBecomes s (writeBack s p v lpn) p v { pteOf s p v with sv := true, sLpn := lpn } :=
  (entryBecomes_setPte _ p v _).after (ptes_of_entriesOf (by simp))

theorem tmPage_writeback (h : r.op = 6) (hp : s.dev.power ≠ 4) (hr : pageReadable s p (nextVpn r) = .ok)
    (hk : pgState s (keeperPageOf (r.arg + r.next)) ≠ 2) :
    tmPage s p r = tmAdvance (writeBack s p (nextVpn r) (r.arg + r.next)) p r := by
  have hpower : ¬ (r.op = 6 ∧ s.dev.power = 4) := fun hx => hp hx.2
  rw [nextVpn] at hr
  unfold tmPage
  dsimp only
  rw [if_neg hpower]
  simp only [h]
  rw [if_neg (not_not.2 hr), if_neg hk]
  rfl

/-! ### MIGRATE (R216, R247) -/

/-- A frame or a logical page of the target tier is taken without a change of an entry, a byte or a move; into Gallery where a frame is free. -/
theorem moveTarget_leaves {q : Tier} {hp : Page} {f : Nat} (h : moveTarget s p e q hp = some (f, u))
    (hg : q = .gallery → (freeGallery s p).isSome = true) :
    u.mem.ptes = s.mem.ptes ∧ u.mem.cells = s.mem.cells ∧ u.mem.moves = s.mem.moves := by
  unfold moveTarget at h
  split at h
  · rw [show reclaimLoose s p hp = s by simp [reclaimLoose, hg rfl]] at h
    obtain ⟨_, -, hx⟩ := Option.map_eq_some_iff.1 h
    cases hx
    exact ⟨rfl, rfl, rfl⟩
  · obtain ⟨_, -, hx⟩ := Option.map_eq_some_iff.1 h
    cases hx
    exact ⟨rfl, rfl, rfl⟩
  · split at h
    · cases h
      exact ⟨rfl, rfl, rfl⟩
    · obtain ⟨_, -, hx⟩ := Option.map_eq_some_iff.1 h
      cases hx
      exact ⟨rfl, rfl, rfl⟩

/-- Tags granted to a move touch the tags and the move alone. -/
theorem tagMove_cases (s : State) (m : Move) : tagMove s m = s ∨ ∃ ts, tagMove s m =
    setMove { s with mem := { s.mem with tags := ts } } { m with tagged := true } := by
  have hfold (xs : List (Nat × Nat)) (g : Nat → TagRec) :
      ∃ ts, xs.foldl (fun t x => { t with mem := { t.mem with tags := smPut t.mem.tags x.2 (g x.1) } }) s =
        { s with mem := { s.mem with tags := ts } } :=
    List.foldlRecOn (motive := fun t : State => ∃ ts, t = { s with mem := { s.mem with tags := ts } }) _ _ ⟨_, rfl⟩ fun t ht x _ => by
      obtain ⟨ts, rfl⟩ := ht
      exact ⟨_, rfl⟩
  unfold tagMove
  extract_lets free e req u
  split
  · exact .inl rfl
  · obtain ⟨ts, hu⟩ : ∃ ts, u = { s with mem := { s.mem with tags := ts } } := hfold _ req
    exact .inr ⟨ts, by rw [hu]⟩

theorem tagMoves_leaves (s : State) : (tagMoves s).mem.ptes = s.mem.ptes ∧ (tagMoves s).mem.cells = s.mem.cells :=
  List.foldlRecOn (motive := fun t : State => t.mem.ptes = s.mem.ptes ∧ t.mem.cells = s.mem.cells) _ _ ⟨rfl, rfl⟩ fun t ht m _ => by
    rcases tagMove_cases t m with h | ⟨ts, h⟩ <;> rw [h] <;> exact ht

/-- A move that is the only one of its page stays among the moves while the moves take their tags. -/
theorem mem_tagMoves {m : Move} (hm : m ∈ s.mem.moves) (honly : ∀ x ∈ s.mem.moves, x.part = m.part → x.vpn = m.vpn → x = m) :
    ∃ b, { m with tagged := b } ∈ (tagMoves s).mem.moves :=
  List.foldlRecOn (motive := fun t : State => ∃ b, { m with tagged := b } ∈ t.mem.moves) _ _ ⟨m.tagged, hm⟩ fun t ht x hx => by
    obtain ⟨b, hb⟩ := ht
    rcases tagMove_cases t x with h | ⟨ts, h⟩ <;> rw [h]
    · exact ⟨b, hb⟩
    · have hmap := List.mem_map_of_mem (f := fun y => if y.part = x.part ∧ y.vpn = x.vpn then { x with tagged := true } else y) hb
      by_cases hk : m.part = x.part ∧ m.vpn = x.vpn
      · obtain rfl := honly x (mem_sortBy.1 hx) hk.1.symm hk.2.symm
        rw [if_pos ⟨rfl, rfl⟩] at hmap
        exact ⟨true, hmap⟩
      · rw [if_neg hk] at hmap
        exact ⟨b, hmap⟩

/-- A move begun (R247): MIG is set, and the move stands among the moves. -/
theorem startMove_effects {q : Tier} {f : Nat} {who : MoveFor} {code : Option Nat} (hnone : findMove s p v = none) :
    EntryBecomes s (startMove s p v q f who code) p v { pteOf s p v with mig := true } ∧
      (startMove s p v q f who code).mem.cells = s.mem.cells ∧
      ∃ b, ⟨p, v, q, f, who, code, false, b, none⟩ ∈ (startMove s p v q f who code).mem.moves := by
  have hother (x : Move) (hx : x ∈ s.mem.moves) : ¬ (x.part = p ∧ x.vpn = v) := by
    simpa using List.find?_eq_none.1 hnone x hx
  unfold startMove
  extract_lets e' base
  have hleaves := tagMoves_leaves { base with mem := { base.mem with moves := base.mem.moves ++ [⟨p, v, q, f, who, code, false, false, none⟩] } }
  refine ⟨(entryBecomes_setPte s p v _).congr hleaves.1, hleaves.2, mem_tagMoves (m := ⟨p, v, q, f, who, code, false, false, none⟩) ?_ ?_⟩
  · exact List.mem_append_right _ List.mem_cons_self
  · intro x hx hpart hvpn
    rcases List.mem_append.1 hx with hx | hx
    · exact absurd ⟨hpart, hvpn⟩ (hother x hx)
    · exact List.mem_singleton.1 hx

/-- A page of MIGRATE that attaches no code block, and has a target to be had, starts its move. -/
theorem tmPage_migrate {f : Nat} (h : r.op = 4) (hz : r.zc = false) (hmig : (pteOf s p (nextVpn r)).mig = false)
    (hnone : findMove s p (nextVpn r) = none) (hhome : (pteOf s p (nextVpn r)).home ≠ tierOf r.tier)
    (hsh : (pteOf s p (nextVpn r)).shared = false) (hdv : (pteOf s p (nextVpn r)).dv = false) (hsv : (pteOf s p (nextVpn r)).sv = false)
    (hst : pgState s (hoistPage p) ≠ 0)
    (ht : moveTarget s p (pteOf s p (nextVpn r)) (tierOf r.tier) (hoistPage p) = some (f, u)) :
    tmPage s p r = setTm (startMove u p (nextVpn r) (tierOf r.tier) f .migrate none) p { r with next := r.next + 1 } := by
  have hbegin : beginMove s p (nextVpn r) (tierOf r.tier) .migrate none =
      some (false, startMove u p (nextVpn r) (tierOf r.tier) f .migrate none) := by
    simp [beginMove, movePage, hmig, hnone, hhome, hsh, hdv, hsv, hst, ht]
  have hmove : tmMove s p (nextVpn r) r none = setTm (startMove u p (nextVpn r) (tierOf r.tier) f .migrate none) p { r with next := r.next + 1 } := by
    simp [tmMove, hbegin]
  rw [← hmove]
  unfold tmPage
  cases hf : freeCode s p <;> simp [h, hz, nextVpn]

end

/-- Settles O27: the entry that each operation writes (`entryBecomes_setPte`, `unmapPage_effects`, `entryBecomes_writeBack`,
`startMove_effects`), and the page counted (`tmOf_tmAdvance`). -/
theorem tierMapPages : Obligations.TierMapPages := by
  intro s p r hr hc hn hs v t others step
  have ht : t = tmPage s p r := applyAct_tmPages_one hr hc hn hs
  have hdone {u : State} {e : Pte} (hu : tmPage s p r = tmAdvance u p r) (h : EntryBecomes s u p v e) :
      pteOf t p v = e ∧ others ∧ step ∧ t.mem.cells = u.mem.cells := by
    have htu : t = tmAdvance u p r := ht.trans hu
    have hb : EntryBecomes s t p v e := htu ▸ entryBecomes_tmAdvance h
    exact ⟨hb.entry, hb.others, (congrArg (tmOf · p) htu).trans (tmOf_tmAdvance u p r), congrArg (·.mem.cells) htu⟩
  refine ⟨fun hop => ?protect, fun hop => ?unmap, fun hop => ?mapSeam,
    fun hop htier hz f hf => ?mapNew, fun hop hp hread hk => ?writeback,
    fun hop hz hmig hnone hhome hsh hdv hsv hst hfree f u hu => ?migrate⟩
  case protect =>
    obtain ⟨hentry, hrest⟩ := hdone (tmPage_protect hop) (entryBecomes_setPte s p v _)
    exact ⟨hentry, hrest⟩
  case unmap =>
    obtain ⟨⟨e, hev, he⟩, hcells⟩ := unmapPage_effects s p v
    obtain ⟨hentry, hothers, hstep, htcells⟩ := hdone (tmPage_unmap hop) he
    exact ⟨(congrArg Pte.v hentry).trans hev, hothers, hstep, htcells.trans hcells⟩
  case mapSeam =>
    obtain ⟨hentry, hrest⟩ := hdone (tmPage_mapSeam hop) (entryBecomes_setPte s p v (seamEntry s p r))
    exact ⟨congrArg Pte.v hentry, congrArg Pte.home hentry, congrArg Pte.w hentry, congrArg Pte.sLpn hentry, hrest⟩
  case mapNew =>
    have hfresh : (galleryFresh s p f).mem.ptes = s.mem.ptes := ptes_of_entriesOf (entriesOf_zeroPage _ _ _ _)
    obtain ⟨hentry, hothers, hstep, htcells⟩ :=
      hdone (tmPage_mapNew hop htier hz hf) ((entryBecomes_setPte (galleryFresh s p f) p v (galleryEntry s p r f)).after hfresh)
    have hzero (o : Nat) (ho : o < pageBytes) : readByte t p (v * pageBytes + o) = 0 :=
      readByte_fresh hentry htcells (Nat.mod_lt _ (by decide)) ho
    exact ⟨congrArg Pte.v hentry, congrArg Pte.home hentry, congrArg Pte.gFrame hentry, congrArg Pte.w hentry, congrArg Pte.kv hentry,
      hothers, hstep, hzero⟩
  case writeback =>
    obtain ⟨hentry, hothers, hstep, -⟩ := hdone (tmPage_writeback hop hp hread hk) (entryBecomes_writeBack s p v (r.arg + r.next))
    exact ⟨congrArg Pte.sv hentry, congrArg Pte.sLpn hentry, by rw [hentry], hothers, hstep⟩
  case migrate =>
    obtain ⟨hptes, hcells, hmoves⟩ := moveTarget_leaves hu hfree
    have hnone' : findMove u p v = none := (congrArg (List.find? _) hmoves).trans hnone
    obtain ⟨hentry, hscells, b, hmove⟩ := startMove_effects (q := tierOf r.tier) (f := f) (who := .migrate) (code := none) hnone'
    have htm := ht.trans (tmPage_migrate hop hz hmig hnone hhome hsh hdv hsv hst hu)
    have hb := (hentry.after hptes).congr (u := t) (by rw [htm]; rfl)
    refine ⟨by rw [hb.entry, pteOf_congr hptes], ⟨_, by rw [htm]; exact hmove, rfl, rfl, rfl, rfl, rfl, rfl, rfl⟩, hb.others, ?_, ?_⟩
    · rw [htm]
      exact tmOf_setTm _ _ _
    · rw [htm]
      exact hscells.trans hcells

end Sys2Proof.Machine
end

section
/-! PROOFS. The KV cache (R269, R283, R284, R287, R294, R306, R307): the rules of its records and sequence tables, one entry of FORK and of FREE,
and what reclaim, KV_QUERY, the completion, a pool put into service and a late delta leave. -/

namespace Sys2Proof.Machine

section
variable (s : State) (p pool k : Nat)

/-! ### Records, sequence tables and runs -/

@[simp] theorem kvRec_setRec_same (x : KvRec) : kvRec (setRec s p pool k x) p pool k = x := smGet_smSet_same _ _ _ _

theorem kvRec_setRec_ne {q j n : Nat} (x : KvRec) (h : recKey q j n ≠ recKey p pool k) : kvRec (setRec s p pool k x) q j n = kvRec s q j n :=
  smGet_smSet_ne _ _ _ _ h.symm

@[simp] theorem kvRec_setSeqEntry (key e : Nat) : kvRec (setSeqEntry s key e) p pool k = kvRec s p pool k := rfl
@[simp] theorem kvRec_setKvRun (q : Nat) (r : KvRun) : kvRec (setKvRun s q r) p pool k = kvRec s p pool k := rfl

@[simp] theorem seqEntry_setSeqEntry_same (seq l h b e : Nat) :
    seqEntry (setSeqEntry s (seqKey p pool seq l h b) e) p pool seq l h b = e := smGet_smSet_same _ _ _ _

@[simp] theorem kvRunOf_setKvRun (r : KvRun) : kvRunOf (setKvRun s p r) p = some r := smFind_smPut_same _ _ _
@[simp] theorem kvRunOf_setRec (q : Nat) (x : KvRec) : kvRunOf (setRec s p pool k x) q = kvRunOf s q := rfl
@[simp] theorem kvRunOf_setSeqEntry (key e : Nat) : kvRunOf (setSeqEntry s key e) p = kvRunOf s p := rfl
@[simp] theorem kvRunOf_lowerRef (q : Nat) : kvRunOf (lowerRef s p pool k) q = kvRunOf s q := rfl

/-- A reference given up; the last one leaves an orphan (R283). -/
theorem kvRec_lowerRef : kvRec (lowerRef s p pool k) p pool k =
    { kvRec s p pool k with ref := (kvRec s p pool k).ref - 1, st := if (kvRec s p pool k).ref ≤ 1 then 2 else (kvRec s p pool k).st } :=
  kvRec_setRec_same _ _ _ _ _

/-! ### Reclaim (R287) -/

theorem kvReclaim_orphan (hst : (kvRec s p pool k).st = 2) (href : (kvRec s p pool k).ref = 0) (hpin : (kvRec s p pool k).pin = 0) :
    kvReclaim s p pool k = freeSlot s p pool k := if_pos ⟨hst, href, hpin⟩

theorem kvReclaim_other (h : ¬ ((kvRec s p pool k).st = 2 ∧ (kvRec s p pool k).ref = 0 ∧ (kvRec s p pool k).pin = 0)) :
    kvReclaim s p pool k = s := if_neg h

theorem kvRec_freeSlot : kvRec (freeSlot s p pool k) p pool k = { noRec with gen := ((kvRec s p pool k).gen + 1) % 2 ^ 16 } :=
  kvRec_setRec_same _ _ _ _ _

end

/-! ### One entry of FORK and of FREE (R283, R284) -/

section
variable (s : State) (p : Nat) (r : KvRun) (l h b : Nat)

/-- The operation with one more entry gone through. -/
def advanced (r : KvRun) : KvRun := { r with next := r.next + 1 }

/-- The source's entry at a layer, a head and a block. -/
def sourceEntry : Nat := seqEntry s p r.pool r.src l h b

/-- The record of the page that the source's entry names. -/
def sourceRec : KvRec := kvRec s p r.pool (entKpn (sourceEntry s p r l h b))

/-- FORK at one entry: the destination shares the source's page. -/
def forkEntry : State :=
  if entIsEmpty (sourceEntry s p r l h b) then setKvRun s p (advanced r)
  else setSeqEntry (setRec (setKvRun s p (advanced r)) p r.pool (entKpn (sourceEntry s p r l h b))
    { sourceRec s p r l h b with ref := (sourceRec s p r l h b).ref + 1 }) (seqKey p r.pool r.dst l h b) (sourceEntry s p r l h b)

/-- FREE at one entry: the source gives up its page. -/
def freeEntry : State :=
  if entIsEmpty (sourceEntry s p r l h b) then setKvRun s p (advanced r)
  else setSeqEntry (lowerRef (setKvRun s p (advanced r)) p r.pool (entKpn (sourceEntry s p r l h b))) (seqKey p r.pool r.src l h b) kvEmpty

theorem kvOpEntry_fork (hop : r.op = 1) :
    let nb := r.blocks
    kvOpEntry s p r =
      forkEntry s p r (r.next / nb / (poolCfg s p r.pool).heads) (r.next / nb % (poolCfg s p r.pool).heads) (r.next % nb) := by
  unfold kvOpEntry
  simp only [if_pos hop]
  rfl

theorem kvOpEntry_free (hop : r.op = 2) :
    let nb := (poolCfg s p r.pool).bmax
    kvOpEntry s p r =
      freeEntry s p r (r.next / nb / (poolCfg s p r.pool).heads) (r.next / nb % (poolCfg s p r.pool).heads) (r.next % nb) := by
  have hne : ¬ r.op = 1 := by omega
  unfold kvOpEntry
  simp only [if_neg hne]
  rfl

variable {s p r}

/-- The row of an operation under way, for one entry. -/
theorem kvOpRow_one {op : Nat} (hr : kvRunOf s p = some r) (hop : r.op = op) (hc : r.checked = true) (hst : r.status = .ok)
    (hn : r.next < kvOpTotal s p r) (hi : inReset s p = false) : kvOpRow op p 1 s = .next (kvOpEntry s p r) := by
  simp [kvOpRow, kvOpSteps, hr, hop, hc, hst, hn, hi]

variable (s p r) {l h b}

theorem forkEntry_of_empty (he : entIsEmpty (sourceEntry s p r l h b) = true) : forkEntry s p r l h b = setKvRun s p (advanced r) :=
  if_pos he

theorem freeEntry_of_empty (he : entIsEmpty (sourceEntry s p r l h b) = true) : freeEntry s p r l h b = setKvRun s p (advanced r) :=
  if_pos he

theorem kvRunOf_forkEntry : kvRunOf (forkEntry s p r l h b) p = some (advanced r) := by
  unfold forkEntry
  split <;> simp

theorem kvRunOf_freeEntry : kvRunOf (freeEntry s p r l h b) p = some (advanced r) := by
  unfold freeEntry
  split <;> simp

theorem forkEntry_frame : forkEntry s p r l h b = { s with kv := (forkEntry s p r l h b).kv } := by
  unfold forkEntry
  split <;> rfl

theorem freeEntry_frame : freeEntry s p r l h b = { s with kv := (freeEntry s p r l h b).kv } := by
  unfold freeEntry
  split <;> rfl

/-- The destination's entry names the source's page, which has one more reference (R283). -/
theorem forkEntry_shares (he : entIsEmpty (sourceEntry s p r l h b) = false) :
    seqEntry (forkEntry s p r l h b) p r.pool r.dst l h b = sourceEntry s p r l h b ∧
      kvRec (forkEntry s p r l h b) p r.pool (entKpn (sourceEntry s p r l h b)) =
        { sourceRec s p r l h b with ref := (sourceRec s p r l h b).ref + 1 } := by
  rw [forkEntry, if_neg (Bool.eq_false_iff.1 he)]
  simp

/-- The source's entry is empty, and its page has one reference less; at its last it is an orphan (R283). -/
theorem freeEntry_gives_up (he : entIsEmpty (sourceEntry s p r l h b) = false) :
    seqEntry (freeEntry s p r l h b) p r.pool r.src l h b = kvEmpty ∧
      (kvRec (freeEntry s p r l h b) p r.pool (entKpn (sourceEntry s p r l h b))).ref = (sourceRec s p r l h b).ref - 1 ∧
      ((sourceRec s p r l h b).ref ≤ 1 → (kvRec (freeEntry s p r l h b) p r.pool (entKpn (sourceEntry s p r l h b))).st = 2) := by
  rw [freeEntry, if_neg (Bool.eq_false_iff.1 he), kvRec_setSeqEntry, kvRec_lowerRef, kvRec_setKvRun]
  exact ⟨seqEntry_setSeqEntry_same _ _ _ _ _ _ _ _, rfl, fun hle => if_pos hle⟩

end

/-! ### KV_QUERY (R307) -/

section
variable (s : State) (p : Nat) (r : KvRun)

/-- The entry that a KV_QUERY reads. -/
def queryEntry : Nat := seqEntry s p r.pool r.src r.layer r.head r.blocks

/-- The page record that a KV_QUERY shows. -/
def queryRec : KvRec := if entIsEmpty (queryEntry s p r) then noRec else kvRec s p r.pool (entKpn (queryEntry s p r))

/-- The entry and its record in KV_Q0 to KV_Q2. -/
def kvShown : State :=
  setReg (setReg (setReg s (partPage p) 0x514 (BitVec.ofNat 32 (entKpn (queryEntry s p r))))
    (partPage p) 0x518 (BitVec.ofNat 32 ((queryRec s p r).pin * 65536 + (queryRec s p r).ref)))
    (partPage p) 0x51C (BitVec.ofNat 32 ((queryRec s p r).st * 2 ^ 24 + (queryRec s p r).fill * 65536 + (queryRec s p r).gen))

theorem regVal_kvShown_q0 : regVal (kvShown s p r) (partPage p) 0x514 = BitVec.ofNat 32 (entKpn (queryEntry s p r)) := by
  rw [kvShown, regVal_setReg_off _ _ _ (by decide), regVal_setReg_off _ _ _ (by decide), regVal_setReg_same]

theorem regVal_kvShown_q1 :
    regVal (kvShown s p r) (partPage p) 0x518 = BitVec.ofNat 32 ((queryRec s p r).pin * 65536 + (queryRec s p r).ref) := by
  rw [kvShown, regVal_setReg_off _ _ _ (by decide), regVal_setReg_same]

theorem regsBut_kvShown :
    RegsBut [regKey (partPage p) 0x514, regKey (partPage p) 0x518, regKey (partPage p) 0x51C] s (kvShown s p r) :=
  regsBut_setReg (regsBut_setReg (regsBut_setReg (regsBut_refl _ s) (.head _) _) (.tail _ (.head _)) _) (.tail _ (.tail _ (.head _))) _

theorem kvShown_kv : (kvShown s p r).kv = s.kv := by
  rw [kvShown, setReg_kv, setReg_kv, setReg_kv]

theorem kvRunOf_kvShown (q : Nat) : kvRunOf (kvShown s p r) q = kvRunOf s q := by
  rw [kvRunOf, kvShown_kv, kvRunOf]

theorem kvShown_frame : kvShown s p r = { s with regs := (kvShown s p r).regs } := rfl

theorem queryEntry_setKvRun (x : KvRun) : queryEntry (setKvRun s p x) p r = queryEntry s p r := rfl

theorem queryRec_setKvRun (x : KvRun) : queryRec (setKvRun s p x) p r = queryRec s p r := rfl

theorem queryRec_of_entry (he : entIsEmpty (queryEntry s p r) = false) :
    queryRec s p r = kvRec s p r.pool (entKpn (queryEntry s p r)) := if_neg (Bool.eq_false_iff.1 he)

variable {s r}

theorem exec_kvQuery {p : Part} (hr : kvRunOf s p = some r) (hop : r.op = 3) (hc : r.checked = false) (hok : kvOpCheck s p r = .ok) :
    exec (.kvQuery p) s = .next (kvShown (setKvRun s p { r with checked := true, status := .ok }) p r) := by
  simp only [exec, execKvQuery, hr, hop, hc, hok]
  rfl

/-! ### The completion (R284) -/

/-- An operation gone, its status in KV_STAT and its owner told. -/
def kvEnded (s : State) (p : Nat) (st : Status) : State :=
  irq (setReg { s with kv := { s.kv with runs := smDel s.kv.runs p } } (partPage p) 0x510 (BitVec.ofNat 32 (statusCode st))) p 3
    (.service (partPage p))

theorem exec_kvOpComplete {p : Part} {st : Status} (hr : kvRunOf s p = some r) (hf : kvOpFinal s p r = some st) :
    exec (.kvOpComplete p) s = .next (kvEnded s p st) := by
  simp only [exec, execKvOpComplete, hr, hf]
  rfl

end

/-! ### A pool put into service (R269, R306) -/

section
variable (s : State) (p : Nat)

/-- The offset of a pool's KV_PCFG. -/
theorem kvReg_config (i : Nat) : kvReg p i 0 = 0x480 + 0x20 * i := by simp [kvReg]

theorem poolRegOf_config (i : Fin 4) : poolRegOf (0x480 + 0x20 * i.val) = some (i.val, 0) := by
  revert i
  decide

/-- In the range of the pool registers a partition's page does what the KV cache does, and nothing else. -/
theorem blockAct_pool {off : Nat} (h1 : 0x480 ≤ off) (h2 : off < 0x500) (v old : Word) :
    blockAct s (partPage p) off v old = kvAct s (partPage p) off v old := by
  have htier (t : State) : tierAct t (partPage p) off v = t := if_neg fun h => by omega
  have hsensor (t : State) : sensorAct t (partPage p) off v old = t := if_neg fun h => by omega
  have hdebug (t : State) : debugAct t (partPage p) off v old = t := if_neg fun h => by omega
  have hpower (t : State) : pwAct t (partPage p) off v old = t := if_neg fun h => by omega
  have hct : ctReg off = none := if_neg fun h => by omega
  have hcount (t : State) : countAct t (partPage p) off v old = t := by
    simp only [countAct, partPage, hct]
    exact if_neg fun h => by omega
  exact (hcount _).trans ((hpower _).trans ((hdebug _).trans ((hsensor _).trans (congrArg (kvAct · _ _ _ _) (htier s)))))

/-- The row of KV_PCFG (R305). -/
def pcfgRow : RegRow := { name := "KV_PCFG", first := 0x480, count := 4, stride := 0x20, rw := 0xFFFF000B }

theorem regRow_config (i : Fin 4) : regRow (partPage p) (0x480 + 0x20 * i.val) = some pcfgRow := by
  match i with
  | 0 | 1 | 2 | 3 => rfl

/-- An accepted write of KV_PCFG that sets VALID: the word is stored, and the pool's table is emptied if it was out of service. -/
theorem accept_config (i : Fin 4) {v : Word} (hv : bit v 31 = true) (hc : (poolCfg s p i).valid = false) :
    ∃ w, bit w 31 = true ∧
      accept s (partPage p) (0x480 + 0x20 * i.val) v = clearSeqTable (setReg s (partPage p) (0x480 + 0x20 * i.val) w) p i := by
  have hold : bit (regVal s (partPage p) (0x480 + 0x20 * i.val)) 31 = false := by
    rw [← kvReg_config p]
    exact hc
  refine ⟨storedBits s (partPage p) (0x480 + 0x20 * i.val) pcfgRow v, ?_, ?_⟩
  · rw [bit_storedBits_rw s (by decide) (by decide) (by decide), hv]
  · have hi := i.isLt
    have hw : inWindow (0x480 + 0x20 * i.val) = false := by
      simp only [inWindow, decide_eq_false_iff_not]
      omega
    have hnc : ¬ ((partPage p).cls = .c ∧ 0x480 + 0x20 * i.val = 0x10C) := fun h => by omega
    have h8 : 0x480 + 0x20 * i.val ≠ 0x008 := by omega
    have h18 : 0x480 + 0x20 * i.val ≠ 0x018 := by omega
    have h100 : ¬ (0x480 + 0x20 * i.val < 0x100) := by omega
    simp only [accept, h8, h18, hw, regRow_config, hnc, h100, if_false, Bool.false_eq_true]
    rw [blockAct_pool _ _ (by omega) (by omega)]
    simp only [kvAct, partPage, poolRegOf_config]
    exact if_pos ⟨hv, by simpa [partPage] using hold⟩

/-- The place of every entry of a pool lies in the pool's range (R269). -/
theorem seqKey_mem_range {pool seq l h b : Nat} (hseq : seq < 512) (hl : l < 256) (hh : h < 256) (hb : b < 2048) :
    seqKey p pool 0 0 0 0 ≤ seqKey p pool seq l h b ∧ seqKey p pool seq l h b < seqKey p (pool + 1) 0 0 0 0 := by
  simp only [seqKey, poolNo]
  omega

theorem seqEntry_clearSeqTable {pool seq l h b : Nat} (hseq : seq < 512) (hl : l < 256) (hh : h < 256) (hb : b < 2048) :
    seqEntry (clearSeqTable s p pool) p pool seq l h b = kvEmpty :=
  (smGet_smClear _ _ _ _ _).trans (if_pos (seqKey_mem_range p hseq hl hh hb))

theorem poolCfg_valid_of_regVal {i : Nat} {w : Word} (h : regVal s (partPage p) (0x480 + 0x20 * i) = w) :
    (poolCfg s p i).valid = bit w 31 := by
  rw [← h, ← kvReg_config p]
  rfl

end

/-! ### A delta without a counterpart (R294) -/

/-- A delta record dropped on both sides. -/
def deltaDropped (s : State) (d : KvDelta) : State :=
  { s with kv := { s.kv with theirs := s.kv.theirs.erase d, mine := s.kv.mine.erase d } }

theorem exec_kvDeltaLate {s : State} {d : KvDelta}
    (h : (s.kv.theirs ++ s.kv.mine).find? (fun d => decide (now s ≥ d.seen + 2000)) = some d) :
    exec .kvDeltaLate s = .next (ctrAdd (deltaDropped s d) (kvHeadPage d.head) 11 1) := by
  simp only [exec, execKvDeltaLate, h]
  rfl

theorem deltaCounted_frame (s : State) (d : KvDelta) (p : Page) (slot n : Nat) :
    ctrAdd (deltaDropped s d) p slot n =
      { withBlock (ctrAdd (deltaDropped s d) p slot n) s with kv := (deltaDropped s d).kv } :=
  onlyBlock_ctrAdd (deltaDropped s d) p slot n

/-- Settles O30: reclaim by its two cases; FORK and FREE by `kvOpEntry_fork` and `kvOpEntry_free`, and what one entry leaves
(`forkEntry_shares`, `freeEntry_gives_up`); a pool put into service by `accept_config`; KV_QUERY, the completion and a late delta by their
own equations. -/
theorem kvEffects : Obligations.KvEffects := by
  refine ⟨fun s p i k => rfl, ?reclaim, ?fork, ?free, ?query, ?complete, ?pool, ?late⟩
  case reclaim =>
    intro s p i k
    refine ⟨fun hst href hpin => ?_, fun h => kvReclaim_other s p i k h⟩
    have ht : applyAct s (.kvReclaim p i k) = freeSlot s p i k := kvReclaim_orphan s p i k hst href hpin
    rw [ht, kvRec_freeSlot]
    exact ⟨rfl, rfl, fun q j n hne => kvRec_setRec_ne s p i k _ hne, rfl⟩
  case fork =>
    intro s p r hr hop hc hst hn hi nb l h e
    refine ⟨forkEntry s p r l h (r.next % nb), (kvOpRow_one hr hop hc hst hn hi).trans (congrArg Host.Outcome.next (kvOpEntry_fork s p r hop)),
      kvRunOf_forkEntry s p r, forkEntry_shares s p r, fun he => ?_, forkEntry_frame s p r⟩
    rw [forkEntry_of_empty s p r he]
    exact ⟨rfl, rfl⟩
  case free =>
    intro s p r hr hop hc hst hn hi nb l h e
    refine ⟨freeEntry s p r l h (r.next % nb), (kvOpRow_one hr hop hc hst hn hi).trans (congrArg Host.Outcome.next (kvOpEntry_free s p r hop)),
      kvRunOf_freeEntry s p r, freeEntry_gives_up s p r, fun he => ?_, freeEntry_frame s p r⟩
    rw [freeEntry_of_empty s p r he]
    exact ⟨rfl, rfl⟩
  case query =>
    intro s p r hr hop hc hok e
    refine ⟨_, exec_kvQuery hr hop hc hok, ?_, fun he => ?_, ?_, ?_, ?_⟩
    · rw [regVal_kvShown_q0, queryEntry_setKvRun]
      rfl
    · rw [regVal_kvShown_q1, queryRec_setKvRun, queryRec_of_entry s p r he]
      rfl
    · exact regsBut_trans (regsBut_congr (regsBut_refl _ s) rfl) (regsBut_kvShown _ _ _)
    · rw [kvRunOf_kvShown, kvRunOf_setKvRun]
    · rw [kvShown_frame]
      rfl
  case complete =>
    intro s p r st hr hf
    exact ⟨_, exec_kvOpComplete hr hf, smFind_smDel_same _ _, regVal_setReg_same _ _ _ _, rfl,
      regsBut_setReg (regsBut_congr (regsBut_refl _ s) rfl) (.head _) _, rfl⟩
  case pool =>
    intro s r p i v ha hv hc
    obtain ⟨w, hw, hacc⟩ := accept_config s p i hv hc
    refine ⟨_, congrArg Host.Outcome.next ((regWrite_accept ha).trans (congrArg (answer · .ok 0) hacc)), ?_, ?_, ?_, rfl⟩
    · exact (poolCfg_valid_of_regVal _ _ (regVal_setReg_same s _ _ w)).trans hw
    · exact fun seq l h b hseq hl hh hb => seqEntry_clearSeqTable _ _ hseq hl hh hb
    · exact regsBut_setReg (regsBut_refl _ s) (.head _) w
  case late =>
    intro s d hd
    refine ⟨_, exec_kvDeltaLate hd, counted_ctrAdd rfl _ 11 (by decide), ?_, ?_, ?_, ?_⟩
    · rw [ctrAdd_kv]
      rfl
    · rw [ctrAdd_kv]
      rfl
    · exact regsBut_ctrAdd (regsBut_congr (u := deltaDropped s d) (regsBut_refl _ s) rfl) 11 1
    · rw [ctrAdd_kv]
      exact deltaCounted_frame s d _ 11 1

end Sys2Proof.Machine
end

section
/-! PROOFS. What a sensor's write through its owner's range sees (R213, R319): not the counters, nor the sensors' own state. -/

namespace Sys2Proof.Machine

/-- A state without its counters and its sensors. -/
def bare (s : State) : State := { s with ctrs := [], cnt := { s.cnt with wraps := [] }, sens := ⟨[], [], [], []⟩ }

/-- An operation that reads neither the counters nor the sensors. -/
def Blind (f : State → State) : Prop := ∀ s, bare (f (bare s)) = bare (f s)

section
variable {f g : State → State} {s t : State}

theorem Blind.congr (hf : Blind f) (h : bare s = bare t) : bare (f s) = bare (f t) := by rw [← hf s, h, hf t]

theorem Blind.comp (hg : Blind g) (hf : Blind f) : Blind fun s => g (f s) := fun s => hg.congr (hf s)

theorem Blind.foldl {α : Type} {f : State → α → State} (hf : ∀ x, Blind (f · x)) (xs : List α) : Blind (xs.foldl f) := by
  induction xs with
  | nil => exact fun _ => rfl
  | cons x xs ih => exact ih.comp (hf x)

theorem mem_of_bare (h : bare s = bare t) : s.mem = t.mem := (congrArg State.mem h : (bare s).mem = (bare t).mem)

end

theorem bare_ctrAdd (s : State) (p : Page) (slot n : Nat) : bare (ctrAdd s p slot n) = bare s := by
  unfold ctrAdd
  dsimp only
  split_ifs <;> rfl

/-! ### Pages programmed -/

theorem programUnit_bare (s : State) (ch : Nat) :
    (programUnit (bare s) ch).1 = (programUnit s ch).1 ∧ bare (programUnit (bare s) ch).2 = bare (programUnit s ch).2 := by
  have ho : openBlock (bare s) ch = openBlock s ch := rfl
  have hp : takenPlaces (bare s) ch = takenPlaces s ch := rfl
  have hf : freeAt (bare s) 0 = freeAt s 0 := rfl
  have hw : wearOf (bare s) = wearOf s := rfl
  unfold programUnit
  dsimp only
  rw [ho, hp, hf, hw, bare_ctrAdd, bare_ctrAdd]
  split
  · exact ⟨rfl, rfl⟩
  · split <;> exact ⟨rfl, rfl⟩

/-- Two runs of units programmed so far that differ in counters and sensors alone. -/
def SameUnits (a b : List Nat × State) : Prop := a.1 = b.1 ∧ bare a.2 = bare b.2

theorem SameUnits.program {a b : List Nat × State} (h : SameUnits a b) (ch : Nat) :
    SameUnits (a.1 ++ [(programUnit a.2 ch).1], (programUnit a.2 ch).2) (b.1 ++ [(programUnit b.2 ch).1], (programUnit b.2 ch).2) := by
  obtain ⟨hl, hs⟩ := h
  obtain ⟨ha, ha'⟩ := programUnit_bare a.2 ch
  obtain ⟨hb, hb'⟩ := programUnit_bare b.2 ch
  exact ⟨by rw [hl, ← ha, ← hb, hs], by rw [← ha', ← hb', hs]⟩

theorem blind_programPage (n lpn : Nat) : Blind (programPage · n lpn) := by
  intro s
  have hc : fourChannels (bare s) (lpn % 2) = fourChannels s (lpn % 2) := rfl
  have h0 : SameUnits ([], spendFree (bare s) 1) ([], spendFree s 1) := ⟨rfl, rfl⟩
  obtain ⟨hl, hs⟩ := List.foldl_rel (l := fourChannels s (lpn % 2)) (r := SameUnits) h0 fun c _ _ _ h => h.program c
  have hset (t : State) (bs : List Nat) : bare (setUnits t (unitKey n lpn) bs) = setUnits (bare t) (unitKey n lpn) bs := rfl
  unfold programPage
  dsimp only
  rw [hc, bare_ctrAdd, bare_ctrAdd, hset, hset, hl, hs]

theorem blind_freeFrame (t : Tier) (k : Nat) : Blind (freeFrame · t k) := by
  intro s
  have ht : frameTagged (bare s) t k = frameTagged s t k := rfl
  unfold freeFrame
  dsimp only
  rw [ht]
  split
  · rfl
  · cases t <;> rfl

/-! ### A write -/

theorem blind_pageWritten (n v : Nat) : Blind (pageWritten · n v) := by
  intro s
  have he : pteOf (bare s) n v = pteOf s n v := rfl
  unfold pageWritten
  dsimp only
  rw [he]
  split
  · split
    · exact (blind_freeFrame _ _).congr rfl
    · rfl
  · rfl
  · exact blind_programPage n _ s

theorem blind_writeList (n a : Nat) (bs : List Byte) : Blind (writeList · n a bs) := by
  induction bs generalizing a with
  | nil => exact fun _ => rfl
  | cons b bs ih => exact (ih (a + 1)).comp fun _ => rfl

theorem blind_setCode (n a c : Nat) : Blind (setCode · n a c) := by
  intro s
  have he : pteOf (bare s) n (vpnOf a) = pteOf s n (vpnOf a) := rfl
  unfold setCode
  dsimp only
  rw [he]
  split <;> rfl

theorem blind_writePage (n a : Nat) (bs : List Byte) : Blind (writePage · n a bs) := by
  intro s
  have he : pteOf (bare s) n (vpnOf a) = pteOf s n (vpnOf a) := rfl
  unfold writePage
  beta_reduce
  rw [he]
  split_ifs
  · rfl
  · rfl
  · exact (Blind.foldl (fun i => blind_setCode n (a - a % 64 + 64 * i) 8) _).comp ((blind_pageWritten n _).comp (blind_writeList n a bs)) s

theorem blind_writeBytes (n a : Nat) (bs : List Byte) : Blind (writeBytes · n a bs) :=
  Blind.foldl (f := fun t (x : Nat × List Byte) => writePage t n x.1 x.2) (fun x => blind_writePage n x.1 x.2) _

theorem blind_sensorWrite (n a : Nat) (bs : List Byte) : Blind (sensorWrite · n a bs) := by
  intro s
  have he : writeRange (bare s) n a bs.length true false = writeRange s n a bs.length true false := rfl
  unfold sensorWrite
  beta_reduce
  rw [he]
  split
  · exact blind_writeBytes n a bs s
  · rfl

end Sys2Proof.Machine
end

section
/-! PROOFS. The sensor front end (R310, R318 to R324, R343, R344): samples stamped ahead, the switches of lidar sources and of instant units, what
a packet of a lidar source leaves, the end of a sample, the close of an instant and its table. -/

namespace Sys2Proof.Machine

/-! ### The state of a source and of a unit -/

section
variable {s t : State}

theorem regField_congr (h : t.regs = s.regs) (p : Page) (off hi lo : Nat) : regField t p off hi lo = regField s p off hi lo := by
  rw [regField, regField, regVal_congr h]

theorem regBit_congr (h : t.regs = s.regs) (p : Page) (off n : Nat) : regBit t p off n = regBit s p off n := by
  rw [regBit, regBit, regVal_congr h]

end

section
variable (s : State) (i : Nat) (x : LidarSt) (p : Nat) (u : InstSt)

@[simp] theorem lidarSt_setLidar : lidarSt (setLidar s i x) i = x := smGet_smSet_same _ _ _ _
@[simp] theorem setLidar_regs : (setLidar s i x).regs = s.regs := rfl
@[simp] theorem setLidar_ctrs : (setLidar s i x).ctrs = s.ctrs := rfl
@[simp] theorem setLidar_tally : (setLidar s i x).tally = s.tally := rfl
@[simp] theorem setLidar_mem : (setLidar s i x).mem = s.mem := rfl

@[simp] theorem instSt_setInst : instSt (setInst s p u) p = u := smGet_smSet_same _ _ _ _
@[simp] theorem setInst_regs : (setInst s p u).regs = s.regs := rfl
@[simp] theorem setInst_lidars : (setInst s p u).sens.lidars = s.sens.lidars := rfl

@[simp] theorem lidarSt_orReg (q : Page) (off : Nat) (v : Word) : lidarSt (orReg s q off v) i = lidarSt s i := rfl
@[simp] theorem instSt_orReg (q : Page) (off : Nat) (v : Word) : instSt (orReg s q off v) p = instSt s p := rfl
@[simp] theorem lidarSt_answer (st : Status) (d : DWord) : lidarSt (answer s st d) i = lidarSt s i := rfl
@[simp] theorem instSt_answer (st : Status) (d : DWord) : instSt (answer s st d) p = instSt s p := rfl
@[simp] theorem regBit_answer (q : Page) (off n : Nat) (st : Status) (d : DWord) : regBit (answer s st d) q off n = regBit s q off n := rfl

@[simp] theorem spendBytes_regs (k : Nat) : (spendBytes s k).regs = s.regs := rfl
@[simp] theorem spendBytes_ctrs (k : Nat) : (spendBytes s k).ctrs = s.ctrs := rfl
@[simp] theorem spendBytes_tally (k : Nat) : (spendBytes s k).tally = s.tally := rfl
@[simp] theorem spendBytes_mem (k : Nat) : (spendBytes s k).mem = s.mem := rfl
@[simp] theorem lidarSt_spendBytes (k : Nat) : lidarSt (spendBytes s k) i = lidarSt s i := rfl

end

/-! ### A sample stamped ahead (R310) -/

theorem offerSample_ahead {s : State} {part : Nat} {x : Sample} (h : (x.arrival : Int) < x.tick) :
    offerSample s part x = setFlag (countSample s x.slot 3) (slotPage x.slot) 0 := if_pos h

/-- Settles O32: what `offerSample_ahead` leaves is a counter and a flag, no unit's samples. -/
theorem stampAheadDiscarded : Obligations.StampAheadDiscarded := by
  intro s part x h
  rw [offerSample_ahead h]
  refine ⟨fun p => ?_, ?_⟩
  · rw [instSt, instSt, setFlag_sens, countSample, ctrAdd_sens]
  · rw [Counted, ctrVal_congr (setFlag_ctrs _ _ _)]
    exact counted_ctrAdd rfl _ _ (by decide)

/-! ### LI_CTRL (R343) -/

section
variable (s : State) (n : Fin 8)

theorem regRow_liCtrl : regRow (ethPage n) 0x600 = some { name := "LI_CTRL", first := 0x600, rw := 0x1 } := by
  match n with
  | 0 | 1 | 2 | 3 | 4 | 5 | 6 | 7 => rfl

/-- An accepted write of LI_CTRL stores ENABLE as written, before the source starts or stops. -/
theorem accept_liCtrl (v : Word) : ∃ w, bit w 0 = bit v 0 ∧
    accept s (ethPage n) 0x600 v = sensorAct (setReg s (ethPage n) 0x600 w) (ethPage n) 0x600 v (regVal s (ethPage n) 0x600) := by
  have hx : ¬ ((ethPage n).cls = .c ∧ 0x600 = 0x10C) := fun h => by cases h.1
  refine ⟨storedBits s (ethPage n) 0x600 { name := "LI_CTRL", first := 0x600, rw := 0x1 } v,
    bit_storedBits_rw s (by decide) (by decide) (by decide), ?_⟩
  simp only [accept, regRow_liCtrl, if_neg hx]
  rfl

theorem slotRel_lidar (i : Nat) : slotRel s (16 + i) = tallyVal s (regField s (ethPage i) 0x61C 29 16) := by
  rw [slotRel, if_neg (by omega), Nat.add_sub_cancel_left]

/-- A release Tally is read past LI_CTRL. -/
theorem slotRel_setReg_liCtrl (i : Nat) (w : Word) : slotRel (setReg s (ethPage i) 0x600 w) (16 + i) = slotRel s (16 + i) := by
  rw [slotRel_lidar, slotRel_lidar, regField, regVal_setReg_off _ _ _ (by decide), tallyVal, setReg_tally, regField, tallyVal]

theorem pgState_setReg_liCtrl (w : Word) : pgState (setReg s (ethPage n) 0x600 w) (ethPage n) = pgState s (ethPage n) := by
  rw [pgState, regField, regVal_setReg_off _ _ _ (by decide), pgState, regField]

theorem regBit_orReg_one (p : Page) (off : Nat) : regBit (orReg s p off 1) p off 0 = true := by
  rw [regBit, regVal_orReg_same, bit_or]
  simp [bit]

/-- A source that stops after the sample in progress. -/
def stopsAfter (x : LidarSt) : LidarSt := { x with stop := true }

/-- A source started afresh, or stopped: after the sample in progress where its port is up, else at once. -/
def sourceSwitched (en : Bool) : State :=
  if en then setLidar s n { noLidar with rel0 := slotRel s (16 + n.val) }
  else if pgState s (ethPage n) = portUp then orReg (setLidar s n (stopsAfter (lidarSt s n))) (ethPage n) 0x600 1
  else setLidar s n noLidar

/-- Whether a source that is disabled waits for the end of its sample. -/
def stopWaits (en : Bool) : Bool := !en && pgState s (ethPage n) == portUp

section
variable {s n} (en : Bool)

theorem regBit_sourceSwitched (h : regBit s (ethPage n) 0x600 0 = en) :
    regBit (sourceSwitched s n en) (ethPage n) 0x600 0 = (en || stopWaits s n en) := by
  unfold sourceSwitched
  split_ifs with he hu
  · rw [regBit_congr (setLidar_regs _ _ _), h, he, Bool.true_or]
  · rw [regBit_orReg_one, stopWaits, hu, Bool.eq_false_iff.2 he]
    rfl
  · rw [regBit_congr (setLidar_regs _ _ _), h, stopWaits, beq_eq_false_iff_ne.2 hu, Bool.and_false, Bool.or_false]

theorem lidarSt_sourceSwitched : lidarSt (sourceSwitched s n en) n =
    if en then { noLidar with rel0 := slotRel s (16 + n.val) } else if stopWaits s n en then stopsAfter (lidarSt s n) else noLidar := by
  unfold sourceSwitched stopWaits
  cases en with
  | true => exact lidarSt_setLidar _ _ _
  | false =>
    by_cases hu : pgState s (ethPage n) = portUp
    · simp [hu]
    · simp [hu, beq_eq_false_iff_ne.2 hu]

theorem regsBut_sourceSwitched : RegsBut [regKey (ethPage n) 0x600] s (sourceSwitched s n en) := by
  unfold sourceSwitched
  split_ifs
  · exact regsBut_congr (regsBut_refl _ s) (setLidar_regs _ _ _)
  · exact regsBut_orReg_mem (regsBut_congr (regsBut_refl _ s) (setLidar_regs _ _ _)) (.head _) 1
  · exact regsBut_congr (regsBut_refl _ s) (setLidar_regs _ _ _)

theorem sourceSwitched_frame : sourceSwitched s n en =
    { withBlock (sourceSwitched s n en) s with sens := { s.sens with lidars := (sourceSwitched s n en).sens.lidars } } := by
  unfold sourceSwitched
  split_ifs <;> rfl

end

/-- The word that sets or clears ENABLE. -/
theorem bit_enable (en : Bool) : bit (if en then 1 else 0 : Word) 0 = en := by cases en <;> decide

/-- ENABLE changed: the write stores a word with the new value, and the source starts or stops. -/
theorem exec_liCtrlEnable {s : State} {r : Req} {n : Fin 8} {en : Bool} (h : Accepted s r (ethPage n) 0x600 (if en then 1 else 0))
    (ho : regBit s (ethPage n) 0x600 0 = !en) : ∃ w, bit w 0 = en ∧
      exec (.liCtrlEnable r n en) s = .next (answer (sourceSwitched (setReg s (ethPage n) 0x600 w) n en) .ok 0) := by
  obtain ⟨w, hw, ha⟩ := accept_liCtrl s n (if en then 1 else 0)
  have hb := bit_enable en
  have hne : 0x600 = 0x600 ∧ n.val < 8 ∧ bit (if en then 1 else 0 : Word) 0 ≠ bit (regVal s (ethPage n) 0x600) 0 := by
    refine ⟨rfl, n.isLt, ?_⟩
    rw [hb, show bit (regVal s (ethPage n) 0x600) 0 = !en from ho]
    cases en <;> decide
  have hact := ha.trans (if_pos hne)
  rw [hb] at hact
  exact ⟨w, hw.trans hb, congrArg Host.Outcome.next ((regWrite_accept h).trans (congrArg (answer · .ok 0) hact))⟩

end

/-! ### IR_CTRL (R344) -/

/-- At IR_CTRL a partition's page does what the instant unit does, and nothing else. -/
theorem blockAct_irCtrl (s : State) (p : Nat) (v old : Word) : blockAct s (partPage p) 0x600 v old = sensorAct s (partPage p) 0x600 v old := by
  simp [blockAct, partPage, tierAct, kvAct, poolRegOf, debugAct, pwAct, countAct, ctReg]

/-- An accepted write of IR_CTRL stores ENABLE as written, before the unit starts or is to stop. -/
theorem accept_irCtrl (s : State) (p : Nat) (v : Word) : ∃ w, bit w 0 = bit v 0 ∧
    accept s (partPage p) 0x600 v = sensorAct (setReg s (partPage p) 0x600 w) (partPage p) 0x600 v (regVal s (partPage p) 0x600) :=
  ⟨storedBits s (partPage p) 0x600 { name := "IR_CTRL", first := 0x600, rw := 0x1 } v,
    bit_storedBits_rw s (by decide) (by decide) (by decide), blockAct_irCtrl _ p v _⟩

/-- A unit that stops after its next table. -/
def stopsAfterTable (u : InstSt) : InstSt := { u with stop := true }

section
variable {s : State} {r : Req} {p : Part}

theorem exec_irCtrlWrite_on (h : Accepted s r (partPage p) 0x600 1) (ho : instEnabled s p = false) :
    ∃ w, bit w 0 = true ∧ exec (.irCtrlWrite r p true) s = .next (answer (setInst (setReg s (partPage p) 0x600 w) p noInst) .ok 0) := by
  obtain ⟨w, hw, ha⟩ := accept_irCtrl s p 1
  have hold : ¬ bit (regVal s (partPage p) 0x600) 0 = true := Bool.eq_false_iff.1 ho
  exact ⟨w, hw, congrArg Host.Outcome.next ((regWrite_accept h).trans (congrArg (answer · .ok 0) (ha.trans (if_neg hold))))⟩

theorem exec_irCtrlWrite_off (h : Accepted s r (partPage p) 0x600 0) (ho : instEnabled s p = true) :
    ∃ w, exec (.irCtrlWrite r p false) s = .next
      (answer (orReg (setInst (setReg s (partPage p) 0x600 w) p (stopsAfterTable (instSt s p))) (partPage p) 0x600 1) .ok 0) := by
  obtain ⟨w, -, ha⟩ := accept_irCtrl s p 0
  exact ⟨w, congrArg Host.Outcome.next ((regWrite_accept h).trans (congrArg (answer · .ok 0) (ha.trans (if_pos ho))))⟩

end

/-! ### What the work on a sample leaves alone -/

section
variable (n : Fin 8) (s : State)

/-- The Tallies, and the counters of good packets and of samples on a lidar source's page. -/
def sourceView : SMap Word × DWord × DWord := (s.tally, ctrVal s (ethPage n) 1, ctrVal s (ethPage n) 6)

/-- Besides these the memory and the sensors, which no message to the mate touches. -/
def mirrorView : MemSt × SensSt × SMap Word × DWord × DWord := (s.mem, s.sens, sourceView n s)

theorem ctrKey_ne_of_slot {p q : Page} {a b : Nat} (ha : a < 24) (hb : b < 24) (h : a ≠ b) : ctrKey p a ≠ ctrKey q b := fun e => by
  have hp := ctrKey_mod (p := p) ha
  rw [e, ctrKey_mod hb] at hp
  omega

theorem mirrorView_ctrAdd (p : Page) {slot : Nat} (k : Nat) (hs : slot < 24) (h1 : slot ≠ 1) (h6 : slot ≠ 6) :
    mirrorView n (ctrAdd s p slot k) = mirrorView n s := by
  simp only [mirrorView, sourceView, ctrAdd_mem, ctrAdd_sens, ctrAdd_tally, ctrVal,
    ctrs_ctrAdd_ne _ _ _ _ _ (ctrKey_ne_of_slot hs (by decide : 1 < 24) h1), ctrs_ctrAdd_ne _ _ _ _ _ (ctrKey_ne_of_slot hs (by decide : 6 < 24) h6)]

@[simp] theorem mirrorView_setFlag (p : Page) (k : Nat) : mirrorView n (setFlag s p k) = mirrorView n s := by
  simp [mirrorView, sourceView, ctrVal]

/-- A message that finds its queue full is counted in slot 16 of the link's page. -/
theorem mirrorView_queueMsg (m : Msg) : mirrorView n (queueMsg s m) = mirrorView n s := by
  have hc := mirrorView_ctrAdd n s vlPage 1 (by decide : 16 < 24) (by decide) (by decide)
  unfold queueMsg
  dsimp only
  split
  · exact (mirrorView_setFlag n _ vlPage 8).trans hc
  · rfl

theorem mirrorView_compareDigest (a b : List Byte) : mirrorView n (compareDigest s a b) = mirrorView n s := by
  have hc := mirrorView_ctrAdd n s vlPage 1 (by decide : 10 < 24) (by decide) (by decide)
  unfold compareDigest
  dsimp only
  split
  · exact hc
  · rw [mirrorView_setFlag, mirrorView_ctrAdd _ _ _ _ (by decide) (by decide) (by decide), hc]

theorem mirrorView_sendDigest (part : Nat) (bs : List Byte) : mirrorView n (sendDigest s part bs) = mirrorView n s := by
  have hq := mirrorView_queueMsg n s ⟨4, 0, part, bs⟩
  unfold sendDigest
  dsimp only
  split
  · split
    · exact (mirrorView_compareDigest n _ _ _).trans hq
    · exact hq
  · rfl

theorem sourceView_sendDigest (part : Nat) (bs : List Byte) : sourceView n (sendDigest s part bs) = sourceView n s :=
  congrArg (fun x => x.2.2) (mirrorView_sendDigest n s part bs)

theorem sendDigest_tally (part : Nat) (bs : List Byte) : (sendDigest s part bs).tally = s.tally :=
  congrArg Prod.fst (sourceView_sendDigest 0 s part bs)

theorem sendDigest_mem (part : Nat) (bs : List Byte) : (sendDigest s part bs).mem = s.mem :=
  congrArg Prod.fst (mirrorView_sendDigest 0 s part bs)

@[simp] theorem sourceView_setFlag (p : Page) (k : Nat) : sourceView n (setFlag s p k) = sourceView n s :=
  congrArg (fun x => x.2.2) (mirrorView_setFlag n s p k)

/-- A sample stamped ahead, late or bad is counted in another slot. -/
theorem sourceView_countSample (slot : Nat) {k : Nat} (hk : k = 3 ∨ k = 4 ∨ k = 9) : sourceView n (countSample s slot k) = sourceView n s := by
  obtain ⟨hs, h1, h6⟩ : slotCtr slot k < 24 ∧ slotCtr slot k ≠ 1 ∧ slotCtr slot k ≠ 6 := by
    unfold slotCtr
    split <;> omega
  exact congrArg (fun x => x.2.2) (mirrorView_ctrAdd n s (slotPage slot) 1 hs h1 h6)

@[simp] theorem sourceView_setLidar (i : Nat) (x : LidarSt) : sourceView n (setLidar s i x) = sourceView n s := rfl
@[simp] theorem sourceView_setInst (p : Nat) (x : InstSt) : sourceView n (setInst s p x) = sourceView n s := rfl

/-- An ADD is counted on a Tally page alone. -/
theorem sourceView_tallyAdd {i : Nat} (k : Nat) (hi : i < 2 ^ 14) : (sourceView n (tallyAdd s i k)).2 = (sourceView n s).2 := by
  have hp : pageOk (tallyPage i) = true := decide_eq_true (show i / 512 < 32 by omega)
  have hn : pageOk (ethPage n) = true := decide_eq_true (show n.val < 16 by omega)
  have hne (slot : Nat) (hs : slot < 24) : ctrKey (tallyPage i) 1 ≠ ctrKey (ethPage n) slot :=
    ctrKey_ne_of_page hp hn (by simp [tallyPage, ethPage]) (by decide) hs
  simp only [sourceView, tallyAdd, ctrVal, ctrs_ctrAdd_ne _ _ _ _ _ (hne 1 (by decide)), ctrs_ctrAdd_ne _ _ _ _ _ (hne 6 (by decide))]

theorem sourceView_of_offTier {s t : State} (h : offTier t = offTier s) : sourceView n t = sourceView n s := by
  have hmod (slot : Nat) (hs : slot < 24) (h2 : slot ≠ 2) : ctrKey (ethPage n) slot % 0x1000 ≠ 0x050 := by
    rw [ctrKey_mod hs]
    omega
  simp only [sourceView, ctrVal, tally_of_offTier h, ctrs_of_offTier h (hmod 1 (by decide) (by decide)),
    ctrs_of_offTier h (hmod 6 (by decide) (by decide))]

end

section
variable (s : State)

@[simp] theorem offTier_sensorWrite (part a : Nat) (bs : List Byte) : offTier (sensorWrite s part a bs) = offTier s := by
  unfold sensorWrite
  split
  · exact offTier_writeBytes s part a bs
  · rfl

theorem offTier_sensorSpoil (part a k : Nat) : offTier (sensorSpoil s part a k) = offTier s := offTier_sensorWrite s part a _

theorem offTier_spoilSlots (i : Nat) (x : LidarSt) : offTier (spoilSlots s i x) = offTier s :=
  offTier_foldl (fun _ _ => offTier_sensorSpoil _ _ _ _) _ _

/-- An offer to an instant unit changes no lidar source. -/
theorem offerSample_leaves (n : Fin 8) (part : Nat) (y : Sample) :
    (offerSample s part y).sens.lidars = s.sens.lidars ∧ sourceView n (offerSample s part y) = sourceView n s := by
  unfold offerSample
  dsimp only
  split_ifs
  · exact ⟨by rw [setFlag_sens, countSample, ctrAdd_sens], by rw [sourceView_setFlag, sourceView_countSample _ _ _ (.inl rfl)]⟩
  · exact ⟨rfl, rfl⟩
  · exact ⟨by rw [setInst_lidars, countSample, ctrAdd_sens], by rw [sourceView_setInst, sourceView_countSample _ _ _ (.inr (.inl rfl))]⟩
  · exact ⟨rfl, rfl⟩

/-- A disable takes effect in the source's registers and its state. -/
theorem sourceView_lidarStopped (n : Fin 8) (i : Nat) : sourceView n (lidarStopped s i) = sourceView n s := by
  unfold lidarStopped
  split <;> rfl

theorem lidarStopped_running {i : Nat} (h : (lidarSt s i).stop = false) : lidarStopped s i = s := if_neg (by simp [h])

end

/-! ### The end of a lidar sample (R319, R343) -/

/-- The source with its sample done and the next begun, at the next sequence numbers. -/
def sampleNext (s : State) (i : Nat) : LidarSt :=
  let x := lidarSt s i
  { x with k := x.k + 1, base := x.base.map fun b => (b + liPkts s i) % 65536, filled := [], tick := none, time := 0, bad := 0, drop := false }

/-- The Tally that a lidar source advances. -/
def sourceTally (s : State) (i : Nat) : Nat := regField s (ethPage i) 0x61C 13 0

theorem sourceTally_lt (s : State) (i : Nat) : sourceTally s i < 2 ^ 14 := Nat.mod_lt _ (Nat.two_pow_pos 14)

theorem tallyAdd_tally_congr {s t : State} (h : t.tally = s.tally) (i k : Nat) : (tallyAdd t i k).tally = (tallyAdd s i k).tally := by
  simp only [tallyAdd, tallyVal, ctrAdd_tally, h]

theorem tallyAdd_mem (s : State) (i k : Nat) : (tallyAdd s i k).mem = s.mem := ctrAdd_mem _ _ _ _

/-- A sample recorded through the owner's range, counted and told to the mate: of the Tallies the source's alone has advanced. -/
theorem sampleRecorded_leaves {s w : State} (n : Fin 8) (hw : offTier w = offTier s) {j : Nat} (hj : j < 2 ^ 14) (c : Prop) [Decidable c]
    (slot part : Nat) (bs : List Byte) :
    let u := sendDigest (if c then countSample (tallyAdd w j 1) slot 9 else tallyAdd w j 1) part bs
    u.tally = (tallyAdd s j 1).tally ∧ (sourceView n u).2 = (sourceView n s).2 := by
  intro u
  have hc : sourceView n (if c then countSample (tallyAdd w j 1) slot 9 else tallyAdd w j 1) = sourceView n (tallyAdd w j 1) := by
    split
    · exact sourceView_countSample n _ slot (.inr (.inr rfl))
    · rfl
  have hu : sourceView n u = sourceView n (tallyAdd w j 1) := (sourceView_sendDigest n _ part bs).trans hc
  refine ⟨(congrArg Prod.fst hu).trans (tallyAdd_tally_congr (tally_of_offTier hw) j 1), ?_⟩
  rw [hu, sourceView_tallyAdd n w 1 hj, sourceView_of_offTier n hw]

section
variable {s : State} {n : Fin 8} (more : Nat)

/-- A sample taken whole: the source goes on to the next, its Tally advances by one, and the sample is offered. -/
theorem lidarComplete_taken {tk : Int} (ht : (lidarSt s n).tick = some tk) (hd : (lidarSt s n).drop = false) :
    ∃ u part y, lidarComplete s n more = lidarStopped (offerSample (advanceInst (setLidar u n (sampleNext s n))) part y) n ∧
      u.tally = (tallyAdd s (sourceTally s n) 1).tally ∧ (sourceView n u).2 = (sourceView n s).2 := by
  unfold lidarComplete
  simp only [ht, hd, Bool.false_eq_true, if_false]
  refine ⟨_, _, _, rfl, sampleRecorded_leaves n ?_ (sourceTally_lt s n) _ _ _ _⟩
  exact (offTier_sensorWrite _ _ _ _).trans (offTier_spoilSlots s _ _)

/-- What a sample taken whole leaves: the Tally of its source advanced, the counters of packets and samples as they were, and a source that
no disable awaits at its next sample. -/
theorem lidarComplete_leaves (ht : (lidarSt s n).tick.isSome = true) (hd : (lidarSt s n).drop = false) :
    (lidarComplete s n more).tally = (tallyAdd s (sourceTally s n) 1).tally ∧
      (sourceView n (lidarComplete s n more)).2 = (sourceView n s).2 ∧
      ((lidarSt s n).stop = false → lidarSt (lidarComplete s n more) n = sampleNext s n) := by
  obtain ⟨tk, htk⟩ := Option.isSome_iff_exists.1 ht
  obtain ⟨u, part, y, he, hu, hv⟩ := lidarComplete_taken more htk hd
  obtain ⟨hl, ho⟩ := offerSample_leaves (advanceInst (setLidar u n (sampleNext s n))) n part y
  have hs : lidarSt (offerSample (advanceInst (setLidar u n (sampleNext s n))) part y) n = sampleNext s n :=
    (congrArg (smGet noLidar · n) hl).trans (lidarSt_setLidar _ _ _)
  have hview := (sourceView_lidarStopped (offerSample (advanceInst (setLidar u n (sampleNext s n))) part y) n n).trans ho
  rw [he]
  refine ⟨(congrArg Prod.fst hview).trans hu, (congrArg Prod.snd hview).trans hv, fun hstop => ?_⟩
  rw [lidarStopped_running _ (by rw [hs]; exact hstop), hs]

end

/-! ### A packet (R318, R319) -/

section
variable (s : State) (n : Fin 8) (bs : List Byte) (d bad : Nat)

/-- The sample in progress once a good packet has filled a slot; the first packet begins it. -/
def sampleWith : LidarSt :=
  let x := lidarSt s n
  let tick := tickOfNs s (lidarStamp s n bs)
  let y := if x.tick.isNone then { x with tick := some tick, time := tickTime s tick, drop := false } else x
  { y with bad := y.bad ||| bad, filled := nlAdd x.filled d }

/-- The sample that a first packet finds no released buffer for. -/
def sampleDropped : LidarSt := { sampleWith s n bs d bad with drop := true }

/-- A sample counted with its first packet, whose time stamp has been read. -/
def sampleCounted : State := if (lidarSt s n).tick.isNone then countSample (spendBytes s 10) (16 + n.val) 1 else s

/-- A packet and its length in their slot. -/
def packetPut : State :=
  let a := liBase s n + ((lidarSt s n).k % liBufs s n * liPkts s n + d) * 2048
  sensorWrite (sensorWrite (sampleCounted s n) (pageOwner s (ethPage n)) a bs) (pageOwner s (ethPage n)) (a + 2044) (natBytes 4 bs.length)

/-- A packet put into its slot, in the sample that it belongs to. -/
def packetTaken : State := setLidar (packetPut s n bs d) n (sampleWith s n bs d bad)

/-- The release rule of R313 for the sample in progress. -/
def sampleFree : Bool := released (slotRel s (16 + n.val)) (lidarSt s n).rel0 (lidarSt s n).k (liBufs s n)

/-- A packet of the sample in progress, or of a new one whose buffer is released: its slot is written, and where it fills the sample, the
sample is done. -/
theorem lidarPlace_put (hf : (lidarSt s n).tick = none → sampleFree s n = true) (hd : (lidarSt s n).drop = false) (hb : bad % 2 = 0) :
    lidarPlace s n bs d bad = if liPkts s n ≤ (nlAdd (lidarSt s n).filled d).length then lidarComplete (packetTaken s n bs d bad) n 0
      else packetTaken s n bs d bad := by
  unfold sampleFree at hf
  unfold lidarPlace packetTaken packetPut sampleCounted sampleWith
  by_cases ht : (lidarSt s n).tick = none
  · simp [hf ht, hb, ht]
  · obtain ⟨tk, ht⟩ := Option.ne_none_iff_exists'.1 ht
    simp [hb, hd, ht]

/-- A first packet that finds no released buffer: the sample is dropped, counted in slot 7 of the page, and flagged. -/
theorem lidarPlace_drop (ht : (lidarSt s n).tick = none) (hf : sampleFree s n = false) (hb : bad % 2 = 0)
    (hl : (nlAdd (lidarSt s n).filled d).length < liPkts s n) : lidarPlace s n bs d bad =
      setLidar (setFlag (countSample (spendBytes s 10) (16 + n.val) 2) (ethPage n) 0) n (sampleDropped s n bs d bad) := by
  have hl' : ¬ liPkts s n ≤ (nlAdd (lidarSt s n).filled d).length := Nat.not_le.2 hl
  unfold sampleFree at hf
  unfold lidarPlace sampleDropped sampleWith
  simp [hf, hb, ht, hl']

/-- The sequence number of a packet, and the first of the sample in progress, which the packet gives where none is known. -/
def packetSeq : Nat := beNat (payloadAt s bs (regField s (ethPage n) 0x60C 15 0) 2)
def sampleBase : Nat := (lidarSt s n).base.getD (packetSeq s n bs)

/-- A good packet of a source counted, and its sequence number read. -/
def packetSeen : State := setLidar (spendBytes (ctrAdd s (ethPage n) 1 1) 2) n { lidarSt s n with base := some (sampleBase s n bs) }

end

theorem payloadAt_congr {s t : State} (h : t.free = s.free) (bs : List Byte) (o k : Nat) : payloadAt t bs o k = payloadAt s bs o k := by
  simp only [payloadAt, freeBytes, freeAt, h]

section
variable {s t : State}

theorem slotRel_congr (hr : t.regs = s.regs) (ht : t.tally = s.tally) (slot : Nat) : slotRel t slot = slotRel s slot := by
  simp only [slotRel, tallyVal, regField_congr hr, ht]

theorem liPkts_congr (h : t.regs = s.regs) (i : Nat) : liPkts t i = liPkts s i := regField_congr h _ _ _ _
theorem liBufs_congr (h : t.regs = s.regs) (i : Nat) : liBufs t i = liBufs s i := regField_congr h _ _ _ _
theorem liBase_congr (h : t.regs = s.regs) (i : Nat) : liBase t i = liBase s i := congrArg (· * pageBytes) (regField_congr h _ _ _ _)
theorem pageOwner_congr (h : t.regs = s.regs) (p : Page) : pageOwner t p = pageOwner s p := regField_congr h _ _ _ _
theorem sourceTally_congr (h : t.regs = s.regs) (i : Nat) : sourceTally t i = sourceTally s i := regField_congr h _ _ _ _

end

/-- A packet for the source of a port that is up, with room for it. -/
structure ForSource (s : State) (n : Fin 8) (port : Half) (bs : List Byte) : Prop where
  up : pgState s (ethPage n) = portUp
  unlooped : isLooped s (ethPage n) = false
  enabled : regBit s (ethPage n) 0x600 0 = true
  port : port.toNat = regField s (ethPage n) 0x604 15 0
  fits : bs.length ≤ 2016
  packets : 0 < liPkts s n
  buffers : 0 < liBufs s n

section
variable {s : State} {n : Fin 8} {port : Half} {bs : List Byte} (ev : Bool)

/-- A good packet for no source of the port. -/
theorem exec_lidarPacket_stray (hu : pgState s (ethPage n) = portUp) (hl : isLooped s (ethPage n) = false)
    (h : regBit s (ethPage n) 0x600 0 = false ∨ port.toNat ≠ regField s (ethPage n) 0x604 15 0 ∨ 2016 < bs.length) :
    exec (.lidarPacket n port bs true ev) s = .next (ctrAdd s (ethPage n) 1 1) := by
  have ho : ¬ (pgState s (ethPage n) ≠ portUp ∨ isLooped s (ethPage n) = true) := by simp [hu, hl]
  have hs : !(regBit (ctrAdd s (ethPage n) 1 1) (ethPage n) 0x600 0) ∨ port.toNat ≠ regField (ctrAdd s (ethPage n) 1 1) (ethPage n) 0x604 15 0 ∨
      bs.length > 2016 ∨ liPkts (ctrAdd s (ethPage n) 1 1) n = 0 ∨ liBufs (ctrAdd s (ethPage n) 1 1) n = 0 := by
    rw [regBit_congr (ctrAdd_regs _ _ _ _), regField_congr (ctrAdd_regs _ _ _ _)]
    rcases h with h | h | h
    · exact .inl (by simp [h])
    · exact .inr (.inl h)
    · exact .inr (.inr (.inl h))
  simp only [exec, execLidarPacket, if_neg ho, if_true, if_pos hs]

/-- A good packet of the sample in progress, or of the next one to begin: slot `d` of the sample is its. -/
theorem exec_lidarPacket_current (h : ForSource s n port bs) {d : Nat} (hd : ((packetSeq s n bs : Int) - sampleBase s n bs) % 65536 = d)
    (hlt : d < 32768) (hdp : d < liPkts s n) :
    exec (.lidarPacket n port bs true ev) s = .next (lidarPlace (packetSeen s n bs) n bs d (if ev then 64 else 0)) := by
  obtain ⟨hu, hl, he, hp, hb, h0, h1⟩ := h
  have ho : ¬ (pgState s (ethPage n) ≠ portUp ∨ isLooped s (ethPage n) = true) := by simp [hu, hl]
  have hs : ¬ (!(regBit (ctrAdd s (ethPage n) 1 1) (ethPage n) 0x600 0) ∨ port.toNat ≠ regField (ctrAdd s (ethPage n) 1 1) (ethPage n) 0x604 15 0 ∨
      bs.length > 2016 ∨ liPkts (ctrAdd s (ethPage n) 1 1) n = 0 ∨ liBufs (ctrAdd s (ethPage n) 1 1) n = 0) := by
    rw [regBit_congr (ctrAdd_regs _ _ _ _), regField_congr (ctrAdd_regs _ _ _ _), liPkts_congr (ctrAdd_regs _ _ _ _),
      liBufs_congr (ctrAdd_regs _ _ _ _), he, hp]
    rintro (h | h | h | h | h)
    · cases h
    · exact h rfl
    · exact Nat.not_le.2 h hb
    · exact h0.ne' h
    · exact h1.ne' h
  have hx : lidarSt (spendBytes (ctrAdd s (ethPage n) 1 1) 2) n = lidarSt s n := by
    rw [lidarSt_spendBytes, lidarSt, ctrAdd_sens, lidarSt]
  have hpk : liPkts (spendBytes (ctrAdd s (ethPage n) 1 1) 2) n = liPkts s n := liPkts_congr (by rw [spendBytes_regs, ctrAdd_regs]) n
  unfold packetSeq sampleBase packetSeq at hd
  simp only [exec, execLidarPacket, if_neg ho, if_true, if_neg hs]
  rw [payloadAt_congr (ctrAdd_free _ _ _ _), regField_congr (ctrAdd_regs _ _ _ _), hx, hd, if_neg (by omega), hpk, if_pos (by omega),
    Int.toNat_natCast, Nat.zero_add]
  rfl

end

/-! ### What a good packet leaves -/

section
variable (s : State) (n : Fin 8) (bs : List Byte) (d bad : Nat)

theorem packetSeen_regs : (packetSeen s n bs).regs = s.regs := by rw [packetSeen, setLidar_regs, spendBytes_regs, ctrAdd_regs]
theorem packetSeen_tally : (packetSeen s n bs).tally = s.tally := by rw [packetSeen, setLidar_tally, spendBytes_tally, ctrAdd_tally]
theorem packetSeen_mem : (packetSeen s n bs).mem = s.mem := by rw [packetSeen, setLidar_mem, spendBytes_mem, ctrAdd_mem]
theorem packetSeen_ctrs : (packetSeen s n bs).ctrs = (ctrAdd s (ethPage n) 1 1).ctrs := by rw [packetSeen, setLidar_ctrs, spendBytes_ctrs]

theorem lidarSt_packetSeen : lidarSt (packetSeen s n bs) n = { lidarSt s n with base := some (sampleBase s n bs) } := lidarSt_setLidar _ _ _

theorem bare_setLidar (i : Nat) (x : LidarSt) : bare (setLidar s i x) = bare s := rfl
theorem bare_spendBytes (k : Nat) : bare (spendBytes s k) = spendBytes (bare s) k := rfl

theorem bare_packetSeen : bare (packetSeen s n bs) = bare (spendBytes s 2) := by
  rw [packetSeen, bare_setLidar, bare_spendBytes, bare_ctrAdd, bare_spendBytes]

/-- A good packet is counted in slot 1 of the page, and nowhere else. -/
theorem counted_packetSeen : Counted s (packetSeen s n bs) (ethPage n) 1 1 := by
  rw [Counted, ctrVal_congr (packetSeen_ctrs s n bs)]
  exact counted_ctrAdd rfl _ 1 (by decide)

theorem ctrVal_packetSeen {slot : Nat} (hs : slot < 24) (h : slot ≠ 1) : ctrVal (packetSeen s n bs) (ethPage n) slot = ctrVal s (ethPage n) slot := by
  rw [ctrVal_congr (packetSeen_ctrs s n bs)]
  exact ctrs_ctrAdd_ne s _ 1 1 _ (ctrKey_ne_of_slot (by decide) hs (Ne.symm h))

/-- The counters of a lidar sample stand on its source's page (R351). -/
theorem countSample_lidar (i k : Nat) : countSample s (16 + i) k = ctrAdd s (ethPage i) (k + 5) 1 := by
  have hlt : ¬ 16 + i < 16 := by omega
  rw [countSample, slotPage, slotCtr, if_neg hlt, if_neg hlt, Nat.add_sub_cancel_left]

theorem sampleWith_filled : (sampleWith s n bs d bad).filled = nlAdd (lidarSt s n).filled d := rfl

theorem sampleWith_same : (sampleWith s n bs d bad).k = (lidarSt s n).k ∧ (sampleWith s n bs d bad).base = (lidarSt s n).base ∧
    (sampleWith s n bs d bad).stop = (lidarSt s n).stop := by
  unfold sampleWith
  dsimp only
  split <;> exact ⟨rfl, rfl, rfl⟩

theorem sampleWith_tick : (sampleWith s n bs d bad).tick.isSome = true := by
  unfold sampleWith
  dsimp only
  split
  · rfl
  · next h => exact Option.isSome_iff_ne_none.2 (by simpa using h)

theorem sampleWith_drop (h : (lidarSt s n).drop = false) : (sampleWith s n bs d bad).drop = false := by
  unfold sampleWith
  dsimp only
  split
  · rfl
  · exact h

theorem sampleCounted_regs : (sampleCounted s n).regs = s.regs := by
  unfold sampleCounted
  split
  · rw [countSample, ctrAdd_regs, spendBytes_regs]
  · rfl

theorem sampleCounted_tally : (sampleCounted s n).tally = s.tally := by
  unfold sampleCounted
  split
  · rw [countSample, ctrAdd_tally, spendBytes_tally]
  · rfl

theorem bare_sampleCounted : bare (sampleCounted s n) = bare (if (lidarSt s n).tick.isNone then spendBytes s 10 else s) := by
  unfold sampleCounted
  split
  · exact bare_ctrAdd _ _ _ _
  · rfl

/-- A sample is counted in slot 6 of the page with its first packet. -/
theorem ctrVal_sampleCounted_one : ctrVal (sampleCounted s n) (ethPage n) 1 = ctrVal s (ethPage n) 1 := by
  unfold sampleCounted
  split
  · rw [countSample_lidar]
    exact ctrs_ctrAdd_ne _ _ _ _ _ (ctrKey_ne_of_slot (by decide) (by decide) (by decide))
  · rfl

theorem counted_sampleCounted (h : (lidarSt s n).tick = none) : Counted s (sampleCounted s n) (ethPage n) 6 1 := by
  rw [sampleCounted, if_pos (by simp [h]), countSample_lidar]
  exact counted_ctrAdd rfl _ 6 (by decide)

theorem offTier_packetPut : offTier (packetPut s n bs d) = offTier (sampleCounted s n) := by
  rw [packetPut, offTier_sensorWrite, offTier_sensorWrite]

end

section
variable {s : State} {n : Fin 8} {bs : List Byte} {d bad : Nat}

theorem lidarSt_packetTaken : lidarSt (packetTaken s n bs d bad) n = sampleWith s n bs d bad := lidarSt_setLidar _ _ _

theorem packetTaken_regs : (packetTaken s n bs d bad).regs = s.regs := by
  rw [packetTaken, setLidar_regs, regs_of_offTier (offTier_packetPut s n bs d), sampleCounted_regs]

theorem packetTaken_tally : (packetTaken s n bs d bad).tally = s.tally := by
  rw [packetTaken, setLidar_tally, tally_of_offTier (offTier_packetPut s n bs d), sampleCounted_tally]

theorem sourceView_packetTaken : sourceView n (packetTaken s n bs d bad) = sourceView n (sampleCounted s n) := by
  rw [packetTaken, sourceView_setLidar, sourceView_of_offTier n (offTier_packetPut s n bs d)]

/-- The bytes of a packet and its length go to the memory as the packet found it. -/
theorem packetTaken_mem {u : State} (hu : bare (sampleCounted s n) = bare u) : (packetTaken s n bs d bad).mem =
    (let a := liBase s n + ((lidarSt s n).k % liBufs s n * liPkts s n + d) * 2048
     sensorWrite (sensorWrite u (pageOwner s (ethPage n)) a bs) (pageOwner s (ethPage n)) (a + 2044) (natBytes 4 bs.length)).mem := by
  rw [packetTaken, setLidar_mem, packetPut]
  exact mem_of_bare ((blind_sensorWrite _ _ _).congr ((blind_sensorWrite _ _ _).congr hu))

/-- The packet that fills its sample. -/
theorem packetTaken_completes (hd : (lidarSt s n).drop = false) :
    let t := lidarComplete (packetTaken s n bs d bad) n 0
    t.tally = (tallyAdd s (sourceTally s n) 1).tally ∧ (sourceView n t).2 = (sourceView n (sampleCounted s n)).2 ∧
      ((lidarSt s n).stop = false → (lidarSt t n).k = (lidarSt s n).k + 1 ∧ (lidarSt t n).filled = [] ∧ (lidarSt t n).tick = none) := by
  have hx : lidarSt (packetTaken s n bs d bad) n = sampleWith s n bs d bad := lidarSt_packetTaken
  obtain ⟨hk, -, hst⟩ := sampleWith_same s n bs d bad
  obtain ⟨ht, hv, hn⟩ := lidarComplete_leaves (s := packetTaken s n bs d bad) (n := n) 0 (by rw [hx]; exact sampleWith_tick s n bs d bad)
    (by rw [hx]; exact sampleWith_drop s n bs d bad hd)
  refine ⟨?_, hv.trans (congrArg Prod.snd sourceView_packetTaken), fun hstop => ?_⟩
  · rw [ht, sourceTally_congr packetTaken_regs, tallyAdd_tally_congr packetTaken_tally]
  · rw [hn (by rw [hx, hst, hstop])]
    exact ⟨congrArg (· + 1) ((congrArg LidarSt.k hx).trans hk), rfl, rfl⟩

/-- A packet, and the sample that it begins, are counted once, whether or not it fills the sample. -/
theorem sourceView_lidarPlace (hf : (lidarSt s n).tick = none → sampleFree s n = true) (hd : (lidarSt s n).drop = false) (hb : bad % 2 = 0) :
    (sourceView n (lidarPlace s n bs d bad)).2 = (sourceView n (sampleCounted s n)).2 := by
  rw [lidarPlace_put s n bs d bad hf hd hb]
  split
  · obtain ⟨-, hv, -⟩ := packetTaken_completes (bs := bs) (d := d) (bad := bad) hd
    exact hv
  · exact congrArg Prod.snd sourceView_packetTaken

/-- The release rule reads nothing that the count of a packet changes. -/
theorem sampleFree_packetSeen : sampleFree (packetSeen s n bs) n = sampleFree s n := by
  rw [sampleFree, lidarSt_packetSeen, slotRel_congr (packetSeen_regs s n bs) (packetSeen_tally s n bs), liBufs_congr (packetSeen_regs s n bs),
    sampleFree]

/-- A good packet that begins a sample without a buffer. -/
theorem packet_drops_sample (hb : bad % 2 = 0) (ht : (lidarSt s n).tick = none) (hf : sampleFree s n = false)
    (hl : (nlAdd (lidarSt s n).filled d).length < liPkts s n) :
    let t := lidarPlace (packetSeen s n bs) n bs d bad
    (lidarSt t n).drop = true ∧ Counted s t (ethPage n) 1 1 ∧ Counted s t (ethPage n) 7 1 ∧ Flagged t (ethPage n) 0 ∧
      RegsBut [regKey (ethPage n) 0x010] s t ∧ t.mem = s.mem := by
  have hr := packetSeen_regs s n bs
  have hx := lidarSt_packetSeen s n bs
  intro t
  have he : t = setLidar (setFlag (ctrAdd (spendBytes (packetSeen s n bs) 10) (ethPage n) 7 1) (ethPage n) 0) n
      (sampleDropped (packetSeen s n bs) n bs d bad) := by
    rw [← countSample_lidar]
    exact lidarPlace_drop (packetSeen s n bs) n bs d bad (by rw [hx]; exact ht) (sampleFree_packetSeen.trans hf) hb
      (by rw [hx, liPkts_congr hr]; exact hl)
  have hregs : t.regs = (setFlag (ctrAdd (spendBytes (packetSeen s n bs) 10) (ethPage n) 7 1) (ethPage n) 0).regs := by rw [he, setLidar_regs]
  have hctrs : t.ctrs = (ctrAdd (spendBytes (packetSeen s n bs) 10) (ethPage n) 7 1).ctrs := by rw [he, setLidar_ctrs, setFlag_ctrs]
  have hk : ctrKey (ethPage n) 7 ≠ ctrKey (ethPage n) 1 := ctrKey_ne_of_slot (by decide) (by decide) (by decide)
  have h0 : RegsBut [regKey (ethPage n) 0x010] s (spendBytes (packetSeen s n bs) 10) := regsBut_congr (regsBut_refl _ s) hr
  refine ⟨?_, ?_, ?_, ?_, regsBut_congr (regsBut_setFlag (regsBut_ctrAdd h0 7 1) (.head _) 0) hregs, ?_⟩
  · rw [he, lidarSt_setLidar]
    rfl
  · rw [Counted, ctrVal_congr hctrs]
    exact (ctrs_ctrAdd_ne _ _ _ _ _ hk).trans (counted_packetSeen s n bs)
  · rw [Counted, ctrVal_congr hctrs, ctrVal_ctrAdd_same _ _ _ (by decide), ctrVal_congr (spendBytes_ctrs _ _),
      ctrVal_packetSeen s n bs (by decide) (by decide)]
  · rw [Flagged, regBit_congr hregs]
    exact flagged_setFlag _ _ _ (by decide)
  · rw [he, setLidar_mem, setFlag_mem, ctrAdd_mem, spendBytes_mem, packetSeen_mem]

/-- A good packet of a sample that has its buffer. -/
theorem packet_joins_sample (hb : bad % 2 = 0) (hf : (lidarSt s n).tick = none → sampleFree s n = true) (hd : (lidarSt s n).drop = false) :
    let t := lidarPlace (packetSeen s n bs) n bs d bad
    let x := lidarSt s n
    Counted s t (ethPage n) 1 1 ∧ (x.tick = none → Counted s t (ethPage n) 6 1) ∧
      ((nlAdd x.filled d).length < liPkts s n →
        (lidarSt t n).filled = nlAdd x.filled d ∧ (lidarSt t n).base = some (sampleBase s n bs) ∧ (lidarSt t n).tick.isSome = true ∧
          (lidarSt t n).drop = false ∧ RegsBut [] s t ∧
          t.mem = (let u := if x.tick.isNone then spendBytes (spendBytes s 2) 10 else spendBytes s 2
            let a := liBase s n + (x.k % liBufs s n * liPkts s n + d) * 2048
            sensorWrite (sensorWrite u (pageOwner s (ethPage n)) a bs) (pageOwner s (ethPage n)) (a + 2044) (natBytes 4 bs.length)).mem) ∧
      (liPkts s n ≤ (nlAdd x.filled d).length → x.stop = false →
        (lidarSt t n).k = x.k + 1 ∧ (lidarSt t n).filled = [] ∧ (lidarSt t n).tick = none ∧
          tallyVal t (sourceTally s n) = tallyVal s (sourceTally s n) + 1 ∧ ∀ i, i ≠ sourceTally s n → tallyVal t i = tallyVal s i) := by
  intro t x
  have hr := packetSeen_regs s n bs
  have hx := lidarSt_packetSeen s n bs
  have hd' : (lidarSt (packetSeen s n bs) n).drop = false := by rw [hx]; exact hd
  have hf' : (lidarSt (packetSeen s n bs) n).tick = none → sampleFree (packetSeen s n bs) n = true := by
    rw [hx, sampleFree_packetSeen]
    exact hf
  have ht : t = _ := lidarPlace_put (packetSeen s n bs) n bs d bad hf' hd' hb
  rw [liPkts_congr hr, hx] at ht
  obtain ⟨h1, h6⟩ := Prod.ext_iff.1 (sourceView_lidarPlace (bs := bs) (d := d) hf' hd' hb)
  refine ⟨?_, fun hn => ?_, fun hlt => ?_, fun hle hst => ?_⟩
  · exact h1.trans ((ctrVal_sampleCounted_one _ n).trans (counted_packetSeen s n bs))
  · rw [Counted, ← ctrVal_packetSeen s n bs (by decide : 6 < 24) (by decide)]
    exact h6.trans (counted_sampleCounted (packetSeen s n bs) n (by rw [hx]; exact hn))
  · rw [if_neg (Nat.not_le.2 hlt)] at ht
    obtain ⟨-, hbase, -⟩ := sampleWith_same (packetSeen s n bs) n bs d bad
    have hu : bare (sampleCounted (packetSeen s n bs) n) =
        bare (if x.tick.isNone then spendBytes (spendBytes s 2) 10 else spendBytes s 2) := by
      rw [bare_sampleCounted, hx]
      dsimp only
      split
      · rw [bare_spendBytes, bare_packetSeen, ← bare_spendBytes]
      · exact bare_packetSeen s n bs
    rw [ht, lidarSt_packetTaken, sampleWith_filled, hbase, packetTaken_mem hu, liBase_congr hr, liBufs_congr hr, liPkts_congr hr,
      pageOwner_congr hr, hx]
    exact ⟨rfl, rfl, sampleWith_tick _ _ _ _ _, sampleWith_drop _ _ _ _ _ hd', regsBut_congr (regsBut_refl _ s) (packetTaken_regs.trans hr), rfl⟩
  · rw [if_pos hle] at ht
    obtain ⟨htl, -, hn⟩ := packetTaken_completes (bs := bs) (d := d) (bad := bad) hd'
    rw [← ht, hx] at hn
    obtain ⟨hk, hfl, htk⟩ := hn hst
    have htv : t.tally = (tallyAdd s (sourceTally s n) 1).tally := by
      rw [ht, htl, sourceTally_congr hr, tallyAdd_tally_congr (packetSeen_tally s n bs)]
    have hv (i : Nat) : tallyVal t i = tallyVal (tallyAdd s (sourceTally s n) 1) i := congrArg (smGet 0 · i) htv
    exact ⟨hk, hfl, htk, (hv _).trans (tallyVal_tallyAdd_same s _ 1), fun i hi => (hv i).trans (tallyVal_tallyAdd_ne s 1 (Ne.symm hi))⟩

end

/-! ### The close of an instant (R320 to R322) -/

section
variable {s : State} {p : Part} {n : Nat}

/-- What the close of an instant gathers, slot by slot. -/
def closing (s : State) (p n : Nat) : State × List InstEntry × Nat :=
  (List.range 24).foldl (fun x slot => closeSlot p n slot ((instSt s p).samples.filter fun x => (offeredTo s p x).1 ≤ n) x) (s, [], 0)

/-- The slots are gone through in counters alone. -/
theorem closing_leaves (s : State) (p n : Nat) : OnlyBlock s (closing s p n).1 ∧ RegsBut [] s (closing s p n).1 := by
  refine List.foldlRecOn (motive := fun x : State × List InstEntry × Nat => OnlyBlock s x.1 ∧ RegsBut [] s x.1) _ _
    ⟨onlyBlock_refl s, regsBut_refl _ s⟩ fun x hx slot _ => ?_
  obtain ⟨ho, hr⟩ := hx
  exact ⟨onlyBlock_trans (onlyBlock_trans ho (onlyBlock_ctrAdd _ _ _ _)) (onlyBlock_ctrAdd _ _ _ _), regsBut_ctrAdd (regsBut_ctrAdd hr _ _) _ _⟩

/-- A unit with an instant's table, and the samples of later instants. -/
def unitClosed (s : State) (p n : Nat) : InstSt :=
  { instSt s p with
    samples := (instSt s p).samples.filter fun x => (offeredTo s p x).1 > n
    table := some ⟨n, (closing s p n).2.1, (closing s p n).2.2⟩ }

theorem exec_instantClose (he : instEnabled s p = true) (hn : now s = instClose s p n) :
    exec (.instantClose p) s = .next (setInst (closing s p n).1 p (unitClosed s p n)) := by
  have hd : now s = regField s (instPage p) 0x604 15 0 + 50000 * n + 12000 := hn
  have hc : ¬ (!(instEnabled s p) ∨ now s < regField s (instPage p) 0x604 15 0 + 12000 ∨
      (now s - regField s (instPage p) 0x604 15 0 - 12000) % 50000 ≠ 0) := by
    rintro (h | h | h)
    · rw [he] at h
      cases h
    · omega
    · omega
  have hq : (now s - regField s (instPage p) 0x604 15 0 - 12000) / 50000 = n := by omega
  simp only [exec, execInstantClose, if_neg hc, hq]
  rfl

/-- A unit's new state beside counters. -/
theorem setInst_frame {t : State} (h : OnlyBlock s t) (p : Nat) (u : InstSt) :
    setInst t p u = { withBlock (setInst t p u) s with sens := { s.sens with insts := (setInst t p u).sens.insts } } := by
  rw [show t = withBlock t s from h]
  rfl

end

/-! ### The table of an instant (R323, R324, R344) -/

section
variable (s : State) (p : Nat) (x : InstTable)

/-- A closed table in its slot of the ring. -/
def tableStored : State := sensorWrite s p (regField s (instPage p) 0x610 27 0 * pageBytes + x.number % 4 * 32768) (tableBytes s p x)

/-- The Tally that an instant unit advances. -/
def unitTally : Nat := regField s (instPage p) 0x614 13 0

/-- A table stored, the mate told, and IR_TALLY advanced. -/
def tableWritten : State := tallyAdd (sendDigest (tableStored s p x) p (tableDigest s p x)) (unitTally s p) 1

theorem tableWritten_tally : (tableWritten s p x).tally = (tallyAdd s (unitTally s p) 1).tally := by
  have ht : (tableStored s p x).tally = s.tally := by rw [tableStored, tally_of_offTier (offTier_sensorWrite _ _ _ _)]
  rw [tableWritten, tallyAdd_tally_congr ((sendDigest_tally _ _ _).trans ht)]

theorem tableWritten_mem : (tableWritten s p x).mem = (tableStored s p x).mem := by
  rw [tableWritten, tallyAdd_mem, sendDigest_mem]

/-- A unit with its table gone: disabled, where a disable awaited the table. -/
def unitEmptied (stop : Bool) (u : InstSt) : State :=
  if stop then clearReg (setInst s p noInst) (instPage p) 0x600 1 else setInst s p { u with table := none }

theorem unitEmptied_leaves (stop : Bool) (u : InstSt) : (instSt (unitEmptied s p stop u) p).table = none ∧
    (unitEmptied s p stop u).tally = s.tally ∧ (unitEmptied s p stop u).mem = s.mem := by
  cases stop with
  | true => exact ⟨congrArg InstSt.table (instSt_setInst s p noInst), rfl, rfl⟩
  | false => exact ⟨congrArg InstSt.table (instSt_setInst s p { u with table := none }), rfl, rfl⟩

variable {s x}

theorem exec_instantTableWrite {p : Part} (h : (instSt s p).table = some x) :
    exec (.instantTableWrite p) s = .next (unitEmptied (tableWritten s p x) p (instSt s p).stop (instSt s p)) := by
  simp only [exec, execInstantTableWrite, h]
  rfl

end

/-- Settles O34: LI_CTRL by `sourceSwitched`; a packet by `packet_drops_sample` and `packet_joins_sample`, a stray one by its count; IR_CTRL by
its accepted write; the close of an instant by `closing_leaves`; its table by what `tableWritten` leaves. -/
theorem lidarAndInstantEffects : Obligations.LidarAndInstantEffects := by
  refine ⟨?enable, ?packet, ?stray, ?unitOn, ?unitOff, ?close, ?table⟩
  case enable =>
    intro s r n en h ho waits
    obtain ⟨w, hw, he⟩ := exec_liCtrlEnable h ho
    have hbit : regBit (setReg s (ethPage n) 0x600 w) (ethPage n) 0x600 0 = en := by rw [regBit, regVal_setReg_same, hw]
    have hwaits : stopWaits (setReg s (ethPage n) 0x600 w) n en = waits := by rw [stopWaits, pgState_setReg_liCtrl]
    refine ⟨_, he, ?_, ?_, regsBut_answer.2 ?_, ?_⟩
    · rw [regBit_answer, regBit_sourceSwitched en hbit, hwaits]
    · rw [lidarSt_answer, lidarSt_sourceSwitched, hwaits, slotRel_setReg_liCtrl]
      rfl
    · exact regsBut_trans (regsBut_setReg (regsBut_refl _ s) (.head _) w) (regsBut_sourceSwitched en)
    · exact congrArg (answer · .ok 0) (sourceSwitched_frame en)
  case packet =>
    intro s n port bs ev d hu hl he hp hb h0 h1 x seq b free hd hlt hdp hdrop
    have hx : ForSource s n port bs := ⟨hu, hl, he, hp, hb, h0, h1⟩
    have hexec := exec_lidarPacket_current ev hx hd hlt hdp
    have hbad : (if ev then 64 else 0) % 2 = 0 := by cases ev <;> rfl
    exact ⟨fun ht hf hlen => ⟨_, hexec, packet_drops_sample hbad ht hf hlen⟩, fun hf => ⟨_, hexec, packet_joins_sample hbad hf hdrop⟩⟩
  case stray =>
    intro s n port bs ev hu hl h
    exact ⟨_, exec_lidarPacket_stray ev hu hl h, counted_ctrAdd rfl _ 1 (by decide), ctrsBut_ctrAdd (ctrsBut_refl _ s) (.head _) 1,
      regsBut_ctrAdd (regsBut_refl _ s) 1 1, onlyBlock_ctrAdd s _ 1 1⟩
  case unitOn =>
    intro s r p h ho
    obtain ⟨w, hw, he⟩ := exec_irCtrlWrite_on h ho
    have hregs := regsBut_setReg (regsBut_refl [regKey (partPage p) 0x600] s) (.head _) w
    refine ⟨_, he, ?_, ?_, regsBut_answer.2 (regsBut_congr hregs (setInst_regs _ _ _)), rfl⟩
    · rw [instEnabled, regBit_answer, regBit_congr (setInst_regs _ _ _), regBit, instPage, regVal_setReg_same, hw]
    · rw [instSt_answer, instSt_setInst]
  case unitOff =>
    intro s r p h ho
    obtain ⟨w, he⟩ := exec_irCtrlWrite_off h ho
    have hregs := regsBut_congr (regsBut_setReg (regsBut_refl [regKey (partPage p) 0x600] s) (.head _) w)
      (setInst_regs _ p (stopsAfterTable (instSt s p)))
    refine ⟨_, he, ?_, ?_, ?_, regsBut_answer.2 (regsBut_orReg_mem hregs (.head _) 1)⟩
    · rw [instEnabled, regBit_answer, instPage, regBit_orReg_one]
    · rw [instSt_answer, instSt_orReg, instSt_setInst]
      rfl
    · rw [instSt_answer, instSt_orReg, instSt_setInst]
      rfl
  case close =>
    intro s p n he hn
    obtain ⟨ho, hr⟩ := closing_leaves s p n
    refine ⟨_, exec_instantClose he hn, ?_, fun x hx => ?_, regsBut_congr hr (setInst_regs _ _ _), setInst_frame ho p _⟩
    · rw [instSt_setInst]
      exact ⟨_, rfl, rfl⟩
    · rw [instSt_setInst] at hx
      simpa using (List.mem_filter.1 hx).2
  case table =>
    intro s p x h
    obtain ⟨hnone, ht, hm⟩ := unitEmptied_leaves (tableWritten s p x) p (instSt s p).stop (instSt s p)
    have hv (i : Nat) := congrArg (smGet 0 · i) (ht.trans (tableWritten_tally s p x))
    refine ⟨_, exec_instantTableWrite h, hnone, ?_, fun i hi => ?_, hm.trans (tableWritten_mem s p x)⟩
    · exact (hv _).trans (tallyVal_tallyAdd_same s _ 1)
    · exact (hv i).trans (tallyVal_tallyAdd_ne s 1 (Ne.symm hi))

end Sys2Proof.Machine
end

section
/-! PROOFS. The planning sequencer (R352, R359, R362, R386): no cycle before the first publication, the enable in OFF, and the header of a cycle
whose buffer is neither of the two. -/

namespace Sys2Proof.Machine

open Sys2Proof.Tests

/-! ### Cycles and commits that change nothing (R362) -/

section
variable {s : State}

/-- A cycle start needs the state CYCLING and an active buffer. -/
theorem exec_cycleStart_idle (h : s.seq.active = none ∨ lkState s = lkWaitGrid) : exec .cycleStart s = .next s := by
  simp only [exec, execCycleStart]
  split_ifs with hc
  · rfl
  · rcases h with ha | hw
    · rw [ha]
    · exact absurd (.inl (hw ▸ by decide)) hc

theorem exec_commit_none (h : s.seq.cycle = none) : exec .commit s = .next s := by
  simp only [exec, execCommit, h]

end

/-! ### The enable in OFF (R386) -/

section
variable (s : State)

@[simp] theorem tallyAdd_seq (i n : Nat) : (tallyAdd s i n).seq = s.seq := ctrAdd_seq _ _ _ _

@[simp] theorem sensorWrite_seq (part a : Nat) (bs : List Byte) : (sensorWrite s part a bs).seq = s.seq :=
  congrArg (fun x => x.1.seq) (offTier_sensorWrite s part a bs)

@[simp] theorem sensorWrite_regs (part a : Nat) (bs : List Byte) : (sensorWrite s part a bs).regs = s.regs :=
  regs_of_offTier (offTier_sensorWrite s part a bs)

theorem lkState_congr {s t : State} (h : t.regs = s.regs) : lkState t = lkState s := regField_congr h _ _ _ _

/-- The state of the sequencer stands in LK_SEQ_STAT alone. -/
theorem lkState_setReg {off : Nat} (w : Word) (h : off ≠ 0x230) : lkState (setReg s lk off w) = lkState s := by
  rw [lkState, regField, regVal_setReg_off _ _ _ h, lkState, regField]

theorem lkState_setLkState (n : Nat) : lkState (setLkState s n) = n % 16 := by
  rw [lkState, regField, setLkState, regVal_setRegField_same, field_setField_same _ _ (by decide)]
  rfl

/-- No buffer is active and no cycle is in progress in a sequencer just enabled. -/
theorem lkEnable_seq : (lkEnable s).seq.active = none ∧ (lkEnable s).seq.cycle = none := by
  simp [lkEnable, setSeq, noSeq]

theorem lkState_lkEnable : lkState (lkEnable s) = lkWaitGrid := by
  have hregs : (lkEnable s).regs = (setReg (setLkState s lkWaitGrid) lk 0x234 0).regs := by simp [lkEnable, tallyAdd_regs, setSeq]
  rw [lkState_congr hregs, lkState_setReg _ _ (by decide), lkState_setLkState]
  rfl

/-- An accepted write of LK_CTRL stores a word, and the sequencer acts on EN. -/
theorem accept_lkCtrl (v : Word) : ∃ w, accept s lk 0x200 v = plannerAct (setReg s lk 0x200 w) lk 0x200 v := ⟨_, rfl⟩

variable {s} {r : Req}

theorem plannerAct_enable (ho : lkState s = lkOff) : plannerAct s lk 0x200 1 = lkEnable s := by
  simp [plannerAct, ho, bit]

theorem exec_lkCtrlEnable_off (h : Accepted s r lk 0x200 1) (ho : lkState s = lkOff) :
    ∃ w, exec (.lkCtrlEnable r true) s = .next (answer (lkEnable (setReg s lk 0x200 w)) .ok 0) := by
  obtain ⟨w, hw⟩ := accept_lkCtrl s 1
  have hact := hw.trans (plannerAct_enable ((lkState_setReg s w (by decide)).trans ho))
  have hwrite : regWrite s r lk 0x200 1 = answer (lkEnable (setReg s lk 0x200 w)) .ok 0 := by rw [regWrite_accept h, hact]
  exact ⟨w, congrArg Host.Outcome.next hwrite⟩

end

/-- Settles O35: `exec_cycleStart_idle` and `exec_commit_none`, and for the enable `lkEnable_seq` and `lkState_lkEnable`. -/
theorem noCycleBeforePublication : Obligations.NoCycleBeforePublication := by
  refine ⟨fun s h => exec_cycleStart_idle h, fun s h => exec_commit_none h, fun s r h ho => ?_⟩
  obtain ⟨w, he⟩ := exec_lkCtrlEnable_off h ho
  obtain ⟨hactive, hcycle⟩ := lkEnable_seq (setReg s lk 0x200 w)
  refine ⟨_, he, ?_, ?_, ?_⟩
  · rw [answer_seq, hactive]
  · rw [answer_seq, hcycle]
  · rw [lkState_congr (answer_regs _ _ _), lkState_lkEnable]

/-! ### The header of a cycle whose buffer is neither of the two (R357, R359) -/

/-- The sequencer cycling with a buffer 9 active: the page of such a buffer would stand at 0x20C + 4 · 9, which is LK_SEQ_STAT. -/
def ninthBuffer : State := planning lkCycling { seq0 with active := some 9 }

/-- The hypotheses of a cycle start hold. -/
theorem ninthBuffer_starts : lkState ninthBuffer = lkCycling ∧ lkOwned ninthBuffer = true ∧ ninthBuffer.seq.cycle = none ∧
    ninthBuffer.seq.active = some 9 ∧ lkPhase ninthBuffer ≤ now ninthBuffer ∧ (now ninthBuffer - lkPhase ninthBuffer) % 20000 = 0 := by decide

section
variable {t : State} {c : Cycle}

/-- The start puts the cycle's number 5 into LK_SEQ_STAT[31:16] before it stores the header, whose byte 14 comes from there. -/
theorem ninthBuffer_header (h : exec .cycleStart ninthBuffer = .next t) : readByte t 0 (recAddr ninthBuffer 14) = 5 := by
  cases h
  decide

/-- A header made before the start has a 0 there. -/
theorem ninthBuffer_headerBefore (h : exec .cycleStart ninthBuffer = .next t) (hc : t.seq.cycle = some c) :
    readByte (sensorWrite ninthBuffer 0 (recAddr ninthBuffer 0) (cycleHeader ninthBuffer c)) 0 (recAddr ninthBuffer 14) = 0 := by
  cases h
  cases hc
  decide

end

theorem readByte_congr {s t : State} (h : t.mem = s.mem) (n a : Nat) : readByte t n a = readByte s n a := by
  rw [readByte, readByte, pteOf_congr (congrArg MemSt.ptes h), h]

/-- Refutes O36: on `ninthBuffer` the header that CYCLE_START stores is not the one that the state before it gives. The statement ranges over
every state, also those whose active buffer is neither of the two (R357); a publication makes only buffer 0 or 1 active (R358). -/
theorem not_plannerEffects : ¬ Obligations.PlannerEffects := by
  rintro ⟨-, hstart, -⟩
  obtain ⟨hstate, howned, hnone, hactive, hphase, hgrid⟩ := ninthBuffer_starts
  obtain ⟨t, c, ht, hc, -, -, -, -, -, -, -, -, -, hmem, -⟩ := hstart _ 9 hstate howned hnone hactive hphase hgrid
  have hbyte := readByte_congr hmem 0 (recAddr ninthBuffer 14)
  rw [ninthBuffer_header ht, ninthBuffer_headerBefore ht hc] at hbyte
  exact absurd hbyte (by decide)

end Sys2Proof.Machine
end

section
/-! PROOFS. The control step and the commands of a channel (R399 to R402, R410, R415 to R417): the step's bounds, and what START, FX_STOP,
FORCE_SAFE, RESUME and CLEAR_STATE leave. -/

namespace Sys2Proof.Machine

/-! ### The control step (R399 to R401) -/

theorem clampInt_within {lo hi : Int} (h : lo ≤ hi) (x : Int) : lo ≤ clampInt lo hi x ∧ clampInt lo hi x ≤ hi := by
  unfold clampInt
  omega

section
variable (c : FxCfg) (g : Nat → Int) (r y i e m : Int)

/-- The output is a sum cut to the output's bounds. -/
theorem fxStep_u : ∃ u0, (fxStep c g r y i e m).u = if u0 < c.outMin then c.outMin else if c.outMax < u0 then c.outMax else u0 := ⟨_, rfl⟩

/-- The integral is held, or a sum that the integral's bounds cut. -/
theorem fxStep_i : ∃ (hold : Bool) (i1 : Int), (fxStep c g r y i e m).i =
    if hold then i else if i1 < c.iMin ∨ c.iMax < i1 then clampInt c.iMin c.iMax i1 else i1 := ⟨_, _, rfl⟩

/-- A word of M changes only where the channel learns, and then to a sum cut to the limit. -/
theorem fxStep_m : ∃ n, (fxStep c g r y i e m).m = if decide (0 < c.rcLen) && c.learn then clampInt (-c.rcLim) c.rcLim n else m := ⟨_, rfl⟩

end

/-- Settles O39: each result of the step is a sum cut to its bounds, or what was stored (`fxStep_u`, `fxStep_i`, `fxStep_m`). -/
theorem controlStepBounded : Obligations.ControlStepBounded := by
  intro c g r y i e m o
  refine ⟨fun h => ?_, fun h => ?_, fun h => ⟨fun hl => ?_, fun hl => ?_⟩⟩
  · obtain ⟨u0, hu⟩ := fxStep_u c g r y i e m
    rw [hu]
    split_ifs <;> omega
  · obtain ⟨hold, i1, hi⟩ := fxStep_i c g r y i e m
    have hc := clampInt_within h i1
    rw [hi]
    split_ifs with hh ho
    · exact .inr rfl
    · exact .inl hc
    · exact .inl (by omega)
  · obtain ⟨n, hm⟩ := fxStep_m c g r y i e m
    rw [hm, if_pos (by simpa using hl)]
    exact clampInt_within (by omega) n
  · obtain ⟨n, hm⟩ := fxStep_m c g r y i e m
    rw [hm, if_neg (by simpa using hl)]

/-! ### A channel beside the others (R410, R415) -/

section
variable (s : State) {t : State} {ch c : Nat}

@[simp] theorem fxCh_setFx_same (x : FxCh) : fxCh (setFx s ch x) ch = x := smGet_smSet_same _ _ _ _

theorem fxCh_setFx_ne (x : FxCh) (h : c ≠ ch) : fxCh (setFx s ch x) c = fxCh s c := smGet_smSet_ne _ _ _ _ h.symm

variable {s}

theorem fxCh_congr (h : t.fx.chans = s.fx.chans) (c : Nat) : fxCh t c = fxCh s c := by rw [fxCh, h, fxCh]

theorem poolWord_congr (h : t.fx.pool = s.fx.pool) (c k : Nat) : poolWord t c k = poolWord s c k := by rw [poolWord, h, poolWord]

theorem fxState_congr (h : t.regs = s.regs) (c : Nat) : fxState t c = fxState s c := regField_congr h _ _ _ _

theorem fxState_setPgState (s : State) (ch st : Nat) : fxState (setPgState s (fxPage ch) st) ch = st % 16 := pgState_setPgState s (fxPage ch) st

/-- A channel's state stands in its PG_STAT alone. -/
theorem fxState_setReg {off : Nat} (w : Word) (h : off ≠ 0x00C) : fxState (setReg s (fxPage ch) off w) ch = fxState s ch :=
  congrArg (field · 7 4) (regVal_setReg_off s _ w h)

/-- Another page state leaves the fields of the page's other registers. -/
theorem regField_setPgState (p : Page) (st : Nat) {off : Nat} (h1 : off ≠ 0x00C) (h2 : off ≠ 0x028) (hi lo : Nat) :
    regField (setPgState s p st) p off hi lo = regField s p off hi lo := by
  rw [regField, regsBut_setPgState (ks := [regKey p 0x00C, regKey p 0x028]) (regsBut_refl _ s) (.head _) (.tail _ (.head _)) st p off
    (by simp [regKey_inj, h1, h2]), regField]

end

/-! ### The commands of a channel (R402, R416, R417) -/

section
variable {s : State} {r : Req} {ch : Nat} {v : Word}

/-- An accepted command stores a word in FX_CMD, and the channel acts. -/
theorem accept_fxCmd (s : State) (ch : Nat) (v : Word) :
    ∃ w, accept s (fxPage ch) 0x100 v = fxAct (setReg s (fxPage ch) 0x100 w) (fxPage ch) 0x100 v := ⟨_, rfl⟩

/-- The outcome of such a command, by what its act leaves. -/
theorem next_fxCmd {f : State → State} (hf : ∀ t, fxAct t (fxPage ch) 0x100 v = f t) (h : Accepted s r (fxPage ch) 0x100 v) :
    ∃ w, (.next (regWrite s r (fxPage ch) 0x100 v) : Res) = .next (answer (f (setReg s (fxPage ch) 0x100 w)) .ok 0) := by
  obtain ⟨w, hw⟩ := accept_fxCmd s ch v
  exact ⟨w, by rw [regWrite_accept h, hw, hf]⟩

/-- The parameters that the control step and the safe store take are the registers other than FX_CMD. -/
theorem fxReg_fxCmd (s : State) (ch : Nat) (w : Word) {off : Nat} (h : off ≠ 0x100) :
    fxReg (setReg s (fxPage ch) 0x100 w) ch off = fxReg s ch off :=
  regVal_setReg_off s _ w h.symm

theorem fxCfg_fxCmd (s : State) (ch : Nat) (w : Word) : fxCfg (setReg s (fxPage ch) 0x100 w) ch = fxCfg s ch := by
  simp (disch := decide) only [fxCfg, fxInt, fxReg_fxCmd]

theorem copyOf_fxCmd (s : State) (ch : Nat) (w : Word) : copyOf (setReg s (fxPage ch) 0x100 w) ch = copyOf s ch := by
  simp (disch := decide) only [copyOf, List.map_cons, List.map_nil, fxReg_fxCmd]

/-- A channel as START leaves it: at step 0, with what it had learned. -/
def startedCh (s : State) (ch : Nat) : FxCh :=
  { fxCh s ch with n := 0, start := some (now s), fresh := none, spi := false, step := none, mirror := none, safe := copyOf s ch }

/-- What START leaves (R416, R417). -/
def fxStarted (s : State) (ch : Nat) : State :=
  setPgState (setRegField (setFx s ch (startedCh s ch)) (fxPage ch) 0x104 15 8 0) (fxPage ch) fxArmed

/-- What FX_STOP leaves (R416). -/
def fxStopped (s : State) (ch : Nat) : State := setPgState (setFx s ch { fxCh s ch with step := none, mirror := none }) (fxPage ch) fxOff

/-- What RESUME leaves (R415, R416). -/
def fxResumed (s : State) (ch : Nat) : State := setPgState (setRegField s (fxPage ch) 0x104 15 8 0) (fxPage ch) fxArmed

/-! The acts of the five commands, by their codes. -/

theorem fxAct_start (s : State) (ch : Nat) : fxAct s (fxPage ch) 0x100 1 = fxStarted s ch := rfl
theorem fxAct_stop (s : State) (ch : Nat) : fxAct s (fxPage ch) 0x100 2 = fxStopped s ch := rfl
theorem fxAct_forceSafe (s : State) (ch : Nat) : fxAct s (fxPage ch) 0x100 3 = fxToSafe s ch 1 := rfl
theorem fxAct_resume (s : State) (ch : Nat) : fxAct s (fxPage ch) 0x100 4 = fxResumed s ch := rfl
theorem fxAct_clear (s : State) (ch : Nat) : fxAct s (fxPage ch) 0x100 5 = fxClear s ch := rfl

/-! START and FX_STOP -/

theorem fxStarted_fx (s : State) (ch : Nat) : (fxStarted s ch).fx = (setFx s ch (startedCh s ch)).fx := by
  rw [fxStarted, setPgState_fx, setRegField_fx]

theorem fxStopped_fx (s : State) (ch : Nat) : (fxStopped s ch).fx = (setFx s ch { fxCh s ch with step := none, mirror := none }).fx := by
  rw [fxStopped, setPgState_fx]

theorem fxStarted_frame (s : State) (ch : Nat) :
    fxStarted s ch = { s with regs := (fxStarted s ch).regs, fx := { s.fx with chans := (fxStarted s ch).fx.chans } } := by
  rw [fxStarted_fx]
  exact setPgState_frame _ _ _

theorem fxStopped_frame (s : State) (ch : Nat) :
    fxStopped s ch = { s with regs := (fxStopped s ch).regs, fx := { s.fx with chans := (fxStopped s ch).fx.chans } } := by
  rw [fxStopped_fx]
  exact setPgState_frame _ _ _

theorem fxCh_fxStarted_same (s : State) (ch : Nat) : fxCh (fxStarted s ch) ch = startedCh s ch := by
  rw [fxCh_congr (congrArg FxSt.chans (fxStarted_fx s ch)), fxCh_setFx_same]

theorem fxCh_fxStarted_ne (s : State) {ch c : Nat} (h : c ≠ ch) : fxCh (fxStarted s ch) c = fxCh s c := by
  rw [fxCh_congr (congrArg FxSt.chans (fxStarted_fx s ch)), fxCh_setFx_ne _ _ h]

theorem fxCh_fxStopped_same (s : State) (ch : Nat) : fxCh (fxStopped s ch) ch = { fxCh s ch with step := none, mirror := none } := by
  rw [fxCh_congr (congrArg FxSt.chans (fxStopped_fx s ch)), fxCh_setFx_same]

/-! FORCE_SAFE -/

theorem setFx_frame {s t : State} (h : OnlyBlock s t) (ch : Nat) (x : FxCh) :
    setFx t ch x = { withBlock (setFx t ch x) s with fx := { s.fx with chans := (setFx t ch x).fx.chans } } := by
  rw [show t = withBlock t s from h]
  rfl

/-- A channel that runs or is armed enters SAFE with the cause in FX_STAT, and slot 12 counts it (R415). -/
theorem fxToSafe_live (cause : Nat) (h : fxState s ch = fxArmed ∨ fxState s ch = fxRun) :
    fxState (fxToSafe s ch cause) ch = fxSafe ∧ regField (fxToSafe s ch cause) (fxPage ch) 0x104 3 0 = cause % 16 ∧
      Counted s (fxToSafe s ch cause) (fxPage ch) 12 1 ∧
      fxToSafe s ch cause = { withBlock (fxToSafe s ch cause) s with fx := { s.fx with chans := (fxToSafe s ch cause).fx.chans } } := by
  rw [fxToSafe, if_pos h]
  extract_lets u
  have hu : u = { s with regs := u.regs } :=
    congrArg (fun x => setRegField x (fxPage ch) 0x104 3 0 cause) (setPgState_frame s (fxPage ch) fxSafe)
  have hregs : (setFx (ctrAdd u (fxPage ch) 12 1) ch { fxCh u ch with step := none }).regs = u.regs := ctrAdd_regs _ _ _ _
  refine ⟨?_, ?_, ?_, ?_⟩
  · rw [fxState_congr hregs]
    exact (fxState_setReg _ (by decide)).trans (fxState_setPgState s ch fxSafe)
  · rw [regField_congr hregs, regField, regVal_setRegField_same]
    exact field_setField_same _ _ (by decide)
  · refine counted_ctrAdd (t := u) ?_ _ 12 (by decide)
    rw [hu]
  · exact setFx_frame (onlyBlock_trans (onlyBlock_trans (onlyBlock_setPgState s _ _) (onlyBlock_setReg _ _ _ _)) (onlyBlock_ctrAdd u _ 12 1)) _ _

/-! RESUME and CLEAR_STATE -/

/-- A channel resumes without stale samples behind it. -/
theorem stale_fxResumed (s : State) (ch : Nat) : regField (fxResumed s ch) (fxPage ch) 0x104 15 8 = 0 := by
  rw [fxResumed, regField_setPgState _ _ (by decide) (by decide), regField, regVal_setRegField_same, field_setField_same _ _ (by decide)]
  exact Nat.zero_mod _

theorem fxCh_fxClear_same (s : State) (ch : Nat) : fxCh (fxClear s ch) ch = { fxCh s ch with i := 0, e := 0 } := fxCh_setFx_same s _

theorem fxCh_fxClear_ne (s : State) {ch c : Nat} (h : c ≠ ch) : fxCh (fxClear s ch) c = fxCh s c := fxCh_setFx_ne s _ h

theorem poolWord_fxClear (s : State) (ch c k : Nat) : poolWord (fxClear s ch) c k =
    if poolKey ch (fxCfg s ch).rcBase ≤ poolKey c k ∧ poolKey c k < poolKey ch (fxCfg s ch).rcBase + (fxCfg s ch).rcLen then 0
    else poolWord s c k := by
  have hp : (fxClear s ch).fx.pool =
    smClear s.fx.pool (poolKey ch (fxCfg s ch).rcBase) (poolKey ch (fxCfg s ch).rcBase + (fxCfg s ch).rcLen) := rfl
  rw [poolWord, hp, smGet_smClear]
  split
  · rfl
  · rfl

/-- The words of one pool lie in a row. -/
theorem poolKey_add (ch : Nat) {b k : Nat} (h : b + k < 65536) : poolKey ch (b + k) = poolKey ch b + k := by
  unfold poolKey
  omega

end

/-! ### The commands as instructions -/

section
variable {s : State} {r : Req} {ch : Fin 64}

theorem exec_start (h : Accepted s r (fxPage ch) 0x100 1) :
    ∃ w, exec (.start r ch) s = .next (answer (fxStarted (setReg s (fxPage ch) 0x100 w) ch) .ok 0) :=
  next_fxCmd (fxAct_start · ch) h

theorem exec_fxStop (h : Accepted s r (fxPage ch) 0x100 2) :
    ∃ w, exec (.fxStop r ch) s = .next (answer (fxStopped (setReg s (fxPage ch) 0x100 w) ch) .ok 0) :=
  next_fxCmd (fxAct_stop · ch) h

theorem exec_forceSafe (h : Accepted s r (fxPage ch) 0x100 3) :
    ∃ w, exec (.forceSafe r ch) s = .next (answer (fxToSafe (setReg s (fxPage ch) 0x100 w) ch 1) .ok 0) :=
  next_fxCmd (fxAct_forceSafe · ch) h

theorem exec_resume (h : Accepted s r (fxPage ch) 0x100 4) :
    ∃ w, exec (.resume r ch) s = .next (answer (fxResumed (setReg s (fxPage ch) 0x100 w) ch) .ok 0) :=
  next_fxCmd (fxAct_resume · ch) h

theorem exec_clearState (h : Accepted s r (fxPage ch) 0x100 5) :
    ∃ w, exec (.clearState r ch) s = .next (answer (fxClear (setReg s (fxPage ch) 0x100 w) ch) .ok 0) :=
  next_fxCmd (fxAct_clear · ch) h

end

/-- Settles O37: CLEAR_STATE by `poolWord_fxClear`, START by `fxStarted_frame`. -/
theorem clearStateAndStart : Obligations.ClearStateAndStart := by
  refine ⟨fun s r ch h hlen => ?_, fun s r ch h => ?_⟩
  · obtain ⟨w, hw⟩ := exec_clearState h
    have hword (c k : Nat) := poolWord_fxClear (setReg s (fxPage ch) 0x100 w) ch c k
    rw [fxCfg_fxCmd] at hword
    have hch := fxCh_fxClear_same (setReg s (fxPage ch) 0x100 w) ch
    refine ⟨_, hw, congrArg FxCh.i hch, congrArg FxCh.e hch, fun k hk => ?_, fun c k hk => ?_, fun c hc => fxCh_fxClear_ne _ hc, ?_⟩
    · refine (hword _ _).trans (if_pos ?_)
      rw [poolKey_add _ (by omega)]
      omega
    · exact (hword c k).trans (if_neg (by omega))
    · exact fxState_setReg _ (by decide)
  · obtain ⟨w, hw⟩ := exec_start h
    have hch := fxCh_fxStarted_same (setReg s (fxPage ch) 0x100 w) ch
    exact ⟨_, hw, (congrArg FxCh.i hch :), (congrArg FxCh.e hch :), congrArg (fun t => t.fx.pool) (fxStarted_frame _ _)⟩

end Sys2Proof.Machine
end

section
/-! PROOFS. A channel tick and the pool's registers (R395, R404, R408 to R411, R421): what the frames of a tick leave of the channels, the first
step of an armed channel, and an access of CC_RC_DATA. -/

namespace Sys2Proof.Machine

/-! ### What a frame leaves alone (R407 to R411, R673 to R675)

A frame ends the loopback of its unit, which writes registers of that unit and of the test page, and it is counted; a record for the mate goes to
the link's queue. None of these pages is a channel's. -/

/-- The channels and their pages, the pools, the memory, and what tells a standby. -/
def channelSide (s : State) : SMap FxCh × SMap Word × MemSt × DevSt × Bool × (Fin 64 → Fin 0x1000 → Word) :=
  (s.fx.chans, s.fx.pool, s.mem, s.dev, s.vl.lead, fun ch off => regVal s (fxPage ch) off)

section
variable {s t : State}

theorem channelSide_iff : channelSide t = channelSide s ↔ t.fx.chans = s.fx.chans ∧ t.fx.pool = s.fx.pool ∧ t.mem = s.mem ∧ t.dev = s.dev ∧
    t.vl.lead = s.vl.lead ∧ ∀ (ch : Fin 64) (off : Fin 0x1000), regVal t (fxPage ch) off = regVal s (fxPage ch) off := by
  simp [channelSide, funext_iff]

theorem chans_of_channelSide (h : channelSide t = channelSide s) : t.fx.chans = s.fx.chans := (channelSide_iff.1 h).1
theorem pool_of_channelSide (h : channelSide t = channelSide s) : t.fx.pool = s.fx.pool := (channelSide_iff.1 h).2.1
theorem mem_of_channelSide (h : channelSide t = channelSide s) : t.mem = s.mem := (channelSide_iff.1 h).2.2.1

theorem isStandby_of_channelSide (h : channelSide t = channelSide s) : isStandby t = isStandby s := by
  obtain ⟨-, -, -, hdev, hlead, -⟩ := channelSide_iff.1 h
  rw [isStandby, isPair, hdev, hlead, isStandby, isPair]

theorem fxReg_of_channelSide (h : channelSide t = channelSide s) (ch : Fin 64) {off : Nat} (ho : off < 0x1000) : fxReg t ch off = fxReg s ch off := by
  obtain ⟨-, -, -, -, -, hreg⟩ := channelSide_iff.1 h
  exact hreg ch ⟨off, ho⟩

end

section
variable (s : State) {p : Page}

theorem channelSide_setReg (hp : PageOut channelAddr p) {off : Nat} (ho : off < 0x1000) (v : Word) :
    channelSide (setReg s p off v) = channelSide s :=
  channelSide_iff.2 ⟨rfl, rfl, rfl, rfl, rfl, fun ch o => regVal_setReg_ne s p _ v fun e =>
    hp off ho (e ▸ channelAddr_regKey (decide_eq_true (show ch.val < 64 from ch.isLt)) o.isLt rfl)⟩

theorem channelSide_rcEvent (hp : PageOut channelAddr p) {off : Nat} (ho : off < 0x1000) (f : Word → Word) :
    channelSide (rcEvent s p off f) = channelSide s :=
  channelSide_setReg s hp ho _

theorem channelSide_setBusy (hp : PageOut channelAddr p) (b : Bool) : channelSide (setBusy s p b) = channelSide s :=
  channelSide_setReg s hp (by decide) _

theorem channelSide_setPgState (hp : PageOut channelAddr p) (st : Nat) : channelSide (setPgState s p st) = channelSide s := by
  unfold setPgState
  split
  · rfl
  · exact (channelSide_setReg _ hp (by decide) _).trans (channelSide_setReg s hp (by decide) _)

theorem channelSide_setFlag (hp : PageOut channelAddr p) (n : Nat) : channelSide (setFlag s p n) = channelSide s := by
  have h : channelSide (orReg s p 0x010 (bitMask n)) = channelSide s := channelSide_setReg s hp (by decide) _
  unfold setFlag
  dsimp only
  split
  · exact h
  · exact h

@[simp] theorem channelSide_ctrAdd (p : Page) (slot n : Nat) : channelSide (ctrAdd s p slot n) = channelSide s :=
  channelSide_iff.2 ⟨by simp, by simp, by simp, by simp, by simp, fun _ _ => regVal_congr (ctrAdd_regs s p slot n) _ _⟩

/-! #### A record for the mate -/

theorem pageOut_vlPage : PageOut channelAddr vlPage := pageOut_channelAddr (by decide)
theorem pageOut_testPage : PageOut channelAddr testPage := pageOut_channelAddr (by decide)

theorem channelSide_queueMsg (m : Msg) : channelSide (queueMsg s m) = channelSide s := by
  unfold queueMsg
  dsimp only
  split
  · rw [channelSide_rcEvent _ pageOut_vlPage (by decide), channelSide_setFlag _ pageOut_vlPage, channelSide_ctrAdd]
  · rfl

theorem channelSide_sendDelta (sub part : Nat) (bs : List Byte) : channelSide (sendDelta s sub part bs) = channelSide s := by
  unfold sendDelta
  split
  · exact channelSide_queueMsg s _
  · rfl

/-! #### The end of a loopback -/

theorem channelSide_unitAfterLoop (hp : PageOut channelAddr p) : channelSide (unitAfterLoop s p) = channelSide s := by
  unfold unitAfterLoop
  split
  case h_5 => rfl
  all_goals exact channelSide_setPgState s hp _

/-- A loopback that a frame ends. -/
theorem channelSide_loopEnd (h : ∀ l, s.loop = some l → PageOut channelAddr l.page) : channelSide (loopEnd s true) = channelSide s := by
  unfold loopEnd
  split
  · rfl
  · next l hl =>
    extract_lets c t0 t bad st u v
    have ht : channelSide t = channelSide s := by
      refine (channelSide_unitAfterLoop _ (h l hl)).trans ?_
      unfold t0
      split <;> rfl
    have hu : channelSide u = channelSide s := by
      unfold u
      rw [channelSide_setReg _ pageOut_testPage (by decide), channelSide_setReg _ pageOut_testPage (by decide),
        channelSide_setBusy _ pageOut_testPage, channelSide_setPgState _ pageOut_testPage, ht]
    simp [v, hu]

/-! #### Frames -/

/-- A frame's unit is an SPI master, a CAN controller or a 10BASE-T1S port. -/
theorem pageOut_framePage (f : BusFrame) : PageOut channelAddr (framePage f) := by
  unfold framePage
  split <;> exact pageOut_channelAddr (by simp only [pageBase, clsBase]; omega)

theorem loop_page_of_isLooped {l : LoopSt} (h : isLooped s p = true) (hl : s.loop = some l) : l.page = p := by
  simpa [isLooped, hl] using h

theorem channelSide_sendFrame (f : BusFrame) : channelSide (sendFrame s f) = channelSide s := by
  unfold sendFrame
  extract_lets p t u
  have ht : channelSide t = channelSide s := by
    unfold t
    split
    · next hc =>
      exact channelSide_loopEnd s fun l hl => loop_page_of_isLooped s hc.2 hl ▸ pageOut_framePage f
    · rfl
  split
  · rw [channelSide_ctrAdd, ht]
  · have hu : channelSide u = channelSide s := by
      unfold u
      split <;> simp [ht]
    exact hu

theorem channelSide_releaseSafe (ch seq : Nat) : channelSide (releaseSafe s ch seq) = channelSide s := by
  unfold releaseSafe
  split
  · rw [channelSide_sendFrame, channelSide_ctrAdd]
  · rfl

end

/-! ### A tick (R395, R411) -/

/-- The gain reads no entry past the LUT's 256. -/
theorem lutGain_congr {g g' : Nat → Int} (h : ∀ j < 256, g j = g' j) (e e0 scale : Int) : lutGain g e e0 scale = lutGain g' e e0 scale := by
  have hq := clampInt_within (lo := 0) (hi := 255 * 65536) (by decide) (satQ (rsh16 ((e - e0) * scale))).v
  simp only [lutGain]
  generalize clampInt 0 (255 * 65536) (satQ (rsh16 ((e - e0) * scale))).v = q at hq
  rw [h (q / 65536).toNat (by omega)]
  by_cases hf : q % 65536 = 0
  · simp only [hf, if_true]
  · rw [h ((q / 65536).toNat + 1) (by omega)]

theorem fxStep_congr {g g' : Nat → Int} (h : ∀ j < 256, g j = g' j) (c : FxCfg) (r y i e m : Int) :
    fxStep c g r y i e m = fxStep c g' r y i e m := by
  simp only [fxStep, lutGain_congr h]

section
variable {s : State} {ch : Fin 64} {took n : Nat} {ecc : EccResult}

theorem exec_channelTick_due (hb : s.sec.boot.held = false) (hg : onGrid s ch (now s) = true) :
    exec (.channelTick ch took ecc) s = .next (fxTick s ch took ecc) := by
  simp [exec, execChannelTick, hb, hg]

/-- The channel at its next index. -/
def indexAdvanced (s : State) (ch : Nat) : State := setFx s ch { fxCh s ch with n := (fxCh s ch).n + 1 }

/-- The tick of a channel before it computes: its index advanced, and its safe frame released. -/
def safeReleased (s : State) (ch : Nat) : State := releaseSafe (indexAdvanced s ch) ch (((fxCh s ch).n + 65535) % 65536)

theorem channelSide_safeReleased (s : State) (ch : Nat) : channelSide (safeReleased s ch) = channelSide (indexAdvanced s ch) :=
  channelSide_releaseSafe _ ch _

theorem fxCh_safeReleased (s : State) (ch : Nat) : fxCh (safeReleased s ch) ch = { fxCh s ch with n := (fxCh s ch).n + 1 } := by
  rw [fxCh_congr (chans_of_channelSide (channelSide_safeReleased s ch)), indexAdvanced, fxCh_setFx_same]

theorem pool_safeReleased (s : State) (ch : Nat) : (safeReleased s ch).fx.pool = s.fx.pool :=
  (pool_of_channelSide (channelSide_safeReleased s ch) :)

theorem mem_safeReleased (s : State) (ch : Nat) : (safeReleased s ch).mem = s.mem :=
  (mem_of_channelSide (channelSide_safeReleased s ch) :)

theorem fxTick_idle (h : fxLive s ch = false) : fxTick s ch took ecc = safeReleased s ch := by
  simp only [fxTick, h]
  rfl

theorem fxTick_armed (h : fxLive s ch = true) (ha : fxState s ch = fxArmed) :
    fxTick s ch took ecc = fxSample (setPgState (safeReleased s ch) (fxPage ch) fxRun) ch (fxCh s ch).n ecc := by
  simp only [fxTick, h, ha]
  rfl

/-- Without a measurement the latch takes y = 0. -/
def zeroLatched (s : State) (ch : Nat) : State := setFx s ch { fxCh s ch with y := 0, fresh := none, spi := false }

theorem fxLatch_none {ch : Nat} (h : field (fxReg s ch 0x110) 31 28 = 0) : fxLatch s ch = (zeroLatched s ch, false) := by
  simp only [fxLatch, h]
  rfl

theorem fxTakeMirror_lead (h : isStandby s = false) (ch n : Nat) : fxTakeMirror s ch n = s := by
  simp [fxTakeMirror, h]

theorem fxSample_clean {ch : Nat} (hsrc : field (fxReg s ch 0x110) 31 28 = 0) (hb : isStandby s = false) :
    fxSample s ch n .clean = fxCompute (zeroLatched s ch) ch n := by
  have hb' : isStandby (zeroLatched s ch) = false := hb
  simp only [fxSample, fxLatch_none hsrc, fxTakeMirror_lead hb', fxChecked]
  rfl

end

/-! ### A step (R399, R404) -/

/-- The channels, the memory, and the state of a channel's page. -/
def stepSide (ch : Nat) (s : State) : SMap FxCh × MemSt × Nat := (s.fx.chans, s.mem, fxState s ch)

theorem stepSide_of_channelSide {s t : State} (ch : Fin 64) (h : channelSide t = channelSide s) : stepSide ch t = stepSide ch s := by
  have hst : fxState t ch = fxState s ch := congrArg (field · 7 4) (fxReg_of_channelSide h ch (off := 0x00C) (by decide))
  rw [stepSide, chans_of_channelSide h, mem_of_channelSide h, hst, stepSide]

section
variable (s : State) (ch : Nat)

theorem stepSide_setReg {off : Nat} (w : Word) (h : off ≠ 0x00C) : stepSide ch (setReg s (fxPage ch) off w) = stepSide ch s := by
  rw [stepSide, fxState_setReg w h]
  rfl

theorem stepSide_orReg {off : Nat} (w : Word) (h : off ≠ 0x00C) : stepSide ch (orReg s (fxPage ch) off w) = stepSide ch s :=
  stepSide_setReg s ch _ h

theorem stepSide_ctrAdd (p : Page) (slot n : Nat) : stepSide ch (ctrAdd s p slot n) = stepSide ch s := by
  rw [stepSide, ctrAdd_fx, ctrAdd_mem, fxState_congr (ctrAdd_regs s p slot n), stepSide]

end

theorem fxReference_constant {s : State} {ch : Nat} (h : field (fxReg s ch 0x124) 9 8 = 0) (next : Nat) :
    fxReference s ch next = (s, some (fxInt s ch 0x128)) := by
  simp only [fxReference, h]

/-- The step that a channel takes with a constant reference and no repetitive memory. -/
def plainStep (s : State) (ch : Nat) : StepOut :=
  fxStep (fxCfg s ch) (fun j => fxInt s ch (0x400 + 4 * j)) (fxInt s ch 0x128) (fxCh s ch).y (fxCh s ch).i (fxCh s ch).e
    (poolWord s ch (fxCfg s ch).rcBase)

/-- A channel after its step n, with the step's four flags. -/
def steppedCh (x : FxCh) (o : StepOut) (n flags : Nat) : FxCh := { x with i := o.i, e := o.e, step := some ⟨n, o.u, flags⟩, lastU := o.u }

/-- Such a step is stored in the channel, and shown in registers other than the page's state. -/
theorem fxCompute_plain {s : State} {ch : Fin 64} (n : Nat) (href : field (fxReg s ch 0x124) 9 8 = 0) (hrc : (fxCfg s ch).rcLen = 0) :
    ∃ flags, fxCh (fxCompute s ch n) ch = steppedCh (fxCh s ch) (plainStep s ch) n flags ∧ (fxCompute s ch n).mem = s.mem ∧
      fxState (fxCompute s ch n) ch = fxState s ch := by
  suffices h : ∃ flags, stepSide ch (fxCompute s ch n) = stepSide ch (setFx s ch (steppedCh (fxCh s ch) (plainStep s ch) n flags)) by
    obtain ⟨flags, h⟩ := h
    simp only [stepSide, Prod.mk.injEq] at h
    obtain ⟨hchans, hmem, hst⟩ := h
    exact ⟨flags, (fxCh_congr hchans ch).trans (fxCh_setFx_same _ _), hmem, hst⟩
  unfold fxCompute
  extract_lets pg cfg r s' x k learns
  have hr : r = (s, some (fxInt s ch 0x128)) := fxReference_constant href _
  split
  · next h => rw [hr] at h; cases h
  · next ref h =>
    rw [hr] at h
    cases h
    extract_lets o fb flags t u v w z
    have hs : s' = s := congrArg Prod.fst hr
    have hk : k = 0 := if_pos hrc
    have ho : o = plainStep s ch := by
      simp only [o, x, hs, hk, plainStep]
      rfl
    have ht : t = s := by
      have hl : learns = false := by simp [learns, cfg, hrc]
      rw [← hs]
      exact if_neg (by simp [hl])
    have hv : stepSide ch v = stepSide ch u := by
      refine (foldl_leaves (stepSide ch) (fun w' p => ?_) _ _).trans (stepSide_orReg u ch _ (by decide))
      split
      · exact stepSide_ctrAdd _ ch _ _ _
      · rfl
    have hz : stepSide ch z = stepSide ch u := by
      simp only [z, w, pg, stepSide_setReg, stepSide_ctrAdd, hv, ne_eq, Nat.reduceEqDiff, not_false_eq_true]
    refine ⟨flags, ((stepSide_of_channelSide ch (channelSide_sendDelta _ _ _ _)).trans hz).trans ?_⟩
    simp only [u, ht, ho, x, hs, steppedCh]

/-! ### The first step of an armed channel (R395, R416) -/

section
variable (s : State) (ch : Fin 64)

/-- A channel as its first step finds it: in RUN, its safe frame released, and y = 0 latched. -/
def firstStep : State := zeroLatched (setPgState (safeReleased s ch) (fxPage ch) fxRun) ch

/-- A tick writes no parameter before it computes. -/
theorem fxReg_running {off : Nat} (h1 : 0x100 ≤ off) (h2 : off < 0x1000) :
    fxReg (setPgState (safeReleased s ch) (fxPage ch) fxRun) ch off = fxReg s ch off := by
  have hne : regKey (fxPage ch) off ∉ [regKey (fxPage ch) 0x00C, regKey (fxPage ch) 0x028] := by
    simp only [List.mem_cons, regKey_inj, List.not_mem_nil, or_false]
    omega
  exact (regsBut_setPgState (regsBut_refl _ _) (.head _) (.tail _ (.head _)) fxRun _ _ hne).trans
    (fxReg_of_channelSide (channelSide_safeReleased s ch) ch h2)

theorem fxReg_firstStep {off : Nat} (h1 : 0x100 ≤ off) (h2 : off < 0x1000) : fxReg (firstStep s ch) ch off = fxReg s ch off :=
  fxReg_running s ch h1 h2

theorem fxCfg_firstStep : fxCfg (firstStep s ch) ch = fxCfg s ch := by
  simp (disch := decide) only [fxCfg, fxInt, fxReg_firstStep]

theorem isStandby_running : isStandby (setPgState (safeReleased s ch) (fxPage ch) fxRun) = isStandby s := by
  have h := isStandby_of_channelSide (channelSide_safeReleased s ch)
  rw [isStandby, isPair, setPgState_dev, setPgState_vl]
  exact h

theorem fxCh_firstStep : fxCh (firstStep s ch) ch = { fxCh s ch with n := (fxCh s ch).n + 1, y := 0, fresh := none, spi := false } := by
  rw [firstStep, zeroLatched, fxCh_setFx_same, fxCh_congr (congrArg FxSt.chans (setPgState_fx _ _ _)), fxCh_safeReleased]

theorem pool_firstStep : (firstStep s ch).fx.pool = s.fx.pool :=
  (congrArg FxSt.pool (setPgState_fx _ _ _)).trans (pool_safeReleased s ch)

theorem mem_firstStep : (firstStep s ch).mem = s.mem :=
  (setPgState_mem _ _ _).trans (mem_safeReleased s ch)

theorem fxState_firstStep : fxState (firstStep s ch) ch = fxRun := fxState_setPgState _ _ _

/-- The step is the one that the state before the tick gives, with y = 0. -/
theorem plainStep_firstStep : plainStep (firstStep s ch) ch = fxStep (fxCfg s ch) (fun j => fxInt s ch (0x400 + 4 * j)) (fxInt s ch 0x128) 0
    (fxCh s ch).i (fxCh s ch).e (poolWord s ch (fxCfg s ch).rcBase) := by
  have hlut : ∀ j < 256, fxInt (firstStep s ch) ch (0x400 + 4 * j) = fxInt s ch (0x400 + 4 * j) := fun j hj => by
    rw [fxInt, fxReg_firstStep s ch (by omega) (by omega), fxInt]
  have href : fxInt (firstStep s ch) ch 0x128 = fxInt s ch 0x128 := by
    rw [fxInt, fxReg_firstStep s ch (by decide) (by decide), fxInt]
  rw [plainStep, fxStep_congr hlut, fxCfg_firstStep, fxCh_firstStep, poolWord_congr (pool_firstStep s ch), href]

variable {s ch}

/-- The first tick of an armed channel without a measurement, on a module that does not stand by. -/
theorem fxTick_first {took : Nat} (hl : fxLive s ch = true) (ha : fxState s ch = fxArmed) (hb : isStandby s = false)
    (hsrc : field (fxReg s ch 0x110) 31 28 = 0) : fxTick s ch took .clean = fxCompute (firstStep s ch) ch (fxCh s ch).n := by
  rw [fxTick_armed hl ha, fxSample_clean (by rwa [fxReg_running s ch (by decide) (by decide)]) ((isStandby_running s ch).trans hb), firstStep]

end

/-! ### The pool's registers (R421) -/

section
variable {s : State} {r : Req} {k : Fin 2} {v : Word}

theorem regField_rcAdvance (s : State) (p : Page) : regField (rcAdvance s p) p 0x108 15 0 = (regField s p 0x108 15 0 + 1) % 65536 := by
  rw [rcAdvance, regField, regVal_setRegField_same, field_setField_same _ _ (by decide)]
  exact Nat.mod_mod _ _

/-- A word stored at CC_RC_ADDR. -/
def poolStored (s : State) (k : Nat) (v : Word) : State :=
  { s with fx := { s.fx with pool := smSet 0 s.fx.pool (k * 65536 + regField s ⟨.c, k⟩ 0x108 15 0) v } }

/-- CC_RC_DATA stores into the pool, not into the register file. -/
theorem accept_rcData (s : State) (k : Nat) (v : Word) : accept s ⟨.c, k⟩ 0x10C v = rcAdvance (poolStored s k v) ⟨.c, k⟩ := rfl

theorem exec_ccRcData_write (h : Accepted s r ⟨.c, k.val⟩ 0x10C v) :
    exec (.ccRcDataAccess r k (some v)) s = .next (answer (rcAdvance (poolStored s k v) ⟨.c, k.val⟩) .ok 0) :=
  congrArg Host.Outcome.next (regWrite_accept h)

/-- The owner's read steps the address. -/
theorem readLeaves_rcData (h : Readable s r ⟨.c, k.val⟩ 0x10C) (ho : isOwner s r ⟨.c, k.val⟩ 0x10C = true)
    (hu : unpowered s ⟨.c, k.val⟩ = false) :
    readLeaves s r ⟨.c, k.val⟩ 0x10C = rcAdvance s ⟨.c, k.val⟩ := by
  obtain ⟨-, -, -, -, -, hin⟩ := h
  have hl : latchAll s r ⟨.c, k.val⟩ 0x10C = s := rfl
  rw [readLeaves, if_pos ho, hl, readEffect, hin, hu]
  rfl

theorem readWord32_rcData (h : Readable s r ⟨.c, k.val⟩ 0x10C) (hu : unpowered s ⟨.c, k.val⟩ = false) :
    readWord32 s r ⟨.c, k.val⟩ 0x10C = smGet 0 s.fx.pool (k.val * 65536 + regField s ⟨.c, k.val⟩ 0x108 15 0) := by
  obtain ⟨-, -, -, -, -, hin⟩ := h
  rw [readWord32_plain rfl rfl, readValue_shown hin hu]
  exact showWord_view rfl rfl rfl rfl rfl

theorem exec_ccRcData_read (h : Readable s r ⟨.c, k.val⟩ 0x10C) (ho : isOwner s r ⟨.c, k.val⟩ 0x10C = true)
    (hu : unpowered s ⟨.c, k.val⟩ = false) :
    exec (.ccRcDataAccess r k none) s = .next (answer (rcAdvance s ⟨.c, k.val⟩) .ok
      ((smGet 0 s.fx.pool (k.val * 65536 + regField s ⟨.c, k.val⟩ 0x108 15 0)).setWidth 64)) := by
  refine congrArg Host.Outcome.next ((busRead_readable h).trans ?_)
  rw [readLeaves_rcData h ho hu, readWord32_rcData h hu]

end

/-- Settles O38: the four commands by what `fxAct` leaves; a tick by what `safeReleased` leaves, and where the channel computes by `fxTick_first`,
`plainStep_firstStep` and `fxCompute_plain`; the pool by `regField_rcAdvance`. -/
theorem foxgloveChannelEffects : Obligations.FoxgloveChannelEffects := by
  refine ⟨fun s r ch h => ?start, fun s r ch h => ?stop, fun s r ch h hst => ?forceSafe, fun s r ch h => ?resume,
    fun s ch took hb hg hl => ?idle, fun s ch took hb hg hl ha hsb hsrc href hrc => ?first, fun s r k v h => ?write, fun s r k h ho hu => ?read⟩
  case start =>
    obtain ⟨w, hw⟩ := exec_start h
    have hch := fxCh_fxStarted_same (setReg s (fxPage ch) 0x100 w) ch
    refine ⟨_, hw, fxState_setPgState _ _ _, congrArg FxCh.n hch, congrArg FxCh.start hch, congrArg FxCh.step hch, ?_,
      fun c hc => fxCh_fxStarted_ne _ hc, congrArg (answer · .ok 0) (fxStarted_frame _ _)⟩
    exact (congrArg FxCh.safe hch).trans (copyOf_fxCmd s ch w)
  case stop =>
    obtain ⟨w, hw⟩ := exec_fxStop h
    exact ⟨_, hw, fxState_setPgState _ _ _, congrArg FxCh.step (fxCh_fxStopped_same _ _), congrArg (answer · .ok 0) (fxStopped_frame _ _)⟩
  case forceSafe =>
    obtain ⟨w, hw⟩ := exec_forceSafe h
    have hst' : fxState (setReg s (fxPage ch) 0x100 w) ch = fxState s ch := fxState_setReg w (by decide)
    obtain ⟨hsafe, hcause, hcount, hframe⟩ := fxToSafe_live (s := setReg s (fxPage ch) 0x100 w) 1 (hst'.symm ▸ hst)
    exact ⟨_, hw, hsafe, hcause, hcount, congrArg (answer · .ok 0) hframe⟩
  case resume =>
    obtain ⟨w, hw⟩ := exec_resume h
    exact ⟨_, hw, fxState_setPgState _ _ _, stale_fxResumed _ _, congrArg (answer · .ok 0) (setPgState_frame _ _ _)⟩
  case idle =>
    refine ⟨_, exec_channelTick_due hb hg, ?_⟩
    rw [fxTick_idle hl]
    exact ⟨congrArg FxCh.n (fxCh_safeReleased s ch), pool_safeReleased s ch, mem_safeReleased s ch⟩
  case first =>
    obtain ⟨flags, hch, hmem, hst⟩ := fxCompute_plain (s := firstStep s ch) (fxCh s ch).n (by rwa [fxReg_firstStep s ch (by decide) (by decide)])
      (by rwa [fxCfg_firstStep])
    rw [fxCh_firstStep] at hch
    refine ⟨_, ⟨(fxCh s ch).n, (plainStep (firstStep s ch) ch).u, flags⟩, exec_channelTick_due hb hg, ?_⟩
    rw [fxTick_first hl ha hsb hsrc]
    exact ⟨hst.trans (fxState_firstStep s ch), congrArg FxCh.n hch, congrArg FxCh.step hch, rfl, congrArg FxCh.lastU hch,
      congrArg StepOut.u (plainStep_firstStep s ch), hmem.trans (mem_firstStep s ch)⟩
  case write =>
    exact ⟨_, exec_ccRcData_write h, smGet_smSet_same _ _ _ _, regField_rcAdvance _ _, rfl⟩
  case read =>
    exact ⟨_, exec_ccRcData_read h ho hu, rfl, regField_rcAdvance _ _, rfl⟩

end Sys2Proof.Machine
end

section
/-! PROOFS. The roster (R445 to R457): the loading of a table, the states of the roster, and the boundaries of frames, windows and canary
entries. -/

namespace Sys2Proof.Machine

/-! ### What the status of a read depends on (R217, R255) -/

section
variable {s t : State}

/-- A register is stored beside every page's state, but for PG_STAT itself. -/
theorem pgState_setReg_off {p q : Page} {off : Nat} (ho : off < 0x1000) (h : off ≠ 0x00C) (w : Word) : pgState (setReg s p off w) q = pgState s q := by
  rw [pgState, regField, regVal_setReg_ne s p q w (regKey_ne_of_off ho (by decide) h), pgState, regField]

theorem tierPageStatus_congr (h : ∀ q, pgState t q = pgState s q) (q : Page) : tierPageStatus t q = tierPageStatus s q := by
  rw [tierPageStatus, h, tierPageStatus]

theorem unitStatus_congr (h : ∀ q, pgState t q = pgState s q) (hm : t.mem = s.mem) (n lpn off : Nat) :
    unitStatus t n lpn off = unitStatus s n lpn off := by
  have hb : unitBlock t n lpn off = unitBlock s n lpn off := by rw [unitBlock, unitsOf, hm, unitBlock, unitsOf]
  simp only [unitStatus, tierPageStatus_congr h, hb]

theorem homeStatus_congr (h : ∀ q, pgState t q = pgState s q) (hm : t.mem = s.mem) (n : Nat) (e : Pte) (off : Nat) :
    homeStatus t n e off = homeStatus s n e off := by
  simp only [homeStatus, groupStatus, tierPageStatus_congr h, unitStatus_congr h hm]

theorem tagStatus_congr (hm : t.mem = s.mem) (hk : t.keys = s.keys) (hs : t.sec = s.sec) (n a : Nat) : tagStatus t n a = tagStatus s n a := by
  have hkeys : keysOf t n = keysOf s n := by rw [keysOf, hk, keysOf]
  have htag : tagOf t a = tagOf s a := by rw [tagOf, hm, tagOf]
  have hmiss : macMiss t n a = macMiss s n a := by rw [macMiss, htag, saltOf, keySalt, hkeys, hm, hs, macMiss, saltOf, keySalt]
  rw [tagStatus, hkeys, htag, hmiss, tagStatus]

/-- The status of a read depends on the states of the tiers' pages, the memory and the keys. -/
theorem readRange_congr (h : ∀ q, pgState t q = pgState s q) (hm : t.mem = s.mem) (hk : t.keys = s.keys) (hs : t.sec = s.sec) (n a k : Nat) :
    readRange t n a k = readRange s n a k := by
  simp only [readRange, byteStatus, translate, readStatus, pteOf, Bool.false_and, homeStatus_congr h hm, tagStatus_congr hm hk hs, hm]

end

/-! ### RO_CMD (R446) -/

section
variable {s t : State}

theorem roSelfBad_congr (h : t.dev = s.dev) (w0 w1 w2 w3 : Word) : roSelfBad t w0 w1 w2 w3 = roSelfBad s w0 w1 w2 w3 := by
  simp only [roSelfBad, h]

theorem roFirstBad_congr (h : t.dev = s.dev) (ws : List (Word × Word × Word × Word)) :
    ∀ (i : Nat) (before : List RoEntry), roFirstBad t i before ws = roFirstBad s i before ws := by
  induction ws with
  | nil => exact fun _ _ => rfl
  | cons w ws ih =>
    intro i before
    simp only [roFirstBad, roSelfBad_congr h, ih]

/-- What a load finds depends on the base of the table, the statuses of its reads, its words and the layout. -/
theorem roCheckTable_congr (hb : regField t roPage 0x104 27 0 = regField s roPage 0x104 27 0) (hr : ∀ a k, readRange t 0 a k = readRange s 0 a k)
    (hw : ∀ i j, roWord t i j = roWord s i j) (hd : t.dev = s.dev) : roCheckTable t = roCheckTable s := by
  have hr' : readRange t 0 = readRange s 0 := funext fun a => funext (hr a)
  have hw' : roWord t = roWord s := funext fun i => funext (hw i)
  have hf : roFirstBad t = roFirstBad s := funext fun i => funext fun before => funext fun ws => roFirstBad_congr hd ws i before
  unfold roCheckTable
  rw [hb, hr', hw', hf]

/-- The table that a load reads stands beside RO_CMD. -/
theorem roCheckTable_setReg (w : Word) : roCheckTable (setReg s roPage 0x110 w) = roCheckTable s := by
  have hb : regField (setReg s roPage 0x110 w) roPage 0x104 27 0 = regField s roPage 0x104 27 0 := by
    rw [regField, regVal_setReg_off _ _ _ (by decide), regField]
  refine roCheckTable_congr hb (fun a k => readRange_congr (fun q => pgState_setReg_off (by decide) (by decide) w) rfl rfl rfl 0 a k) (fun i j => ?_) rfl
  rw [roWord, hb, roWord]; rfl

end

section
variable {s t : State} {r : Req}

theorem accept_roCmd (s : State) (v : Word) : ∃ w, accept s roPage 0x110 v = roAct (setReg s roPage 0x110 w) roPage 0x110 v := by
  have hrow : regRow roPage 0x110 = some { name := "RO_CMD", first := 0x110, wo := 0x3 } := rfl
  have hx : ¬ (roPage.cls = .c ∧ 0x110 = 0x10C) := fun h => by cases h.1
  refine ⟨storedBits s roPage 0x110 { name := "RO_CMD", first := 0x110, wo := 0x3 } v, ?_⟩
  simp only [accept, hrow, if_neg hx]
  rw [if_neg (by decide), if_neg (by decide), if_neg (by decide), if_neg (by decide), blockAct, roPage]

theorem roAct_cmd (s : State) (v : Word) : roAct s roPage 0x110 v = roLoad s := by
  rw [roAct, if_neg (not_not_intro rfl), if_neg (by decide), if_pos rfl]

theorem exec_rosterLoad (h : Accepted s r roPage 0x110 1) :
    ∃ w, exec (.rosterLoad r) s = .next (answer (roLoad (setReg s roPage 0x110 w)) .ok 0) := by
  obtain ⟨w, hw⟩ := accept_roCmd s 1
  rw [roAct_cmd] at hw
  exact ⟨w, congrArg Host.Outcome.next ((regWrite_accept h).trans (congrArg (answer · .ok 0) hw))⟩

theorem roState_setReg_cmd (w : Word) : roState (setReg s roPage 0x110 w) = roState s := pgState_setReg_off (by decide) (by decide) w

/-- A table that passes is pending in RUN and in force otherwise. -/
def tableLoaded (s : State) (es : List RoEntry) : RosterSt :=
  if roState s = roRun then { s.roster with pend := some es } else { s.roster with table := some es }

theorem roLoad_pass (h : (roCheckTable s).2 = none) :
    roLoad s = { ctrAdd (setRegField s roPage 0x114 23 16 0) roPage 6 1 with roster := tableLoaded s (roCheckTable s).1 } := by
  have hst : roState (ctrAdd (setRegField s roPage 0x114 23 16 0) roPage 6 1) = roState s := by
    rw [roState, pgState, regField, regVal_congr (ctrAdd_regs _ _ _ _), regVal_setRegField_off s _ _ _ _ (by decide)]; rfl
  unfold roLoad tableLoaded
  simp only [h, hst]
  split_ifs <;> simp

theorem roLoad_fail {i : Nat} (h : (roCheckTable s).2 = some i) : roLoad s =
    ctrAdd (setFlag (setReg (setRegField s roPage 0x114 23 16 (statusCode .range)) roPage 0x11C (BitVec.ofNat 32 i)) roPage 0) roPage 7 1 := by
  unfold roLoad
  simp only [h]

theorem roLoad_mem (s : State) : (roLoad s).mem = s.mem := by
  cases h : (roCheckTable s).2 with
  | none => rw [roLoad_pass h]; simp
  | some i => rw [roLoad_fail h]; simp

/-- A field that was just stored reads back. -/
theorem regField_setRegField_same (s : State) (p : Page) (off : Nat) {hi lo v : Nat} (hh : hi < 32) (hv : v < 2 ^ (hi + 1 - lo)) :
    regField (setRegField s p off hi lo v) p off hi lo = v := by
  rw [regField, regVal_setRegField_same, field_setField_same _ _ hh, Nat.mod_eq_of_lt hv]

/-- What a load shows (R446). -/
theorem roLoad_effect (s : State) :
    ((roCheckTable s).2 = none → (roLoad s).roster = tableLoaded s (roCheckTable s).1 ∧
      regField (roLoad s) roPage 0x114 23 16 = statusCode .ok ∧ Counted s (roLoad s) roPage 6 1) ∧
    (∀ i, (roCheckTable s).2 = some i → (roLoad s).roster = s.roster ∧ regVal (roLoad s) roPage 0x11C = BitVec.ofNat 32 i ∧
      regField (roLoad s) roPage 0x114 23 16 = statusCode .range ∧ Flagged (roLoad s) roPage 0 ∧ Counted s (roLoad s) roPage 7 1) := by
  refine ⟨fun h => ?_, fun i h => ?_⟩
  · rw [roLoad_pass h]
    refine ⟨rfl, ?_, counted_ctrAdd rfl roPage 6 (by decide)⟩
    exact (regField_congr (ctrAdd_regs _ _ _ _) _ _ _ _).trans (regField_setRegField_same s roPage 0x114 (by decide) (by decide))
  · rw [roLoad_fail h]
    set u := setReg (setRegField s roPage 0x114 23 16 (statusCode .range)) roPage 0x11C (BitVec.ofNat 32 i) with hu
    have hoff : ∀ o, o ≠ 0x010 → regVal (ctrAdd (setFlag u roPage 0) roPage 7 1) roPage o = regVal u roPage o := fun o ho => by
      rw [regVal_congr (ctrAdd_regs _ _ _ _), regVal_setFlag_ne _ _ _ (by rwa [Ne, regKey_inj, eq_comm])]
    refine ⟨by simp [hu], ?_, ?_, ?_, counted_ctrAdd (by rw [setFlag_ctrs, hu]; rfl) roPage 7 (by decide)⟩
    · rw [hoff _ (by decide), hu, regVal_setReg_same]
    · rw [regField, hoff _ (by decide), hu, regVal_setReg_off _ _ _ (by decide)]
      exact regField_setRegField_same s roPage 0x114 (by decide) (by decide)
    · rw [Flagged, regBit_congr (ctrAdd_regs _ _ _ _)]
      exact flagged_setFlag u roPage 0 (by decide)

/-! ### RO_CTRL (R455) -/

theorem roState_setRoState (s : State) {n : Nat} (h : n < 16) : roState (setRoState s n) = n := by
  rw [roState, setRoState, pgState_setBusy, pgState_setPgState, Nat.mod_eq_of_lt h]

theorem setRoState_frame (s : State) (n : Nat) : setRoState s n = { s with regs := (setRoState s n).regs } := by
  unfold setRoState
  rw [setPgState_frame s roPage n]
  rfl

theorem accept_roCtrl (s : State) (v : Word) : ∃ w, accept s roPage 0x100 v = roEnable (setReg s roPage 0x100 w) (bit v 0) := ⟨_, rfl⟩

theorem exec_rosterEnable {en : Bool} (h : Accepted s r roPage 0x100 (if en then 1 else 0)) :
    ∃ w, exec (.rosterEnable r en) s = .next (answer (roEnable (setReg s roPage 0x100 w) en) .ok 0) := by
  obtain ⟨w, hw⟩ := accept_roCtrl s (if en then 1 else 0)
  rw [bit_enable] at hw
  exact ⟨w, congrArg Host.Outcome.next ((regWrite_accept h).trans (congrArg (answer · .ok 0) hw))⟩

theorem roEnable_frame (s : State) (en : Bool) :
    roEnable s en = { s with regs := (roEnable s en).regs, roster := { s.roster with stop := !en } } := by
  unfold roEnable
  dsimp only
  split_ifs
  · rw [setRoState_frame]; rfl
  · rfl
  · rw [setRoState_frame]
  · rfl

theorem roEnable_arms (h : roState s = roOff) : roState (roEnable s true) = roArmed ∧ regVal (roEnable s true) roPage 0x118 = 0 := by
  unfold roEnable
  rw [if_pos rfl, if_pos h]
  exact ⟨(pgState_setReg_off (by decide) (by decide) _).trans (roState_setRoState _ (by decide)), regVal_setReg_same _ _ _ _⟩

theorem roEnable_disarms (h : roState s = roArmed) : roState (roEnable s false) = roOff := by
  unfold roEnable
  rw [if_neg (by decide), if_pos h]
  exact roState_setRoState _ (by decide)

theorem roEnable_runs (en : Bool) (h : roState s = roRun) : roState (roEnable s en) = roRun := by
  unfold roEnable
  have ho : roState s ≠ roOff := by rw [h]; decide
  have ha : roState s ≠ roArmed := by rw [h]; decide
  dsimp only
  rw [if_neg ho, if_neg ha, ite_self]
  exact h

/-! ### SB_QUERY (R457) -/

/-- The fields of a register that software may write keep what is written. -/
theorem field_storedBits_rw (s : State) {p : Page} {off hi lo : Nat} {row : RegRow} {v : Word} (hh : hi < 32)
    (hm : ∀ n, n ≤ hi → bit (row.rw ||| row.rwl) n = true) (hw : ∀ n, n ≤ hi → bit row.w1c n = false) :
    field (storedBits s p off row v) hi lo = field v hi lo := by
  apply Nat.eq_of_testBit_eq
  intro i
  rw [testBit_field, testBit_field]
  by_cases hi' : i < hi + 1 - lo
  · exact congrArg (decide (i < hi + 1 - lo) && ·) (bit_storedBits_rw s (by omega) (hm _ (by omega)) (hw _ (by omega)))
  · simp [hi']

def sbQueryRow : RegRow := { name := "SB_QUERY", first := 0x110, rw := 0xFF }

theorem exec_sbQuery {p : Part} {w : Word} (h : Accepted s r (sbPage p) 0x110 w) :
    exec (.sbQuery r p w) s = .next (answer (setReg s (sbPage p) 0x110 (storedBits s (sbPage p) 0x110 sbQueryRow w)) .ok 0) :=
  congrArg Host.Outcome.next (regWrite_accept h)

theorem field_sbQuery (s : State) (p : Nat) (w : Word) : field (storedBits s (sbPage p) 0x110 sbQueryRow w) 7 0 = field w 7 0 := by
  refine field_storedBits_rw s (by decide) (fun n hn => ?_) (fun n hn => ?_) <;> interval_cases n <;> rfl

theorem sbQstat_of_query {p q : Nat} {j : Job} (hq : regField t (sbPage p) 0x110 7 0 = q) (hj : jobOf t (jobKey p q) = some j) :
    sbQstat t p = BitVec.ofNat 32 (j.state + statusCode j.status * 256) := by
  rw [sbQstat, hq, hj]

end

/-! ### The beginning of a major frame (R445, R455) -/

section
variable {s t : State}

theorem quietSwitch_frame (s : State) (h : Nat) : quietSwitch s h = { s with regs := (quietSwitch s h).regs, fb := (quietSwitch s h).fb } := by
  unfold quietSwitch
  split <;> rfl

/-- A quiet table that comes into force changes FB_QUIET alone. -/
theorem regVal_quietSwitch (s : State) (h : Nat) (p : Page) {o : Nat} (ho : o < 0x1000) (hne : 0x104 ≠ o) : regVal (quietSwitch s h) p o = regVal s p o := by
  unfold quietSwitch
  split
  · rfl
  · exact regVal_setReg_ne _ _ _ _ (regKey_ne_of_off (by decide) ho hne)

/-- The registers, counters and roster of a frame that begins, before the quiet tables of both stacks come into force. -/
def frameBegun (s : State) (start : Nat) : State :=
  let t := { s with roster := { s.roster with frame0 := start, table := s.roster.pend.orElse fun _ => s.roster.table, pend := none } }
  ctrAdd (setReg t roPage 0x118 (regVal t roPage 0x118 + 1)) roPage 1 1

theorem beginFrame_eq (s : State) (start : Nat) : beginFrame s start = quietSwitch (quietSwitch (frameBegun s start) 0) 1 := rfl

theorem beginFrame_frame (s : State) (start : Nat) :
    beginFrame s start = { frameBegun s start with regs := (beginFrame s start).regs, fb := (beginFrame s start).fb } := by
  rw [beginFrame_eq, quietSwitch_frame, quietSwitch_frame (frameBegun s start)]

theorem beginFrame_roster (s : State) (start : Nat) : (beginFrame s start).roster =
    { s.roster with frame0 := start, table := s.roster.pend.orElse fun _ => s.roster.table, pend := none } := by
  rw [beginFrame_frame, frameBegun]
  simp

theorem beginFrame_mem (s : State) (start : Nat) : (beginFrame s start).mem = s.mem := by
  rw [beginFrame_frame, frameBegun]
  simp

theorem counted_beginFrame (s : State) (start : Nat) : Counted s (beginFrame s start) roPage 1 1 := by
  rw [beginFrame_frame]
  exact counted_ctrAdd rfl roPage 1 (by decide)

theorem regVal_beginFrame (s : State) (start : Nat) {o : Nat} (ho : o < 0x1000) (hne : 0x104 ≠ o) :
    regVal (beginFrame s start) roPage o = regVal (setReg s roPage 0x118 (regVal s roPage 0x118 + 1)) roPage o := by
  rw [beginFrame_eq, regVal_quietSwitch _ _ _ ho hne, regVal_quietSwitch _ _ _ ho hne]
  exact regVal_congr (ctrAdd_regs _ _ _ _) _ _

theorem roState_beginFrame (s : State) (start : Nat) : roState (beginFrame s start) = roState s := by
  rw [roState, pgState, regField, regVal_beginFrame s start (by decide) (by decide), regVal_setReg_off _ _ _ (by decide)]
  rfl

theorem frameNumber_beginFrame (s : State) (start : Nat) : regVal (beginFrame s start) roPage 0x118 = regVal s roPage 0x118 + 1 := by
  rw [regVal_beginFrame s start (by decide) (by decide), regVal_setReg_same]

/-! ### ROSTER_ORIGIN_REACHED and MAJOR_FRAME_BOUNDARY (R455) -/

theorem setRoState_ctrs (s : State) (n : Nat) : (setRoState s n).ctrs = s.ctrs := by rw [setRoState_frame]
theorem setRoState_roster (s : State) (n : Nat) : (setRoState s n).roster = s.roster := by rw [setRoState_frame]
theorem setRoState_mem (s : State) (n : Nat) : (setRoState s n).mem = s.mem := by rw [setRoState_frame]

/-- The start of the frame of the series of RO_ORIGIN that the present tick lies in. -/
def presentFrame (s : State) : Nat := now s - (((now s : Int) - roOrigin s) % frameTicks).toNat

/-- The roster as it enters RUN in the frame that started in a given tick: with a frame that begins now, or late, in the middle of one. -/
def enteredRun (s : State) (start : Nat) : State :=
  if start = now s then beginFrame (setRoState s roRun) start
  else { setRoState s roRun with roster := { (setRoState s roRun).roster with frame0 := start, late := some (now s) } }

theorem exec_rosterOriginReached (ha : roState s = roArmed) (hr : devRunning s = true) (ho : reachedAt s (roOrigin s) = true) :
    exec .rosterOriginReached s = .next (enteredRun s (presentFrame s)) := by
  have hc : ¬ (roState s ≠ roArmed ∨ (!devRunning s) = true ∨ (!reachedAt s (roOrigin s)) = true) := by simp [ha, hr, ho]
  change execRosterOriginReached s = _
  unfold execRosterOriginReached enteredRun presentFrame
  dsimp only
  rw [if_neg hc]

theorem enteredRun_effect (s : State) (start : Nat) :
    roState (enteredRun s start) = roRun ∧ (enteredRun s start).roster.frame0 = start ∧ (enteredRun s start).mem = s.mem ∧
      (start = now s → Counted s (enteredRun s start) roPage 1 1 ∧ (enteredRun s start).roster.pend = none) ∧
      (start ≠ now s → (enteredRun s start).roster.late = some (now s)) := by
  have hrun := roState_setRoState s (n := roRun) (by decide)
  unfold enteredRun
  split_ifs with h
  · refine ⟨(roState_beginFrame _ _).trans hrun, ?_, ?_, fun _ => ⟨?_, ?_⟩, fun hn => absurd h hn⟩
    · rw [beginFrame_roster]
    · rw [beginFrame_mem, setRoState_mem]
    · have hc := counted_beginFrame (setRoState s roRun) start
      rwa [Counted, ctrVal_congr (setRoState_ctrs s roRun)] at hc
    · rw [beginFrame_roster]
  · exact ⟨hrun, rfl, setRoState_mem s roRun, fun hp => absurd hp h, fun _ => rfl⟩

/-- The offset into a frame is not negative and, on a frame's first tick, zero. -/
theorem presentFrame_eq_now (s : State) (h : ((now s : Int) - roOrigin s) % frameTicks = 0) : presentFrame s = now s := by
  rw [presentFrame, h]; rfl

theorem presentFrame_ne_now (s : State) (h : ((now s : Int) - roOrigin s) % frameTicks ≠ 0) (hn : 0 < now s) : presentFrame s ≠ now s := by
  have hpos : 0 ≤ ((now s : Int) - roOrigin s) % frameTicks := Int.emod_nonneg _ (by decide)
  unfold presentFrame
  omega

/-- A frame's boundary: a stopping roster goes to OFF with its pending table in force, any other begins its next frame. -/
def frameEnded (s : State) : State :=
  if s.roster.stop then
    { setRoState s roOff with roster := { (setRoState s roOff).roster with
        table := (setRoState s roOff).roster.pend.orElse (fun _ => (setRoState s roOff).roster.table), pend := none } }
  else beginFrame s (s.roster.frame0 + frameTicks)

theorem exec_majorFrameBoundary (ha : roState s = roRun) (hr : devRunning s = true) (ho : reachedAt s (s.roster.frame0 + frameTicks) = true) :
    exec .majorFrameBoundary s = .next (frameEnded s) := by
  refine congrArg Host.Outcome.next (if_neg ?_)
  simp [ha, hr, ho]

theorem frameEnded_effect (h : roState s = roRun) :
    (frameEnded s).roster.table = (s.roster.pend.orElse fun _ => s.roster.table) ∧ (frameEnded s).roster.pend = none ∧
      (s.roster.stop = true → roState (frameEnded s) = roOff ∧ (frameEnded s).roster.frame0 = s.roster.frame0) ∧
      (s.roster.stop = false → roState (frameEnded s) = roRun ∧ (frameEnded s).roster.frame0 = s.roster.frame0 + frameTicks ∧
        regVal (frameEnded s) roPage 0x118 = regVal s roPage 0x118 + 1 ∧ Counted s (frameEnded s) roPage 1 1) ∧ (frameEnded s).mem = s.mem := by
  unfold frameEnded
  cases hs : s.roster.stop with
  | true =>
    rw [if_pos rfl, setRoState_roster]
    exact ⟨rfl, rfl, fun _ => ⟨roState_setRoState s (by decide), rfl⟩, nofun, setRoState_mem s roOff⟩
  | false =>
    rw [if_neg (by decide), beginFrame_roster]
    exact ⟨rfl, rfl, nofun, fun _ => ⟨(roState_beginFrame _ _).trans h, rfl, frameNumber_beginFrame _ _, counted_beginFrame _ _⟩, beginFrame_mem _ _⟩

end

/-! ### The cores of a window (R98, R99, R449) -/

section
variable {s t : State} {k q : CoreId} {part : Nat} {locked : Bool}

/-- Who owns a core's page, and whether its owner is locked. -/
def OwnedBy (s : State) (k : CoreId) (part : Nat) (locked : Bool) : Prop :=
  pageOwner s (corePage k) = part ∧ pageLocked s (corePage k) = locked

/-- The owner of one core's page changes its PG_OWNER, and the base of the window of its counters. -/
theorem giveCore_frame (s : State) (k : CoreId) (part : Nat) (locked : Bool) :
    giveCore s k part locked = { s with regs := (giveCore s k part locked).regs, cnt := (giveCore s k part locked).cnt } := rfl

theorem giveCore_regs (s : State) (k : CoreId) (part : Nat) (locked : Bool) : (giveCore s k part locked).regs =
    (setRegField (setRegField s (corePage k) 0x020 3 0 part) (corePage k) 0x020 8 8 locked.toNat).regs := rfl

theorem regVal_giveCore_ne {p : Page} {o : Nat} (h : regKey (corePage k) 0x020 ≠ regKey p o) :
    regVal (giveCore s k part locked) p o = regVal s p o :=
  (regVal_setReg_ne _ _ _ _ h).trans (regVal_setReg_ne _ _ _ _ h)

theorem ownedBy_giveCore_same (hp : part < 16) : OwnedBy (giveCore s k part locked) k part locked := by
  have hreg : regVal (giveCore s k part locked) (corePage k) 0x020 =
      setField (setField (regVal s (corePage k) 0x020) 3 0 part) 8 8 locked.toNat := by
    rw [regVal_congr (giveCore_regs s k part locked), regVal_setRegField_same, regVal_setRegField_same]
  constructor
  · rw [pageOwner, regField, hreg, field_setField_ne _ _ (by decide), field_setField_same _ _ (by decide)]
    exact Nat.mod_eq_of_lt hp
  · rw [pageLocked, regBit, hreg, bit_setField]
    cases locked <;> rfl

theorem OwnedBy.giveCore (hp : part < 16) (hk : k ∈ allCores) (hq : q ∈ allCores) (h : OwnedBy s k part locked) :
    OwnedBy (giveCore s q part locked) k part locked := by
  by_cases hqk : q = k
  · exact hqk ▸ ownedBy_giveCore_same hp
  · have hne : regVal (Machine.giveCore s q part locked) (corePage k) 0x020 = regVal s (corePage k) 0x020 :=
      regVal_giveCore_ne (regKey_ne (corePage_ok q hq) (corePage_ok k hk) (by decide) (by decide) (.inl fun e => hqk (corePage_inj e)))
    exact ⟨(congrArg (field · 3 0) hne).trans h.1, (congrArg (bit · 8) hne).trans h.2⟩

/-- Cores that change hands one after another. -/
def giveCores (s : State) (ks : List CoreId) (part : Nat) (locked : Bool) : State := ks.foldl (fun x k => giveCore x k part locked) s

theorem ownedBy_giveCores (hp : part < 16) (hk : k ∈ allCores) : ∀ (ks : List CoreId) (s : State), (∀ q ∈ ks, q ∈ allCores) →
    (k ∈ ks ∨ OwnedBy s k part locked) → OwnedBy (giveCores s ks part locked) k part locked
  | [], _, _, h => h.resolve_left List.not_mem_nil
  | q :: ks, s, hks, h => by
    refine ownedBy_giveCores hp hk ks _ (fun x hx => hks x (.tail _ hx)) ?_
    rcases h with h | h
    · rcases List.mem_cons.1 h with rfl | h
      · exact .inr (ownedBy_giveCore_same hp)
      · exact .inl h
    · exact .inr (h.giveCore hp hk (hks q (.head _)))

theorem giveCores_frame (s : State) (ks : List CoreId) (part : Nat) (locked : Bool) :
    giveCores s ks part locked = { s with regs := (giveCores s ks part locked).regs, cnt := (giveCores s ks part locked).cnt } :=
  List.foldlRecOn (motive := fun t : State => t = { s with regs := t.regs, cnt := t.cnt }) _ _ rfl fun t ht k _ => by
    rw [giveCore_frame, ht]

/-- A core that changes hands leaves the state of every page. -/
theorem pgState_giveCores (s : State) (ks : List CoreId) (part : Nat) (locked : Bool) (p : Page) :
    pgState (giveCores s ks part locked) p = pgState s p :=
  foldl_leaves (pgState · p) (fun _ _ => congrArg (field · 7 4) (regVal_giveCore_ne (regKey_ne_of_off (by decide) (by decide) (by decide)))) ks s

theorem groupCores_subset (s : State) (g : Nat) : ∀ k ∈ groupCores s g, k ∈ allCores := fun _ hk => (List.mem_filter.1 hk).1

/-- The members of a group stand in the layout. -/
theorem groupCores_congr (h : t.dev = s.dev) (g : Nat) : groupCores t g = groupCores s g := by
  simp only [groupCores, groupOf, coreAssign, h]

end

/-! ### ROSTER_BOUNDARY (R448, R450, R451) -/

section
variable {s : State} {g : Nat}

/-- The state of a roster without the window of a group. -/
def windowClosed (s : State) (g : Nat) : State := { s with roster := { s.roster with wins := smDel s.roster.wins g } }

/-- The overrun of a window is judged at the tick's boundary. -/
theorem endWindow_eq (s : State) (g : Nat) : endWindow s g =
    { giveCores (windowClosed s g) (groupCores s g) 0 true with atTick := (endWindow s g).atTick } := by
  unfold endWindow
  dsimp only
  split_ifs <;> rfl

theorem roState_endWindow (s : State) (g : Nat) : roState (endWindow s g) = roState s := by
  rw [endWindow_eq]
  exact pgState_giveCores (windowClosed s g) (groupCores s g) 0 true roPage

theorem endWindow_effect (s : State) (g : Nat) :
    windowOf (endWindow s g) g = none ∧ (∀ h, h ≠ g → windowOf (endWindow s g) h = windowOf s h) ∧
      (∀ k ∈ groupCores s g, OwnedBy (endWindow s g) k 0 true) ∧ (endWindow s g).mem = s.mem := by
  have hwins : (endWindow s g).roster.wins = smDel s.roster.wins g := by rw [endWindow_eq, giveCores_frame]; rfl
  refine ⟨?_, fun h hne => ?_, fun k hk => ?_, ?_⟩
  · rw [windowOf, hwins, smFind_smDel_same]
  · rw [windowOf, hwins, smFind_smDel_ne _ hne.symm, windowOf]
  · rw [endWindow_eq]
    exact ownedBy_giveCores (by decide) (groupCores_subset s g k hk) _ (windowClosed s g) (groupCores_subset s g) (.inl hk)
  · rw [endWindow_eq, giveCores_frame]; rfl

theorem exec_rosterBoundary_end {w : WinNow} (hr : devRunning s = true) (hw : s.roster.wins.filter (fun x => reachedAt s x.2.stop) = [(g, w)])
    (hn : roState s ≠ roRun) : exec .rosterBoundary s = .next (endWindow s g) := by
  have hn' : roState (endWindow s g) ≠ roRun := by rwa [roState_endWindow]
  refine congrArg Host.Outcome.next ?_
  rw [hr, hw]
  exact (if_neg (by decide)).trans (if_pos (.inl hn'))

theorem exec_rosterBoundary_begin {i : Nat} {e : RoEntry} (hr : devRunning s = true) (hw : s.roster.wins.filter (fun x => reachedAt s x.2.stop) = [])
    (hrun : roState s = roRun) (hl : s.roster.late ≠ some (now s))
    (he : ((List.range (roEntries s).length).zip (roEntries s)).filter (fun x => reachedFirst s (s.roster.frame0 + x.2.start)) = [(i, e)]) :
    exec .rosterBoundary s = .next (beginEntry s i e) := by
  refine congrArg Host.Outcome.next ?_
  rw [hr, hw]
  refine (if_neg (by decide)).trans ((if_neg (not_or.2 ⟨not_not_intro hrun, hl⟩)).trans ?_)
  dsimp only [List.foldl_nil]
  rw [he]
  rfl

/-- The state of a roster with a window put in force, its entry shown in RO_STAT. -/
def windowOpened (s : State) (i : Nat) (e : RoEntry) : State :=
  { setRegField s roPage 0x114 9 0 i with
    roster := { s.roster with wins := smPut s.roster.wins e.group ⟨e.part, e.slot, s.roster.frame0 + e.start + e.dur⟩ } }

theorem beginEntry_window {i : Nat} {e : RoEntry} (hk : e.kind = 1)
    (hw : windowOf s e.group ≠ some ⟨e.part, e.slot, s.roster.frame0 + e.start + e.dur⟩) :
    beginEntry s i e = ctrAdd (giveCores (windowOpened s i e) (groupCores s e.group) e.part false) roPage 2 1 := by
  unfold beginEntry
  rw [if_pos hk, if_neg hw]
  rfl

theorem beginEntry_window_effect {i : Nat} {e : RoEntry} (hk : e.kind = 1) (hp : e.part < 16)
    (hw : windowOf s e.group ≠ some ⟨e.part, e.slot, s.roster.frame0 + e.start + e.dur⟩) :
    windowOf (beginEntry s i e) e.group = some ⟨e.part, e.slot, s.roster.frame0 + e.start + e.dur⟩ ∧ Counted s (beginEntry s i e) roPage 2 1 ∧
      (∀ h, h ≠ e.group → windowOf (beginEntry s i e) h = windowOf s h) ∧
      (∀ k ∈ groupCores s e.group, OwnedBy (beginEntry s i e) k e.part false) ∧ (beginEntry s i e).mem = s.mem := by
  rw [beginEntry_window hk hw]
  have hf := giveCores_frame (windowOpened s i e) (groupCores s e.group) e.part false
  set u := giveCores (windowOpened s i e) (groupCores s e.group) e.part false with hu
  have hwins : (ctrAdd u roPage 2 1).roster.wins = smPut s.roster.wins e.group ⟨e.part, e.slot, s.roster.frame0 + e.start + e.dur⟩ := by
    rw [ctrAdd_roster, hf]; rfl
  refine ⟨?_, counted_ctrAdd (by rw [hf]; rfl) roPage 2 (by decide), fun h hne => ?_, fun k hk => ?_, ?_⟩
  · rw [windowOf, hwins, smFind_smPut_same]
  · rw [windowOf, hwins, smFind_smPut_ne _ _ hne.symm, windowOf]
  · obtain ⟨ho, hl⟩ := ownedBy_giveCores hp (groupCores_subset s _ k hk) _ (windowOpened s i e) (groupCores_subset s _) (.inl hk) (locked := false)
    exact ⟨(pageOwner_congr (ctrAdd_regs _ _ _ _) _).trans ho, (regBit_congr (ctrAdd_regs _ _ _ _) _ _ _).trans hl⟩
  · rw [ctrAdd_mem, hf]; rfl

theorem beginEntry_canary_effect {i : Nat} {e : RoEntry} (hk : e.kind = 2) (hc : s.roster.canaryEnd ≠ s.roster.frame0 + e.start + e.dur) :
    (beginEntry s i e).roster.canaryEnd = s.roster.frame0 + e.start + e.dur ∧ (beginEntry s i e).fb.canDue = s.fb.canDue ++ [now s] ∧
      Counted s (beginEntry s i e) roPage 4 1 ∧ (beginEntry s i e).mem = s.mem := by
  unfold beginEntry
  rw [if_neg (by rw [hk]; decide), if_neg hc]
  refine ⟨by simp, by simp [now], ?_, by simp⟩
  exact counted_ctrAdd rfl roPage 4 (by decide)

end

/-- Settles O49, command by command: the loading and enabling of the roster come down to `roLoad` and `roEnable` behind an accepted write, and the
boundaries to a frame that begins, to cores that change hands, or to a canary entry that falls due. -/
theorem rosterEffects : Obligations.RosterEffects := by
  unfold Obligations.RosterEffects
  refine ⟨fun s r h => ?load, fun s r en h => ?enable, fun s r p w h => ?query, fun s ha hr ho => ?origin, fun s ha hr ho => ?frame,
    fun s g w hr hw hn => ?windowEnds, fun s i e hr hw hrun hl he => ⟨fun hk hp hne => ?windowBegins, fun hk hc => ?canary⟩⟩
  case load =>
    obtain ⟨w, he⟩ := exec_rosterLoad h
    obtain ⟨hpass, hfail⟩ := roLoad_effect (setReg s roPage 0x110 w)
    rw [roCheckTable_setReg] at hpass hfail
    rw [show tableLoaded (setReg s roPage 0x110 w) = tableLoaded s from funext fun es => by rw [tableLoaded, roState_setReg_cmd, tableLoaded]; rfl] at hpass
    have hmem := roLoad_mem (setReg s roPage 0x110 w)
    generalize roLoad (setReg s roPage 0x110 w) = t at he hpass hfail hmem
    exact ⟨_, he, hpass, hfail, hmem⟩
  case enable =>
    obtain ⟨w, he⟩ := exec_rosterEnable h
    have hst : roState (setReg s roPage 0x100 w) = roState s := pgState_setReg_off (by decide) (by decide) w
    have hf := roEnable_frame (setReg s roPage 0x100 w) en
    refine ⟨_, he, congrArg State.roster hf, ?_, ?_, fun hs => roEnable_runs en (hst.trans hs), ?_⟩
    · rintro rfl hs
      exact roEnable_arms (hst.trans hs)
    · rintro rfl hs
      exact roEnable_disarms (hst.trans hs)
    · rw [hf]; rfl
  case query =>
    have hq : regField (answer (setReg s (sbPage p) 0x110 (storedBits s (sbPage p) 0x110 sbQueryRow w)) .ok 0) (sbPage p) 0x110 7 0 = field w 7 0 :=
      (congrArg (field · 7 0) (regVal_setReg_same s (sbPage p) 0x110 _)).trans (field_sbQuery s p w)
    exact ⟨_, exec_sbQuery h, hq, fun j hj => sbQstat_of_query hq hj, regsBut_setReg (regsBut_refl _ s) (.head _) _, rfl⟩
  case origin =>
    obtain ⟨hrun, hf, hm, hnow, hlate⟩ := enteredRun_effect s (presentFrame s)
    exact ⟨_, exec_rosterOriginReached ha hr ho, hrun, hf, fun hz => hnow (presentFrame_eq_now s hz), fun hz h0 => hlate (presentFrame_ne_now s hz h0), hm⟩
  case frame => exact ⟨_, exec_majorFrameBoundary ha hr ho, frameEnded_effect ha⟩
  case windowEnds => exact ⟨_, exec_rosterBoundary_end hr hw hn, endWindow_effect s g⟩
  case windowBegins => exact ⟨_, exec_rosterBoundary_begin hr hw hrun hl he, beginEntry_window_effect hk hp hne⟩
  case canary => exact ⟨_, exec_rosterBoundary_begin hr hw hrun hl he, beginEntry_canary_effect hk hc⟩

end Sys2Proof.Machine
end

section
/-! PROOFS. The host's windows and the interface units (R430, R536, R633, R634, R639, R650 to R652, R673): what a tier-window access returns or writes,
what a ring write stores, and how a unit's state follows its link. -/

namespace Sys2Proof.Machine

/-! ### What an access counts (R261) -/

section
variable {s : State}

/-- An access to Gallery or Drift is counted, and no more. -/
theorem countAccess_eq_ctrAdd {t : Tier} (h : t ≠ .seam) (part frame addr len : Nat) (write : Bool) (port : Nat) :
    ∃ q slot k, countAccess s t part frame addr len write port = ctrAdd s q slot k := by
  cases t with
  | gallery => exact ⟨_, _, _, rfl⟩
  | drift => exact ⟨_, _, _, rfl⟩
  | seam => exact absurd rfl h

/-- A read of a unit wears its block and is counted. -/
theorem readUnit_leaves (s : State) (part lpn off bits : Nat) (soft : Bool) :
    (readUnit s part lpn off bits soft).regs = s.regs ∧ (readUnit s part lpn off bits soft).mem.cells = s.mem.cells := by
  unfold readUnit
  split
  · simp [countRead, setWear]
  · exact ⟨rfl, rfl⟩

theorem countAccess_leaves (s : State) (t : Tier) (part frame addr len : Nat) (write : Bool) (port : Nat) :
    (countAccess s t part frame addr len write port).regs = s.regs ∧
      (countAccess s t part frame addr len write port).mem.cells = s.mem.cells := by
  cases t with
  | gallery => exact ⟨ctrAdd_regs _ _ _ _, by rw [countAccess, ctrAdd_mem]⟩
  | drift => exact ⟨ctrAdd_regs _ _ _ _, by rw [countAccess, ctrAdd_mem]⟩
  | seam =>
    obtain ⟨hr, hc⟩ := readUnit_leaves s part frame (addr % pageBytes) 0 false
    unfold countAccess
    split_ifs
    · exact ⟨rfl, rfl⟩
    · exact ⟨(ctrAdd_regs _ _ _ _).trans hr, (congrArg MemSt.cells (ctrAdd_mem _ _ _ _)).trans hc⟩

end

/-! ### A window access that fails (R634) -/

section
variable (s : State) (n off : Nat) (st : Status)

theorem counted_twFail : Counted s (twFail s n off st) pciePage 4 1 := counted_ctrAdd rfl pciePage 4 (by decide)

theorem regVal_twFail : regVal (twFail s n off st) (partPage n) 0x784 = BitVec.ofNat 32 (statusCode st * 65536 + off / pageBytes % 65536) :=
  (regVal_congr (ctrAdd_regs _ _ _ _) _ _).trans (regVal_rcEvent_same _ _ _ _)

theorem regsBut_twFail : RegsBut [regKey (partPage n) 0x784] s (twFail s n off st) :=
  regsBut_ctrAdd (regsBut_rcEvent (regsBut_refl _ s) (.head _) _) _ _

theorem onlyBlock_twFail : OnlyBlock s (twFail s n off st) := onlyBlock_trans (onlyBlock_rcEvent _ _ _ _) (onlyBlock_ctrAdd _ _ _ _)

end

/-! ### TIER_WINDOW_READ (R634) -/

section
variable {s : State} {n : Part} {off : BitVec 29} {size : AccSize}

/-- The status of a window read: what stops it before its pages do, else theirs. -/
def twReadStatus (s : State) (n : Part) (a k : Nat) : Status := (twStop s n.val a).getD (readRange s n.val a k)

/-- What a window read of a partition that is not confidential does. -/
def windowRead (s : State) (n : Part) (off : Nat) (k : Nat) : State :=
  let a := twAddr s n.val off
  let e := pteOf s n.val (vpnOf a)
  if twReadStatus s n a k = .ok then
    answer (countAccess s e.home n.val (homeFrame e) a k false 0) .ok (BitVec.ofNat 64 (bytesNat (windowBytes s n.val a k)))
  else answer (twFail s n.val off (twReadStatus s n a k)) (twReadStatus s n a k) 0

theorem exec_tierWindowRead (hb : barOpen s = true) : exec (.tierWindowRead n off size) s =
    .next (if confidential s n.val then answer s .ok 0 else windowRead s n off.toNat (sizeBytes size)) := by
  refine congrArg Host.Outcome.next ((if_neg (by simp [hb])).trans ?_)
  unfold windowRead twReadStatus
  dsimp only
  generalize twStop s n.val (twAddr s n.val off.toNat) = x
  cases x <;> cases size <;> rfl

theorem windowRead_ok {o k : Nat} (h : twReadStatus s n (twAddr s n.val o) k = .ok) :
    (windowRead s n o k).reply = ⟨.ok, BitVec.ofNat 64 (bytesNat (windowBytes s n.val (twAddr s n.val o) k))⟩ ∧ RegsBut [] s (windowRead s n o k) ∧
      (windowRead s n o k).mem.cells = s.mem.cells ∧
      ((pteOf s n.val (vpnOf (twAddr s n.val o))).home ≠ .seam → windowRead s n o k = { withBlock (windowRead s n o k) s with reply := (windowRead s n o k).reply }) := by
  unfold windowRead
  dsimp only
  rw [if_pos h]
  obtain ⟨hr, hc⟩ := countAccess_leaves s (pteOf s n.val (vpnOf (twAddr s n.val o))).home n.val (homeFrame (pteOf s n.val (vpnOf (twAddr s n.val o))))
    (twAddr s n.val o) k false 0
  refine ⟨rfl, fun p off _ => regVal_congr hr p off, hc, fun hs => ?_⟩
  obtain ⟨q, slot, m, he⟩ := countAccess_eq_ctrAdd (s := s) hs n.val (homeFrame (pteOf s n.val (vpnOf (twAddr s n.val o)))) (twAddr s n.val o) k false 0
  rw [he]
  exact congrArg (answer · _ _) (onlyBlock_ctrAdd s q slot m)

theorem windowRead_bad {o k : Nat} (h : twReadStatus s n (twAddr s n.val o) k ≠ .ok) :
    windowRead s n o k = answer (twFail s n.val o (twReadStatus s n (twAddr s n.val o) k)) (twReadStatus s n (twAddr s n.val o) k) 0 := if_neg h

end

/-! ### A write to a tier page that the host reaches (R213, R634) -/

section
variable {s t : State} {n a : Nat} {bs : List Byte}

/-- A list of statuses without a failure. -/
theorem firstBad_ok {l : List Status} (h : firstBad l = .ok) : ∀ x ∈ l, x = .ok := by
  unfold firstBad at h
  cases hf : l.find? (· ≠ .ok) with
  | none => simpa using List.find?_eq_none.1 hf
  | some y =>
    rw [hf] at h
    exact absurd h (by simpa using List.find?_some hf)

theorem v_of_translate {write engine kvOk : Bool} {e : Pte} (h : translate s n a write engine kvOk = .ok e) : (pteOf s n (vpnOf a)).v = true := by
  unfold translate at h
  dsimp only at h
  split at h
  · cases h
  · next hv => simpa using hv

/-- A range that may be written begins in a mapped page. -/
theorem v_of_writeRange {k : Nat} {engine kvOk : Bool} (hk : k ≠ 0) (h : writeRange s n a k engine kvOk = .ok) : (pteOf s n (vpnOf a)).v = true := by
  rw [writeRange, if_neg hk] at h
  have h0 := firstBad_ok h _ (List.mem_map.2 ⟨0, List.mem_range.2 (Nat.succ_pos _), rfl⟩)
  have hvpn : vpnOf (a - a % pageBytes + pageBytes * 0) = vpnOf a := by
    simp only [vpnOf, pageBytes]
    omega
  rw [← hvpn]
  split at h0
  · next he => exact absurd h0 (translate_error_ne_ok he)
  · next he => exact v_of_translate he

theorem EntryBecomes.v_eq {v : Nat} {e : Pte} (h : EntryBecomes s t n v e) (hv : e.v = (pteOf s n v).v) (u : Nat) : (pteOf t n u).v = (pteOf s n u).v := by
  by_cases hu : u = v
  · rw [hu, h.entry, hv]
  · rw [h.others n u (by simpa [pteKey] using hu)]

/-- A written page stays mapped. -/
theorem v_pageWritten (s : State) (n v u : Nat) : (pteOf (pageWritten s n v) n u).v = (pteOf s n u).v := by
  unfold pageWritten
  dsimp only
  split
  · have hset := (entryBecomes_setPte s n v { pteOf s n v with dv := false, sv := false, loose := false }).v_eq rfl u
    split
    · rw [pteOf_congr (ptes_of_entriesOf (entriesOf_freeFrame _ _ _)), hset]
    · exact hset
  · exact (entryBecomes_setPte s n v { pteOf s n v with sv := false }).v_eq rfl u
  · rw [pteOf_congr (ptes_of_entriesOf (entriesOf_programPage _ _ _))]

theorem v_writePage (s : State) (n a u : Nat) (bs : List Byte) : (pteOf (writePage s n a bs) n u).v = (pteOf s n u).v := by
  unfold writePage
  split_ifs
  · rfl
  · rfl
  · rw [pteOf_congr (ptes_of_entriesOf (foldl_leaves entriesOf (fun _ _ => entriesOf_setCode _ _ _ _) _ _)), v_pageWritten,
      pteOf_congr (ptes_of_entriesOf (entriesOf_writeList s n a bs))]

theorem freeFrame_free (s : State) (q : Tier) (f : Nat) : (freeFrame s q f).free = s.free := by
  unfold freeFrame
  split
  · rfl
  · cases q <;> rfl

/-- Only the programming of a Seam page draws free values. -/
theorem pageWritten_free {v : Nat} (h : (pteOf s n v).home ≠ .seam) : (pageWritten s n v).free = s.free := by
  unfold pageWritten
  dsimp only
  split
  · split
    · exact freeFrame_free _ _ _
    · rfl
  · rfl
  · next hs => exact absurd hs h

theorem writeList_free (s : State) (n a : Nat) (bs : List Byte) : (writeList s n a bs).free = s.free := by
  induction bs generalizing s a with
  | nil => rfl
  | cons b bs ih => rw [writeList, ih]; rfl

theorem setCode_free (s : State) (n a c : Nat) : (setCode s n a c).free = s.free := by
  unfold setCode
  dsimp only
  split <;> rfl

theorem writePage_free (h : (pteOf s n (vpnOf a)).home ≠ .seam) : (writePage s n a bs).free = s.free := by
  have hl : (pteOf (writeList s n a bs) n (vpnOf a)).home ≠ .seam := by rwa [pteOf_congr (ptes_of_entriesOf (entriesOf_writeList s n a bs))]
  unfold writePage
  split_ifs
  · rfl
  · rfl
  · exact (foldl_leaves State.free (fun _ _ => setCode_free _ _ _ _) _ _).trans ((pageWritten_free hl).trans (writeList_free s n a bs))

/-- A write of one page outside Seam changes counters and the tiers. -/
theorem writePage_frame (ht : OnlyBlock s t) (h : (pteOf t n (vpnOf a)).home ≠ .seam) :
    writePage t n a bs = { withBlock (writePage t n a bs) s with mem := (writePage t n a bs).mem } :=
  calc writePage t n a bs = { withBlock (writePage t n a bs) t with mem := (writePage t n a bs).mem, free := (writePage t n a bs).free } :=
        eq_of_offTier (offTier_writePage t n a bs)
    _ = { withBlock (writePage t n a bs) (withBlock t s) with mem := (writePage t n a bs).mem, free := t.free } := by rw [writePage_free h, ← ht]
    _ = { withBlock (writePage t n a bs) s with mem := (writePage t n a bs).mem } := by rw [congrArg State.free (show t = withBlock t s from ht)]; rfl

/-- The bytes of a page outside those written stand, and those written read back. -/
theorem writePage_bytes (hfit : a % pageBytes + bs.length ≤ pageBytes) (hv : (pteOf s n (vpnOf a)).v = true) (hm : (pteOf s n (vpnOf a)).mig = false) :
    (∀ i, i < bs.length → readByte (writePage s n a bs) n (a + i) = bs.getD i 0) ∧
      ∀ x, ¬ (homeAddr n (pteOf s n (vpnOf a)) + a % pageBytes ≤ x ∧ x < homeAddr n (pteOf s n (vpnOf a)) + a % pageBytes + bs.length) →
        memByte (writePage s n a bs) x = memByte s x := by
  have hcells := writePage_stores (s := s) (n := n) hfit
  have hvpn (i : Nat) (hi : i < bs.length) : vpnOf (a + i) = vpnOf a := vpnOf_add (by omega)
  have hoff (i : Nat) (hi : i < bs.length) : (a + i) % pageBytes = a % pageBytes + i := by
    have := Nat.add_mod a i pageBytes
    rw [this, Nat.mod_eq_of_lt (show i < pageBytes by omega), Nat.mod_eq_of_lt (by omega)]
  have hplace (i : Nat) (hi : i < bs.length) : placeOf s n (a + i) = homeAddr n (pteOf s n (vpnOf a)) + a % pageBytes + i := by
    rw [placeOf, hvpn i hi, hoff i hi, siteOf]
    omega
  constructor
  · intro i hi
    have hsite := siteOf_writePage (s := s) n a (vpnOf (a + i)) bs
    have hhome : homeAddr n (pteOf (writePage s n a bs) n (vpnOf (a + i))) + (a + i) % pageBytes = placeOf s n (a + i) :=
      congrArg (·.1 + (a + i) % pageBytes) hsite
    have hvt : (pteOf (writePage s n a bs) n (vpnOf (a + i))).v = true := by rw [v_writePage, hvpn i hi, hv]
    unfold readByte
    dsimp only
    rw [if_pos hvt, hcells, hhome]
    refine cellGet_storeAll_of_mem (x := (placeOf s n (a + i), bs.getD i 0)) (mem_storesOf.2 ⟨i, ⟨hi, by rw [hvpn i hi]; exact hm⟩, rfl⟩) fun y hy hyi => ?_
    obtain ⟨j, ⟨hj, -⟩, rfl⟩ := mem_storesOf.1 hy
    have hji : j = i := by
      have he : placeOf s n (a + j) = placeOf s n (a + i) := hyi
      rw [hplace j hj, hplace i hi] at he
      omega
    rw [hji]
  · intro x hx
    rw [memByte, hcells]
    refine cellGet_storeAll_of_not_mem fun y hy => ?_
    obtain ⟨j, ⟨hj, -⟩, rfl⟩ := mem_storesOf.1 hy
    rw [hplace j hj]
    omega

end

/-! ### TIER_WINDOW_WRITE (R634) -/

section
variable {s : State} {n : Part} {off : BitVec 29} {bytes : List Byte}

/-- The status of a window write: what stops it before its pages do, else theirs. -/
def twWriteStatus (s : State) (n : Part) (a k : Nat) : Status := (twStop s n.val a).getD (writeRange s n.val a k false false)

/-- What stops an access is a failure. -/
theorem writeRange_of_twWriteStatus {a k : Nat} (h : twWriteStatus s n a k = .ok) : writeRange s n.val a k false false = .ok := by
  unfold twWriteStatus twStop at h
  split_ifs at h
  · cases h
  · cases h
  · exact h

/-- A window write that fails: recorded and counted, the gathered bytes of the page given up; at a read-only keeper its flag is set. -/
def windowRefused (s : State) (n : Part) (o : Nat) (st : Status) : State :=
  let e := pteOf s n.val (vpnOf (twAddr s n.val o))
  let t := twFail (twDrop s n.val (twAddr s n.val o)) n.val o st
  if e.v ∧ e.home = .seam ∧ pgState s (keeperPageOf e.sLpn) = 2 then setFlag t (keeperPageOf e.sLpn) 2 else t

/-- What a window write to a partition that is not confidential does. -/
def windowWrite (s : State) (n : Part) (o : Nat) (bytes : List Byte) : State :=
  let a := twAddr s n.val o
  let e := pteOf s n.val (vpnOf a)
  if twWriteStatus s n a bytes.length ≠ .ok then windowRefused s n o (twWriteStatus s n a bytes.length)
  else if e.home = .seam then twSeam s n.val a o bytes
  else writeBytes (countAccess s e.home n.val (homeFrame e) a bytes.length true 0) n.val a bytes

/-- A write that one packet of the link carries. -/
def OnePacket (off : BitVec 29) (bytes : List Byte) : Prop := bytes ≠ [] ∧ bytes.length ≤ 512 ∧ off.toNat % 4096 + bytes.length ≤ 4096

theorem OnePacket.wellFormed (h : OnePacket off bytes) : ¬ (bytes.isEmpty = true ∨ bytes.length > 512 ∨ off.toNat % 4096 + bytes.length > 4096) := by
  obtain ⟨hne, hlen, hfit⟩ := h
  simp [hne]
  omega

/-- A packet lies in one page. -/
theorem OnePacket.fits (h : OnePacket off bytes) (s : State) (n : Nat) : twAddr s n off.toNat % pageBytes + bytes.length ≤ pageBytes := by
  obtain ⟨-, -, hfit⟩ := h
  unfold twAddr pageBytes
  omega

theorem exec_tierWindowWrite (hb : barOpen s = true) (h : OnePacket off bytes) : exec (.tierWindowWrite n off bytes) s =
    .next (if confidential s n.val then ctrAdd (ctrAdd s pciePage 3 1) (mbPage n.val) 7 1 else windowWrite s n off.toNat bytes) := by
  refine (if_neg h.wellFormed).trans (congrArg Host.Outcome.next ((if_neg (by simp [hb])).trans ?_))
  unfold windowWrite windowRefused twWriteStatus
  dsimp only
  generalize twStop s n.val (twAddr s n.val off.toNat) = x
  cases x <;> rfl

theorem windowRefused_effect (s : State) (n : Part) (o : Nat) (st : Status) : Counted s (windowRefused s n o st) pciePage 4 1 ∧
    (windowRefused s n o st).mem.cells = s.mem.cells ∧ (windowRefused s n o st).reply = s.reply ∧
    regVal (windowRefused s n o st) (partPage n.val) 0x784 = BitVec.ofNat 32 (statusCode st * 65536 + o / pageBytes % 65536) := by
  have hb := onlyBlock_twFail (twDrop s n.val (twAddr s n.val o)) n.val o st
  have hmem : (twFail (twDrop s n.val (twAddr s n.val o)) n.val o st).mem.cells = s.mem.cells := by rw [hb]; rfl
  have hreply : (twFail (twDrop s n.val (twAddr s n.val o)) n.val o st).reply = s.reply := by rw [hb]; rfl
  have hc : Counted s (twFail (twDrop s n.val (twAddr s n.val o)) n.val o st) pciePage 4 1 := counted_ctrAdd rfl pciePage 4 (by decide)
  have hreg := regVal_twFail (twDrop s n.val (twAddr s n.val o)) n.val o st
  unfold windowRefused
  dsimp only
  split
  · refine ⟨?_, by rw [setFlag_mem, hmem], by rw [setFlag_reply, hreply], ?_⟩
    · rwa [Counted, ctrVal_congr (setFlag_ctrs _ _ _)]
    · rw [regVal_setFlag_ne _ _ _ (regKey_ne_of_off (by decide) (by decide) (by decide)), hreg]
  · exact ⟨hc, hmem, hreply, hreg⟩

theorem writeBytes_reply (s : State) (n a : Nat) (bs : List Byte) : (writeBytes s n a bs).reply = s.reply := by
  rw [eq_of_offTier (offTier_writeBytes s n a bs)]; rfl

theorem twSeam_reply (s : State) (n a o : Nat) (bytes : List Byte) : (twSeam s n a o bytes).reply = s.reply := by
  unfold twSeam
  dsimp only
  split_ifs
  · rw [onlyBlock_twFail (twDrop s n a) n o .range]; rfl
  · rfl
  · rfl
  · exact writeBytes_reply _ _ _ _

theorem countAccess_write_reply (s : State) (t : Tier) (part frame addr len port : Nat) :
    (countAccess s t part frame addr len true port).reply = s.reply := by
  cases t with
  | gallery => exact ctrAdd_reply _ _ _ _
  | drift => exact ctrAdd_reply _ _ _ _
  | seam => rfl

/-- A window write is posted: it answers nothing. -/
theorem windowWrite_reply (s : State) (n : Part) (o : Nat) (bytes : List Byte) : (windowWrite s n o bytes).reply = s.reply := by
  unfold windowWrite
  dsimp only
  split_ifs
  · obtain ⟨-, -, hr, -⟩ := windowRefused_effect s n o (twWriteStatus s n (twAddr s n.val o) bytes.length)
    exact hr
  · exact twSeam_reply _ _ _ _ _
  · rw [writeBytes_reply, countAccess_write_reply]

section
variable {o : Nat} (hok : twWriteStatus s n (twAddr s n.val o) bytes.length = .ok)
include hok

/-- A write to a page outside Seam is counted, and its bytes stored. -/
theorem windowWrite_stored (hs : (pteOf s n.val (vpnOf (twAddr s n.val o))).home ≠ .seam) :
    ∃ q slot k, windowWrite s n o bytes = writeBytes (ctrAdd s q slot k) n.val (twAddr s n.val o) bytes := by
  obtain ⟨q, slot, k, he⟩ := countAccess_eq_ctrAdd (s := s) hs n.val (homeFrame (pteOf s n.val (vpnOf (twAddr s n.val o)))) (twAddr s n.val o)
    bytes.length true 0
  refine ⟨q, slot, k, ?_⟩
  unfold windowWrite
  dsimp only
  rw [if_neg (not_not_intro hok), if_neg hs, he]

/-- A page whose home is Seam gathers the bytes that follow those it has. -/
theorem windowWrite_gathers {key : Nat} {got : List Byte} (hkey : key = pteKey n.val (vpnOf (twAddr s n.val o))) (hgot : got = smGet [] s.mem.tw key)
    (hs : (pteOf s n.val (vpnOf (twAddr s n.val o))).home = .seam) (ha : twAddr s n.val o % pageBytes = got.length)
    (hlen : (got ++ bytes).length < pageBytes) :
    windowWrite s n o bytes = { s with mem := { s.mem with tw := smSet [] s.mem.tw key (got ++ bytes) } } := by
  subst hkey hgot
  unfold windowWrite
  dsimp only
  rw [if_neg (not_not_intro hok), if_pos hs, twSeam, if_neg (not_not_intro ha), if_pos hlen]

end

/-- A packet to a page outside Seam is a write of that page, once the access is counted. -/
theorem windowWrite_page {off : BitVec 29} (hok : twWriteStatus s n (twAddr s n.val off.toNat) bytes.length = .ok)
    (hs : (pteOf s n.val (vpnOf (twAddr s n.val off.toNat))).home ≠ .seam) (h : OnePacket off bytes) :
    ∃ u, OnlyBlock s u ∧ u.regs = s.regs ∧ u.mem = s.mem ∧ windowWrite s n off.toNat bytes = writePage u n.val (twAddr s n.val off.toNat) bytes := by
  obtain ⟨q, slot, k, he⟩ := windowWrite_stored hok hs
  exact ⟨_, onlyBlock_ctrAdd s q slot k, ctrAdd_regs _ _ _ _, ctrAdd_mem _ _ _ _, he.trans (writeBytes_eq_writePage h.1 (h.fits s n.val))⟩

theorem windowWrite_refused {o : Nat} (h : twWriteStatus s n (twAddr s n.val o) bytes.length ≠ .ok) :
    windowWrite s n o bytes = windowRefused s n o (twWriteStatus s n (twAddr s n.val o) bytes.length) := if_pos h

end

/-! ### BAR2_RING_WRITE (R430, R633) -/

section
variable {s : State} {n : Nat}

/-- Bytes stored at their places in the ring area, those of offsets that the host may not write discarded. -/
def ringStored (s : State) (n o : Nat) (xs : List (Nat × Byte)) : State :=
  xs.foldl (fun t x => if ringWritable (o + x.1) then putRing t n (o + x.1) [x.2] else t) s

theorem ringStored_cons (o : Nat) (x : Nat × Byte) (xs : List (Nat × Byte)) :
    ringStored s n o (x :: xs) = ringStored (if ringWritable (o + x.1) then putRing s n (o + x.1) [x.2] else s) n o xs := rfl

theorem ringStored_frame (s : State) (n o : Nat) (xs : List (Nat × Byte)) : ringStored s n o xs = { s with ring := (ringStored s n o xs).ring } :=
  List.foldlRecOn (motive := fun t : State => t = { s with ring := t.ring }) _ _ rfl fun t ht x _ => by
    split
    · rw [putRing_frame, ht]
    · exact ht

/-- A place that no stored byte names keeps its byte. -/
theorem ring_ringStored_ne {o k : Nat} {xs : List (Nat × Byte)} (h : ∀ x ∈ xs, ringWritable (o + x.1) = true → k ≠ ringKey n (o + x.1)) :
    smGet 0 (ringStored s n o xs).ring k = smGet 0 s.ring k := by
  induction xs generalizing s with
  | nil => rfl
  | cons x xs ih =>
    obtain ⟨hx, hxs⟩ := List.forall_mem_cons.1 h
    rw [ringStored_cons, ih hxs]
    split
    · next hw => exact smGet_smSet_ne _ _ _ _ (hx hw).symm
    · rfl

/-- Bytes at distinct places read back. -/
theorem ringByte_ringStored {o : Nat} {xs : List (Nat × Byte)} (hnd : (xs.map Prod.fst).Nodup) {x : Nat × Byte} (hx : x ∈ xs)
    (hw : ringWritable (o + x.1) = true) : ringByte (ringStored s n o xs) n (o + x.1) = x.2 := by
  induction xs generalizing s with
  | nil => cases hx
  | cons y ys ih =>
    rw [List.map_cons, List.nodup_cons] at hnd
    obtain ⟨hy, hys⟩ := hnd
    rcases List.mem_cons.1 hx with rfl | hx
    · rw [ringStored_cons, if_pos hw, ringByte, ring_ringStored_ne fun z hz _ he => hy ?_]
      · exact smGet_smSet_same _ _ _ _
      · have hzx : z.1 = x.1 := by
          unfold ringKey at he
          omega
        exact hzx ▸ List.mem_map_of_mem hz
    · rw [ringStored_cons]
      exact ih hys hx

/-- The bytes of a packet, numbered. -/
def numbered (bytes : List Byte) : List (Nat × Byte) := (List.range bytes.length).zip bytes

theorem numbered_nodup (bytes : List Byte) : ((numbered bytes).map Prod.fst).Nodup := by
  rw [numbered, List.map_fst_zip (by simp)]
  exact List.nodup_range

theorem mem_numbered {bytes : List Byte} {x : Nat × Byte} : x ∈ numbered bytes ↔ ∃ i, i < bytes.length ∧ x = (i, bytes.getD i 0) := by
  rw [numbered, List.mem_iff_getElem]
  simp only [List.length_zip, List.length_range, Nat.min_self, List.getElem_zip, List.getElem_range]
  constructor
  · rintro ⟨i, hi, rfl⟩
    exact ⟨i, hi, by rw [List.getD_eq_getElem _ _ hi]⟩
  · rintro ⟨i, hi, rfl⟩
    exact ⟨i, hi, by rw [List.getD_eq_getElem _ _ hi]⟩

/-- The bytes of a ring write stored, and PROD's tick noted. -/
def ringNoted (s : State) (n o : Nat) (bytes : List Byte) : State :=
  { s with ring := (ringStored s n o (numbered bytes)).ring, prodAt := if o < 4 then smPut s.prodAt n (now s) else s.prodAt }

/-- What a ring write leaves: a write of the completion records is counted too. -/
def ringWritten (s : State) (n o : Nat) (bytes : List Byte) : State :=
  if 0x9000 ≤ o ∧ o < 0xA000 then ctrAdd (ringNoted s n o bytes) pciePage 3 1 else ringNoted s n o bytes

theorem ringNoted_eq (s : State) (n o : Nat) (bytes : List Byte) : ringNoted s n o bytes =
    if o < 4 then { ringStored s n o (numbered bytes) with prodAt := smPut (ringStored s n o (numbered bytes)).prodAt n (now s) }
    else ringStored s n o (numbered bytes) := by
  rw [ringStored_frame, ringNoted]
  split_ifs <;> rfl

theorem exec_bar2RingWrite {n : Part} {off : BitVec 29} {bytes : List Byte} (hb : barOpen s = true) (hp : powerUnder s ≠ pwRetain)
    (hl : s.dev.layout ≠ none) (h : OnePacket off bytes) : exec (.bar2RingWrite n off bytes) s = .next (ringWritten s n off.toNat bytes) := by
  have hopen : ¬ ((!barOpen s) = true ∨ powerUnder s = pwRetain ∨ s.dev.layout.isNone = true) := by simp [hb, hl, hp]
  refine (if_neg h.wellFormed).trans (congrArg Host.Outcome.next ((if_neg hopen).trans ?_))
  rw [ringWritten, ringNoted_eq]
  rfl

theorem ringWritten_eq (s : State) (n o : Nat) (bytes : List Byte) : ringWritten s n o bytes =
    { withBlock (ringWritten s n o bytes) s with ring := (ringWritten s n o bytes).ring, prodAt := (ringWritten s n o bytes).prodAt } := by
  unfold ringWritten
  split
  · rw [ctrAdd_ring, ctrAdd_prodAt]
    exact onlyBlock_ctrAdd _ _ _ _
  · rfl

theorem ringWritten_ring (s : State) (n o : Nat) (bytes : List Byte) : (ringWritten s n o bytes).ring = (ringStored s n o (numbered bytes)).ring := by
  unfold ringWritten
  split
  · exact ctrAdd_ring _ _ _ _
  · rfl

theorem counted_ringWritten {o : Nat} (bytes : List Byte) (h1 : 0x9000 ≤ o) (h2 : o < 0xA000) : Counted s (ringWritten s n o bytes) pciePage 3 1 := by
  rw [ringWritten, if_pos ⟨h1, h2⟩]
  exact counted_ctrAdd rfl pciePage 3 (by decide)

theorem ringWritten_regs (s : State) (n o : Nat) (bytes : List Byte) : (ringWritten s n o bytes).regs = s.regs := by
  unfold ringWritten
  split
  · exact ctrAdd_regs _ _ _ _
  · rfl

end

/-! ### What the end of a lidar sample leaves of its port (R343, R651) -/

section
variable (n : Fin 8)

theorem ethPage_ok : pageOk (ethPage n) = true := decide_eq_true (show n.val < 16 by omega)

/-- A port's state and signal quality stand, its flags are at most added to, and its count of losses stands. -/
structure PortKept (s t : State) : Prop where
  stat : regVal t (ethPage n) 0x00C = regVal s (ethPage n) 0x00C
  link : regVal t (ethPage n) 0x104 = regVal s (ethPage n) 0x104
  flags : ∀ k, Flagged s (ethPage n) k → Flagged t (ethPage n) k
  losses : ctrVal t (ethPage n) 5 = ctrVal s (ethPage n) 5

variable {n} {s t u : State}

theorem portKept_refl : PortKept n s s := ⟨rfl, rfl, fun _ h => h, rfl⟩

theorem PortKept.trans (h : PortKept n s t) (k : PortKept n t u) : PortKept n s u :=
  ⟨k.stat.trans h.stat, k.link.trans h.link, fun m hm => k.flags m (h.flags m hm), k.losses.trans h.losses⟩

theorem portKept_ite {c : Prop} [Decidable c] (ht : PortKept n s t) (hu : PortKept n s u) : PortKept n s (if c then t else u) := by
  split
  · exact ht
  · exact hu

theorem portKept_of_regs (h : t.regs = s.regs) (hc : ctrVal t (ethPage n) 5 = ctrVal s (ethPage n) 5) : PortKept n s t :=
  ⟨regVal_congr h _ _, regVal_congr h _ _, fun k hk => (regBit_congr h (ethPage n) 0x010 k).trans hk, hc⟩

theorem portKept_congr (h : t.regs = s.regs) (hc : t.ctrs = s.ctrs) : PortKept n s t := portKept_of_regs h (by rw [ctrVal, hc, ctrVal])

theorem portKept_ctrAdd (s : State) (p : Page) {slot : Nat} (k : Nat) (hs : slot < 24) (h5 : slot ≠ 5) : PortKept n s (ctrAdd s p slot k) :=
  portKept_of_regs (ctrAdd_regs _ _ _ _) (ctrs_ctrAdd_ne _ _ _ _ _ (ctrKey_ne_of_slot hs (by decide) h5))

theorem portKept_setReg (s : State) (p : Page) {off : Nat} (v : Word) (ho : off < 0x1000) (h : off ≠ 0x00C ∧ off ≠ 0x104 ∧ off ≠ 0x010) :
    PortKept n s (setReg s p off v) := by
  obtain ⟨h1, h2, h3⟩ := h
  have hreg (o : Nat) (ho' : o < 0x1000) (hne : off ≠ o) : regVal (setReg s p off v) (ethPage n) o = regVal s (ethPage n) o :=
    regVal_setReg_ne _ _ _ _ (regKey_ne_of_off ho ho' hne)
  exact ⟨hreg _ (by decide) h1, hreg _ (by decide) h2, fun k hk => (congrArg (bit · k) (hreg _ (by decide) h3)).trans hk, rfl⟩

theorem portKept_rcEvent (s : State) (p : Page) {off : Nat} (f : Word → Word) (ho : off < 0x1000) (h : off ≠ 0x00C ∧ off ≠ 0x104 ∧ off ≠ 0x010) :
    PortKept n s (rcEvent s p off f) := by
  obtain ⟨h1, h2, h3⟩ := h
  have hreg (o : Nat) (ho' : o < 0x1000) (hne : off ≠ o) : regVal (rcEvent s p off f) (ethPage n) o = regVal s (ethPage n) o :=
    regVal_rcEvent_ne _ _ _ _ (regKey_ne_of_off ho ho' hne)
  exact ⟨hreg _ (by decide) h1, hreg _ (by decide) h2, fun k hk => (congrArg (bit · k) (hreg _ (by decide) h3)).trans hk, rfl⟩

theorem portKept_vl (s : State) (x : VlSt) : PortKept n s { s with vl := x } := portKept_congr rfl rfl
theorem portKept_setLidar (s : State) (i : Nat) (x : LidarSt) : PortKept n s (setLidar s i x) := portKept_congr rfl rfl
theorem portKept_setInst (s : State) (i : Nat) (x : InstSt) : PortKept n s (setInst s i x) := portKept_congr rfl rfl
theorem portKept_advanceInst (s : State) : PortKept n s (advanceInst s) := portKept_congr rfl rfl

/-- A flag raised, on the link's page or on the port's own. -/
theorem portKept_setFlag (s : State) {p : Page} (hp : p = vlPage ∨ p = ethPage n) (k : Nat) : PortKept n s (setFlag s p k) := by
  have hreg (o : Nat) (ho : o < 0x1000) (hne : 0x010 ≠ o) : regVal (setFlag s p k) (ethPage n) o = regVal s (ethPage n) o :=
    regVal_setFlag_ne _ _ _ (regKey_ne_of_off (by decide) ho hne)
  refine ⟨hreg _ (by decide) (by decide), hreg _ (by decide) (by decide), fun m hm => ?_, by rw [ctrVal, setFlag_ctrs, ctrVal]⟩
  rcases hp with rfl | rfl
  · have hne : regKey vlPage 0x010 ≠ regKey (ethPage n) 0x010 :=
      regKey_ne (by decide) (ethPage_ok n) (by decide) (by decide) (.inl (by simp [vlPage, ethPage]))
    exact (congrArg (bit · m) (regVal_setFlag_ne s vlPage (ethPage n) hne)).trans hm
  · rw [Flagged, regBit, regVal_setFlag]
    simp [show (regVal s (ethPage n) 0x010).getLsbD m = true from hm, bit]

theorem portKept_offTier (h : offTier t = offTier s) : PortKept n s t :=
  portKept_of_regs (regs_of_offTier h) (ctrs_of_offTier h (by rw [ctrKey_mod (by decide)]; decide))

theorem portKept_tallyAdd (s : State) (i k : Nat) : PortKept n s (tallyAdd s i k) :=
  (portKept_congr (by rfl) (by rfl)).trans (portKept_ctrAdd _ _ _ (by decide) (by decide))

theorem portKept_countSample (s : State) {slot k : Nat} (hk : k = 3 ∨ k = 4 ∨ k = 9) : PortKept n s (countSample s slot k) := by
  have hc : slotCtr slot k < 24 ∧ slotCtr slot k ≠ 5 := by
    unfold slotCtr
    split <;> omega
  exact portKept_ctrAdd _ _ _ hc.1 hc.2

theorem portKept_queueMsg (s : State) (m : Msg) : PortKept n s (queueMsg s m) := by
  have hc : PortKept n s (ctrAdd s vlPage 16 1) := portKept_ctrAdd _ _ _ (by decide) (by decide)
  have hf := hc.trans (portKept_setFlag _ (.inl rfl) 8)
  unfold queueMsg
  dsimp only
  split
  · exact hf.trans (portKept_rcEvent _ _ _ (by decide) (by decide))
  · exact portKept_vl _ _

theorem portKept_compareDigest (s : State) (a b : List Byte) : PortKept n s (compareDigest s a b) := by
  have hc : PortKept n s (ctrAdd s vlPage 10 1) := portKept_ctrAdd _ _ _ (by decide) (by decide)
  unfold compareDigest
  dsimp only
  split
  · exact hc
  · exact (hc.trans (portKept_ctrAdd _ _ _ (by decide) (by decide))).trans (portKept_setFlag _ (.inl rfl) _)

theorem portKept_sendDigest (s : State) (part : Nat) (bs : List Byte) : PortKept n s (sendDigest s part bs) := by
  have hq : PortKept n s (queueMsg s ⟨4, 0, part, bs⟩) := portKept_queueMsg _ _
  unfold sendDigest
  dsimp only
  split
  · split
    · exact (hq.trans (portKept_vl _ _)).trans (portKept_compareDigest _ _ _)
    · exact hq.trans (portKept_vl _ _)
  · exact portKept_refl

theorem portKept_offerSample (s : State) (part : Nat) (y : Sample) (hy : y.slot = 16 + n.val) : PortKept n s (offerSample s part y) := by
  have hp : slotPage y.slot = ethPage n := by
    rw [slotPage, hy, if_neg (by omega), Nat.add_sub_cancel_left]
  unfold offerSample
  dsimp only
  split_ifs
  · exact (portKept_countSample _ (.inl rfl)).trans (portKept_setFlag _ (.inr hp) _)
  · exact portKept_refl
  · exact (portKept_countSample _ (.inr (.inl rfl))).trans (portKept_setInst _ _ _)
  · exact portKept_setInst _ _ _

theorem portKept_lidarStopped (s : State) (i : Nat) : PortKept n s (lidarStopped s i) := by
  unfold lidarStopped
  split
  · exact (portKept_setLidar s i noLidar).trans (portKept_setReg (off := 0x600) _ _ _ (by decide) (by decide))
  · exact portKept_refl

/-- The end of a sample, whole or cut short. -/
theorem portKept_lidarComplete (s : State) (more : Nat) : PortKept n s (lidarComplete s n more) := by
  unfold lidarComplete
  dsimp only
  split
  · exact portKept_setLidar _ _ _
  · split
    · exact (portKept_setLidar _ _ _).trans (portKept_lidarStopped _ _)
    · refine PortKept.trans ?_ (portKept_lidarStopped _ _)
      refine PortKept.trans ?_ (portKept_offerSample _ _ _ rfl)
      refine PortKept.trans ?_ (portKept_advanceInst _)
      refine PortKept.trans ?_ (portKept_setLidar _ _ _)
      refine PortKept.trans ?_ (portKept_sendDigest _ _ _)
      have hw (a : Nat) (bs : List Byte) : PortKept n s (sensorWrite (spoilSlots s n (lidarSt s n)) (pageOwner s (ethPage n)) a bs) :=
        portKept_offTier ((offTier_sensorWrite _ _ _ _).trans (offTier_spoilSlots s n (lidarSt s n)))
      exact portKept_ite (((hw _ _).trans (portKept_tallyAdd _ _ _)).trans (portKept_countSample _ (.inr (.inr rfl))))
        ((hw _ _).trans (portKept_tallyAdd _ _ _))

end

/-! ### PORT_LINK_CHANGE (R651, R652) -/

section
variable {s : State} {p : Page}

/-- What PORT_LINK_CHANGE shows of a unit beside its state: SQI of an Ethernet port, the error counts of a CAN controller. -/
def detailShown (s : State) (p : Page) (detail : Half) : State :=
  match p.cls with
  | .eth => setRegField s p 0x104 11 8 (detail.toNat % 16)
  | .can => setRegField s p 0x10C 15 0 detail.toNat
  | _ => s

theorem exec_portLinkChange {c : LinkChange} {detail : Half} (hu : isUnit p = true) (hp : p ∈ allPages) (hb : barOpen s = true)
    (hl : isLooped s p = false) : exec (.portLinkChange p c detail) s = .next (portChange (detailShown s p detail) p c) := by
  have hc : ¬ ((!isUnit p) = true ∨ (!allPages.contains p) = true ∨ (!barOpen s) = true ∨ isLooped s p = true) := by simp [hu, hp, hb, hl]
  exact congrArg Host.Outcome.next (if_neg hc)

theorem detailShown_frame (s : State) (p : Page) (detail : Half) : detailShown s p detail = { s with regs := (detailShown s p detail).regs } := by
  unfold detailShown
  split <;> rfl

theorem regsBut_detailShown (s : State) (p : Page) (detail : Half) : RegsBut [regKey p 0x104, regKey p 0x10C] s (detailShown s p detail) := by
  unfold detailShown
  split
  · exact regsBut_setRegField (regsBut_refl _ s) (.head _) _ _ _
  · exact regsBut_setRegField (regsBut_refl _ s) (.tail _ (.head _)) _ _ _
  · exact regsBut_refl _ s

theorem pgState_detailShown (s : State) (p : Page) (detail : Half) : pgState (detailShown s p detail) p = pgState s p :=
  congrArg (field · 7 4) (regsBut_detailShown s p detail p 0x00C (by simp [regKey_inj]))

theorem sqi_detailShown (detail : Half) (h : p.cls = .eth) : regField (detailShown s p detail) p 0x104 11 8 = detail.toNat % 16 := by
  unfold detailShown
  rw [h]
  exact regField_setRegField_same s p 0x104 (by decide) (Nat.mod_lt _ (by decide))

theorem counts_detailShown (detail : Half) (h : p.cls = .can) : regField (detailShown s p detail) p 0x10C 15 0 = detail.toNat := by
  unfold detailShown
  rw [h]
  exact regField_setRegField_same s p 0x10C (by decide) detail.isLt

/-- A unit that is no port of a lidar source in a sample. -/
def NoSample (s : State) (p : Page) : Prop := p.cls ≠ .eth ∨ 8 ≤ p.inst ∨ (lidarSt s p.inst).tick = none

theorem cutLidar_noSample (h : NoSample s p) : cutLidar s p = s := by
  refine if_neg fun ⟨hc, hi, ht⟩ => ?_
  rcases h with h | h | h
  · exact h hc
  · omega
  · rw [h] at ht; cases ht

theorem NoSample.congr {t : State} (h : NoSample s p) (ht : t.sens = s.sens) : NoSample t p := by
  rwa [NoSample, lidarSt, ht]

/-- A port's loss, or fault: its state and flag, and the end of the lidar sample in progress. -/
def unitDropped (s : State) (p : Page) (st flag : Nat) : State := cutLidar (setFlag (setPgState s p st) p flag) p

/-- The sample of a lost port ends with its state, its quality and its flags kept. -/
theorem cutLidar_keeps (s : State) (p : Page) :
    pgState (cutLidar s p) p = pgState s p ∧ (∀ k, Flagged s p k → Flagged (cutLidar s p) p k) ∧
      (p.cls = .eth → regVal (cutLidar s p) p 0x104 = regVal s p 0x104 ∧ ctrVal (cutLidar s p) p 5 = ctrVal s p 5) ∧
      (p.cls ≠ .eth → cutLidar s p = s) := by
  by_cases h : NoSample s p
  · rw [cutLidar_noSample h]
    exact ⟨rfl, fun _ hk => hk, fun _ => ⟨rfl, rfl⟩, fun _ => rfl⟩
  · obtain ⟨hc, hi⟩ : p.cls = .eth ∧ p.inst < 8 := by
      simp only [NoSample, not_or, not_not, not_le] at h
      exact ⟨h.1, h.2.1⟩
    obtain ⟨cls, inst⟩ := p
    dsimp only at hc hi
    subst hc
    have hk : PortKept ⟨inst, hi⟩ s (cutLidar s ⟨.eth, inst⟩) := by
      unfold cutLidar
      exact portKept_ite (portKept_lidarComplete (n := ⟨inst, hi⟩) s 32) portKept_refl
    exact ⟨congrArg (field · 7 4) hk.stat, hk.flags, fun _ => ⟨hk.link, hk.losses⟩, fun h => absurd rfl h⟩

theorem unitDropped_effect (s : State) (p : Page) {st flag : Nat} (hst : st < 16) (hf : flag < 32) :
    pgState (unitDropped s p st flag) p = st ∧ Flagged (unitDropped s p st flag) p flag ∧
      (p.cls = .eth → regVal (unitDropped s p st flag) p 0x104 = regVal s p 0x104 ∧ ctrVal (unitDropped s p st flag) p 5 = ctrVal s p 5) ∧
      (p.cls ≠ .eth → unitDropped s p st flag = setFlag (setPgState s p st) p flag) := by
  obtain ⟨hstat, hflags, heth, hother⟩ := cutLidar_keeps (setFlag (setPgState s p st) p flag) p
  refine ⟨?_, hflags flag (flagged_setFlag _ p flag hf), fun h => ?_, hother⟩
  · exact hstat.trans ((pgState_setFlag _).trans ((pgState_setPgState s p st).trans (Nat.mod_eq_of_lt hst)))
  · obtain ⟨hl, hc⟩ := heth h
    refine ⟨hl.trans ?_, hc.trans ?_⟩
    · rw [regVal_setFlag_ne _ _ _ (by simp [regKey_inj])]
      exact regsBut_setPgState (regsBut_refl [regKey p 0x00C, regKey p 0x028] s) (.head _) (.tail _ (.head _)) st p 0x104 (by simp [regKey_inj])
    · rw [ctrVal, setFlag_ctrs, setPgState_frame, ctrVal]

/-- Outside a sample, no more than the state, its tick and the flag of the unit changes. -/
theorem unitDropped_noSample (h : NoSample s p) (st flag : Nat) : unitDropped s p st flag = setFlag (setPgState s p st) p flag := by
  refine cutLidar_noSample (h.congr ?_)
  rw [setFlag_sens, setPgState_frame]

/-- The registers that PORT_LINK_CHANGE may change outside a sample. -/
def unitRegs (p : Page) : List Nat := [regKey p 0x00C, regKey p 0x028, regKey p 0x010, regKey p 0x104, regKey p 0x10C]

theorem regsBut_unitDropped (h : NoSample s p) (st flag : Nat) : RegsBut (unitRegs p) s (unitDropped s p st flag) := by
  rw [unitDropped_noSample h]
  exact regsBut_setFlag (regsBut_setPgState (regsBut_refl _ s) (.head _) (.tail _ (.head _)) st) (.tail _ (.tail _ (.head _))) flag

theorem onlyBlock_unitDropped (h : NoSample s p) (st flag : Nat) : OnlyBlock s (unitDropped s p st flag) := by
  rw [unitDropped_noSample h]
  exact onlyBlock_trans (onlyBlock_setPgState _ _ _) (onlyBlock_setFlag _ _ _)

/-- What a link's change does to a unit, change by change. -/
theorem portChange_trained (h : pgState s p = portDown) : portChange s p .trained = setPgState s p portUp := if_pos h
theorem portChange_lost (h : pgState s p = portUp) : portChange s p .lost =
    if p.cls = .eth then ctrAdd (unitDropped s p portDown 0) p 5 1 else unitDropped s p portDown 0 := if_pos h
theorem portChange_fault (h : pgState s p = portUp) : portChange s p .fault =
    if p.cls = .can then ctrAdd (unitDropped s p portFault 1) p 4 1 else unitDropped s p portFault 1 := if_pos h
theorem portChange_recovered (h : pgState s p = portFault) (hc : p.cls ≠ .can) : portChange s p .recovered = setPgState s p portDown := if_pos ⟨h, hc⟩

/-- A change that the unit's state does not fit is none. -/
theorem portChange_cases (s : State) (p : Page) (c : LinkChange) : portChange s p c = s ∨ (∃ st, portChange s p c = setPgState s p st) ∨
    ∃ st flag, st < 16 ∧ flag < 32 ∧ (portChange s p c = unitDropped s p st flag ∨ ∃ slot, portChange s p c = ctrAdd (unitDropped s p st flag) p slot 1) := by
  cases c with
  | trained =>
    by_cases h : pgState s p = portDown
    · exact .inr (.inl ⟨_, portChange_trained h⟩)
    · exact .inl (if_neg h)
  | lost =>
    by_cases h : pgState s p = portUp
    · refine .inr (.inr ⟨portDown, 0, by decide, by decide, ?_⟩)
      rw [portChange_lost h]
      split
      · exact .inr ⟨5, rfl⟩
      · exact .inl rfl
    · exact .inl (if_neg h)
  | fault =>
    by_cases h : pgState s p = portUp
    · refine .inr (.inr ⟨portFault, 1, by decide, by decide, ?_⟩)
      rw [portChange_fault h]
      split
      · exact .inr ⟨4, rfl⟩
      · exact .inl rfl
    · exact .inl (if_neg h)
  | recovered =>
    by_cases h : pgState s p = portFault ∧ p.cls ≠ .can
    · exact .inr (.inl ⟨_, portChange_recovered h.1 h.2⟩)
    · exact .inl (if_neg h)

theorem portChange_noSample (h : NoSample s p) (c : LinkChange) : RegsBut (unitRegs p) s (portChange s p c) ∧ OnlyBlock s (portChange s p c) := by
  rcases portChange_cases s p c with he | ⟨st, he⟩ | ⟨st, flag, -, -, he | ⟨slot, he⟩⟩ <;> rw [he]
  · exact ⟨regsBut_refl _ s, onlyBlock_refl s⟩
  · exact ⟨regsBut_setPgState (regsBut_refl _ s) (.head _) (.tail _ (.head _)) st, onlyBlock_setPgState _ _ _⟩
  · exact ⟨regsBut_unitDropped h st flag, onlyBlock_unitDropped h st flag⟩
  · exact ⟨regsBut_ctrAdd (regsBut_unitDropped h st flag) _ _, onlyBlock_trans (onlyBlock_unitDropped h st flag) (onlyBlock_ctrAdd _ _ _ _)⟩

/-- What is shown beside the state stands: SQI of a port, the error counts of a controller. -/
theorem portChange_shown (s : State) (p : Page) (c : LinkChange) : (p.cls = .eth → regVal (portChange s p c) p 0x104 = regVal s p 0x104) ∧
    (p.cls = .can → regVal (portChange s p c) p 0x10C = regVal s p 0x10C) := by
  have hset (st o : Nat) (h1 : o ≠ 0x00C) (h2 : o ≠ 0x028) : regVal (setPgState s p st) p o = regVal s p o :=
    regsBut_setPgState (regsBut_refl [regKey p 0x00C, regKey p 0x028] s) (.head _) (.tail _ (.head _)) st p o (by simp [regKey_inj, h1, h2])
  have hdrop {st flag : Nat} (hst : st < 16) (hf : flag < 32) : (p.cls = .eth → regVal (unitDropped s p st flag) p 0x104 = regVal s p 0x104) ∧
      (p.cls = .can → regVal (unitDropped s p st flag) p 0x10C = regVal s p 0x10C) := by
    obtain ⟨-, -, heth, hother⟩ := unitDropped_effect s p hst hf
    refine ⟨fun h => (heth h).1, fun h => ?_⟩
    rw [hother (by rw [h]; decide), regVal_setFlag_ne _ _ _ (by simp [regKey_inj])]
    exact hset _ _ (by decide) (by decide)
  rcases portChange_cases s p c with he | ⟨st, he⟩ | ⟨st, flag, hst, hf, he | ⟨slot, he⟩⟩ <;> rw [he]
  · exact ⟨fun _ => rfl, fun _ => rfl⟩
  · exact ⟨fun _ => hset _ _ (by decide) (by decide), fun _ => hset _ _ (by decide) (by decide)⟩
  · exact hdrop hst hf
  · rw [regVal_congr (ctrAdd_regs _ _ _ _), regVal_congr (ctrAdd_regs _ _ _ _)]
    exact hdrop hst hf

theorem portChange_lost_effect (h : pgState s p = portUp) : pgState (portChange s p .lost) p = portDown ∧ Flagged (portChange s p .lost) p 0 ∧
    (p.cls = .eth → Counted s (portChange s p .lost) p 5 1) := by
  obtain ⟨hst, hf, heth, -⟩ := unitDropped_effect s p (st := portDown) (flag := 0) (by decide) (by decide)
  rw [portChange_lost h]
  split
  · next hc =>
    refine ⟨(regField_congr (ctrAdd_regs _ _ _ _) _ _ _ _).trans hst, (regBit_congr (ctrAdd_regs _ _ _ _) _ _ _).trans hf, fun _ => ?_⟩
    rw [Counted, ctrVal_ctrAdd_same _ _ _ (by decide), (heth hc).2]
  · next hc => exact ⟨hst, hf, fun h => absurd h hc⟩

theorem portChange_fault_effect (h : pgState s p = portUp) : pgState (portChange s p .fault) p = portFault ∧ Flagged (portChange s p .fault) p 1 ∧
    (p.cls = .can → Counted s (portChange s p .fault) p 4 1) := by
  obtain ⟨hst, hf, -, hother⟩ := unitDropped_effect s p (st := portFault) (flag := 1) (by decide) (by decide)
  rw [portChange_fault h]
  split
  · next hc =>
    refine ⟨(regField_congr (ctrAdd_regs _ _ _ _) _ _ _ _).trans hst, (regBit_congr (ctrAdd_regs _ _ _ _) _ _ _).trans hf, fun _ => ?_⟩
    refine counted_ctrAdd ?_ p 4 (by decide)
    rw [hother (by rw [hc]; decide), setFlag_ctrs, setPgState_frame]
  · next hc => exact ⟨hst, hf, fun h => absurd h hc⟩

end

/-! ### CAN_BUS_OFF_RECOVERY, PCIE_LINK_CHANGE and PCIE_LTSSM_LOOPBACK (R639, R650, R673) -/

section
variable {s : State}

theorem exec_canBusOffRecovery {c : Fin 8} (h : pgState s ⟨.can, c.val⟩ = portFault) :
    exec (.canBusOffRecovery c) s = .next (setPgState (setReg s ⟨.can, c.val⟩ 0x10C 0) ⟨.can, c.val⟩ portDown) :=
  congrArg Host.Outcome.next (if_pos h)

/-- PC_LINK of a link of width 2^w and a speed, and of one that is down. -/
def linkWord (up : Bool) (w : Fin 3) (speed : Fin 5) : Nat := if up then 0x100 + 2 ^ w.val * 16 + speed.val + 1 else 0

theorem linkWord_fields (w : Fin 3) (speed : Fin 5) :
    bit (BitVec.ofNat 32 (linkWord true w speed)) 8 = true ∧ field (BitVec.ofNat 32 (linkWord true w speed)) 6 4 = 2 ^ w.val ∧
      field (BitVec.ofNat 32 (linkWord true w speed)) 3 0 = speed.val + 1 := by
  revert w speed
  decide

/-- PC_VFS holds bits 15:1 of what the host has enabled. -/
theorem vfsWord_fields (vfs : Half) :
    bit (BitVec.ofNat 32 (vfs.toNat / 2 * 2)) 0 = false ∧ field (BitVec.ofNat 32 (vfs.toNat / 2 * 2)) 15 1 = vfs.toNat / 2 := by
  have hlt : vfs.toNat / 2 * 2 < 2 ^ 32 := by have := vfs.isLt; omega
  constructor
  · rw [bit, BitVec.getLsbD_ofNat, Nat.testBit_zero, Nat.mul_mod_left]
    rfl
  · have := vfs.isLt
    simp only [field, BitVec.toNat_ofNat, Nat.mod_eq_of_lt hlt, Nat.shiftRight_eq_div_pow]
    omega

theorem exec_pcieLinkChange (up : Bool) (w : Fin 3) (speed : Fin 5) (vfs : Half) (hm : s.supply.main = true) (hh : s.sec.boot.held = false)
    (hp : powerUnder s ≠ pwStandby) : exec (.pcieLinkChange up w speed vfs) s =
    .next (setReg (setReg s pciePage 0x100 (BitVec.ofNat 32 (linkWord up w speed))) pciePage 0x104 (BitVec.ofNat 32 (vfs.toNat / 2 * 2))) := by
  refine congrArg Host.Outcome.next (if_neg ?_)
  simp [hm, hh, hp]

theorem exec_pcieLtssmLoopback (hm : s.supply.main = true) (hh : s.sec.boot.held = false) :
    exec .pcieLtssmLoopback s = .next (clearReg s pciePage 0x100 0x100#32) := by
  refine congrArg Host.Outcome.next (if_neg ?_)
  simp [hm, hh]

theorem linkDown_clearReg (s : State) : regBit (clearReg s pciePage 0x100 0x100#32) pciePage 0x100 8 = false := by
  rw [regBit, clearReg, regVal_setReg_same]
  simp [bit]

end

/-- Settles O58, command by command: the status decides what a window access does (`windowRead_ok`, `windowWrite_stored`, `windowWrite_gathers`), the bytes
of a ring write are stored one by one, and a unit's state follows its link past whatever the end of a lidar sample does (`cutLidar_keeps`). -/
theorem portEffects : Obligations.PortEffects := by
  unfold Obligations.PortEffects
  refine ⟨fun s n off size hb => ?read, fun s n off bytes hb hne hlen hfit => ?write, fun s n off bytes hb hp hl hne hlen hfit => ?ring,
    fun s n off bytes h => ⟨if_pos ?wide, if_pos ?wide⟩, fun s p c detail hu hp hb hl => ?unit, fun s c h => ?can, fun s up w speed vfs hm hh hp => ?link,
    fun s hm hh => ⟨_, exec_pcieLtssmLoopback hm hh, linkDown_clearReg s, regsBut_clearReg (regsBut_refl _ s) (.head _) _, rfl⟩⟩
  case read =>
    refine ⟨_, exec_tierWindowRead hb, fun hc => if_pos hc, fun hc hst => ?_, fun hc hst => ?_⟩
    · rw [if_neg (by simp [hc])]
      exact windowRead_ok hst
    · rw [if_neg (by simp [hc]), windowRead_bad hst]
      exact ⟨rfl, counted_twFail _ _ _ _, regVal_twFail _ _ _ _, regsBut_twFail _ _ _ _, congrArg (answer · _ 0) (onlyBlock_twFail _ _ _ _)⟩
  case write =>
    have hpack : OnePacket off bytes := ⟨hne, hlen, hfit⟩
    refine ⟨_, exec_tierWindowWrite hb hpack, ?reply, fun hc => ?conf, fun hc hst hs hm => ?moved, fun hc hst hs hm => ?stored,
      fun hc hst hs ha hl => ?gathered, fun hc hst => ?refused⟩
    case reply =>
      split
      · rw [ctrAdd_reply, ctrAdd_reply]
      · exact windowWrite_reply s n off.toNat bytes
    case conf =>
      rw [if_pos hc]
      refine ⟨?_, ?_, regsBut_ctrAdd (regsBut_ctrAdd (regsBut_refl _ s) _ _) _ _, onlyBlock_trans (onlyBlock_ctrAdd _ _ _ _) (onlyBlock_ctrAdd _ _ _ _)⟩
      · rw [Counted, ctrVal, ctrs_ctrAdd_ne _ _ _ _ _ (ctrKey_ne_of_slot (by decide) (by decide) (by decide))]
        exact ctrVal_ctrAdd_same _ _ _ (by decide)
      · rw [Counted, ctrVal_ctrAdd_same _ _ _ (by decide), ctrVal, ctrs_ctrAdd_ne _ _ _ _ _ (ctrKey_ne_of_slot (by decide) (by decide) (by decide)), ctrVal]
    case moved =>
      obtain ⟨u, hu, hregs, hmem, hw⟩ := windowWrite_page hst hs hpack
      rw [if_neg (by simp [hc]), hw, writePage_of_mig hne (by rwa [pteOf_congr (congrArg MemSt.ptes hmem)]), hmem]
      exact ⟨rfl, fun p o _ => regVal_congr hregs p o⟩
    case stored =>
      obtain ⟨u, hu, hregs, hmem, hw⟩ := windowWrite_page hst hs hpack
      have hpte (v : Nat) : pteOf u n.val v = pteOf s n.val v := pteOf_congr (congrArg MemSt.ptes hmem) n.val v
      have hlen0 : bytes.length ≠ 0 := fun h => hne (List.length_eq_zero_iff.1 h)
      obtain ⟨hbytes, hrest⟩ := writePage_bytes (s := u) (n := n.val) (hpack.fits s n.val)
        (by rw [hpte]; exact v_of_writeRange hlen0 (writeRange_of_twWriteStatus hst)) (by rwa [hpte])
      rw [hpte] at hrest
      rw [if_neg (by simp [hc]), hw]
      refine ⟨hbytes, fun x hx => (hrest x hx).trans (congrArg (fun m : MemSt => cellGet m.cells x) hmem), fun p o _ => ?_, writePage_frame hu (by rwa [hpte])⟩
      exact regVal_congr ((regs_of_offTier (offTier_writePage u _ _ _)).trans hregs) p o
    case gathered =>
      rw [if_neg (by simp [hc]), windowWrite_gathers hst rfl rfl hs ha hl]
      exact ⟨smGet_smSet_same _ _ _ _, rfl⟩
    case refused =>
      rw [if_neg (by simp [hc]), windowWrite_refused hst]
      obtain ⟨hcount, hcells, -, hreg⟩ := windowRefused_effect s n off.toNat (twWriteStatus s n (twAddr s n.val off.toNat) bytes.length)
      exact ⟨hcount, hcells, hreg⟩
  case ring =>
    refine ⟨_, exec_bar2RingWrite hb hp hl ⟨hne, hlen, hfit⟩, fun i hi hw => ?_, fun k hk => ?_, counted_ringWritten bytes,
      fun p o _ => regVal_congr (ringWritten_regs _ _ _ _) p o, ringWritten_eq _ _ _ _⟩
    · rw [ringByte, ringWritten_ring]
      exact ringByte_ringStored (x := (i, bytes.getD i 0)) (numbered_nodup bytes) (mem_numbered.2 ⟨i, hi, rfl⟩) hw
    · rw [ringWritten_ring]
      refine ring_ringStored_ne fun x hx hw => ?_
      obtain ⟨i, hi, rfl⟩ := mem_numbered.1 hx
      exact hk i hi hw
  case wide =>
    rcases h with rfl | h | h
    · exact .inl rfl
    · exact .inr (.inl h)
    · exact .inr (.inr h)
  case unit =>
    have hframe := detailShown_frame s p detail
    have hst := pgState_detailShown s p detail
    have hctr (slot : Nat) : ctrVal (detailShown s p detail) p slot = ctrVal s p slot := by rw [hframe]; rfl
    obtain ⟨hsqi, hcnt⟩ := portChange_shown (detailShown s p detail) p c
    refine ⟨_, exec_portLinkChange hu hp hb hl, fun hn => ?_, fun hc => ?_, fun hc => ?_, ?_, ?_, ?_, ?_⟩
    · obtain ⟨hr, ho⟩ := portChange_noSample (NoSample.congr (s := s) (t := detailShown s p detail) hn (by rw [hframe])) c
      refine ⟨regsBut_trans (fun q o hk => regsBut_detailShown s p detail q o fun hmem => hk ?_) hr, onlyBlock_trans ?_ ho⟩
      · exact List.mem_cons_of_mem _ (List.mem_cons_of_mem _ (List.mem_cons_of_mem _ hmem))
      · rw [OnlyBlock, hframe]; rfl
    · rw [regField, hsqi hc]
      exact sqi_detailShown detail hc
    · rw [regField, hcnt hc]
      exact counts_detailShown detail hc
    · rintro rfl hd
      rw [portChange_trained (hst.trans hd)]
      exact pgState_setPgState _ _ _
    · rintro rfl hd
      obtain ⟨h1, h2, h3⟩ := portChange_lost_effect (hst.trans hd)
      exact ⟨h1, h2, fun hc => (h3 hc).trans (by rw [hctr])⟩
    · rintro rfl hd
      obtain ⟨h1, h2, h3⟩ := portChange_fault_effect (hst.trans hd)
      exact ⟨h1, h2, fun hc => (h3 hc).trans (by rw [hctr])⟩
    · rintro rfl hd hc
      rw [portChange_recovered (hst.trans hd) hc]
      exact pgState_setPgState _ _ _
  case can =>
    refine ⟨_, exec_canBusOffRecovery h, pgState_setPgState _ _ _, ?_, ?_, ?_⟩
    · refine (regsBut_setPgState (regsBut_refl [regKey _ 0x00C, regKey _ 0x028] _) (.head _) (.tail _ (.head _)) _ _ _ ?_).trans (regVal_setReg_same _ _ _ _)
      simp [regKey_inj]
    · exact regsBut_setPgState (regsBut_setReg (regsBut_refl _ s) (.head _) _) (.tail _ (.head _)) (.tail _ (.tail _ (.head _))) _
    · rw [setPgState_frame]; rfl
  case link =>
    obtain ⟨h0, hv⟩ := vfsWord_fields vfs
    have hlink : regVal (setReg (setReg s pciePage 0x100 (BitVec.ofNat 32 (linkWord up w speed))) pciePage 0x104 (BitVec.ofNat 32 (vfs.toNat / 2 * 2)))
        pciePage 0x100 = BitVec.ofNat 32 (linkWord up w speed) := by
      rw [regVal_setReg_off _ _ _ (by decide), regVal_setReg_same]
    refine ⟨_, exec_pcieLinkChange up w speed vfs hm hh hp, ?_, ?_, ?_, ?_, ?_, rfl⟩
    · rw [regBit, hlink]
      cases up with
      | true => exact (linkWord_fields w speed).1
      | false => exact (by decide : bit (BitVec.ofNat 32 0) 8 = false)
    · rintro rfl
      rw [regField, regField, hlink]
      exact (linkWord_fields w speed).2
    · rw [regBit, regVal_setReg_same, h0]
    · rw [regField, regVal_setReg_same, hv]
    · exact regsBut_setReg (regsBut_setReg (regsBut_refl _ s) (.head _) _) (.tail _ (.head _)) _

end Sys2Proof.Machine
end

section
/-! PROOFS. The end of a job whose commands wait (R439, R169): where the map of streams holds an entry that belongs to no stream, a job in ENDING
does not come to its end, and its waits stay. -/

namespace Sys2Proof.Machine

open Sys2Proof.Tests

/-- A job of which a command still waits or runs once its waits have ended is not over, and JOB_END changes nothing. -/
theorem exec_jobEnd_not_over {s : State} {p : Part} {e : Fin 256} {j : Job} (hj : jobOf s (jobKey p e) = some j) (hd : devRunning s = true)
    (ho : jobOver (endJobWaits s (jobKey p e) j) (jobKey p e) j = false) : exec (.jobEnd p e) s = .next s := by
  refine congrArg Host.Outcome.next ?_
  simp only [hj, hd, ho, Bool.not_true, Bool.not_false, Bool.false_eq_true, if_false, if_true]

/-- A job of PT0 that has failed. -/
def failedJob : Job := { waits0 jEnding with decided := true, status := .tierFault }

/-- A command of the job waits on M-core 0; behind it the map of streams, its keys rising, holds a command of the job under key 512, which is no
stream's. -/
def strayStream : State :=
  let c : CoreSt := ⟨none, some (run0 (cmd 0 0x10 []))⟩
  { graphed cWait [(0, failedJob)] with cores := [(streamKey m0 0, c), (512, c)] }

theorem strayStream_ends : jobOf strayStream (jobKey 0 0) = some failedJob ∧ failedJob.state = jEnding ∧ devRunning strayStream = true ∧
    smWf noCore strayStream.cores = true ∧ streamOfKey 512 = none := by decide

/-- M-core 0 alone runs a command, and it waits. -/
theorem strayStream_waits : ∀ k ∈ allCores, ∀ i ∈ List.range 2, runsJob strayStream k i (jobKey 0 0) = true → streamState strayStream k i = cWait := by
  have honly : ∀ k ∈ allCores, ∀ i ∈ List.range 2, runsJob strayStream k i (jobKey 0 0) = true → k = m0 ∧ i = 0 := by decide
  have hwait : streamState strayStream m0 0 = cWait := by decide
  intro k hk i hi hr
  obtain ⟨rfl, rfl⟩ := honly k hk i hi hr
  exact hwait

theorem strayStream_runs : runsJob strayStream m0 0 (jobKey 0 0) = true := by decide

/-- The wait of M-core 0 ends, but not what stands under key 512. -/
theorem strayStream_not_over : jobOver (endJobWaits strayStream (jobKey 0 0) failedJob) (jobKey 0 0) failedJob = false := by decide

/-- Refutes O48: on `strayStream` JOB_END of a job in ENDING, all of whose commands wait, changes nothing, and M-core 0 goes on to run the job's
command. The statement ranges over every state, also those whose map of streams holds a key that is no stream's; such an entry keeps the job
busy, and the end of the waits passes it by. -/
theorem not_jobEffects : ¬ Obligations.JobEffects := by
  unfold Obligations.JobEffects
  rintro ⟨-, -, -, -, -, -, -, -, -, -, hend, -⟩
  obtain ⟨hjob, hending, hrun, -, -⟩ := strayStream_ends
  obtain ⟨t, ht, hfree, -⟩ := hend strayStream 0 0 failedJob hjob hending hrun fun k hk i hi => strayStream_waits k hk i (List.mem_range.2 hi)
  obtain rfl : strayStream = t :=
    Host.Outcome.next.inj ((exec_jobEnd_not_over (p := 0) (e := 0) hjob hrun strayStream_not_over).symm.trans ht)
  have hidle : runsJob strayStream m0 0 (jobKey 0 0) = false := hfree m0 (by decide) 0 (by decide)
  exact absurd (strayStream_runs.symm.trans hidle) (by decide)

end Sys2Proof.Machine
end
